-- ==== Sys2Proof/Word.lean ====
section
/-! DEFINITION. The word types of the RHV-9400 and the containers the state is made of (R9: little-endian data,
bit 0 least significant). Everything a repair may have to mend (bit fields, sign extension, byte order) stands in
Sys2Proof/Machine/Bits.lean. -/

namespace Sys2Proof

/-- One byte. -/
abbrev Byte := BitVec 8

/-- One 32-bit element of a vector register (R13). -/
abbrev Word32 := BitVec 32

/-- One 64-bit word: a scalar register, an address, an instruction word (R13, R55). -/
abbrev Word64 := BitVec 64

/-- Sparse data by key: keys strictly rising, no entry equal to the value an absent key reads as.
The operations that keep this form stand in Sys2Proof/Machine/Table.lean. -/
abbrev Sparse (α : Type) := List (Nat × α)

/-- A table of records by key, keys strictly rising; an absent key has no record. -/
abbrev Table (α : Type) := List (Nat × α)

end Sys2Proof
end

