-- ==== Sys2Proof/Machine/Bits.lean ====
section
/-! DEFINITION. Bit fields, byte order and sign extension (R9, R32, R49). -/

namespace Sys2Proof

/-- Bits [lo + len - 1 : lo] of a number (R9). -/
def bits (w lo len : Nat) : Nat := w / 2 ^ lo % 2 ^ len
/-- A Bool as one bit. -/
def bitOf (b : Bool) : Nat := if b then 1 else 0
/-- Bit i of a number. -/
def testBit (w i : Nat) : Bool := w / 2 ^ i % 2 == 1

/-- The number of bytes given lowest address first (R9). -/
def leNat : List Byte → Nat
  | [] => 0
  | b :: bs => b.toNat + 256 * leNat bs
/-- The low `n` bytes of a number, lowest address first (R9). -/
def leBytes : Nat → Nat → List Byte
  | 0, _ => []
  | n + 1, x => BitVec.ofNat 8 x :: leBytes n (x / 256)

/-- SignExtend(x, n) of R49: the integer value of the low n bits of x, read as signed. -/
def sext (x n : Nat) : Int :=
  let y := x % 2 ^ n
  if n = 0 then 0 else if y < 2 ^ (n - 1) then (y : Int) else (y : Int) - 2 ^ n
/-- ZeroExtend(x, n) of R49. -/
def zext (x n : Nat) : Nat := x % 2 ^ n
/-- Wrap(x, n) of R49: x modulo 2^n. -/
def wrap (x : Int) (n : Nat) : Nat := (x % (2 ^ n : Int)).toNat
/-- ClampI(x, n) of R49. -/
def clampI (x : Int) (n : Nat) : Int := max (-(2 ^ (n - 1) : Int)) (min x (2 ^ (n - 1) - 1))
/-- ClampN(x, n) of R49. -/
def clampN (x : Int) (n : Nat) : Int := max 0 (min x (2 ^ n - 1))

/-- Field [hi:lo] of a bit vector as a number (R9). -/
def fld {n : Nat} (x : BitVec n) (hi lo : Nat) : Nat := bits x.toNat lo (hi + 1 - lo)
/-- Replaces `len` bits at `lo` of a number by the low bits of v. -/
def setBits (w lo len v : Nat) : Nat :=
  w - bits w lo len * 2 ^ lo + v % 2 ^ len * 2 ^ lo

end Sys2Proof
end

