-- ==== Sys2Proof/Syntax.lean ====
section
/-! DEFINITION. The instruction set as syntax: one constructor of `Instr` per row of spec/opcode_table.json.
Rows with a 64-bit word (chapters 03 to 23) carry their decoded operands; rows that are steps of an agent other than
a slice (spec/95_what_each_step_holds.md) carry what the outside world or that agent chose. -/

namespace Sys2Proof

/-- A scalar register S0–S63 (R14, R58). -/
abbrev SReg := Fin 64
/-- A vector register V0–V255 (R58); a pair or quad operand is named by its first register (R17, R214). -/
abbrev VReg := Fin 256
/-- A tile descriptor T0–T15 (R58, R284). -/
abbrev TReg := Fin 16

/-- The special scalar sources (R90). -/
inductive Special where
  | laneId | tid | sliceId | squadId | blockId | blockXyz | gridDim | roleId | live | vbase | vcount
  | dtlen | dtbase | kentry | vchipId | coreId | clock | wcnt | govst | scrbase
  | level (k : Fin 5)
  deriving DecidableEq, Repr

/-- A scalar source operand (R58): a scalar register or a special source. -/
inductive SSrc where
  | s (n : SReg)
  | sp (x : Special)
  deriving DecidableEq, Repr

/-- Source B or C of a vector instruction: a vector register, or a broadcast scalar (BSEL, CSEL of R62). -/
inductive VSrc where
  | v (n : VReg)
  | s (x : SSrc)
  deriving DecidableEq, Repr

/-- A guard (R22, R57). -/
inductive Guard where
  | always
  | q (neg : Bool) (depth : Fin 8)
  deriving DecidableEq, Repr

/-- The control bits of a full word: the switch marker M (R30) and the guard (R57). -/
structure Ctl where
  m : Bool
  guard : Guard
  deriving DecidableEq, Repr

/-- The rounding code of a floating-point word (R40); `dflt` is code 4, the mode in SMODE.RM. -/
inductive Rnd where
  | rne | rtz | rdn | rup | dflt
  deriving DecidableEq, Repr

/-- A rounding mode, codes 0–3 of R40 and of SMODE.RM (R25). -/
inductive RM where
  | rne | rtz | rdn | rup
  deriving DecidableEq, Repr

/-- The element formats of R63, in code order 0–18. -/
inductive Fmt where
  | f32 | f64 | f16 | bf16 | e5m2 | e4m3 | e5m3 | kb8 | kb4 | i8 | n8 | i16 | n16 | i32 | n32 | i64 | n64
  | bf16x2 | f16x2
  deriving DecidableEq, Repr

/-- The scopes of R5, in code order 0–8. -/
inductive Scope where
  | slice | squad | block | core | cluster | die | tenant | pod | system
  deriving DecidableEq, Repr

/-- The engine classes of R6, in code order 0–5. -/
inductive EClass where
  | ls | cp | mx | cl | fb | wl
  deriving DecidableEq, Repr

/-- Compare conditions (R97, R128), codes 0–13. -/
inductive Cond where
  | eq | ne | lt | le | gt | ge | ltn | len | gtn | gen | tst | ntst | un | or
  deriving DecidableEq, Repr

/-- Ordering of a memory word (R64). -/
inductive Ord where
  | none | acq | rel | ar
  deriving DecidableEq, Repr

/-- Full-empty qualifier (R64). -/
inductive FE where
  | none | waitf | waitfClr | setf
  deriving DecidableEq, Repr

/-- Access size (R64). -/
inductive Sz where
  | i8 | n8 | i16 | n16 | w32 | w64 | w128
  deriving DecidableEq, Repr

/-- Matrix-engine modes (R265, R281), codes 0–5. -/
inductive Mode where
  | i8 | f8 | f16 | bf16 | kb8 | kb4
  deriving DecidableEq, Repr

/-- Structured sparsity (R268, R281): N of 48. -/
inductive NC where
  | n48 | n36 | n24
  deriving DecidableEq, Repr

/-- Poison report of WLD (R235). -/
inductive PoisonReport where
  | push | noq | trap
  deriving DecidableEq, Repr

/-- PODRED operations (R415). -/
inductive Rop where
  | add | min | minn | max | maxn | and | or | xor | fadd | badd2
  deriving DecidableEq, Repr

/-- System registers of SYSRD and SYSWR (R344). -/
inductive SysReg where
  | tfbase | hwdog | asid | vmid | ctbase | govcfg | partcfg | scopepol
  deriving DecidableEq, Repr

/-- The fields every MO word shares (R64): base, optional lane offset register, OFF8, scope, ordering, NT hint. -/
structure MemArg where
  base : SReg
  idx : Option VReg
  off : BitVec 8
  scope : Scope
  ord : Ord
  nt : Bool
  deriving DecidableEq, Repr

/-- Participation mask operand of a cross-lane word (R173): excluded slices and optional register mask. -/
structure SliceMask where
  xsm : BitVec 8
  reg : Option SReg
  deriving DecidableEq, Repr

/-- Pair opcodes (R68). -/
inductive Pop where
  | nop | sadd | ssub | sand | sor | sxor | smov | saddi | sshli | sshri | scmpEq | scmpLt | scmpLtn
  | vaddF32 | vsubF32 | vmulF32 | vfmaF32 | vminF32 | vmaxF32 | vaddI32 | vsubI32 | vmulI32
  | vand | vor | vxor | vmov | vmovS | vshl | vshr | vcmpLtF32 | vcmpEqI32 | vcvtF32I32 | vcvtI32F32
  deriving DecidableEq, Repr

/-- One half of a paired word (R65): pair opcode, guard code PG (R66), D7, A7, X7. -/
structure Half where
  pop : Pop
  pg : Fin 8
  d : BitVec 7
  a : BitVec 7
  x : BitVec 7
  deriving DecidableEq, Repr

/-! ### What events carry -/

/-- A function of the device as the host sees it (R430): the physical function, or virtual function 0–63. -/
inductive Fn where
  | pf
  | vf (n : Fin 64)
  deriving DecidableEq, Repr

/-- A queue: queue q of a virtual function (R377), or the steward queue of a die (R375). -/
inductive QRef where
  | vf (f : Fin 64) (q : Fin 64)
  | steward (die : Fin 4)
  deriving DecidableEq, Repr

/-- Where the hardware places a dispatched block (R152, R188): core, the squads' slots (R155) and the squads'
register bases (R15), and the unified-store offset of its scratchpad. -/
structure Placement where
  core : Nat
  slots : List Nat
  vbases : List Nat
  scratchAt : Nat
  deriving DecidableEq, Repr

/-- The sender of a fabric message that this module sent itself: slice key and the operation's number. -/
structure Sender where
  slice : Nat
  op : Nat
  deriving DecidableEq, Repr

/-- A fabric message as it reaches the receiving chip's interface (R407, R411): the VCHIPs, PODID and count of its IV and authenticated
data, its bytes, and the key under which it was sealed, if any. -/
structure FabMsg where
  src : BitVec 12
  dst : BitVec 12
  podid : BitVec 16
  payload : List Byte
  count : Word64
  key : Option (BitVec 256)
  sender : Option Sender
  deriving DecidableEq, Repr

/-- A launch request as it reaches the target chip's interface (R386). -/
structure LaunchReq where
  src : BitVec 12
  dst : BitVec 12
  podid : BitVec 16
  index : Fin 64
  args : Word64
  count : Word64
  key : Option (BitVec 256)
  sender : Option Sender
  deriving DecidableEq, Repr

/-- Why the target of a pod access on another module refuses a lane: no chip of the pod there (R440), a stage-1 failure at a level, a
stage-2 failure, or an uncorrectable error at a physical address (R349, R416). -/
inductive PodFault where
  | member
  | data (level : Fin 4)
  | stage2
  | uncorrectable (pa : Word64)
  deriving DecidableEq, Repr

/-- How a fabric operation to another module ended, as the returned packet says (R413, R416, R440); `podRefused`: the lanes that their
targets refused, each with its reason. -/
inductive RemoteResult where
  | delivered | full | noLink | dropped
  | refused (code : Fin 5)
  | podChecked
  | podRefused (lanes : List (Nat × PodFault))
  | podData (lanes : List (Nat × List Byte))
  deriving DecidableEq, Repr

/-- What a member of a collective on another module supplies (R422): its rank, shape, operation and source bytes by
row, or nothing when it was lost (R424); `late`: it has had no engine slot by its deadline and says so (R426). -/
structure RemoteMember where
  rank : Nat
  lost : Bool
  op : Nat
  control : BitVec 32
  fmt : Nat
  rows : Nat
  cols : Nat
  dstRows : Nat
  dstCols : Nat
  source : List (List Byte)
  late : Bool
  deriving DecidableEq, Repr

/-- Where a storage error strikes (R191, R200, R203, R345, R436): a 16-byte word of a vector register or of a scratchpad, an
accumulator cell, a line of a KSM stack (with its row) or of an L2 slice, an instruction-cache word by its key, or a
scheduler's lanes. -/
inductive ErrorSite where
  | register (slice : Nat) (reg : Nat)
  | scratch (block : Nat) (word : Nat)
  | cell (core row col : Nat)
  | line (addr : Nat) (stack : Fin 12) (row : Nat)
  | l2 (addr : Nat) (die : Fin 4) (slice : Fin 16) (set : Nat)
  | icache (core : Nat) (key : Nat)
  | lanes (core sched : Nat)
  deriving DecidableEq, Repr

/-- A structure the targeted self-test tests and spares (R436). -/
inductive Structure where
  | bankRow (core bank row : Nat)
  | accRow (core row : Nat)
  | laneGroup (core sched : Nat)
  | l2Set (die slice set : Nat)
  | ksmRow (stack : Fin 12) (row page : Nat)
  | melsanLane (link : Fin 16) (lane : Nat)
  | bridgeLane (bridge : Fin 4) (lane : Nat)
  deriving DecidableEq, Repr

/-- A key the guest installs through the secure session (R407). -/
inductive VendorMsg where
  | signingKey (key : List Byte)
  | linkKey (slot : Fin 256) (key : BitVec 256)
  | other (body : List Byte)
  deriving DecidableEq, Repr

/-- The inputs of a signed boot (R432): the root key, the firmware image and its signature, the configuration and its signature (an empty
one is none), and whether KSM trains and the other dies start. -/
structure BootImage where
  key : List Byte
  image : List Byte
  sig : List Byte
  config : List Byte
  configSig : List Byte
  ksmTrains : Bool
  diesStart : Bool
  deriving DecidableEq, Repr

/-- An access by a host agent (R366, R430). -/
inductive HostOp where
  | read (addr : Nat) (len : Nat)
  | write (addr : Nat) (bytes : List Byte)
  deriving DecidableEq, Repr

/-- The instruction set: one constructor per row of spec/opcode_table.json, in its order. -/
inductive Instr where
  | nop (c : Ctl)
  | pairedWord (m : Bool) (h1 h2 : Half)
  | illegalInstruction (w : Word64)
  | sadd (c : Ctl) (sat : Bool) (d : SReg) (a : SSrc) (b : SSrc)
  | ssub (c : Ctl) (sat : Bool) (d : SReg) (a : SSrc) (b : SSrc)
  | smul (c : Ctl) (sat : Bool) (d : SReg) (a : SSrc) (b : SSrc)
  | smulh (c : Ctl) (d : SReg) (a : SSrc) (b : SSrc)
  | smulhn (c : Ctl) (d : SReg) (a : SSrc) (b : SSrc)
  | smin (c : Ctl) (d : SReg) (a : SSrc) (b : SSrc)
  | smax (c : Ctl) (d : SReg) (a : SSrc) (b : SSrc)
  | sminn (c : Ctl) (d : SReg) (a : SSrc) (b : SSrc)
  | smaxn (c : Ctl) (d : SReg) (a : SSrc) (b : SSrc)
  | sand (c : Ctl) (d : SReg) (a : SSrc) (b : SSrc)
  | sor (c : Ctl) (d : SReg) (a : SSrc) (b : SSrc)
  | sxor (c : Ctl) (d : SReg) (a : SSrc) (b : SSrc)
  | sandn (c : Ctl) (d : SReg) (a : SSrc) (b : SSrc)
  | sshl (c : Ctl) (d : SReg) (a : SSrc) (b : SSrc)
  | sshr (c : Ctl) (d : SReg) (a : SSrc) (b : SSrc)
  | ssra (c : Ctl) (d : SReg) (a : SSrc) (b : SSrc)
  | srot (c : Ctl) (d : SReg) (a : SSrc) (b : SSrc)
  | sclz (c : Ctl) (d : SReg) (a : SSrc)
  | sctz (c : Ctl) (d : SReg) (a : SSrc)
  | spopc (c : Ctl) (d : SReg) (a : SSrc)
  | sbrev (c : Ctl) (d : SReg) (a : SSrc)
  | sbfx (c : Ctl) (signed : Bool) (d : SReg) (a : SSrc) (b : SSrc) (x : SSrc)
  | sbfi (c : Ctl) (d : SReg) (a : SSrc) (b : SSrc) (x : SSrc)
  | ssext (c : Ctl) (z : Bool) (n : BitVec 7) (d : SReg) (a : SSrc)
  | slea (c : Ctl) (pod : Bool) (k : Fin 8) (d : SReg) (a : SSrc) (b : SSrc)
  | sselz (c : Ctl) (d : SReg) (a : SSrc) (b : SSrc) (x : SSrc)
  | smov (c : Ctl) (d : SReg) (a : SSrc)
  | scmp (c : Ctl) (cond : Cond) (a : SSrc) (b : SSrc)
  | sabs (c : Ctl) (sat : Bool) (d : SReg) (a : SSrc)
  | sclamp (c : Ctl) (n : Bool) (d : SReg) (a : SSrc) (b : SSrc) (x : SSrc)
  | saddi (c : Ctl) (sat : Bool) (d : SReg) (a : SSrc) (k : BitVec 16)
  | smuli (c : Ctl) (sat : Bool) (d : SReg) (a : SSrc) (k : BitVec 16)
  | sandi (c : Ctl) (d : SReg) (a : SSrc) (k : BitVec 16)
  | sori (c : Ctl) (d : SReg) (a : SSrc) (k : BitVec 16)
  | sxori (c : Ctl) (d : SReg) (a : SSrc) (k : BitVec 16)
  | sshli (c : Ctl) (d : SReg) (a : SSrc) (k : BitVec 6)
  | sshri (c : Ctl) (d : SReg) (a : SSrc) (k : BitVec 6)
  | ssrai (c : Ctl) (d : SReg) (a : SSrc) (k : BitVec 6)
  | sroti (c : Ctl) (d : SReg) (a : SSrc) (k : BitVec 6)
  | scmpi (c : Ctl) (cond : Cond) (a : SSrc) (k : BitVec 16)
  | smini (c : Ctl) (d : SReg) (a : SSrc) (k : BitVec 16)
  | smaxi (c : Ctl) (d : SReg) (a : SSrc) (k : BitVec 16)
  | smovk (c : Ctl) (d : SReg) (k : BitVec 32)
  | smovkh (c : Ctl) (d : SReg) (k : BitVec 32)
  | saddk (c : Ctl) (d : SReg) (k : BitVec 32)
  | sleapc (c : Ctl) (d : SReg) (k : BitVec 32)
  | exsave (c : Ctl) (d : SReg)
  | exload (c : Ctl) (a : SSrc)
  | exand (c : Ctl) (d : SReg) (a : SSrc)
  | exandn (c : Ctl) (d : SReg) (a : SSrc)
  | exfromq (c : Ctl) (neg : Bool) (depth : Fin 8) (d : SReg)
  | qsave (c : Ctl) (d : SReg)
  | qload (c : Ctl) (a : SSrc)
  | moderd (c : Ctl) (d : SReg)
  | modewr (c : Ctl) (a : SSrc)
  | moderm (c : Ctl) (rm : RM)
  | bra (c : Ctl) (pack : Bool) (disp : BitVec 32)
  | bexz (c : Ctl) (pack : Bool) (disp : BitVec 32)
  | bexnz (c : Ctl) (pack : Bool) (disp : BitVec 32)
  | call (c : Ctl) (d : SReg) (disp : BitVec 32)
  | ret (c : Ctl) (a : SSrc)
  | brs (c : Ctl) (a : SSrc)
  | brix (c : Ctl) (a : SSrc)
  | brixl (c : Ctl) (d : SReg) (va : VReg)
  | exit (c : Ctl)
  | wait (c : Ctl) (ld : Fin 8) (st : Fin 8) (en : Fin 8) (wl : Fin 8) (fb : Fin 8)
  | regang (c : Ctl) (xsm : BitVec 8)
  | vadd (c : Ctl) (f : Fmt) (rnd : Rnd) (sat : Bool) (d : VReg) (a : VReg) (b : VSrc)
  | vsub (c : Ctl) (f : Fmt) (rnd : Rnd) (sat : Bool) (d : VReg) (a : VReg) (b : VSrc)
  | vmul (c : Ctl) (f : Fmt) (rnd : Rnd) (sat : Bool) (d : VReg) (a : VReg) (b : VSrc)
  | vfma (c : Ctl) (f : Fmt) (rnd : Rnd) (sat : Bool) (d : VReg) (a : VReg) (b : VSrc) (x : VSrc)
  | vfms (c : Ctl) (f : Fmt) (rnd : Rnd) (sat : Bool) (d : VReg) (a : VReg) (b : VSrc) (x : VSrc)
  | vfnma (c : Ctl) (f : Fmt) (rnd : Rnd) (sat : Bool) (d : VReg) (a : VReg) (b : VSrc) (x : VSrc)
  | vmin (c : Ctl) (f : Fmt) (prop : Bool) (d : VReg) (a : VReg) (b : VSrc)
  | vmax (c : Ctl) (f : Fmt) (prop : Bool) (d : VReg) (a : VReg) (b : VSrc)
  | vabs (c : Ctl) (f : Fmt) (sat : Bool) (d : VReg) (a : VReg)
  | vneg (c : Ctl) (f : Fmt) (sat : Bool) (d : VReg) (a : VReg)
  | vcpsgn (c : Ctl) (f : Fmt) (xor : Bool) (d : VReg) (a : VReg) (b : VSrc)
  | vcmp (c : Ctl) (f : Fmt) (cond : Cond) (a : VReg) (b : VSrc)
  | vsel (c : Ctl) (f : Fmt) (neg : Bool) (depth : Fin 8) (d : VReg) (a : VReg) (b : VSrc)
  | vmov (c : Ctl) (f : Fmt) (d : VReg) (b : VSrc)
  | vcvt (c : Ctl) (f : Fmt) (src : Fmt) (rnd : Rnd) (sat : Bool) (d : VReg) (a : VReg)
  | vrnd (c : Ctl) (f : Fmt) (rnd : Rnd) (d : VReg) (a : VReg)
  | vfdiv (c : Ctl) (f : Fmt) (rnd : Rnd) (sat : Bool) (d : VReg) (a : VReg) (b : VSrc)
  | vclass (c : Ctl) (f : Fmt) (d : VReg) (a : VReg)
  | vscalb (c : Ctl) (f : Fmt) (rnd : Rnd) (sat : Bool) (d : VReg) (a : VReg) (b : VSrc)
  | vabsd (c : Ctl) (f : Fmt) (d : VReg) (a : VReg) (b : VSrc)
  | vmad (c : Ctl) (f : Fmt) (sat : Bool) (d : VReg) (a : VReg) (b : VSrc) (x : VSrc)
  | vmulh (c : Ctl) (f : Fmt) (d : VReg) (a : VReg) (b : VSrc)
  | vand (c : Ctl) (f : Fmt) (d : VReg) (a : VReg) (b : VSrc)
  | vor (c : Ctl) (f : Fmt) (d : VReg) (a : VReg) (b : VSrc)
  | vxor (c : Ctl) (f : Fmt) (d : VReg) (a : VReg) (b : VSrc)
  | vandn (c : Ctl) (f : Fmt) (d : VReg) (a : VReg) (b : VSrc)
  | vnot (c : Ctl) (f : Fmt) (d : VReg) (a : VReg)
  | vshl (c : Ctl) (f : Fmt) (d : VReg) (a : VReg) (b : VSrc)
  | vshr (c : Ctl) (f : Fmt) (d : VReg) (a : VReg) (b : VSrc)
  | vsra (c : Ctl) (f : Fmt) (d : VReg) (a : VReg) (b : VSrc)
  | vclz (c : Ctl) (f : Fmt) (d : VReg) (a : VReg)
  | vpopc (c : Ctl) (f : Fmt) (d : VReg) (a : VReg)
  | vbrev (c : Ctl) (f : Fmt) (d : VReg) (a : VReg)
  | vbfx (c : Ctl) (f : Fmt) (signed : Bool) (d : VReg) (a : VReg) (b : VSrc) (x : VSrc)
  | vbfi (c : Ctl) (f : Fmt) (d : VReg) (a : VReg) (b : VSrc) (x : VSrc)
  | vdot2 (c : Ctl) (f : Fmt) (rnd : Rnd) (sat : Bool) (d : VReg) (a : VReg) (b : VSrc) (x : VSrc)
  | vpack (c : Ctl) (f : Fmt) (rnd : Rnd) (sat : Bool) (d : VReg) (a : VReg) (b : VSrc)
  | vunpkl (c : Ctl) (f : Fmt) (d : VReg) (a : VReg)
  | vunpkh (c : Ctl) (f : Fmt) (d : VReg) (a : VReg)
  | vkbenc (c : Ctl) (f : Fmt) (d : VReg) (a : VReg) (b : VSrc)
  | vkbdec (c : Ctl) (f : Fmt) (q : Bool) (d : VReg) (a : VReg)
  | vmovk (c : Ctl) (d : VReg) (k : BitVec 32)
  | vclamp (c : Ctl) (f : Fmt) (prop : Bool) (d : VReg) (a : VReg) (b : VSrc) (x : VSrc)
  | vmovq (c : Ctl) (d : VReg)
  | vrcp (c : Ctl) (f : Fmt) (rnd : Rnd) (sat : Bool) (d : VReg) (a : VReg)
  | vrsq (c : Ctl) (f : Fmt) (rnd : Rnd) (sat : Bool) (d : VReg) (a : VReg)
  | vsqrt (c : Ctl) (f : Fmt) (rnd : Rnd) (sat : Bool) (d : VReg) (a : VReg)
  | vexp2 (c : Ctl) (f : Fmt) (rnd : Rnd) (sat : Bool) (d : VReg) (a : VReg)
  | vlog2 (c : Ctl) (f : Fmt) (rnd : Rnd) (sat : Bool) (d : VReg) (a : VReg)
  | vsin (c : Ctl) (f : Fmt) (rnd : Rnd) (sat : Bool) (d : VReg) (a : VReg)
  | vcos (c : Ctl) (f : Fmt) (rnd : Rnd) (sat : Bool) (d : VReg) (a : VReg)
  | vtanh (c : Ctl) (f : Fmt) (rnd : Rnd) (sat : Bool) (d : VReg) (a : VReg)
  | actld (c : Ctl) (a : SSrc)
  | actsel (c : Ctl) (n : Bool)
  | vact (c : Ctl) (rnd : Rnd) (sat : Bool) (d : VReg) (a : VReg)
  | vdivI32 (c : Ctl) (d : VReg) (a : VReg) (b : VSrc)
  | vdivN32 (c : Ctl) (d : VReg) (a : VReg) (b : VSrc)
  | vremI32 (c : Ctl) (d : VReg) (a : VReg) (b : VSrc)
  | vremN32 (c : Ctl) (d : VReg) (a : VReg) (b : VSrc)
  | vshfl (c : Ctl) (f : Fmt) (keep : Bool) (mask : SliceMask) (d : VReg) (a : VReg) (b : VSrc)
  | vshflup (c : Ctl) (f : Fmt) (keep : Bool) (mask : SliceMask) (d : VReg) (a : VReg) (b : VSrc)
  | vshfldn (c : Ctl) (f : Fmt) (keep : Bool) (mask : SliceMask) (d : VReg) (a : VReg) (b : VSrc)
  | vshflx (c : Ctl) (f : Fmt) (keep : Bool) (mask : SliceMask) (d : VReg) (a : VReg) (b : VSrc)
  | vbcast (c : Ctl) (f : Fmt) (mask : SliceMask) (d : VReg) (a : VReg)
  | voteany (c : Ctl) (f : Fmt) (mask : SliceMask) (a : VReg)
  | voteall (c : Ctl) (f : Fmt) (mask : SliceMask) (a : VReg)
  | voteuni (c : Ctl) (f : Fmt) (mask : SliceMask) (a : VReg)
  | vballot (c : Ctl) (f : Fmt) (mask : SliceMask) (d : SReg) (a : VReg)
  | vmatchany (c : Ctl) (f : Fmt) (mask : SliceMask) (d : VReg) (a : VReg)
  | vmatchall (c : Ctl) (f : Fmt) (mask : SliceMask) (d : VReg) (a : VReg)
  | vredadd (c : Ctl) (f : Fmt) (mask : SliceMask) (d : VReg) (a : VReg)
  | vredmin (c : Ctl) (f : Fmt) (mask : SliceMask) (d : VReg) (a : VReg)
  | vredmax (c : Ctl) (f : Fmt) (mask : SliceMask) (d : VReg) (a : VReg)
  | vredand (c : Ctl) (f : Fmt) (mask : SliceMask) (d : VReg) (a : VReg)
  | vredor (c : Ctl) (f : Fmt) (mask : SliceMask) (d : VReg) (a : VReg)
  | vredxor (c : Ctl) (f : Fmt) (mask : SliceMask) (d : VReg) (a : VReg)
  | vscanadd (c : Ctl) (f : Fmt) (mask : SliceMask) (d : VReg) (a : VReg)
  | vld (c : Ctl) (mem : MemArg) (fe : FE) (sz : Sz) (d : VReg)
  | vst (c : Ctl) (mem : MemArg) (fe : FE) (sz : Sz) (el : Bool) (d : VReg)
  | sld (c : Ctl) (mem : MemArg) (fe : FE) (sz : Sz) (d : SReg)
  | sst (c : Ctl) (mem : MemArg) (fe : FE) (sz : Sz) (el : Bool) (d : SReg)
  | vldtr (c : Ctl) (mem : MemArg) (fe : FE) (sz : Sz) (d : VReg)
  | pref (c : Ctl) (mem : MemArg)
  | feset (c : Ctl) (mem : MemArg)
  | feclr (c : Ctl) (mem : MemArg)
  | atadd (c : Ctl) (mem : MemArg) (sz : Sz) (rv : Bool) (d : VReg)
  | atmin (c : Ctl) (mem : MemArg) (sz : Sz) (rv : Bool) (d : VReg)
  | atminn (c : Ctl) (mem : MemArg) (sz : Sz) (rv : Bool) (d : VReg)
  | atmax (c : Ctl) (mem : MemArg) (sz : Sz) (rv : Bool) (d : VReg)
  | atmaxn (c : Ctl) (mem : MemArg) (sz : Sz) (rv : Bool) (d : VReg)
  | atand (c : Ctl) (mem : MemArg) (sz : Sz) (rv : Bool) (d : VReg)
  | ator (c : Ctl) (mem : MemArg) (sz : Sz) (rv : Bool) (d : VReg)
  | atxor (c : Ctl) (mem : MemArg) (sz : Sz) (rv : Bool) (d : VReg)
  | atxchg (c : Ctl) (mem : MemArg) (sz : Sz) (rv : Bool) (d : VReg)
  | atcas (c : Ctl) (mem : MemArg) (sz : Sz) (d : VReg)
  | atfadd (c : Ctl) (mem : MemArg) (rv : Bool) (d : VReg)
  | atbadd2 (c : Ctl) (mem : MemArg) (rv : Bool) (d : VReg)
  | wld (c : Ctl) (mem : MemArg) (sz : Sz) (pr : PoisonReport) (d : VReg)
  | wdset (c : Ctl) (a : SSrc) (b : SSrc)
  | wdget (c : Ctl) (a : SSrc) (b : SSrc)
  | fence (c : Ctl) (scope : Scope) (ord : Ord)
  | fenceSc (c : Ctl)
  | xfence (c : Ctl) (scope : Scope) (frm : EClass) (too : EClass)
  | icinv (c : Ctl) (scope : Scope) (all : Bool) (a : SSrc) (b : SSrc)
  | podld (c : Ctl) (mem : MemArg) (sz : Sz) (d : VReg)
  | podst (c : Ctl) (mem : MemArg) (sz : Sz) (d : VReg)
  | podred (c : Ctl) (mem : MemArg) (sz : Sz) (rop : Rop) (d : VReg)
  | bar (c : Ctl) (id : Fin 16) (mask : Option SSrc)
  | abwait (c : Ctl) (a : SSrc) (b : SSrc)
  | abtest (c : Ctl) (a : SSrc) (b : SSrc)
  | abinit (c : Ctl) (a : SSrc) (b : SSrc)
  | abarr (c : Ctl) (scope : Scope) (rel : Bool) (a : SSrc) (bytes : Option SSrc)
  | abexp (c : Ctl) (a : SSrc) (b : SSrc)
  | ldstat (c : Ctl) (ns : Bool) (mode : Mode) (nc : NC) (xf : Fmt) (tb : TReg) (sm : SSrc) (ab : Option SSrc)
  | pswap (c : Ctl) (ab : Option SSrc)
  | mx (c : Ctl) (rnd : Rnd) (mode : Mode) (ta : TReg) (sp : SSrc) (ab : Option SSrc)
  | mxsp (c : Ctl) (rnd : Rnd) (mode : Mode) (nc : NC) (ta : TReg) (sp : SSrc) (ab : Option SSrc)
  | mxb (c : Ctl) (mode : Mode) (ta : TReg) (sp : SSrc) (ab : Option SSrc)
  | mxbsp (c : Ctl) (mode : Mode) (ta : TReg) (sp : SSrc) (ab : Option SSrc)
  | scacc (c : Ctl) (rnd : Rnd) (sr : SSrc) (sa : SSrc) (sb : SSrc) (ab : Option SSrc)
  | accclr (c : Ctl) (sr : SSrc) (ab : Option SSrc)
  | accrd (c : Ctl) (rnd : Rnd) (sat : Bool) (ic : Bool) (td : TReg) (sp : SSrc) (ab : Option SSrc)
  | accwr (c : Ctl) (ts : TReg) (sp : SSrc) (ab : Option SSrc)
  | accmv (c : Ctl) (ss : SSrc) (sd : SSrc) (sz : SSrc) (ab : Option SSrc)
  | mxtile (c : Ctl) (rnd : Rnd) (mode : Mode) (ta : TReg) (tb : TReg) (sp : SSrc) (ab : Option SSrc)
  | cptile (c : Ctl) (td : TReg) (ts : TReg) (ab : Option SSrc)
  | sctile (c : Ctl) (rnd : Rnd) (sc : SSrc) (ta : TReg) (tb : TReg) (ab : Option SSrc)
  | cpcopy (c : Ctl) (sd : SSrc) (ss : SSrc) (sl : SSrc) (ab : Option SSrc)
  | cptr (c : Ctl) (td : TReg) (ts : TReg) (ab : Option SSrc)
  | cpmcast (c : Ctl) (d : SReg) (so : SSrc) (ts : TReg) (sk : SSrc)
  | tdset (c : Ctl) (t : TReg) (a : SSrc) (b : SSrc)
  | tdget (c : Ctl) (hi : Bool) (d : SReg) (t : TReg)
  | trap (c : Ctl) (n : BitVec 8)
  | tret (c : Ctl)
  | sysrd (c : Ctl) (reg : SysReg) (d : SReg)
  | syswr (c : Ctl) (reg : SysReg) (a : SReg)
  | tlbinv (c : Ctl) (scope : Scope) (all : Bool) (a : SSrc) (b : SSrc)
  | tlbinvS2 (c : Ctl) (scope : Scope) (a : SSrc)
  | brk (c : Ctl) (n : BitVec 8)
  | fsend (c : Ctl) (d : SReg) (a : SSrc) (b : SSrc)
  | fsendLaunch (c : Ctl) (d : SReg) (a : SSrc) (b : SSrc)
  | frecv (c : Ctl) (d : SReg) (a : SSrc) (b : SSrc)
  | allreduce (c : Ctl) (td : TReg) (ts : TReg) (b : SSrc) (x : SSrc)
  | reducescatter (c : Ctl) (td : TReg) (ts : TReg) (b : SSrc) (x : SSrc)
  | allgather (c : Ctl) (td : TReg) (ts : TReg) (b : SSrc) (x : SSrc)
  | broadcast (c : Ctl) (td : TReg) (ts : TReg) (b : SSrc) (x : SSrc)
  | cgrp (c : Ctl) (d : SReg) (a : SSrc) (b : SSrc)
  | qenq (c : Ctl) (d : SReg) (a : SSrc) (b : SSrc)
  | evpost (c : Ctl) (scope : Scope) (d : SReg) (a : SSrc) (b : SSrc)
  | join (k : Nat)
  | loadCompletion (k : Nat) (op : Nat) (later : BitVec 8)
  | storePerformed (k : Nat) (op : Nat) (later : BitVec 8)
  | engineCommandCompletion (core : Nat) (copyQueue : Bool)
  | fill (core : Nat)
  | stream (core : Nat)
  | scale (core : Nat)
  | copy (core : Nat)
  | copyQueueStep (core : Nat)
  | governorWindow (core : Nat)
  | fabricCompletion (k : Nat) (op : Nat) (remote : Option RemoteResult)
  | fabricIngress (f : Fin 64) (msg : FabMsg)
  | podAccess (k : Nat) (op : Nat) (remote : Option RemoteResult) (later : BitVec 8)
  | launchRequest (f : Fin 64) (req : LaunchReq)
  | collectiveCompletion (f : Fin 64) (slot : Fin 64) (remote : List RemoteMember)
  | collectiveFallback (f : Fin 64) (slot : Fin 64) (remote : List RemoteMember)
  | doorbell (f : Fin 64) (q : Fin 64) (w : BitVec 32)
  | queueReset (f : Fin 64) (q : Fin 64)
  | packetRead (q : QRef)
  | waitaddrLoad (gid : Nat)
  | packetStart (gid : Nat)
  | blockDispatch (gid : Nat) (die : Fin 4) (places : List Placement)
  | stealRequest (gid : Nat) (die : Fin 4)
  | gangLaunch (gid : Nat) (places : List Placement)
  | blockEnd (uid : Nat)
  | packetCompletion (gid : Nat)
  | preemptionRequest (f : Fin 64) (q : Fin 64)
  | queueDestruction (f : Fin 64) (q : Fin 64)
  | runLimit (gid : Nat)
  | kernelWatchdog (gid : Nat)
  | handlerWatchdog (k : Nat)
  | checkpoint (f : Fin 64)
  | checkpointCommit (f : Fin 64)
  | rollback (f : Fin 64)
  | timeSliceStart (f : Fin 64) (places : List (Nat × Placement))
  | migrationImage (f : Fin 64)
  | migrationAccept (f : Fin 64) (image : Nat)
  | bindRecordWrite (die : Fin 4) (i : Fin 256) (r : BitVec 128)
  | functionRecordWrite (f : Fin 64) (r : BitVec 256)
  | launchTableWrite (f : Fin 64) (i : Fin 64) (r : BitVec 128)
  | loaderRequest (fn : Fn)
  | containerLoad (f : Fin 64) (places : List (Nat × Nat))
  | stewardRequest
  | eventLogControlWrite (fn : Fn) (off : Nat) (v : BitVec 64)
  | wldoor (addr : BitVec 64)
  | resume
  | layoutRequest (layout : BitVec 8)
  | commit
  | done
  | policyCoreRestart (die : Fin 4)
  | functionLevelReset (f : Fin 64)
  | moduleReset (img : BootImage)
  | lockInterface (f : Fin 64)
  | startInterface (f : Fin 64)
  | stopInterface (f : Fin 64)
  | getDeviceInterfaceReport (f : Fin 64)
  | getDeviceInterfaceState (f : Fin 64)
  | getVersion (fn : Fn)
  | getCapabilities (fn : Fn) (v : BitVec 8)
  | negotiateAlgorithms (fn : Fn)
  | getDigests (fn : Fn)
  | getCertificate (fn : Fn) (off : Nat) (len : Nat)
  | challenge (fn : Fn) (nonce : List Byte)
  | getMeasurements (fn : Fn) (index : BitVec 8) (secured : Bool)
  | keyExchange (fn : Fn) (share : List Byte)
  | finish (fn : Fn) (verified : Bool)
  | endSession (fn : Fn)
  | vendorDefinedRequest (fn : Fn) (secured : Bool) (msg : VendorMsg)
  | memoryError (site : ErrorSite) (corrected : Bool)
  | selfTest (x : Structure) (fails : Bool)
  | patrolScrub (line : Nat) (stack : Fin 12)
  | counterCommit
  | thermalThrottle (core : Nat) (cap : BitVec 9)
  | thermalShutdown
  | registerWrite (fn : Fn) (off : Nat) (v : BitVec 64)
  | hostAccess (op : HostOp)
  | actldCompletion (core : Nat)
  | asidTableWrite (i : Fin 4096) (r : BitVec 128)
  | laneRetrain (link : Fin 16) (bridge : Bool) (lane : Nat)
  deriving DecidableEq, Repr

end Sys2Proof
end

