-- ==== Sys2Proof/WellFormed.lean ====
section
/-! DEFINITION. Which decoded instructions are well formed: the operand rules, accepted codes and pair rules whose breach
makes a word an illegal encoding (R73), beyond the field ranges that the types of Sys2Proof/Syntax.lean already fix. -/

namespace Sys2Proof

/-- The set FL of R121. -/
def Fmt.isFL : Fmt → Bool
  | .f32 | .f64 | .f16 | .bf16 => true
  | _ => false
/-- The set PK of R121. -/
def Fmt.isPK : Fmt → Bool
  | .bf16x2 | .f16x2 => true
  | _ => false
/-- The set IN of R121. -/
def Fmt.isIN : Fmt → Bool
  | .i8 | .n8 | .i16 | .n16 | .i32 | .n32 | .i64 | .n64 => true
  | _ => false
/-- The set W of R121. -/
def Fmt.isW : Fmt → Bool
  | .f32 | .i32 | .n32 | .f64 | .i64 | .n64 => true
  | _ => false
/-- The signed integer formats that VABS and VNEG accept (R123). -/
def Fmt.isI : Fmt → Bool
  | .i8 | .i16 | .i32 | .i64 => true
  | _ => false
/-- Formats 11 and 12, accepted by the packed-pair instructions (R123). -/
def Fmt.isI16 : Fmt → Bool
  | .i16 | .n16 => true
  | _ => false
/-- Formats 13–16, accepted by VMAD and VMULH (R123). -/
def Fmt.isWide : Fmt → Bool
  | .i32 | .n32 | .i64 | .n64 => true
  | _ => false
/-- Formats that VCVT converts (R132): 0–6 and 9–16. -/
def Fmt.isCvt : Fmt → Bool
  | .kb8 | .kb4 | .bf16x2 | .f16x2 => false
  | _ => true
/-- Formats that VCLASS accepts (R123): FL, 4, 5 and 6. -/
def Fmt.isClass : Fmt → Bool
  | .f32 | .f64 | .f16 | .bf16 | .e5m2 | .e4m3 | .e5m3 => true
  | _ => false
/-- The block formats (R37). -/
def Fmt.isKB : Fmt → Bool
  | .kb8 | .kb4 => true
  | _ => false
/-- Formats of the special functions (R135): 0, 2 and 3. -/
def Fmt.isSF : Fmt → Bool
  | .f32 | .f16 | .bf16 => true
  | _ => false
/-- Formats of the add, min and max reductions (R174): 0, 13 and 14. -/
def Fmt.isRed : Fmt → Bool
  | .f32 | .i32 | .n32 => true
  | _ => false
/-- Formats of the bit reductions (R174): 13 and 14. -/
def Fmt.isRedBit : Fmt → Bool
  | .i32 | .n32 => true
  | _ => false
/-- Whether an element of the format is 64 bits wide, and so a register pair (R120). -/
def Fmt.is64 : Fmt → Bool
  | .f64 | .i64 | .n64 => true
  | _ => false

/-- Conditions that SCMP, SCMPI and the IN formats of VCMP accept (R97, R128). -/
def Cond.isScalar : Cond → Bool
  | .un | .or => false
  | _ => true
/-- Conditions that the FL formats of VCMP accept (R128). -/
def Cond.isFloat : Cond → Bool
  | .eq | .ne | .lt | .le | .gt | .ge | .un | .or => true
  | _ => false

/-- A rounding field that is reserved holds zero (R122). -/
def rndZero : Rnd → Bool
  | .rne => true
  | _ => false

/-- A vector operand of a format: a pair operand has an even register number (R17). -/
def pairV (f : Fmt) (n : VReg) : Bool := !f.is64 || decide (n.val % 2 = 0)
/-- As `pairV`, for a source that may be a broadcast scalar. -/
def pairS (f : Fmt) : VSrc → Bool
  | .v n => pairV f n
  | .s _ => true

/-- The scalar source an absent operand encodes as: code 0. -/
def SSrc.isZero : SSrc → Bool
  | .s n => decide (n.val = 0)
  | .sp _ => false

/-- A word whose guard fields must be zero. -/
def Ctl.noGuard (c : Ctl) : Bool := decide (c.guard = .always)

/-- ORD 0 or 1 (R215). -/
def Ord.isAcqOrNone : Ord → Bool
  | .none | .acq => true
  | _ => false
/-- ORD 0 or 2 (R215). -/
def Ord.isRelOrNone : Ord → Bool
  | .none | .rel => true
  | _ => false
/-- ORD 0. -/
def Ord.isNone : Ord → Bool
  | .none => true
  | _ => false
/-- FE codes of a load: 0, 1, 2 (R215). -/
def FE.isLoad : FE → Bool
  | .setf => false
  | _ => true
/-- FE codes of a store: 0, 3 (R215). -/
def FE.isStore : FE → Bool
  | .none | .setf => true
  | _ => false
/-- FE codes of VLDTR: 0, 1 (R215). -/
def FE.isWaitf : FE → Bool
  | .none | .waitf => true
  | _ => false
/-- SZ 0–5 (R215). -/
def Sz.isScalar : Sz → Bool
  | .w128 => false
  | _ => true
/-- SZ of WLD: 4, or 3 for 16-bit elements (R215). -/
def Sz.isWell : Sz → Bool
  | .w32 | .n16 => true
  | _ => false
/-- SZ 4. -/
def Sz.isW32 : Sz → Bool
  | .w32 => true
  | _ => false
/-- SZ 0–5 of PODLD and PODST (R415). -/
def Sz.isPodSz : Sz → Bool := Sz.isScalar
/-- D of a vector access: a pair for 64 bits, a quad for 128 bits (R214). -/
def szV (z : Sz) (d : VReg) : Bool :=
  match z with
  | .w64 => decide (d.val % 2 = 0)
  | .w128 => decide (d.val % 4 = 0)
  | _ => true
/-- D of VLDTR: SZ 1, or SZ 3 with a pair (R215, R222). -/
def szTr (z : Sz) (d : VReg) : Bool :=
  match z with
  | .n8 => true
  | .n16 => decide (d.val % 2 = 0)
  | _ => false
/-- D of an atomic: SZ 4, or SZ 5 with a pair (R215, R224). -/
def szAt (z : Sz) (d : VReg) : Bool :=
  match z with
  | .w32 => true
  | .w64 => decide (d.val % 2 = 0)
  | _ => false
/-- D of ATCAS: a pair for SZ 4, a quad for SZ 5 (R226). -/
def szCas (z : Sz) (d : VReg) : Bool :=
  match z with
  | .w32 => decide (d.val % 2 = 0)
  | .w64 => decide (d.val % 4 = 0)
  | _ => false
/-- Scopes of WLD: codes 3–5 (R215). -/
def Scope.isWell : Scope → Bool
  | .core | .cluster | .die => true
  | _ => false
/-- Scopes of ICINV and TLBINV: CORE, CLUSTER, DIE, TENANT (R240, R352). -/
def Scope.isInv : Scope → Bool
  | .core | .cluster | .die | .tenant => true
  | _ => false
/-- Scopes of the pod accesses: codes 6–8 (R415). -/
def Scope.isPod : Scope → Bool
  | .tenant | .pod | .system => true
  | _ => false
/-- Scopes of EVPOST: codes 3–8 (R402). -/
def Scope.isEv : Scope → Bool
  | .slice | .squad | .block => false
  | _ => true
/-- The integer operations of PODRED; FADD and BADD2 take SZ 4 only (R415). -/
def Rop.isInt : Rop → Bool
  | .fadd | .badd2 => false
  | _ => true
/-- The block modes (R265). -/
def Mode.isBlock : Mode → Bool
  | .kb8 | .kb4 => true
  | _ => false
/-- Mode I8, which has no rounding code (R282). -/
def Mode.isI8 : Mode → Bool
  | .i8 => true
  | _ => false
/-- NC = 0, dense (R281). -/
def NC.isN48 : NC → Bool
  | .n48 => true
  | _ => false
/-- NC = 1 (R281). -/
def NC.isN36 : NC → Bool
  | .n36 => true
  | _ => false

/-! ### Paired words -/

/-- What kind of register the fields of a pair opcode name (R67, R68). -/
inductive PopKind where
  | nop | scalar3 | scalar2 | scalarImm7 | scalarImm6 | scmp | vector3 | vector2 | vmovS | vcmp | vcvt
  deriving DecidableEq, Repr

/-- The kind of each pair opcode (R68). -/
def Pop.kind : Pop → PopKind
  | .nop => .nop
  | .sadd | .ssub | .sand | .sor | .sxor => .scalar3
  | .smov => .scalar2
  | .saddi => .scalarImm7
  | .sshli | .sshri => .scalarImm6
  | .scmpEq | .scmpLt | .scmpLtn => .scmp
  | .vaddF32 | .vsubF32 | .vmulF32 | .vfmaF32 | .vminF32 | .vmaxF32 | .vaddI32 | .vsubI32 | .vmulI32 => .vector3
  | .vand | .vor | .vxor | .vshl | .vshr => .vector3
  | .vmov => .vector2
  | .vmovS => .vmovS
  | .vcmpLtF32 | .vcmpEqI32 => .vcmp
  | .vcvtF32I32 | .vcvtI32F32 => .vcvt

/-- Bit 6 of a field that names a scalar register is zero (R67). -/
def sfield (b : BitVec 7) : Bool := decide (b.toNat < 64)
/-- A field marked zero (R68). -/
def zfield (b : BitVec 7) : Bool := decide (b = 0)

/-- The fields of a half obey R67 and R68. -/
def Half.wf (h : Half) : Bool :=
  match h.pop.kind with
  | .nop => decide (h.pg = 0) && zfield h.d && zfield h.a && zfield h.x
  | .scalar3 => sfield h.d && sfield h.a && sfield h.x
  | .scalar2 => sfield h.d && sfield h.a && zfield h.x
  | .scalarImm7 => sfield h.d && sfield h.a
  | .scalarImm6 => sfield h.d && sfield h.a && decide (h.x.toNat < 64)
  | .scmp => zfield h.d && sfield h.a && sfield h.x
  | .vector3 => true
  | .vector2 => zfield h.x
  | .vmovS => sfield h.a && zfield h.x
  | .vcmp => zfield h.d
  | .vcvt => zfield h.x

/-- The vector registers a half reads (R68, R69). -/
def Half.vreads (h : Half) : List Nat :=
  match h.pop.kind with
  | .vector3 => if h.pop = .vfmaF32 then [h.a.toNat, h.x.toNat, h.d.toNat] else [h.a.toNat, h.x.toNat]
  | .vector2 | .vcvt => [h.a.toNat]
  | .vcmp => [h.a.toNat, h.x.toNat]
  | _ => []
/-- The scalar registers a half reads. -/
def Half.sreads (h : Half) : List Nat :=
  match h.pop.kind with
  | .scalar3 | .scmp => [h.a.toNat, h.x.toNat]
  | .scalar2 | .scalarImm7 | .scalarImm6 | .vmovS => [h.a.toNat]
  | _ => []
/-- The vector registers a half writes. -/
def Half.vwrites (h : Half) : List Nat :=
  match h.pop.kind with
  | .vector3 | .vector2 | .vmovS | .vcvt => [h.d.toNat]
  | _ => []
/-- The scalar registers a half writes. -/
def Half.swrites (h : Half) : List Nat :=
  match h.pop.kind with
  | .scalar3 | .scalar2 | .scalarImm7 | .scalarImm6 => [h.d.toNat]
  | _ => []

/-- The rules of R69 that concern both halves: at most three vector registers read, in different bank quartets, and no
read by the second half of what the first writes. -/
def pairRule (h1 h2 : Half) : Bool :=
  let rs := (h1.vreads ++ h2.vreads).dedup
  decide (rs.length ≤ 3) && decide ((rs.map (· % 4)).Nodup) &&
    h2.vreads.all (fun r => !h1.vwrites.contains r) && h2.sreads.all (fun r => !h1.swrites.contains r)

/-! ### Full words -/

/-- The rules a decoded instruction obeys beyond its field types: formats its opcode accepts, reserved RND and SAT,
register pairs and quads, ordering, sizes and scopes its opcode accepts, guards that must be absent, the pair rules. -/
def Instr.wf : Instr → Bool
  | .nop _ => true
  | .pairedWord _ h1 h2 => h1.wf && h2.wf && pairRule h1 h2
  | .illegalInstruction _ => true
  | .sadd _ _ _ _ _ => true
  | .ssub _ _ _ _ _ => true
  | .smul _ _ _ _ _ => true
  | .smulh _ _ _ _ => true
  | .smulhn _ _ _ _ => true
  | .smin _ _ _ _ => true
  | .smax _ _ _ _ => true
  | .sminn _ _ _ _ => true
  | .smaxn _ _ _ _ => true
  | .sand _ _ _ _ => true
  | .sor _ _ _ _ => true
  | .sxor _ _ _ _ => true
  | .sandn _ _ _ _ => true
  | .sshl _ _ _ _ => true
  | .sshr _ _ _ _ => true
  | .ssra _ _ _ _ => true
  | .srot _ _ _ _ => true
  | .sclz _ _ _ => true
  | .sctz _ _ _ => true
  | .spopc _ _ _ => true
  | .sbrev _ _ _ => true
  | .sbfx _ _ _ _ _ _ => true
  | .sbfi _ _ _ _ _ => true
  | .ssext _ _ n _ _ => decide (1 ≤ n.toNat) && decide (n.toNat ≤ 64)
  | .slea _ pod k _ _ _ => !pod || decide (k.val = 0)
  | .sselz _ _ _ _ _ => true
  | .smov _ _ _ => true
  | .scmp _ cond _ _ => cond.isScalar
  | .sabs _ _ _ _ => true
  | .sclamp _ _ _ _ _ _ => true
  | .saddi _ _ _ _ _ => true
  | .smuli _ _ _ _ _ => true
  | .sandi _ _ _ _ => true
  | .sori _ _ _ _ => true
  | .sxori _ _ _ _ => true
  | .sshli _ _ _ _ => true
  | .sshri _ _ _ _ => true
  | .ssrai _ _ _ _ => true
  | .sroti _ _ _ _ => true
  | .scmpi _ cond _ _ => cond.isScalar
  | .smini _ _ _ _ => true
  | .smaxi _ _ _ _ => true
  | .smovk _ _ _ => true
  | .smovkh _ _ _ => true
  | .saddk _ _ _ => true
  | .sleapc _ _ _ => true
  | .exsave _ _ => true
  | .exload _ _ => true
  | .exand _ _ _ => true
  | .exandn _ _ _ => true
  | .exfromq _ _ _ _ => true
  | .qsave _ _ => true
  | .qload _ _ => true
  | .moderd _ _ => true
  | .modewr _ _ => true
  | .moderm _ _ => true
  | .bra _ _ _ => true
  | .bexz c _ _ => c.noGuard
  | .bexnz c _ _ => c.noGuard
  | .call _ _ _ => true
  | .ret _ _ => true
  | .brs _ _ => true
  | .brix _ _ => true
  | .brixl c _ _ => c.noGuard
  | .exit _ => true
  | .wait _ _ _ _ _ _ => true
  | .regang _ _ => true
  | .vadd _ f rnd _ d a b => (f.isFL || f.isPK || (f.isIN && rndZero rnd)) && pairV f d && pairV f a && pairS f b
  | .vsub _ f rnd _ d a b => (f.isFL || f.isPK || (f.isIN && rndZero rnd)) && pairV f d && pairV f a && pairS f b
  | .vmul _ f rnd _ d a b => (f.isFL || f.isPK || (f.isIN && rndZero rnd)) && pairV f d && pairV f a && pairS f b
  | .vfma _ f _ _ d a b x => (f.isFL || f.isPK) && pairV f d && pairV f a && pairS f b && pairS f x
  | .vfms _ f _ _ d a b x => (f.isFL || f.isPK) && pairV f d && pairV f a && pairS f b && pairS f x
  | .vfnma _ f _ _ d a b x => (f.isFL || f.isPK) && pairV f d && pairV f a && pairS f b && pairS f x
  | .vmin _ f prop d a b => (f.isFL || f.isPK || (f.isIN && !prop)) && pairV f d && pairV f a && pairS f b
  | .vmax _ f prop d a b => (f.isFL || f.isPK || (f.isIN && !prop)) && pairV f d && pairV f a && pairS f b
  | .vabs _ f sat d a => (((f.isFL || f.isPK) && !sat) || f.isI) && pairV f d && pairV f a
  | .vneg _ f sat d a => (((f.isFL || f.isPK) && !sat) || f.isI) && pairV f d && pairV f a
  | .vcpsgn _ f _ d a b => (f.isFL || f.isPK) && pairV f d && pairV f a && pairS f b
  | .vcmp _ f cond a b => ((f.isFL && cond.isFloat) || (f.isIN && cond.isScalar)) && pairV f a && pairS f b
  | .vsel _ f _ _ d a b => f.isW && pairV f d && pairV f a && pairS f b
  | .vmov _ f d b => f.isW && pairV f d && pairS f b
  | .vcvt _ f src _ _ d a => f.isCvt && src.isCvt && decide (f ≠ src) && pairV f d && pairV src a
  | .vrnd _ f _ d a => f.isFL && pairV f d && pairV f a
  | .vfdiv _ f _ _ d a b => f.isFL && pairV f d && pairV f a && pairS f b
  | .vclass _ f _ a => f.isClass && pairV f a
  | .vscalb _ f _ _ d a _ => f.isFL && pairV f d && pairV f a
  | .vabsd _ f d a b => f.isIN && pairV f d && pairV f a && pairS f b
  | .vmad _ f _ d a b x => f.isWide && pairV f d && pairV f a && pairS f b && pairS f x
  | .vmulh _ f d a b => f.isWide && pairV f d && pairV f a && pairS f b
  | .vand _ f d a b => f.isW && pairV f d && pairV f a && pairS f b
  | .vor _ f d a b => f.isW && pairV f d && pairV f a && pairS f b
  | .vxor _ f d a b => f.isW && pairV f d && pairV f a && pairS f b
  | .vandn _ f d a b => f.isW && pairV f d && pairV f a && pairS f b
  | .vnot _ f d a => f.isW && pairV f d && pairV f a
  | .vshl _ f d a _ => f.isW && pairV f d && pairV f a
  | .vshr _ f d a _ => f.isW && pairV f d && pairV f a
  | .vsra _ f d a _ => f.isW && pairV f d && pairV f a
  | .vclz _ f d a => f.isW && pairV f d && pairV f a
  | .vpopc _ f d a => f.isW && pairV f d && pairV f a
  | .vbrev _ f d a => f.isW && pairV f d && pairV f a
  | .vbfx _ f _ d a _ _ => f.isW && pairV f d && pairV f a
  | .vbfi _ f d a _ _ => f.isW && pairV f d && pairV f a
  | .vdot2 _ f rnd _ _ _ _ _ => (f.isPK || (f.isI16 && rndZero rnd))
  | .vpack _ f rnd _ _ _ _ => (f.isPK || (f.isI16 && rndZero rnd))
  | .vunpkl _ f _ _ => (f.isPK || f.isI16)
  | .vunpkh _ f _ _ => (f.isPK || f.isI16)
  | .vkbenc _ f _ _ _ => f.isKB
  | .vkbdec _ f _ _ _ => f.isKB
  | .vmovk _ _ _ => true
  | .vclamp _ f prop d a b x => (f.isFL || f.isPK || (f.isIN && !prop)) && pairV f d && pairV f a && pairS f b && pairS f x
  | .vmovq _ _ => true
  | .vrcp _ f _ _ _ _ => f.isSF
  | .vrsq _ f _ _ _ _ => f.isSF
  | .vsqrt _ f _ _ _ _ => f.isSF
  | .vexp2 _ f _ _ _ _ => f.isSF
  | .vlog2 _ f _ _ _ _ => f.isSF
  | .vsin _ f _ _ _ _ => f.isSF
  | .vcos _ f _ _ _ _ => f.isSF
  | .vtanh _ f _ _ _ _ => f.isSF
  | .actld _ _ => true
  | .actsel _ _ => true
  | .vact _ _ _ _ _ => true
  | .vdivI32 _ _ _ _ => true
  | .vdivN32 _ _ _ _ => true
  | .vremI32 _ _ _ _ => true
  | .vremN32 _ _ _ _ => true
  | .vshfl _ f _ _ d a _ => f.isW && pairV f d && pairV f a
  | .vshflup _ f _ _ d a _ => f.isW && pairV f d && pairV f a
  | .vshfldn _ f _ _ d a _ => f.isW && pairV f d && pairV f a
  | .vshflx _ f _ _ d a _ => f.isW && pairV f d && pairV f a
  | .vbcast _ f _ d a => f.isW && pairV f d && pairV f a
  | .voteany _ f _ a => f.isW && pairV f a
  | .voteall _ f _ a => f.isW && pairV f a
  | .voteuni _ f _ a => f.isW && pairV f a
  | .vballot _ f _ _ a => f.isW && pairV f a
  | .vmatchany _ f _ _ a => f.isW && pairV f a
  | .vmatchall _ f _ _ a => f.isW && pairV f a
  | .vredadd _ f _ _ _ => f.isRed
  | .vredmin _ f _ _ _ => f.isRed
  | .vredmax _ f _ _ _ => f.isRed
  | .vredand _ f _ _ _ => f.isRedBit
  | .vredor _ f _ _ _ => f.isRedBit
  | .vredxor _ f _ _ _ => f.isRedBit
  | .vscanadd _ f _ _ _ => f.isRed
  | .vld _ mem fe sz d => fe.isLoad && mem.ord.isAcqOrNone && szV sz d
  | .vst _ mem fe sz _ d => fe.isStore && mem.ord.isRelOrNone && szV sz d
  | .sld _ mem fe sz _ => fe.isLoad && mem.ord.isAcqOrNone && mem.idx.isNone && sz.isScalar
  | .sst _ mem fe sz _ _ => fe.isStore && mem.ord.isRelOrNone && mem.idx.isNone && sz.isScalar
  | .vldtr _ mem fe sz d => fe.isWaitf && mem.ord.isAcqOrNone && szTr sz d
  | .pref _ mem => mem.ord.isNone
  | .feset _ mem => mem.ord.isRelOrNone
  | .feclr _ mem => mem.ord.isRelOrNone
  | .atadd _ _ sz _ d => szAt sz d
  | .atmin _ _ sz _ d => szAt sz d
  | .atminn _ _ sz _ d => szAt sz d
  | .atmax _ _ sz _ d => szAt sz d
  | .atmaxn _ _ sz _ d => szAt sz d
  | .atand _ _ sz _ d => szAt sz d
  | .ator _ _ sz _ d => szAt sz d
  | .atxor _ _ sz _ d => szAt sz d
  | .atxchg _ _ sz _ d => szAt sz d
  | .atcas _ _ sz d => szCas sz d
  | .atfadd _ _ _ _ => true
  | .atbadd2 _ _ _ _ => true
  | .wld _ mem sz _ _ => mem.ord.isAcqOrNone && sz.isWell && mem.scope.isWell
  | .wdset _ _ _ => true
  | .wdget _ _ _ => true
  | .fence c _ ord => c.noGuard && !ord.isNone
  | .fenceSc c => c.noGuard
  | .xfence c _ _ _ => c.noGuard
  | .icinv c scope all a b => c.noGuard && scope.isInv && (!all || (a.isZero && b.isZero))
  | .podld _ mem sz d => mem.ord.isAcqOrNone && mem.scope.isPod && sz.isPodSz && szV sz d
  | .podst _ mem sz d => mem.ord.isRelOrNone && mem.scope.isPod && sz.isPodSz && szV sz d
  | .podred _ mem sz rop d => mem.ord.isRelOrNone && mem.scope.isPod && szAt sz d && (rop.isInt || sz.isW32)
  | .bar _ _ _ => true
  | .abwait _ _ _ => true
  | .abtest _ _ _ => true
  | .abinit _ _ _ => true
  | .abarr _ _ _ _ _ => true
  | .abexp _ _ _ => true
  | .ldstat _ _ mode nc _ _ sm _ => (!mode.isBlock || !nc.isN36) && (!nc.isN48 || sm.isZero)
  | .pswap _ _ => true
  | .mx _ rnd mode _ _ _ => !mode.isBlock && (!mode.isI8 || rndZero rnd)
  | .mxsp _ rnd mode nc _ _ _ => !mode.isBlock && !nc.isN48 && (!mode.isI8 || rndZero rnd)
  | .mxb _ mode _ _ _ => mode.isBlock
  | .mxbsp _ mode _ _ _ => mode.isBlock
  | .scacc _ _ _ _ _ _ => true
  | .accclr _ _ _ => true
  | .accrd _ _ _ _ _ _ _ => true
  | .accwr _ _ _ _ => true
  | .accmv _ _ _ _ _ => true
  | .mxtile _ rnd mode _ _ _ _ => !mode.isBlock && (!mode.isI8 || rndZero rnd)
  | .cptile _ _ _ _ => true
  | .sctile _ _ _ _ _ _ => true
  | .cpcopy _ _ _ _ _ => true
  | .cptr _ _ _ _ => true
  | .cpmcast _ _ _ _ _ => true
  | .tdset _ _ _ _ => true
  | .tdget _ _ _ _ => true
  | .trap _ _ => true
  | .tret c => c.noGuard
  | .sysrd _ _ _ => true
  | .syswr _ _ _ => true
  | .tlbinv c scope all _ b => c.noGuard && scope.isInv && (!all || b.isZero)
  | .tlbinvS2 c scope _ => c.noGuard && scope.isInv
  | .brk c _ => c.noGuard
  | .fsend _ _ _ _ => true
  | .fsendLaunch _ _ _ _ => true
  | .frecv _ _ _ _ => true
  | .allreduce _ _ _ _ _ => true
  | .reducescatter _ _ _ _ _ => true
  | .allgather _ _ _ _ _ => true
  | .broadcast _ _ _ _ _ => true
  | .cgrp _ _ _ _ => true
  | .qenq _ _ _ _ => true
  | .evpost _ scope _ _ _ => scope.isEv
  | .join _ => true
  | .loadCompletion _ _ _ => true
  | .storePerformed _ _ _ => true
  | .engineCommandCompletion _ _ => true
  | .fill _ => true
  | .stream _ => true
  | .scale _ => true
  | .copy _ => true
  | .copyQueueStep _ => true
  | .governorWindow _ => true
  | .fabricCompletion _ _ _ => true
  | .fabricIngress _ _ => true
  | .podAccess _ _ _ _ => true
  | .launchRequest _ _ => true
  | .collectiveCompletion _ _ _ => true
  | .collectiveFallback _ _ _ => true
  | .doorbell _ _ _ => true
  | .queueReset _ _ => true
  | .packetRead _ => true
  | .waitaddrLoad _ => true
  | .packetStart _ => true
  | .blockDispatch _ _ _ => true
  | .stealRequest _ _ => true
  | .gangLaunch _ _ => true
  | .blockEnd _ => true
  | .packetCompletion _ => true
  | .preemptionRequest _ _ => true
  | .queueDestruction _ _ => true
  | .runLimit _ => true
  | .kernelWatchdog _ => true
  | .handlerWatchdog _ => true
  | .checkpoint _ => true
  | .checkpointCommit _ => true
  | .rollback _ => true
  | .timeSliceStart _ _ => true
  | .migrationImage _ => true
  | .migrationAccept _ _ => true
  | .bindRecordWrite _ _ _ => true
  | .functionRecordWrite _ _ => true
  | .launchTableWrite _ _ _ => true
  | .loaderRequest _ => true
  | .containerLoad _ _ => true
  | .stewardRequest => true
  | .eventLogControlWrite _ _ _ => true
  | .wldoor _ => true
  | .resume => true
  | .layoutRequest _ => true
  | .commit => true
  | .done => true
  | .policyCoreRestart _ => true
  | .functionLevelReset _ => true
  | .moduleReset _ => true
  | .lockInterface _ => true
  | .startInterface _ => true
  | .stopInterface _ => true
  | .getDeviceInterfaceReport _ => true
  | .getDeviceInterfaceState _ => true
  | .getVersion _ => true
  | .getCapabilities _ _ => true
  | .negotiateAlgorithms _ => true
  | .getDigests _ => true
  | .getCertificate _ _ _ => true
  | .challenge _ _ => true
  | .getMeasurements _ _ _ => true
  | .keyExchange _ _ => true
  | .finish _ _ => true
  | .endSession _ => true
  | .vendorDefinedRequest _ _ _ => true
  | .memoryError _ _ => true
  | .selfTest _ _ => true
  | .patrolScrub _ _ => true
  | .counterCommit => true
  | .thermalThrottle _ _ => true
  | .thermalShutdown => true
  | .registerWrite _ _ _ => true
  | .hostAccess _ => true
  | .actldCompletion _ => true
  | .asidTableWrite _ _ => true
  | .laneRetrain _ _ _ => true

end Sys2Proof
end

