-- ==== Sys2Proof/Decode.lean ====
section
/-! DEFINITION. The decoder, total on any word, and after it the encoder, both written from the encoding tables of
spec/03_encoding_assembly.md and the entries it names. A word is accepted when its fields hold codes its opcode knows,
its operands are well formed, and every bit outside its fields is zero: that is, when it is the encoding of what its
fields say. -/

namespace Sys2Proof

/-! ### Fields -/

/-- D [46:39] (R56). -/
def fD (w : Nat) : Nat := bits w 39 8
/-- A [38:31] (R56). -/
def fA (w : Nat) : Nat := bits w 31 8
/-- B [30:23] (R56). -/
def fB (w : Nat) : Nat := bits w 23 8
/-- C [22:15] (R56). -/
def fC (w : Nat) : Nat := bits w 15 8

/-- A scalar destination or register (R58). -/
def sreg? (x : Nat) : Option SReg := if h : x < 64 then some ⟨x, h⟩ else none
/-- A vector register (R58). -/
def vreg? (x : Nat) : Option VReg := if h : x < 256 then some ⟨x, h⟩ else none
/-- A tile descriptor (R58). -/
def treg? (x : Nat) : Option TReg := if h : x < 16 then some ⟨x, h⟩ else none

/-- The special sources by code (R90). -/
def special? : Nat → Option Special
  | 0x40 => some .laneId | 0x41 => some .tid | 0x42 => some .sliceId | 0x43 => some .squadId
  | 0x44 => some .blockId | 0x45 => some .blockXyz | 0x46 => some .gridDim | 0x47 => some .roleId
  | 0x48 => some .live | 0x49 => some .vbase | 0x4A => some .vcount | 0x4B => some .dtlen
  | 0x4C => some .dtbase | 0x4D => some .kentry | 0x4E => some .vchipId | 0x4F => some .coreId
  | 0x50 => some .clock | 0x51 => some .wcnt | 0x52 => some .govst | 0x53 => some .scrbase
  | 0x54 => some (.level 0) | 0x55 => some (.level 1) | 0x56 => some (.level 2) | 0x57 => some (.level 3)
  | 0x58 => some (.level 4)
  | _ => none
/-- The code of a special source (R90). -/
def specialCode : Special → Nat
  | .laneId => 0x40 | .tid => 0x41 | .sliceId => 0x42 | .squadId => 0x43
  | .blockId => 0x44 | .blockXyz => 0x45 | .gridDim => 0x46 | .roleId => 0x47
  | .live => 0x48 | .vbase => 0x49 | .vcount => 0x4A | .dtlen => 0x4B
  | .dtbase => 0x4C | .kentry => 0x4D | .vchipId => 0x4E | .coreId => 0x4F
  | .clock => 0x50 | .wcnt => 0x51 | .govst => 0x52 | .scrbase => 0x53
  | .level k => 0x54 + k.val

/-- A scalar source (R58). -/
def ssrc? (x : Nat) : Option SSrc :=
  if h : x < 64 then some (.s ⟨x, h⟩) else (special? x).map .sp
/-- The code of a scalar source. -/
def ssrcCode : SSrc → Nat
  | .s n => n.val
  | .sp x => specialCode x
/-- Source B or C of a vector word with its broadcast bit (R62). -/
def vsrc? (sel x : Nat) : Option VSrc := if sel = 1 then (ssrc? x).map .s else (vreg? x).map .v
/-- The operand field of such a source. -/
def vsrcCode : VSrc → Nat
  | .v n => n.val
  | .s x => ssrcCode x
/-- Its broadcast bit. -/
def vsrcSel : VSrc → Nat
  | .v _ => 0
  | .s _ => 1
/-- An optional scalar source announced by a MOD bit (R182, R281, R303). -/
def optsrc? (sel x : Nat) : Option (Option SSrc) := if sel = 1 then (ssrc? x).map some else some none
/-- Its operand field. -/
def optCode : Option SSrc → Nat
  | none => 0
  | some x => ssrcCode x
/-- Its announcing bit. -/
def optSel : Option SSrc → Nat
  | none => 0
  | some _ => 1

/-- Format codes (R63). -/
def fmt? : Nat → Option Fmt
  | 0 => some .f32 | 1 => some .f64 | 2 => some .f16 | 3 => some .bf16 | 4 => some .e5m2 | 5 => some .e4m3
  | 6 => some .e5m3 | 7 => some .kb8 | 8 => some .kb4 | 9 => some .i8 | 10 => some .n8 | 11 => some .i16
  | 12 => some .n16 | 13 => some .i32 | 14 => some .n32 | 15 => some .i64 | 16 => some .n64
  | 17 => some .bf16x2 | 18 => some .f16x2
  | _ => none
/-- The code of a format (R63). -/
def fmtCode : Fmt → Nat
  | .f32 => 0 | .f64 => 1 | .f16 => 2 | .bf16 => 3 | .e5m2 => 4 | .e4m3 => 5 | .e5m3 => 6 | .kb8 => 7 | .kb4 => 8
  | .i8 => 9 | .n8 => 10 | .i16 => 11 | .n16 => 12 | .i32 => 13 | .n32 => 14 | .i64 => 15 | .n64 => 16
  | .bf16x2 => 17 | .f16x2 => 18
/-- Rounding codes (R40). -/
def rnd? : Nat → Option Rnd
  | 0 => some .rne | 1 => some .rtz | 2 => some .rdn | 3 => some .rup | 4 => some .dflt
  | _ => none
/-- The code of a rounding field (R40). -/
def rndCode : Rnd → Nat
  | .rne => 0 | .rtz => 1 | .rdn => 2 | .rup => 3 | .dflt => 4
/-- Rounding modes, codes 0–3 (R25, R102). -/
def rm? : Nat → Option RM
  | 0 => some .rne | 1 => some .rtz | 2 => some .rdn | 3 => some .rup
  | _ => none
/-- The code of a rounding mode. -/
def rmCode : RM → Nat
  | .rne => 0 | .rtz => 1 | .rdn => 2 | .rup => 3
/-- Scope codes (R5). -/
def scope? : Nat → Option Scope
  | 0 => some .slice | 1 => some .squad | 2 => some .block | 3 => some .core | 4 => some .cluster | 5 => some .die
  | 6 => some .tenant | 7 => some .pod | 8 => some .system
  | _ => none
/-- The code of a scope (R5). -/
def scopeCode : Scope → Nat
  | .slice => 0 | .squad => 1 | .block => 2 | .core => 3 | .cluster => 4 | .die => 5 | .tenant => 6 | .pod => 7
  | .system => 8
/-- Engine class codes (R6). -/
def eclass? : Nat → Option EClass
  | 0 => some .ls | 1 => some .cp | 2 => some .mx | 3 => some .cl | 4 => some .fb | 5 => some .wl
  | _ => none
/-- The code of an engine class (R6). -/
def eclassCode : EClass → Nat
  | .ls => 0 | .cp => 1 | .mx => 2 | .cl => 3 | .fb => 4 | .wl => 5
/-- Condition codes (R97, R128). -/
def cond? : Nat → Option Cond
  | 0 => some .eq | 1 => some .ne | 2 => some .lt | 3 => some .le | 4 => some .gt | 5 => some .ge | 6 => some .ltn
  | 7 => some .len | 8 => some .gtn | 9 => some .gen | 10 => some .tst | 11 => some .ntst | 12 => some .un
  | 13 => some .or
  | _ => none
/-- The code of a condition. -/
def condCode : Cond → Nat
  | .eq => 0 | .ne => 1 | .lt => 2 | .le => 3 | .gt => 4 | .ge => 5 | .ltn => 6 | .len => 7 | .gtn => 8 | .gen => 9
  | .tst => 10 | .ntst => 11 | .un => 12 | .or => 13
/-- Ordering codes (R64). -/
def ord? : Nat → Option Ord
  | 0 => some .none | 1 => some .acq | 2 => some .rel | 3 => some .ar
  | _ => none
/-- The code of an ordering. -/
def ordCode : Ord → Nat
  | .none => 0 | .acq => 1 | .rel => 2 | .ar => 3
/-- Full-empty codes (R64). -/
def fe? : Nat → Option FE
  | 0 => some .none | 1 => some .waitf | 2 => some .waitfClr | 3 => some .setf
  | _ => none
/-- The code of a full-empty qualifier. -/
def feCode : FE → Nat
  | .none => 0 | .waitf => 1 | .waitfClr => 2 | .setf => 3
/-- Size codes (R64). -/
def sz? : Nat → Option Sz
  | 0 => some .i8 | 1 => some .n8 | 2 => some .i16 | 3 => some .n16 | 4 => some .w32 | 5 => some .w64
  | 6 => some .w128
  | _ => none
/-- The code of a size. -/
def szCode : Sz → Nat
  | .i8 => 0 | .n8 => 1 | .i16 => 2 | .n16 => 3 | .w32 => 4 | .w64 => 5 | .w128 => 6
/-- Engine mode codes (R281). -/
def mode? : Nat → Option Mode
  | 0 => some .i8 | 1 => some .f8 | 2 => some .f16 | 3 => some .bf16 | 4 => some .kb8 | 5 => some .kb4
  | _ => none
/-- The code of an engine mode. -/
def modeCode : Mode → Nat
  | .i8 => 0 | .f8 => 1 | .f16 => 2 | .bf16 => 3 | .kb8 => 4 | .kb4 => 5
/-- Sparsity codes (R281). -/
def nc? : Nat → Option NC
  | 0 => some .n48 | 1 => some .n36 | 2 => some .n24
  | _ => none
/-- The code of a sparsity. -/
def ncCode : NC → Nat
  | .n48 => 0 | .n36 => 1 | .n24 => 2
/-- Poison report codes (R235). -/
def pr? : Nat → Option PoisonReport
  | 0 => some .push | 1 => some .noq | 2 => some .trap
  | _ => none
/-- The code of a poison report. -/
def prCode : PoisonReport → Nat
  | .push => 0 | .noq => 1 | .trap => 2
/-- PODRED operation codes (R415). -/
def rop? : Nat → Option Rop
  | 0 => some .add | 1 => some .min | 2 => some .minn | 3 => some .max | 4 => some .maxn | 5 => some .and
  | 6 => some .or | 7 => some .xor | 8 => some .fadd | 9 => some .badd2
  | _ => none
/-- The code of a PODRED operation. -/
def ropCode : Rop → Nat
  | .add => 0 | .min => 1 | .minn => 2 | .max => 3 | .maxn => 4 | .and => 5 | .or => 6 | .xor => 7 | .fadd => 8
  | .badd2 => 9
/-- The MOD bits of ROP: {MOD<7:6>, MOD<1:0>} (R415). -/
def ropMod (r : Rop) : Nat := ropCode r / 4 * 64 + ropCode r % 4
/-- System register numbers (R344). -/
def sysreg? : Nat → Option SysReg
  | 0x001 => some .tfbase | 0x002 => some .hwdog | 0x003 => some .asid | 0x004 => some .vmid | 0x005 => some .ctbase
  | 0x010 => some .govcfg | 0x011 => some .partcfg | 0x020 => some .scopepol
  | _ => none
/-- The number of a system register (R344). -/
def sysregCode : SysReg → Nat
  | .tfbase => 0x001 | .hwdog => 0x002 | .asid => 0x003 | .vmid => 0x004 | .ctbase => 0x005 | .govcfg => 0x010
  | .partcfg => 0x011 | .scopepol => 0x020

/-- The control bits of a full word (R56, R57). -/
def ctlOf (w : Nat) : Ctl where
  m := bits w 63 1 == 1
  guard := if bits w 51 1 == 1 then .q (bits w 50 1 == 1) (Fin.ofNat 8 (bits w 47 3)) else .always
/-- GE, GN and GD as bits [51:47] (R56, R57). -/
def guardBits : Guard → Nat
  | .always => 0
  | .q neg d => 16 + bitOf neg * 8 + d.val

/-- The shared fields of an MO word (R59, R64). -/
def memarg? (w : Nat) : Option MemArg := do
  let base ← sreg? (fA w)
  let scope ← scope? (bits w 11 4)
  let ord ← ord? (bits w 9 2)
  let v ← vreg? (fB w)
  some { base := base, idx := if bits w 8 1 == 1 then some v else none, off := BitVec.ofNat 8 (fC w),
         scope := scope, ord := ord, nt := bits w 2 1 == 1 }
/-- The participation mask of a cross-lane word (R173). -/
def slicemask? (w : Nat) : Option SliceMask :=
  let c := fC w
  let xsm := BitVec.ofNat 8 (bits w 7 8)
  if c = 0 then some ⟨xsm, none⟩
  else if 0x80 ≤ c then (sreg? (c - 0x80)).map (fun r => ⟨xsm, some r⟩) else none
/-- The C field of a cross-lane word (R173). -/
def maskC (m : SliceMask) : Nat :=
  match m.reg with
  | none => 0
  | some r => 0x80 + r.val

/-! ### Parsing full words -/

/-- The instruction a full word with an opcode in 0x000–0x07F names, before the checks of reserved bits and
operand rules (R71); `none` is a reserved code in some field, or an opcode outside R71. -/
def parseScalar (op w : Nat) : Option Instr :=
  match op with
  | 0x000 => some (.nop (ctlOf w))
  | 0x001 => do let sat := (bits w 11 1 == 1); let d ← sreg? (fD w); let a ← ssrc? (fA w); let b ← ssrc? (fB w); some (.sadd (ctlOf w) sat d a b)
  | 0x002 => do let sat := (bits w 11 1 == 1); let d ← sreg? (fD w); let a ← ssrc? (fA w); let b ← ssrc? (fB w); some (.ssub (ctlOf w) sat d a b)
  | 0x003 => do let sat := (bits w 11 1 == 1); let d ← sreg? (fD w); let a ← ssrc? (fA w); let b ← ssrc? (fB w); some (.smul (ctlOf w) sat d a b)
  | 0x004 => do let d ← sreg? (fD w); let a ← ssrc? (fA w); let b ← ssrc? (fB w); some (.smulh (ctlOf w) d a b)
  | 0x005 => do let d ← sreg? (fD w); let a ← ssrc? (fA w); let b ← ssrc? (fB w); some (.smulhn (ctlOf w) d a b)
  | 0x006 => do let d ← sreg? (fD w); let a ← ssrc? (fA w); let b ← ssrc? (fB w); some (.smin (ctlOf w) d a b)
  | 0x007 => do let d ← sreg? (fD w); let a ← ssrc? (fA w); let b ← ssrc? (fB w); some (.smax (ctlOf w) d a b)
  | 0x008 => do let d ← sreg? (fD w); let a ← ssrc? (fA w); let b ← ssrc? (fB w); some (.sminn (ctlOf w) d a b)
  | 0x009 => do let d ← sreg? (fD w); let a ← ssrc? (fA w); let b ← ssrc? (fB w); some (.smaxn (ctlOf w) d a b)
  | 0x00A => do let d ← sreg? (fD w); let a ← ssrc? (fA w); let b ← ssrc? (fB w); some (.sand (ctlOf w) d a b)
  | 0x00B => do let d ← sreg? (fD w); let a ← ssrc? (fA w); let b ← ssrc? (fB w); some (.sor (ctlOf w) d a b)
  | 0x00C => do let d ← sreg? (fD w); let a ← ssrc? (fA w); let b ← ssrc? (fB w); some (.sxor (ctlOf w) d a b)
  | 0x00D => do let d ← sreg? (fD w); let a ← ssrc? (fA w); let b ← ssrc? (fB w); some (.sandn (ctlOf w) d a b)
  | 0x00E => do let d ← sreg? (fD w); let a ← ssrc? (fA w); let b ← ssrc? (fB w); some (.sshl (ctlOf w) d a b)
  | 0x00F => do let d ← sreg? (fD w); let a ← ssrc? (fA w); let b ← ssrc? (fB w); some (.sshr (ctlOf w) d a b)
  | 0x010 => do let d ← sreg? (fD w); let a ← ssrc? (fA w); let b ← ssrc? (fB w); some (.ssra (ctlOf w) d a b)
  | 0x011 => do let d ← sreg? (fD w); let a ← ssrc? (fA w); let b ← ssrc? (fB w); some (.srot (ctlOf w) d a b)
  | 0x012 => do let d ← sreg? (fD w); let a ← ssrc? (fA w); some (.sclz (ctlOf w) d a)
  | 0x013 => do let d ← sreg? (fD w); let a ← ssrc? (fA w); some (.sctz (ctlOf w) d a)
  | 0x014 => do let d ← sreg? (fD w); let a ← ssrc? (fA w); some (.spopc (ctlOf w) d a)
  | 0x015 => do let d ← sreg? (fD w); let a ← ssrc? (fA w); some (.sbrev (ctlOf w) d a)
  | 0x016 => do let signed := (bits w 0 1 == 1); let d ← sreg? (fD w); let a ← ssrc? (fA w); let b ← ssrc? (fB w); let x ← ssrc? (fC w); some (.sbfx (ctlOf w) signed d a b x)
  | 0x017 => do let d ← sreg? (fD w); let a ← ssrc? (fA w); let b ← ssrc? (fB w); let x ← ssrc? (fC w); some (.sbfi (ctlOf w) d a b x)
  | 0x018 => do let z := (bits w 7 1 == 1); let n := BitVec.ofNat 7 (bits w 0 7); let d ← sreg? (fD w); let a ← ssrc? (fA w); some (.ssext (ctlOf w) z n d a)
  | 0x019 => do let pod := (bits w 3 1 == 1); let k := Fin.ofNat 8 (bits w 0 3); let d ← sreg? (fD w); let a ← ssrc? (fA w); let b ← ssrc? (fB w); some (.slea (ctlOf w) pod k d a b)
  | 0x01A => do let d ← sreg? (fD w); let a ← ssrc? (fA w); let b ← ssrc? (fB w); let x ← ssrc? (fC w); some (.sselz (ctlOf w) d a b x)
  | 0x01B => do let d ← sreg? (fD w); let a ← ssrc? (fA w); some (.smov (ctlOf w) d a)
  | 0x01C => do let cond ← cond? (bits w 0 4); let a ← ssrc? (fA w); let b ← ssrc? (fB w); some (.scmp (ctlOf w) cond a b)
  | 0x01D => do let sat := (bits w 11 1 == 1); let d ← sreg? (fD w); let a ← ssrc? (fA w); some (.sabs (ctlOf w) sat d a)
  | 0x01E => do let n := (bits w 0 1 == 1); let d ← sreg? (fD w); let a ← ssrc? (fA w); let b ← ssrc? (fB w); let x ← ssrc? (fC w); some (.sclamp (ctlOf w) n d a b x)
  | 0x020 => do let sat := (bits w 11 1 == 1); let d ← sreg? (fD w); let a ← ssrc? (fA w); let k := BitVec.ofNat 16 (bits w 15 16); some (.saddi (ctlOf w) sat d a k)
  | 0x021 => do let sat := (bits w 11 1 == 1); let d ← sreg? (fD w); let a ← ssrc? (fA w); let k := BitVec.ofNat 16 (bits w 15 16); some (.smuli (ctlOf w) sat d a k)
  | 0x022 => do let d ← sreg? (fD w); let a ← ssrc? (fA w); let k := BitVec.ofNat 16 (bits w 15 16); some (.sandi (ctlOf w) d a k)
  | 0x023 => do let d ← sreg? (fD w); let a ← ssrc? (fA w); let k := BitVec.ofNat 16 (bits w 15 16); some (.sori (ctlOf w) d a k)
  | 0x024 => do let d ← sreg? (fD w); let a ← ssrc? (fA w); let k := BitVec.ofNat 16 (bits w 15 16); some (.sxori (ctlOf w) d a k)
  | 0x025 => do let d ← sreg? (fD w); let a ← ssrc? (fA w); let k := BitVec.ofNat 6 (bits w 15 6); some (.sshli (ctlOf w) d a k)
  | 0x026 => do let d ← sreg? (fD w); let a ← ssrc? (fA w); let k := BitVec.ofNat 6 (bits w 15 6); some (.sshri (ctlOf w) d a k)
  | 0x027 => do let d ← sreg? (fD w); let a ← ssrc? (fA w); let k := BitVec.ofNat 6 (bits w 15 6); some (.ssrai (ctlOf w) d a k)
  | 0x028 => do let d ← sreg? (fD w); let a ← ssrc? (fA w); let k := BitVec.ofNat 6 (bits w 15 6); some (.sroti (ctlOf w) d a k)
  | 0x029 => do let cond ← cond? (bits w 0 4); let a ← ssrc? (fA w); let k := BitVec.ofNat 16 (bits w 15 16); some (.scmpi (ctlOf w) cond a k)
  | 0x02A => do let d ← sreg? (fD w); let a ← ssrc? (fA w); let k := BitVec.ofNat 16 (bits w 15 16); some (.smini (ctlOf w) d a k)
  | 0x02B => do let d ← sreg? (fD w); let a ← ssrc? (fA w); let k := BitVec.ofNat 16 (bits w 15 16); some (.smaxi (ctlOf w) d a k)
  | 0x030 => do let d ← sreg? (fD w); let k := BitVec.ofNat 32 (bits w 7 32); some (.smovk (ctlOf w) d k)
  | 0x031 => do let d ← sreg? (fD w); let k := BitVec.ofNat 32 (bits w 7 32); some (.smovkh (ctlOf w) d k)
  | 0x032 => do let d ← sreg? (fD w); let k := BitVec.ofNat 32 (bits w 7 32); some (.saddk (ctlOf w) d k)
  | 0x033 => do let d ← sreg? (fD w); let k := BitVec.ofNat 32 (bits w 7 32); some (.sleapc (ctlOf w) d k)
  | 0x040 => do let d ← sreg? (fD w); some (.exsave (ctlOf w) d)
  | 0x041 => do let a ← ssrc? (fA w); some (.exload (ctlOf w) a)
  | 0x042 => do let d ← sreg? (fD w); let a ← ssrc? (fA w); some (.exand (ctlOf w) d a)
  | 0x043 => do let d ← sreg? (fD w); let a ← ssrc? (fA w); some (.exandn (ctlOf w) d a)
  | 0x044 => do let neg := (bits w 3 1 == 1); let depth := Fin.ofNat 8 (bits w 0 3); let d ← sreg? (fD w); some (.exfromq (ctlOf w) neg depth d)
  | 0x045 => do let d ← sreg? (fD w); some (.qsave (ctlOf w) d)
  | 0x046 => do let a ← ssrc? (fA w); some (.qload (ctlOf w) a)
  | 0x047 => do let d ← sreg? (fD w); some (.moderd (ctlOf w) d)
  | 0x048 => do let a ← ssrc? (fA w); some (.modewr (ctlOf w) a)
  | 0x049 => do let rm ← rm? (bits w 12 3); some (.moderm (ctlOf w) rm)
  | _ => none

/-- The instruction a full word with an opcode in 0x080–0x0FF names, before the checks of reserved bits and
operand rules (R71); `none` is a reserved code in some field, or an opcode outside R71. -/
def parseControl (op w : Nat) : Option Instr :=
  match op with
  | 0x080 => do let pack := (bits w 6 1 == 1); let disp := BitVec.ofNat 32 (bits w 7 32); some (.bra (ctlOf w) pack disp)
  | 0x081 => do let pack := (bits w 6 1 == 1); let disp := BitVec.ofNat 32 (bits w 7 32); some (.bexz (ctlOf w) pack disp)
  | 0x082 => do let pack := (bits w 6 1 == 1); let disp := BitVec.ofNat 32 (bits w 7 32); some (.bexnz (ctlOf w) pack disp)
  | 0x083 => do let d ← sreg? (fD w); let disp := BitVec.ofNat 32 (bits w 7 32); some (.call (ctlOf w) d disp)
  | 0x084 => do let a ← ssrc? (fA w); some (.ret (ctlOf w) a)
  | 0x085 => do let a ← ssrc? (fA w); some (.brs (ctlOf w) a)
  | 0x086 => do let a ← ssrc? (fA w); some (.brix (ctlOf w) a)
  | 0x087 => do let d ← sreg? (fD w); let va ← vreg? (fA w); some (.brixl (ctlOf w) d va)
  | 0x088 => some (.exit (ctlOf w))
  | 0x089 => do let ld := Fin.ofNat 8 (bits w 12 3); let st := Fin.ofNat 8 (bits w 9 3); let en := Fin.ofNat 8 (bits w 6 3); let wl := Fin.ofNat 8 (bits w 3 3); let fb := Fin.ofNat 8 (bits w 0 3); some (.wait (ctlOf w) ld st en wl fb)
  | 0x08A => do let xsm := BitVec.ofNat 8 (bits w 7 8); some (.regang (ctlOf w) xsm)
  | _ => none

/-- The instruction a full word with an opcode in 0x100–0x13F names, before the checks of reserved bits and
operand rules (R71); `none` is a reserved code in some field, or an opcode outside R71. -/
def parseVector (op w : Nat) : Option Instr :=
  match op with
  | 0x100 => do let f ← fmt? (bits w 4 5); let rnd ← rnd? (bits w 12 3); let sat := (bits w 11 1 == 1); let d ← vreg? (fD w); let a ← vreg? (fA w); let b ← vsrc? (bits w 10 1) (fB w); some (.vadd (ctlOf w) f rnd sat d a b)
  | 0x101 => do let f ← fmt? (bits w 4 5); let rnd ← rnd? (bits w 12 3); let sat := (bits w 11 1 == 1); let d ← vreg? (fD w); let a ← vreg? (fA w); let b ← vsrc? (bits w 10 1) (fB w); some (.vsub (ctlOf w) f rnd sat d a b)
  | 0x102 => do let f ← fmt? (bits w 4 5); let rnd ← rnd? (bits w 12 3); let sat := (bits w 11 1 == 1); let d ← vreg? (fD w); let a ← vreg? (fA w); let b ← vsrc? (bits w 10 1) (fB w); some (.vmul (ctlOf w) f rnd sat d a b)
  | 0x103 => do let f ← fmt? (bits w 4 5); let rnd ← rnd? (bits w 12 3); let sat := (bits w 11 1 == 1); let d ← vreg? (fD w); let a ← vreg? (fA w); let b ← vsrc? (bits w 10 1) (fB w); let x ← vsrc? (bits w 9 1) (fC w); some (.vfma (ctlOf w) f rnd sat d a b x)
  | 0x104 => do let f ← fmt? (bits w 4 5); let rnd ← rnd? (bits w 12 3); let sat := (bits w 11 1 == 1); let d ← vreg? (fD w); let a ← vreg? (fA w); let b ← vsrc? (bits w 10 1) (fB w); let x ← vsrc? (bits w 9 1) (fC w); some (.vfms (ctlOf w) f rnd sat d a b x)
  | 0x105 => do let f ← fmt? (bits w 4 5); let rnd ← rnd? (bits w 12 3); let sat := (bits w 11 1 == 1); let d ← vreg? (fD w); let a ← vreg? (fA w); let b ← vsrc? (bits w 10 1) (fB w); let x ← vsrc? (bits w 9 1) (fC w); some (.vfnma (ctlOf w) f rnd sat d a b x)
  | 0x106 => do let f ← fmt? (bits w 4 5); let prop := (bits w 0 1 == 1); let d ← vreg? (fD w); let a ← vreg? (fA w); let b ← vsrc? (bits w 10 1) (fB w); some (.vmin (ctlOf w) f prop d a b)
  | 0x107 => do let f ← fmt? (bits w 4 5); let prop := (bits w 0 1 == 1); let d ← vreg? (fD w); let a ← vreg? (fA w); let b ← vsrc? (bits w 10 1) (fB w); some (.vmax (ctlOf w) f prop d a b)
  | 0x108 => do let f ← fmt? (bits w 4 5); let sat := (bits w 11 1 == 1); let d ← vreg? (fD w); let a ← vreg? (fA w); some (.vabs (ctlOf w) f sat d a)
  | 0x109 => do let f ← fmt? (bits w 4 5); let sat := (bits w 11 1 == 1); let d ← vreg? (fD w); let a ← vreg? (fA w); some (.vneg (ctlOf w) f sat d a)
  | 0x10A => do let f ← fmt? (bits w 4 5); let xor := (bits w 0 1 == 1); let d ← vreg? (fD w); let a ← vreg? (fA w); let b ← vsrc? (bits w 10 1) (fB w); some (.vcpsgn (ctlOf w) f xor d a b)
  | 0x10B => do let f ← fmt? (bits w 4 5); let cond ← cond? (bits w 0 4); let a ← vreg? (fA w); let b ← vsrc? (bits w 10 1) (fB w); some (.vcmp (ctlOf w) f cond a b)
  | 0x10C => do let f ← fmt? (bits w 4 5); let neg := (bits w 3 1 == 1); let depth := Fin.ofNat 8 (bits w 0 3); let d ← vreg? (fD w); let a ← vreg? (fA w); let b ← vsrc? (bits w 10 1) (fB w); some (.vsel (ctlOf w) f neg depth d a b)
  | 0x10D => do let f ← fmt? (bits w 4 5); let d ← vreg? (fD w); let b ← vsrc? (bits w 10 1) (fB w); some (.vmov (ctlOf w) f d b)
  | 0x10E => do let f ← fmt? (bits w 4 5); let rnd ← rnd? (bits w 12 3); let sat := (bits w 11 1 == 1); let d ← vreg? (fD w); let a ← vreg? (fA w); let src ← fmt? (fC w); some (.vcvt (ctlOf w) f src rnd sat d a)
  | 0x10F => do let f ← fmt? (bits w 4 5); let rnd ← rnd? (bits w 12 3); let d ← vreg? (fD w); let a ← vreg? (fA w); some (.vrnd (ctlOf w) f rnd d a)
  | 0x110 => do let f ← fmt? (bits w 4 5); let rnd ← rnd? (bits w 12 3); let sat := (bits w 11 1 == 1); let d ← vreg? (fD w); let a ← vreg? (fA w); let b ← vsrc? (bits w 10 1) (fB w); some (.vfdiv (ctlOf w) f rnd sat d a b)
  | 0x111 => do let f ← fmt? (bits w 4 5); let d ← vreg? (fD w); let a ← vreg? (fA w); some (.vclass (ctlOf w) f d a)
  | 0x112 => do let f ← fmt? (bits w 4 5); let rnd ← rnd? (bits w 12 3); let sat := (bits w 11 1 == 1); let d ← vreg? (fD w); let a ← vreg? (fA w); let b ← vsrc? (bits w 10 1) (fB w); some (.vscalb (ctlOf w) f rnd sat d a b)
  | 0x113 => do let f ← fmt? (bits w 4 5); let d ← vreg? (fD w); let a ← vreg? (fA w); let b ← vsrc? (bits w 10 1) (fB w); some (.vabsd (ctlOf w) f d a b)
  | 0x114 => do let f ← fmt? (bits w 4 5); let sat := (bits w 11 1 == 1); let d ← vreg? (fD w); let a ← vreg? (fA w); let b ← vsrc? (bits w 10 1) (fB w); let x ← vsrc? (bits w 9 1) (fC w); some (.vmad (ctlOf w) f sat d a b x)
  | 0x115 => do let f ← fmt? (bits w 4 5); let d ← vreg? (fD w); let a ← vreg? (fA w); let b ← vsrc? (bits w 10 1) (fB w); some (.vmulh (ctlOf w) f d a b)
  | 0x116 => do let f ← fmt? (bits w 4 5); let d ← vreg? (fD w); let a ← vreg? (fA w); let b ← vsrc? (bits w 10 1) (fB w); some (.vand (ctlOf w) f d a b)
  | 0x117 => do let f ← fmt? (bits w 4 5); let d ← vreg? (fD w); let a ← vreg? (fA w); let b ← vsrc? (bits w 10 1) (fB w); some (.vor (ctlOf w) f d a b)
  | 0x118 => do let f ← fmt? (bits w 4 5); let d ← vreg? (fD w); let a ← vreg? (fA w); let b ← vsrc? (bits w 10 1) (fB w); some (.vxor (ctlOf w) f d a b)
  | 0x119 => do let f ← fmt? (bits w 4 5); let d ← vreg? (fD w); let a ← vreg? (fA w); let b ← vsrc? (bits w 10 1) (fB w); some (.vandn (ctlOf w) f d a b)
  | 0x11A => do let f ← fmt? (bits w 4 5); let d ← vreg? (fD w); let a ← vreg? (fA w); some (.vnot (ctlOf w) f d a)
  | 0x11B => do let f ← fmt? (bits w 4 5); let d ← vreg? (fD w); let a ← vreg? (fA w); let b ← vsrc? (bits w 10 1) (fB w); some (.vshl (ctlOf w) f d a b)
  | 0x11C => do let f ← fmt? (bits w 4 5); let d ← vreg? (fD w); let a ← vreg? (fA w); let b ← vsrc? (bits w 10 1) (fB w); some (.vshr (ctlOf w) f d a b)
  | 0x11D => do let f ← fmt? (bits w 4 5); let d ← vreg? (fD w); let a ← vreg? (fA w); let b ← vsrc? (bits w 10 1) (fB w); some (.vsra (ctlOf w) f d a b)
  | 0x11E => do let f ← fmt? (bits w 4 5); let d ← vreg? (fD w); let a ← vreg? (fA w); some (.vclz (ctlOf w) f d a)
  | 0x11F => do let f ← fmt? (bits w 4 5); let d ← vreg? (fD w); let a ← vreg? (fA w); some (.vpopc (ctlOf w) f d a)
  | 0x120 => do let f ← fmt? (bits w 4 5); let d ← vreg? (fD w); let a ← vreg? (fA w); some (.vbrev (ctlOf w) f d a)
  | 0x121 => do let f ← fmt? (bits w 4 5); let signed := (bits w 0 1 == 1); let d ← vreg? (fD w); let a ← vreg? (fA w); let b ← vsrc? (bits w 10 1) (fB w); let x ← vsrc? (bits w 9 1) (fC w); some (.vbfx (ctlOf w) f signed d a b x)
  | 0x122 => do let f ← fmt? (bits w 4 5); let d ← vreg? (fD w); let a ← vreg? (fA w); let b ← vsrc? (bits w 10 1) (fB w); let x ← vsrc? (bits w 9 1) (fC w); some (.vbfi (ctlOf w) f d a b x)
  | 0x123 => do let f ← fmt? (bits w 4 5); let rnd ← rnd? (bits w 12 3); let sat := (bits w 11 1 == 1); let d ← vreg? (fD w); let a ← vreg? (fA w); let b ← vsrc? (bits w 10 1) (fB w); let x ← vsrc? (bits w 9 1) (fC w); some (.vdot2 (ctlOf w) f rnd sat d a b x)
  | 0x124 => do let f ← fmt? (bits w 4 5); let rnd ← rnd? (bits w 12 3); let sat := (bits w 11 1 == 1); let d ← vreg? (fD w); let a ← vreg? (fA w); let b ← vsrc? (bits w 10 1) (fB w); some (.vpack (ctlOf w) f rnd sat d a b)
  | 0x125 => do let f ← fmt? (bits w 4 5); let d ← vreg? (fD w); let a ← vreg? (fA w); some (.vunpkl (ctlOf w) f d a)
  | 0x126 => do let f ← fmt? (bits w 4 5); let d ← vreg? (fD w); let a ← vreg? (fA w); some (.vunpkh (ctlOf w) f d a)
  | 0x127 => do let f ← fmt? (bits w 4 5); let d ← vreg? (fD w); let a ← vreg? (fA w); let b ← vsrc? (bits w 10 1) (fB w); some (.vkbenc (ctlOf w) f d a b)
  | 0x128 => do let f ← fmt? (bits w 4 5); let q := (bits w 0 1 == 1); let d ← vreg? (fD w); let a ← vreg? (fA w); some (.vkbdec (ctlOf w) f q d a)
  | 0x129 => do let d ← vreg? (fD w); let k := BitVec.ofNat 32 (bits w 7 32); some (.vmovk (ctlOf w) d k)
  | 0x12A => do let f ← fmt? (bits w 4 5); let prop := (bits w 0 1 == 1); let d ← vreg? (fD w); let a ← vreg? (fA w); let b ← vsrc? (bits w 10 1) (fB w); let x ← vsrc? (bits w 9 1) (fC w); some (.vclamp (ctlOf w) f prop d a b x)
  | 0x12B => do let d ← vreg? (fD w); some (.vmovq (ctlOf w) d)
  | _ => none

/-- The instruction a full word with an opcode in 0x140–0x17F names, before the checks of reserved bits and
operand rules (R71); `none` is a reserved code in some field, or an opcode outside R71. -/
def parseSpecial (op w : Nat) : Option Instr :=
  match op with
  | 0x140 => do let f ← fmt? (bits w 4 5); let rnd ← rnd? (bits w 12 3); let sat := (bits w 11 1 == 1); let d ← vreg? (fD w); let a ← vreg? (fA w); some (.vrcp (ctlOf w) f rnd sat d a)
  | 0x141 => do let f ← fmt? (bits w 4 5); let rnd ← rnd? (bits w 12 3); let sat := (bits w 11 1 == 1); let d ← vreg? (fD w); let a ← vreg? (fA w); some (.vrsq (ctlOf w) f rnd sat d a)
  | 0x142 => do let f ← fmt? (bits w 4 5); let rnd ← rnd? (bits w 12 3); let sat := (bits w 11 1 == 1); let d ← vreg? (fD w); let a ← vreg? (fA w); some (.vsqrt (ctlOf w) f rnd sat d a)
  | 0x143 => do let f ← fmt? (bits w 4 5); let rnd ← rnd? (bits w 12 3); let sat := (bits w 11 1 == 1); let d ← vreg? (fD w); let a ← vreg? (fA w); some (.vexp2 (ctlOf w) f rnd sat d a)
  | 0x144 => do let f ← fmt? (bits w 4 5); let rnd ← rnd? (bits w 12 3); let sat := (bits w 11 1 == 1); let d ← vreg? (fD w); let a ← vreg? (fA w); some (.vlog2 (ctlOf w) f rnd sat d a)
  | 0x145 => do let f ← fmt? (bits w 4 5); let rnd ← rnd? (bits w 12 3); let sat := (bits w 11 1 == 1); let d ← vreg? (fD w); let a ← vreg? (fA w); some (.vsin (ctlOf w) f rnd sat d a)
  | 0x146 => do let f ← fmt? (bits w 4 5); let rnd ← rnd? (bits w 12 3); let sat := (bits w 11 1 == 1); let d ← vreg? (fD w); let a ← vreg? (fA w); some (.vcos (ctlOf w) f rnd sat d a)
  | 0x147 => do let f ← fmt? (bits w 4 5); let rnd ← rnd? (bits w 12 3); let sat := (bits w 11 1 == 1); let d ← vreg? (fD w); let a ← vreg? (fA w); some (.vtanh (ctlOf w) f rnd sat d a)
  | 0x150 => do let a ← ssrc? (fA w); some (.actld (ctlOf w) a)
  | 0x151 => do let n := (bits w 0 1 == 1); some (.actsel (ctlOf w) n)
  | 0x152 => do let rnd ← rnd? (bits w 12 3); let sat := (bits w 11 1 == 1); let d ← vreg? (fD w); let a ← vreg? (fA w); some (.vact (ctlOf w) rnd sat d a)
  | 0x160 => do let d ← vreg? (fD w); let a ← vreg? (fA w); let b ← vsrc? (bits w 10 1) (fB w); some (.vdivI32 (ctlOf w) d a b)
  | 0x161 => do let d ← vreg? (fD w); let a ← vreg? (fA w); let b ← vsrc? (bits w 10 1) (fB w); some (.vdivN32 (ctlOf w) d a b)
  | 0x162 => do let d ← vreg? (fD w); let a ← vreg? (fA w); let b ← vsrc? (bits w 10 1) (fB w); some (.vremI32 (ctlOf w) d a b)
  | 0x163 => do let d ← vreg? (fD w); let a ← vreg? (fA w); let b ← vsrc? (bits w 10 1) (fB w); some (.vremN32 (ctlOf w) d a b)
  | _ => none

/-- The instruction a full word with an opcode in 0x180–0x1FF names, before the checks of reserved bits and
operand rules (R71); `none` is a reserved code in some field, or an opcode outside R71. -/
def parseCross (op w : Nat) : Option Instr :=
  match op with
  | 0x180 => do let f ← fmt? (bits w 0 5); let keep := (bits w 6 1 == 1); let d ← vreg? (fD w); let a ← vreg? (fA w); let b ← vsrc? (bits w 5 1) (fB w); let mask ← slicemask? w; some (.vshfl (ctlOf w) f keep mask d a b)
  | 0x181 => do let f ← fmt? (bits w 0 5); let keep := (bits w 6 1 == 1); let d ← vreg? (fD w); let a ← vreg? (fA w); let b ← vsrc? (bits w 5 1) (fB w); let mask ← slicemask? w; some (.vshflup (ctlOf w) f keep mask d a b)
  | 0x182 => do let f ← fmt? (bits w 0 5); let keep := (bits w 6 1 == 1); let d ← vreg? (fD w); let a ← vreg? (fA w); let b ← vsrc? (bits w 5 1) (fB w); let mask ← slicemask? w; some (.vshfldn (ctlOf w) f keep mask d a b)
  | 0x183 => do let f ← fmt? (bits w 0 5); let keep := (bits w 6 1 == 1); let d ← vreg? (fD w); let a ← vreg? (fA w); let b ← vsrc? (bits w 5 1) (fB w); let mask ← slicemask? w; some (.vshflx (ctlOf w) f keep mask d a b)
  | 0x184 => do let f ← fmt? (bits w 0 5); let d ← vreg? (fD w); let a ← vreg? (fA w); let mask ← slicemask? w; some (.vbcast (ctlOf w) f mask d a)
  | 0x185 => do let f ← fmt? (bits w 0 5); let a ← vreg? (fA w); let mask ← slicemask? w; some (.voteany (ctlOf w) f mask a)
  | 0x186 => do let f ← fmt? (bits w 0 5); let a ← vreg? (fA w); let mask ← slicemask? w; some (.voteall (ctlOf w) f mask a)
  | 0x187 => do let f ← fmt? (bits w 0 5); let a ← vreg? (fA w); let mask ← slicemask? w; some (.voteuni (ctlOf w) f mask a)
  | 0x188 => do let f ← fmt? (bits w 0 5); let d ← sreg? (fD w); let a ← vreg? (fA w); let mask ← slicemask? w; some (.vballot (ctlOf w) f mask d a)
  | 0x189 => do let f ← fmt? (bits w 0 5); let d ← vreg? (fD w); let a ← vreg? (fA w); let mask ← slicemask? w; some (.vmatchany (ctlOf w) f mask d a)
  | 0x18A => do let f ← fmt? (bits w 0 5); let d ← vreg? (fD w); let a ← vreg? (fA w); let mask ← slicemask? w; some (.vmatchall (ctlOf w) f mask d a)
  | 0x18B => do let f ← fmt? (bits w 0 5); let d ← vreg? (fD w); let a ← vreg? (fA w); let mask ← slicemask? w; some (.vredadd (ctlOf w) f mask d a)
  | 0x18C => do let f ← fmt? (bits w 0 5); let d ← vreg? (fD w); let a ← vreg? (fA w); let mask ← slicemask? w; some (.vredmin (ctlOf w) f mask d a)
  | 0x18D => do let f ← fmt? (bits w 0 5); let d ← vreg? (fD w); let a ← vreg? (fA w); let mask ← slicemask? w; some (.vredmax (ctlOf w) f mask d a)
  | 0x18E => do let f ← fmt? (bits w 0 5); let d ← vreg? (fD w); let a ← vreg? (fA w); let mask ← slicemask? w; some (.vredand (ctlOf w) f mask d a)
  | 0x18F => do let f ← fmt? (bits w 0 5); let d ← vreg? (fD w); let a ← vreg? (fA w); let mask ← slicemask? w; some (.vredor (ctlOf w) f mask d a)
  | 0x190 => do let f ← fmt? (bits w 0 5); let d ← vreg? (fD w); let a ← vreg? (fA w); let mask ← slicemask? w; some (.vredxor (ctlOf w) f mask d a)
  | 0x191 => do let f ← fmt? (bits w 0 5); let d ← vreg? (fD w); let a ← vreg? (fA w); let mask ← slicemask? w; some (.vscanadd (ctlOf w) f mask d a)
  | _ => none

/-- The instruction a full word with an opcode in 0x200–0x23F names, before the checks of reserved bits and
operand rules (R71); `none` is a reserved code in some field, or an opcode outside R71. -/
def parseMemory (op w : Nat) : Option Instr :=
  match op with
  | 0x200 => do let fe ← fe? (bits w 6 2); let sz ← sz? (bits w 3 3); let mem ← memarg? w; let d ← vreg? (fD w); some (.vld (ctlOf w) mem fe sz d)
  | 0x201 => do let fe ← fe? (bits w 6 2); let sz ← sz? (bits w 3 3); let el := (bits w 1 1 == 1); let mem ← memarg? w; let d ← vreg? (fD w); some (.vst (ctlOf w) mem fe sz el d)
  | 0x202 => do let fe ← fe? (bits w 6 2); let sz ← sz? (bits w 3 3); let mem ← memarg? w; let d ← sreg? (fD w); some (.sld (ctlOf w) mem fe sz d)
  | 0x203 => do let fe ← fe? (bits w 6 2); let sz ← sz? (bits w 3 3); let el := (bits w 1 1 == 1); let mem ← memarg? w; let d ← sreg? (fD w); some (.sst (ctlOf w) mem fe sz el d)
  | 0x204 => do let fe ← fe? (bits w 6 2); let sz ← sz? (bits w 3 3); let mem ← memarg? w; let d ← vreg? (fD w); some (.vldtr (ctlOf w) mem fe sz d)
  | 0x205 => do let mem ← memarg? w; some (.pref (ctlOf w) mem)
  | 0x206 => do let mem ← memarg? w; some (.feset (ctlOf w) mem)
  | 0x207 => do let mem ← memarg? w; some (.feclr (ctlOf w) mem)
  | 0x210 => do let sz ← sz? (bits w 3 3); let rv := (bits w 0 1 == 1); let mem ← memarg? w; let d ← vreg? (fD w); some (.atadd (ctlOf w) mem sz rv d)
  | 0x211 => do let sz ← sz? (bits w 3 3); let rv := (bits w 0 1 == 1); let mem ← memarg? w; let d ← vreg? (fD w); some (.atmin (ctlOf w) mem sz rv d)
  | 0x212 => do let sz ← sz? (bits w 3 3); let rv := (bits w 0 1 == 1); let mem ← memarg? w; let d ← vreg? (fD w); some (.atminn (ctlOf w) mem sz rv d)
  | 0x213 => do let sz ← sz? (bits w 3 3); let rv := (bits w 0 1 == 1); let mem ← memarg? w; let d ← vreg? (fD w); some (.atmax (ctlOf w) mem sz rv d)
  | 0x214 => do let sz ← sz? (bits w 3 3); let rv := (bits w 0 1 == 1); let mem ← memarg? w; let d ← vreg? (fD w); some (.atmaxn (ctlOf w) mem sz rv d)
  | 0x215 => do let sz ← sz? (bits w 3 3); let rv := (bits w 0 1 == 1); let mem ← memarg? w; let d ← vreg? (fD w); some (.atand (ctlOf w) mem sz rv d)
  | 0x216 => do let sz ← sz? (bits w 3 3); let rv := (bits w 0 1 == 1); let mem ← memarg? w; let d ← vreg? (fD w); some (.ator (ctlOf w) mem sz rv d)
  | 0x217 => do let sz ← sz? (bits w 3 3); let rv := (bits w 0 1 == 1); let mem ← memarg? w; let d ← vreg? (fD w); some (.atxor (ctlOf w) mem sz rv d)
  | 0x218 => do let sz ← sz? (bits w 3 3); let rv := (bits w 0 1 == 1); let mem ← memarg? w; let d ← vreg? (fD w); some (.atxchg (ctlOf w) mem sz rv d)
  | 0x219 => do let sz ← sz? (bits w 3 3); let mem ← memarg? w; let d ← vreg? (fD w); some (.atcas (ctlOf w) mem sz d)
  | 0x21A => do let rv := (bits w 0 1 == 1); let mem ← memarg? w; let d ← vreg? (fD w); some (.atfadd (ctlOf w) mem rv d)
  | 0x21B => do let rv := (bits w 0 1 == 1); let mem ← memarg? w; let d ← vreg? (fD w); some (.atbadd2 (ctlOf w) mem rv d)
  | 0x220 => do let sz ← sz? (bits w 3 3); let pr ← pr? (bits w 0 2); let mem ← memarg? w; let d ← vreg? (fD w); some (.wld (ctlOf w) mem sz pr d)
  | 0x221 => do let a ← ssrc? (fA w); let b ← ssrc? (fB w); some (.wdset (ctlOf w) a b)
  | 0x222 => do let a ← ssrc? (fA w); let b ← ssrc? (fB w); some (.wdget (ctlOf w) a b)
  | 0x230 => if bits w 8 1 == 1 then some (.fenceSc (ctlOf w)) else do let scope ← scope? (bits w 11 4); let ord ← ord? (bits w 9 2); some (.fence (ctlOf w) scope ord)
  | 0x231 => do let scope ← scope? (bits w 11 4); let frm ← eclass? (bits w 8 3); let too ← eclass? (bits w 5 3); some (.xfence (ctlOf w) scope frm too)
  | 0x232 => do let scope ← scope? (bits w 11 4); let all := (bits w 10 1 == 1); let a ← ssrc? (fA w); let b ← ssrc? (fB w); some (.icinv (ctlOf w) scope all a b)
  | _ => none

/-- The instruction a full word with an opcode in 0x240–0x2FF names, before the checks of reserved bits and
operand rules (R71); `none` is a reserved code in some field, or an opcode outside R71. -/
def parseSync (op w : Nat) : Option Instr :=
  match op with
  | 0x240 => do let sz ← sz? (bits w 3 3); let mem ← memarg? w; let d ← vreg? (fD w); some (.podld (ctlOf w) mem sz d)
  | 0x241 => do let sz ← sz? (bits w 3 3); let mem ← memarg? w; let d ← vreg? (fD w); some (.podst (ctlOf w) mem sz d)
  | 0x242 => do let sz ← sz? (bits w 3 3); let rop ← rop? (4 * bits w 6 2 + bits w 0 2); let mem ← memarg? w; let d ← vreg? (fD w); some (.podred (ctlOf w) mem sz rop d)
  | 0x250 => do let id := Fin.ofNat 16 (bits w 0 4); let mask ← optsrc? (bits w 4 1) (fA w); some (.bar (ctlOf w) id mask)
  | 0x251 => do let a ← ssrc? (fA w); let b ← ssrc? (fB w); some (.abwait (ctlOf w) a b)
  | 0x252 => do let a ← ssrc? (fA w); let b ← ssrc? (fB w); some (.abtest (ctlOf w) a b)
  | 0x253 => do let a ← ssrc? (fA w); let b ← ssrc? (fB w); some (.abinit (ctlOf w) a b)
  | 0x254 => do let scope ← scope? (bits w 11 4); let rel := (bits w 9 2 == 2); let a ← ssrc? (fA w); let bytes ← optsrc? (bits w 8 1) (fB w); some (.abarr (ctlOf w) scope rel a bytes)
  | 0x255 => do let a ← ssrc? (fA w); let b ← ssrc? (fB w); some (.abexp (ctlOf w) a b)
  | _ => none

/-- The instruction a full word with an opcode in 0x300–0x33F names, before the checks of reserved bits and
operand rules (R71); `none` is a reserved code in some field, or an opcode outside R71. -/
def parseEngine (op w : Nat) : Option Instr :=
  match op with
  | 0x300 => do let ns := (bits w 11 1 == 1); let mode ← mode? (bits w 8 3); let nc ← nc? (bits w 6 2); let xf ← fmt? (bits w 0 5); let tb ← treg? (fA w); let sm ← ssrc? (fB w); let ab ← optsrc? (bits w 5 1) (fD w); some (.ldstat (ctlOf w) ns mode nc xf tb sm ab)
  | 0x301 => do let ab ← optsrc? (bits w 5 1) (fD w); some (.pswap (ctlOf w) ab)
  | 0x302 => do let rnd ← rnd? (bits w 12 3); let mode ← mode? (bits w 8 3); let ta ← treg? (fA w); let sp ← ssrc? (fB w); let ab ← optsrc? (bits w 5 1) (fD w); some (.mx (ctlOf w) rnd mode ta sp ab)
  | 0x303 => do let rnd ← rnd? (bits w 12 3); let mode ← mode? (bits w 8 3); let nc ← nc? (bits w 6 2); let ta ← treg? (fA w); let sp ← ssrc? (fB w); let ab ← optsrc? (bits w 5 1) (fD w); some (.mxsp (ctlOf w) rnd mode nc ta sp ab)
  | 0x304 => do let mode ← mode? (bits w 8 3); let ta ← treg? (fA w); let sp ← ssrc? (fB w); let ab ← optsrc? (bits w 5 1) (fD w); some (.mxb (ctlOf w) mode ta sp ab)
  | 0x305 => do let mode ← mode? (bits w 8 3); let ta ← treg? (fA w); let sp ← ssrc? (fB w); let ab ← optsrc? (bits w 5 1) (fD w); some (.mxbsp (ctlOf w) mode ta sp ab)
  | 0x306 => do let rnd ← rnd? (bits w 12 3); let sr ← ssrc? (fA w); let sa ← ssrc? (fB w); let sb ← ssrc? (fC w); let ab ← optsrc? (bits w 5 1) (fD w); some (.scacc (ctlOf w) rnd sr sa sb ab)
  | 0x307 => do let sr ← ssrc? (fA w); let ab ← optsrc? (bits w 5 1) (fD w); some (.accclr (ctlOf w) sr ab)
  | 0x308 => do let rnd ← rnd? (bits w 12 3); let sat := (bits w 11 1 == 1); let ic := (bits w 0 1 == 1); let td ← treg? (fA w); let sp ← ssrc? (fB w); let ab ← optsrc? (bits w 5 1) (fD w); some (.accrd (ctlOf w) rnd sat ic td sp ab)
  | 0x309 => do let ts ← treg? (fA w); let sp ← ssrc? (fB w); let ab ← optsrc? (bits w 5 1) (fD w); some (.accwr (ctlOf w) ts sp ab)
  | 0x30A => do let ss ← ssrc? (fA w); let sd ← ssrc? (fB w); let sz ← ssrc? (fC w); let ab ← optsrc? (bits w 5 1) (fD w); some (.accmv (ctlOf w) ss sd sz ab)
  | 0x30B => do let rnd ← rnd? (bits w 12 3); let mode ← mode? (bits w 8 3); let ta ← treg? (fA w); let tb ← treg? (fB w); let sp ← ssrc? (fC w); let ab ← optsrc? (bits w 5 1) (fD w); some (.mxtile (ctlOf w) rnd mode ta tb sp ab)
  | 0x30C => do let td ← treg? (fA w); let ts ← treg? (fB w); let ab ← optsrc? (bits w 5 1) (fD w); some (.cptile (ctlOf w) td ts ab)
  | 0x30D => do let rnd ← rnd? (bits w 12 3); let sc ← ssrc? (fA w); let ta ← treg? (fB w); let tb ← treg? (fC w); let ab ← optsrc? (bits w 5 1) (fD w); some (.sctile (ctlOf w) rnd sc ta tb ab)
  | 0x30E => do let sd ← ssrc? (fA w); let ss ← ssrc? (fB w); let sl ← ssrc? (fC w); let ab ← optsrc? (bits w 5 1) (fD w); some (.cpcopy (ctlOf w) sd ss sl ab)
  | 0x30F => do let td ← treg? (fA w); let ts ← treg? (fB w); let ab ← optsrc? (bits w 5 1) (fD w); some (.cptr (ctlOf w) td ts ab)
  | 0x310 => do let d ← sreg? (fD w); let so ← ssrc? (fA w); let ts ← treg? (fB w); let sk ← ssrc? (fC w); some (.cpmcast (ctlOf w) d so ts sk)
  | 0x311 => do let t ← treg? (fD w); let a ← ssrc? (fA w); let b ← ssrc? (fB w); some (.tdset (ctlOf w) t a b)
  | 0x312 => do let hi := (bits w 0 1 == 1); let d ← sreg? (fD w); let t ← treg? (fA w); some (.tdget (ctlOf w) hi d t)
  | _ => none

/-- The instruction a full word with an opcode in 0x340–0x3FF names, before the checks of reserved bits and
operand rules (R71); `none` is a reserved code in some field, or an opcode outside R71. -/
def parseSystem (op w : Nat) : Option Instr :=
  match op with
  | 0x340 => do let n := BitVec.ofNat 8 (bits w 0 8); some (.trap (ctlOf w) n)
  | 0x341 => some (.tret (ctlOf w))
  | 0x342 => do let reg ← sysreg? (bits w 0 12); let d ← sreg? (fD w); some (.sysrd (ctlOf w) reg d)
  | 0x343 => do let reg ← sysreg? (bits w 0 12); let a ← sreg? (fA w); some (.syswr (ctlOf w) reg a)
  | 0x344 => if bits w 9 1 == 1 then (do let scope ← scope? (bits w 11 4); let a ← ssrc? (fA w); some (.tlbinvS2 (ctlOf w) scope a)) else do let scope ← scope? (bits w 11 4); let all := (bits w 10 1 == 1); let a ← ssrc? (fA w); let b ← ssrc? (fB w); some (.tlbinv (ctlOf w) scope all a b)
  | 0x345 => do let n := BitVec.ofNat 8 (bits w 0 8); some (.brk (ctlOf w) n)
  | 0x360 => if bits w 0 1 == 1 then (do let d ← sreg? (fD w); let a ← ssrc? (fA w); let b ← ssrc? (fB w); some (.fsendLaunch (ctlOf w) d a b)) else do let d ← sreg? (fD w); let a ← ssrc? (fA w); let b ← ssrc? (fB w); some (.fsend (ctlOf w) d a b)
  | 0x361 => do let d ← sreg? (fD w); let a ← ssrc? (fA w); let b ← ssrc? (fB w); some (.frecv (ctlOf w) d a b)
  | 0x362 => do let td ← treg? (fD w); let ts ← treg? (fA w); let b ← ssrc? (fB w); let x ← ssrc? (fC w); some (.allreduce (ctlOf w) td ts b x)
  | 0x363 => do let d ← sreg? (fD w); let a ← ssrc? (fA w); let b ← ssrc? (fB w); some (.cgrp (ctlOf w) d a b)
  | 0x370 => do let d ← sreg? (fD w); let a ← ssrc? (fA w); let b ← ssrc? (fB w); some (.qenq (ctlOf w) d a b)
  | 0x371 => do let scope ← scope? (bits w 11 4); let d ← sreg? (fD w); let a ← ssrc? (fA w); let b ← ssrc? (fB w); some (.evpost (ctlOf w) scope d a b)
  | _ => none

/-- The instruction a full word's fields name (R56, R71). -/
def parseFull (w : Nat) : Option Instr :=
  let op := bits w 52 10
  if op < 0x080 then parseScalar op w
  else if op < 0x100 then parseControl op w
  else if op < 0x140 then parseVector op w
  else if op < 0x180 then parseSpecial op w
  else if op < 0x200 then parseCross op w
  else if op < 0x240 then parseMemory op w
  else if op < 0x300 then parseSync op w
  else if op < 0x340 then parseEngine op w
  else parseSystem op w

/-- The opcodes of R71, as ranges. -/
def knownOpcode (op : Nat) : Bool :=
  [(0x000, 0x01E), (0x020, 0x02B), (0x030, 0x033), (0x040, 0x049), (0x080, 0x08A), (0x100, 0x12B), (0x140, 0x147),
   (0x150, 0x152), (0x160, 0x163), (0x180, 0x191), (0x200, 0x207), (0x210, 0x21B), (0x220, 0x222), (0x230, 0x232),
   (0x240, 0x242), (0x250, 0x255), (0x300, 0x312), (0x340, 0x345), (0x360, 0x363),
   (0x370, 0x371)].any (fun (r : Nat × Nat) => decide (r.1 ≤ op) && decide (op ≤ r.2))

/-! ### Pair halves -/

/-- Pair opcodes (R68). -/
def pop? : Nat → Option Pop
  | 0x00 => some .nop | 0x01 => some .sadd | 0x02 => some .ssub | 0x03 => some .sand | 0x04 => some .sor
  | 0x05 => some .sxor | 0x06 => some .smov | 0x07 => some .saddi | 0x08 => some .sshli | 0x09 => some .sshri
  | 0x0A => some .scmpEq | 0x0B => some .scmpLt | 0x0C => some .scmpLtn
  | 0x20 => some .vaddF32 | 0x21 => some .vsubF32 | 0x22 => some .vmulF32 | 0x23 => some .vfmaF32
  | 0x24 => some .vminF32 | 0x25 => some .vmaxF32 | 0x26 => some .vaddI32 | 0x27 => some .vsubI32
  | 0x28 => some .vmulI32 | 0x29 => some .vand | 0x2A => some .vor | 0x2B => some .vxor | 0x2C => some .vmov
  | 0x2D => some .vmovS | 0x2E => some .vshl | 0x2F => some .vshr | 0x30 => some .vcmpLtF32
  | 0x31 => some .vcmpEqI32 | 0x32 => some .vcvtF32I32 | 0x33 => some .vcvtI32F32
  | _ => none
/-- The code of a pair opcode (R68). -/
def popCode : Pop → Nat
  | .nop => 0x00 | .sadd => 0x01 | .ssub => 0x02 | .sand => 0x03 | .sor => 0x04 | .sxor => 0x05 | .smov => 0x06
  | .saddi => 0x07 | .sshli => 0x08 | .sshri => 0x09 | .scmpEq => 0x0A | .scmpLt => 0x0B | .scmpLtn => 0x0C
  | .vaddF32 => 0x20 | .vsubF32 => 0x21 | .vmulF32 => 0x22 | .vfmaF32 => 0x23 | .vminF32 => 0x24 | .vmaxF32 => 0x25
  | .vaddI32 => 0x26 | .vsubI32 => 0x27 | .vmulI32 => 0x28 | .vand => 0x29 | .vor => 0x2A | .vxor => 0x2B
  | .vmov => 0x2C | .vmovS => 0x2D | .vshl => 0x2E | .vshr => 0x2F | .vcmpLtF32 => 0x30 | .vcmpEqI32 => 0x31
  | .vcvtF32I32 => 0x32 | .vcvtI32F32 => 0x33
/-- A 31-bit half (R65). -/
def half? (h : Nat) : Option Half :=
  (pop? (bits h 24 7)).map fun p =>
    { pop := p, pg := Fin.ofNat 8 (bits h 21 3), d := BitVec.ofNat 7 (bits h 14 7), a := BitVec.ofNat 7 (bits h 7 7),
      x := BitVec.ofNat 7 (bits h 0 7) }
/-- The 31 bits of a half (R65). -/
def halfNat (h : Half) : Nat :=
  popCode h.pop * 2 ^ 24 + h.pg.val * 2 ^ 21 + h.d.toNat * 2 ^ 14 + h.a.toNat * 2 ^ 7 + h.x.toNat
/-- A paired word (R65). -/
def parsePair (w : Nat) : Option Instr := do
  let h1 ← half? (bits w 31 31)
  let h2 ← half? (bits w 0 31)
  some (.pairedWord (bits w 63 1 == 1) h1 h2)

/-! ### The encoder -/

/-- An RR word (R56, R59). -/
def rrWord (c : Ctl) (op d a b x md : Nat) : Nat :=
  bitOf c.m * 2 ^ 63 + op * 2 ^ 52 + guardBits c.guard * 2 ^ 47 + d * 2 ^ 39 + a * 2 ^ 31 + b * 2 ^ 23 + x * 2 ^ 15 + md
/-- An SI word (R59). -/
def siWord (c : Ctl) (op d a k md : Nat) : Nat :=
  bitOf c.m * 2 ^ 63 + op * 2 ^ 52 + guardBits c.guard * 2 ^ 47 + d * 2 ^ 39 + a * 2 ^ 31 + k * 2 ^ 15 + md
/-- A KI or BR word (R59). -/
def kiWord (c : Ctl) (op d k km : Nat) : Nat :=
  bitOf c.m * 2 ^ 63 + op * 2 ^ 52 + guardBits c.guard * 2 ^ 47 + d * 2 ^ 39 + k * 2 ^ 7 + km
/-- An MO word (R59, R64). -/
def moWord (c : Ctl) (op d : Nat) (mem : MemArg) (md : Nat) : Nat :=
  rrWord c op d mem.base.val (match mem.idx with | some v => v.val | none => 0) mem.off.toNat
    (scopeCode mem.scope * 2048 + ordCode mem.ord * 512 + bitOf mem.idx.isSome * 256 + bitOf mem.nt * 4 + md)

/-- The word of an instruction as a number, from the encodings of chapter 03 and of each entry; 0 for an event, which
has no word. -/
def encodeNat : Instr → Nat
  | .nop c => rrWord c 0x0 (0) (0) (0) (0) (0)
  | .pairedWord m h1 h2 => bitOf m * 2 ^ 63 + 2 ^ 62 + halfNat h1 * 2 ^ 31 + halfNat h2
  | .illegalInstruction w => w.toNat
  | .sadd c sat d a b => rrWord c 0x1 (d.val) (ssrcCode a) (ssrcCode b) (0) (bitOf sat * 2048)
  | .ssub c sat d a b => rrWord c 0x2 (d.val) (ssrcCode a) (ssrcCode b) (0) (bitOf sat * 2048)
  | .smul c sat d a b => rrWord c 0x3 (d.val) (ssrcCode a) (ssrcCode b) (0) (bitOf sat * 2048)
  | .smulh c d a b => rrWord c 0x4 (d.val) (ssrcCode a) (ssrcCode b) (0) (0)
  | .smulhn c d a b => rrWord c 0x5 (d.val) (ssrcCode a) (ssrcCode b) (0) (0)
  | .smin c d a b => rrWord c 0x6 (d.val) (ssrcCode a) (ssrcCode b) (0) (0)
  | .smax c d a b => rrWord c 0x7 (d.val) (ssrcCode a) (ssrcCode b) (0) (0)
  | .sminn c d a b => rrWord c 0x8 (d.val) (ssrcCode a) (ssrcCode b) (0) (0)
  | .smaxn c d a b => rrWord c 0x9 (d.val) (ssrcCode a) (ssrcCode b) (0) (0)
  | .sand c d a b => rrWord c 0xa (d.val) (ssrcCode a) (ssrcCode b) (0) (0)
  | .sor c d a b => rrWord c 0xb (d.val) (ssrcCode a) (ssrcCode b) (0) (0)
  | .sxor c d a b => rrWord c 0xc (d.val) (ssrcCode a) (ssrcCode b) (0) (0)
  | .sandn c d a b => rrWord c 0xd (d.val) (ssrcCode a) (ssrcCode b) (0) (0)
  | .sshl c d a b => rrWord c 0xe (d.val) (ssrcCode a) (ssrcCode b) (0) (0)
  | .sshr c d a b => rrWord c 0xf (d.val) (ssrcCode a) (ssrcCode b) (0) (0)
  | .ssra c d a b => rrWord c 0x10 (d.val) (ssrcCode a) (ssrcCode b) (0) (0)
  | .srot c d a b => rrWord c 0x11 (d.val) (ssrcCode a) (ssrcCode b) (0) (0)
  | .sclz c d a => rrWord c 0x12 (d.val) (ssrcCode a) (0) (0) (0)
  | .sctz c d a => rrWord c 0x13 (d.val) (ssrcCode a) (0) (0) (0)
  | .spopc c d a => rrWord c 0x14 (d.val) (ssrcCode a) (0) (0) (0)
  | .sbrev c d a => rrWord c 0x15 (d.val) (ssrcCode a) (0) (0) (0)
  | .sbfx c signed d a b x => rrWord c 0x16 (d.val) (ssrcCode a) (ssrcCode b) (ssrcCode x) (bitOf signed)
  | .sbfi c d a b x => rrWord c 0x17 (d.val) (ssrcCode a) (ssrcCode b) (ssrcCode x) (0)
  | .ssext c z n d a => rrWord c 0x18 (d.val) (ssrcCode a) (0) (0) (bitOf z * 128 + n.toNat)
  | .slea c pod k d a b => rrWord c 0x19 (d.val) (ssrcCode a) (ssrcCode b) (0) (bitOf pod * 8 + k.val)
  | .sselz c d a b x => rrWord c 0x1a (d.val) (ssrcCode a) (ssrcCode b) (ssrcCode x) (0)
  | .smov c d a => rrWord c 0x1b (d.val) (ssrcCode a) (0) (0) (0)
  | .scmp c cond a b => rrWord c 0x1c (0) (ssrcCode a) (ssrcCode b) (0) (condCode cond)
  | .sabs c sat d a => rrWord c 0x1d (d.val) (ssrcCode a) (0) (0) (bitOf sat * 2048)
  | .sclamp c n d a b x => rrWord c 0x1e (d.val) (ssrcCode a) (ssrcCode b) (ssrcCode x) (bitOf n)
  | .saddi c sat d a k => siWord c 0x20 (d.val) (ssrcCode a) k.toNat (bitOf sat * 2048)
  | .smuli c sat d a k => siWord c 0x21 (d.val) (ssrcCode a) k.toNat (bitOf sat * 2048)
  | .sandi c d a k => siWord c 0x22 (d.val) (ssrcCode a) k.toNat (0)
  | .sori c d a k => siWord c 0x23 (d.val) (ssrcCode a) k.toNat (0)
  | .sxori c d a k => siWord c 0x24 (d.val) (ssrcCode a) k.toNat (0)
  | .sshli c d a k => siWord c 0x25 (d.val) (ssrcCode a) k.toNat (0)
  | .sshri c d a k => siWord c 0x26 (d.val) (ssrcCode a) k.toNat (0)
  | .ssrai c d a k => siWord c 0x27 (d.val) (ssrcCode a) k.toNat (0)
  | .sroti c d a k => siWord c 0x28 (d.val) (ssrcCode a) k.toNat (0)
  | .scmpi c cond a k => siWord c 0x29 (0) (ssrcCode a) k.toNat (condCode cond)
  | .smini c d a k => siWord c 0x2a (d.val) (ssrcCode a) k.toNat (0)
  | .smaxi c d a k => siWord c 0x2b (d.val) (ssrcCode a) k.toNat (0)
  | .smovk c d k => kiWord c 0x30 (d.val) k.toNat 0
  | .smovkh c d k => kiWord c 0x31 (d.val) k.toNat 0
  | .saddk c d k => kiWord c 0x32 (d.val) k.toNat 0
  | .sleapc c d k => kiWord c 0x33 (d.val) k.toNat 0
  | .exsave c d => rrWord c 0x40 (d.val) (0) (0) (0) (0)
  | .exload c a => rrWord c 0x41 (0) (ssrcCode a) (0) (0) (0)
  | .exand c d a => rrWord c 0x42 (d.val) (ssrcCode a) (0) (0) (0)
  | .exandn c d a => rrWord c 0x43 (d.val) (ssrcCode a) (0) (0) (0)
  | .exfromq c neg depth d => rrWord c 0x44 (d.val) (0) (0) (0) (bitOf neg * 8 + depth.val)
  | .qsave c d => rrWord c 0x45 (d.val) (0) (0) (0) (0)
  | .qload c a => rrWord c 0x46 (0) (ssrcCode a) (0) (0) (0)
  | .moderd c d => rrWord c 0x47 (d.val) (0) (0) (0) (0)
  | .modewr c a => rrWord c 0x48 (0) (ssrcCode a) (0) (0) (0)
  | .moderm c rm => rrWord c 0x49 (0) (0) (0) (0) (rmCode rm * 4096)
  | .bra c pack disp => kiWord c 0x80 (0) disp.toNat (bitOf pack * 64)
  | .bexz c pack disp => kiWord c 0x81 (0) disp.toNat (bitOf pack * 64)
  | .bexnz c pack disp => kiWord c 0x82 (0) disp.toNat (bitOf pack * 64)
  | .call c d disp => kiWord c 0x83 (d.val) disp.toNat (0)
  | .ret c a => rrWord c 0x84 (0) (ssrcCode a) (0) (0) (0)
  | .brs c a => rrWord c 0x85 (0) (ssrcCode a) (0) (0) (0)
  | .brix c a => rrWord c 0x86 (0) (ssrcCode a) (0) (0) (0)
  | .brixl c d va => rrWord c 0x87 (d.val) (va.val) (0) (0) (0)
  | .exit c => rrWord c 0x88 (0) (0) (0) (0) (0)
  | .wait c ld st en wl fb => rrWord c 0x89 (0) (0) (0) (0) (ld.val * 4096 + st.val * 512 + en.val * 64 + wl.val * 8 + fb.val)
  | .regang c xsm => rrWord c 0x8a (0) (0) (0) (0) (xsm.toNat * 128)
  | .vadd c f rnd sat d a b => rrWord c 0x100 (d.val) (a.val) (vsrcCode b) (0) (fmtCode f * 16 + rndCode rnd * 4096 + bitOf sat * 2048 + vsrcSel b * 1024)
  | .vsub c f rnd sat d a b => rrWord c 0x101 (d.val) (a.val) (vsrcCode b) (0) (fmtCode f * 16 + rndCode rnd * 4096 + bitOf sat * 2048 + vsrcSel b * 1024)
  | .vmul c f rnd sat d a b => rrWord c 0x102 (d.val) (a.val) (vsrcCode b) (0) (fmtCode f * 16 + rndCode rnd * 4096 + bitOf sat * 2048 + vsrcSel b * 1024)
  | .vfma c f rnd sat d a b x => rrWord c 0x103 (d.val) (a.val) (vsrcCode b) (vsrcCode x) (fmtCode f * 16 + rndCode rnd * 4096 + bitOf sat * 2048 + vsrcSel b * 1024 + vsrcSel x * 512)
  | .vfms c f rnd sat d a b x => rrWord c 0x104 (d.val) (a.val) (vsrcCode b) (vsrcCode x) (fmtCode f * 16 + rndCode rnd * 4096 + bitOf sat * 2048 + vsrcSel b * 1024 + vsrcSel x * 512)
  | .vfnma c f rnd sat d a b x => rrWord c 0x105 (d.val) (a.val) (vsrcCode b) (vsrcCode x) (fmtCode f * 16 + rndCode rnd * 4096 + bitOf sat * 2048 + vsrcSel b * 1024 + vsrcSel x * 512)
  | .vmin c f prop d a b => rrWord c 0x106 (d.val) (a.val) (vsrcCode b) (0) (fmtCode f * 16 + bitOf prop + vsrcSel b * 1024)
  | .vmax c f prop d a b => rrWord c 0x107 (d.val) (a.val) (vsrcCode b) (0) (fmtCode f * 16 + bitOf prop + vsrcSel b * 1024)
  | .vabs c f sat d a => rrWord c 0x108 (d.val) (a.val) (0) (0) (fmtCode f * 16 + bitOf sat * 2048)
  | .vneg c f sat d a => rrWord c 0x109 (d.val) (a.val) (0) (0) (fmtCode f * 16 + bitOf sat * 2048)
  | .vcpsgn c f xor d a b => rrWord c 0x10a (d.val) (a.val) (vsrcCode b) (0) (fmtCode f * 16 + bitOf xor + vsrcSel b * 1024)
  | .vcmp c f cond a b => rrWord c 0x10b (0) (a.val) (vsrcCode b) (0) (fmtCode f * 16 + condCode cond + vsrcSel b * 1024)
  | .vsel c f neg depth d a b => rrWord c 0x10c (d.val) (a.val) (vsrcCode b) (0) (fmtCode f * 16 + bitOf neg * 8 + depth.val + vsrcSel b * 1024)
  | .vmov c f d b => rrWord c 0x10d (d.val) (0) (vsrcCode b) (0) (fmtCode f * 16 + vsrcSel b * 1024)
  | .vcvt c f src rnd sat d a => rrWord c 0x10e (d.val) (a.val) (0) (fmtCode src) (fmtCode f * 16 + rndCode rnd * 4096 + bitOf sat * 2048)
  | .vrnd c f rnd d a => rrWord c 0x10f (d.val) (a.val) (0) (0) (fmtCode f * 16 + rndCode rnd * 4096)
  | .vfdiv c f rnd sat d a b => rrWord c 0x110 (d.val) (a.val) (vsrcCode b) (0) (fmtCode f * 16 + rndCode rnd * 4096 + bitOf sat * 2048 + vsrcSel b * 1024)
  | .vclass c f d a => rrWord c 0x111 (d.val) (a.val) (0) (0) (fmtCode f * 16)
  | .vscalb c f rnd sat d a b => rrWord c 0x112 (d.val) (a.val) (vsrcCode b) (0) (fmtCode f * 16 + rndCode rnd * 4096 + bitOf sat * 2048 + vsrcSel b * 1024)
  | .vabsd c f d a b => rrWord c 0x113 (d.val) (a.val) (vsrcCode b) (0) (fmtCode f * 16 + vsrcSel b * 1024)
  | .vmad c f sat d a b x => rrWord c 0x114 (d.val) (a.val) (vsrcCode b) (vsrcCode x) (fmtCode f * 16 + bitOf sat * 2048 + vsrcSel b * 1024 + vsrcSel x * 512)
  | .vmulh c f d a b => rrWord c 0x115 (d.val) (a.val) (vsrcCode b) (0) (fmtCode f * 16 + vsrcSel b * 1024)
  | .vand c f d a b => rrWord c 0x116 (d.val) (a.val) (vsrcCode b) (0) (fmtCode f * 16 + vsrcSel b * 1024)
  | .vor c f d a b => rrWord c 0x117 (d.val) (a.val) (vsrcCode b) (0) (fmtCode f * 16 + vsrcSel b * 1024)
  | .vxor c f d a b => rrWord c 0x118 (d.val) (a.val) (vsrcCode b) (0) (fmtCode f * 16 + vsrcSel b * 1024)
  | .vandn c f d a b => rrWord c 0x119 (d.val) (a.val) (vsrcCode b) (0) (fmtCode f * 16 + vsrcSel b * 1024)
  | .vnot c f d a => rrWord c 0x11a (d.val) (a.val) (0) (0) (fmtCode f * 16)
  | .vshl c f d a b => rrWord c 0x11b (d.val) (a.val) (vsrcCode b) (0) (fmtCode f * 16 + vsrcSel b * 1024)
  | .vshr c f d a b => rrWord c 0x11c (d.val) (a.val) (vsrcCode b) (0) (fmtCode f * 16 + vsrcSel b * 1024)
  | .vsra c f d a b => rrWord c 0x11d (d.val) (a.val) (vsrcCode b) (0) (fmtCode f * 16 + vsrcSel b * 1024)
  | .vclz c f d a => rrWord c 0x11e (d.val) (a.val) (0) (0) (fmtCode f * 16)
  | .vpopc c f d a => rrWord c 0x11f (d.val) (a.val) (0) (0) (fmtCode f * 16)
  | .vbrev c f d a => rrWord c 0x120 (d.val) (a.val) (0) (0) (fmtCode f * 16)
  | .vbfx c f signed d a b x => rrWord c 0x121 (d.val) (a.val) (vsrcCode b) (vsrcCode x) (fmtCode f * 16 + bitOf signed + vsrcSel b * 1024 + vsrcSel x * 512)
  | .vbfi c f d a b x => rrWord c 0x122 (d.val) (a.val) (vsrcCode b) (vsrcCode x) (fmtCode f * 16 + vsrcSel b * 1024 + vsrcSel x * 512)
  | .vdot2 c f rnd sat d a b x => rrWord c 0x123 (d.val) (a.val) (vsrcCode b) (vsrcCode x) (fmtCode f * 16 + rndCode rnd * 4096 + bitOf sat * 2048 + vsrcSel b * 1024 + vsrcSel x * 512)
  | .vpack c f rnd sat d a b => rrWord c 0x124 (d.val) (a.val) (vsrcCode b) (0) (fmtCode f * 16 + rndCode rnd * 4096 + bitOf sat * 2048 + vsrcSel b * 1024)
  | .vunpkl c f d a => rrWord c 0x125 (d.val) (a.val) (0) (0) (fmtCode f * 16)
  | .vunpkh c f d a => rrWord c 0x126 (d.val) (a.val) (0) (0) (fmtCode f * 16)
  | .vkbenc c f d a b => rrWord c 0x127 (d.val) (a.val) (vsrcCode b) (0) (fmtCode f * 16 + vsrcSel b * 1024)
  | .vkbdec c f q d a => rrWord c 0x128 (d.val) (a.val) (0) (0) (fmtCode f * 16 + bitOf q)
  | .vmovk c d k => kiWord c 0x129 (d.val) k.toNat 0
  | .vclamp c f prop d a b x => rrWord c 0x12a (d.val) (a.val) (vsrcCode b) (vsrcCode x) (fmtCode f * 16 + bitOf prop + vsrcSel b * 1024 + vsrcSel x * 512)
  | .vmovq c d => rrWord c 0x12b (d.val) (0) (0) (0) (0)
  | .vrcp c f rnd sat d a => rrWord c 0x140 (d.val) (a.val) (0) (0) (fmtCode f * 16 + rndCode rnd * 4096 + bitOf sat * 2048)
  | .vrsq c f rnd sat d a => rrWord c 0x141 (d.val) (a.val) (0) (0) (fmtCode f * 16 + rndCode rnd * 4096 + bitOf sat * 2048)
  | .vsqrt c f rnd sat d a => rrWord c 0x142 (d.val) (a.val) (0) (0) (fmtCode f * 16 + rndCode rnd * 4096 + bitOf sat * 2048)
  | .vexp2 c f rnd sat d a => rrWord c 0x143 (d.val) (a.val) (0) (0) (fmtCode f * 16 + rndCode rnd * 4096 + bitOf sat * 2048)
  | .vlog2 c f rnd sat d a => rrWord c 0x144 (d.val) (a.val) (0) (0) (fmtCode f * 16 + rndCode rnd * 4096 + bitOf sat * 2048)
  | .vsin c f rnd sat d a => rrWord c 0x145 (d.val) (a.val) (0) (0) (fmtCode f * 16 + rndCode rnd * 4096 + bitOf sat * 2048)
  | .vcos c f rnd sat d a => rrWord c 0x146 (d.val) (a.val) (0) (0) (fmtCode f * 16 + rndCode rnd * 4096 + bitOf sat * 2048)
  | .vtanh c f rnd sat d a => rrWord c 0x147 (d.val) (a.val) (0) (0) (fmtCode f * 16 + rndCode rnd * 4096 + bitOf sat * 2048)
  | .actld c a => rrWord c 0x150 (0) (ssrcCode a) (0) (0) (0)
  | .actsel c n => rrWord c 0x151 (0) (0) (0) (0) (bitOf n)
  | .vact c rnd sat d a => rrWord c 0x152 (d.val) (a.val) (0) (0) (rndCode rnd * 4096 + bitOf sat * 2048)
  | .vdivI32 c d a b => rrWord c 0x160 (d.val) (a.val) (vsrcCode b) (0) (vsrcSel b * 1024)
  | .vdivN32 c d a b => rrWord c 0x161 (d.val) (a.val) (vsrcCode b) (0) (vsrcSel b * 1024)
  | .vremI32 c d a b => rrWord c 0x162 (d.val) (a.val) (vsrcCode b) (0) (vsrcSel b * 1024)
  | .vremN32 c d a b => rrWord c 0x163 (d.val) (a.val) (vsrcCode b) (0) (vsrcSel b * 1024)
  | .vshfl c f keep mask d a b => rrWord c 0x180 (d.val) (a.val) (vsrcCode b) (maskC mask) (fmtCode f + bitOf keep * 64 + vsrcSel b * 32 + mask.xsm.toNat * 128)
  | .vshflup c f keep mask d a b => rrWord c 0x181 (d.val) (a.val) (vsrcCode b) (maskC mask) (fmtCode f + bitOf keep * 64 + vsrcSel b * 32 + mask.xsm.toNat * 128)
  | .vshfldn c f keep mask d a b => rrWord c 0x182 (d.val) (a.val) (vsrcCode b) (maskC mask) (fmtCode f + bitOf keep * 64 + vsrcSel b * 32 + mask.xsm.toNat * 128)
  | .vshflx c f keep mask d a b => rrWord c 0x183 (d.val) (a.val) (vsrcCode b) (maskC mask) (fmtCode f + bitOf keep * 64 + vsrcSel b * 32 + mask.xsm.toNat * 128)
  | .vbcast c f mask d a => rrWord c 0x184 (d.val) (a.val) (0) (maskC mask) (fmtCode f + mask.xsm.toNat * 128)
  | .voteany c f mask a => rrWord c 0x185 (0) (a.val) (0) (maskC mask) (fmtCode f + mask.xsm.toNat * 128)
  | .voteall c f mask a => rrWord c 0x186 (0) (a.val) (0) (maskC mask) (fmtCode f + mask.xsm.toNat * 128)
  | .voteuni c f mask a => rrWord c 0x187 (0) (a.val) (0) (maskC mask) (fmtCode f + mask.xsm.toNat * 128)
  | .vballot c f mask d a => rrWord c 0x188 (d.val) (a.val) (0) (maskC mask) (fmtCode f + mask.xsm.toNat * 128)
  | .vmatchany c f mask d a => rrWord c 0x189 (d.val) (a.val) (0) (maskC mask) (fmtCode f + mask.xsm.toNat * 128)
  | .vmatchall c f mask d a => rrWord c 0x18a (d.val) (a.val) (0) (maskC mask) (fmtCode f + mask.xsm.toNat * 128)
  | .vredadd c f mask d a => rrWord c 0x18b (d.val) (a.val) (0) (maskC mask) (fmtCode f + mask.xsm.toNat * 128)
  | .vredmin c f mask d a => rrWord c 0x18c (d.val) (a.val) (0) (maskC mask) (fmtCode f + mask.xsm.toNat * 128)
  | .vredmax c f mask d a => rrWord c 0x18d (d.val) (a.val) (0) (maskC mask) (fmtCode f + mask.xsm.toNat * 128)
  | .vredand c f mask d a => rrWord c 0x18e (d.val) (a.val) (0) (maskC mask) (fmtCode f + mask.xsm.toNat * 128)
  | .vredor c f mask d a => rrWord c 0x18f (d.val) (a.val) (0) (maskC mask) (fmtCode f + mask.xsm.toNat * 128)
  | .vredxor c f mask d a => rrWord c 0x190 (d.val) (a.val) (0) (maskC mask) (fmtCode f + mask.xsm.toNat * 128)
  | .vscanadd c f mask d a => rrWord c 0x191 (d.val) (a.val) (0) (maskC mask) (fmtCode f + mask.xsm.toNat * 128)
  | .vld c mem fe sz d => moWord c 0x200 (d.val) mem (feCode fe * 64 + szCode sz * 8)
  | .vst c mem fe sz el d => moWord c 0x201 (d.val) mem (feCode fe * 64 + szCode sz * 8 + bitOf el * 2)
  | .sld c mem fe sz d => moWord c 0x202 (d.val) mem (feCode fe * 64 + szCode sz * 8)
  | .sst c mem fe sz el d => moWord c 0x203 (d.val) mem (feCode fe * 64 + szCode sz * 8 + bitOf el * 2)
  | .vldtr c mem fe sz d => moWord c 0x204 (d.val) mem (feCode fe * 64 + szCode sz * 8)
  | .pref c mem => moWord c 0x205 (0) mem (0)
  | .feset c mem => moWord c 0x206 (0) mem (48)
  | .feclr c mem => moWord c 0x207 (0) mem (48)
  | .atadd c mem sz rv d => moWord c 0x210 (d.val) mem (szCode sz * 8 + bitOf rv)
  | .atmin c mem sz rv d => moWord c 0x211 (d.val) mem (szCode sz * 8 + bitOf rv)
  | .atminn c mem sz rv d => moWord c 0x212 (d.val) mem (szCode sz * 8 + bitOf rv)
  | .atmax c mem sz rv d => moWord c 0x213 (d.val) mem (szCode sz * 8 + bitOf rv)
  | .atmaxn c mem sz rv d => moWord c 0x214 (d.val) mem (szCode sz * 8 + bitOf rv)
  | .atand c mem sz rv d => moWord c 0x215 (d.val) mem (szCode sz * 8 + bitOf rv)
  | .ator c mem sz rv d => moWord c 0x216 (d.val) mem (szCode sz * 8 + bitOf rv)
  | .atxor c mem sz rv d => moWord c 0x217 (d.val) mem (szCode sz * 8 + bitOf rv)
  | .atxchg c mem sz rv d => moWord c 0x218 (d.val) mem (szCode sz * 8 + bitOf rv)
  | .atcas c mem sz d => moWord c 0x219 (d.val) mem (szCode sz * 8 + 1)
  | .atfadd c mem rv d => moWord c 0x21a (d.val) mem (bitOf rv + 32)
  | .atbadd2 c mem rv d => moWord c 0x21b (d.val) mem (bitOf rv + 32)
  | .wld c mem sz pr d => moWord c 0x220 (d.val) mem (szCode sz * 8 + prCode pr)
  | .wdset c a b => rrWord c 0x221 (0) (ssrcCode a) (ssrcCode b) (0) (0)
  | .wdget c a b => rrWord c 0x222 (0) (ssrcCode a) (ssrcCode b) (0) (0)
  | .fence c scope ord => rrWord c 0x230 (0) (0) (0) (0) (scopeCode scope * 2048 + ordCode ord * 512)
  | .fenceSc c => rrWord c 0x230 (0) (0) (0) (0) (14080)
  | .xfence c scope frm too => rrWord c 0x231 (0) (0) (0) (0) (scopeCode scope * 2048 + eclassCode frm * 256 + eclassCode too * 32)
  | .icinv c scope all a b => rrWord c 0x232 (0) (ssrcCode a) (ssrcCode b) (0) (scopeCode scope * 2048 + bitOf all * 1024)
  | .podld c mem sz d => moWord c 0x240 (d.val) mem (szCode sz * 8)
  | .podst c mem sz d => moWord c 0x241 (d.val) mem (szCode sz * 8)
  | .podred c mem sz rop d => moWord c 0x242 (d.val) mem (szCode sz * 8 + ropMod rop)
  | .bar c id mask => rrWord c 0x250 (0) (optCode mask) (0) (0) (id.val + optSel mask * 16)
  | .abwait c a b => rrWord c 0x251 (0) (ssrcCode a) (ssrcCode b) (0) (0)
  | .abtest c a b => rrWord c 0x252 (0) (ssrcCode a) (ssrcCode b) (0) (0)
  | .abinit c a b => rrWord c 0x253 (0) (ssrcCode a) (ssrcCode b) (0) (0)
  | .abarr c scope rel a bytes => rrWord c 0x254 (0) (ssrcCode a) (optCode bytes) (0) (scopeCode scope * 2048 + bitOf rel * 1024 + optSel bytes * 256)
  | .abexp c a b => rrWord c 0x255 (0) (ssrcCode a) (ssrcCode b) (0) (0)
  | .ldstat c ns mode nc xf tb sm ab => rrWord c 0x300 (optCode ab) (tb.val) (ssrcCode sm) (0) (bitOf ns * 2048 + modeCode mode * 256 + ncCode nc * 64 + fmtCode xf + optSel ab * 32)
  | .pswap c ab => rrWord c 0x301 (optCode ab) (0) (0) (0) (optSel ab * 32)
  | .mx c rnd mode ta sp ab => rrWord c 0x302 (optCode ab) (ta.val) (ssrcCode sp) (0) (rndCode rnd * 4096 + modeCode mode * 256 + optSel ab * 32)
  | .mxsp c rnd mode nc ta sp ab => rrWord c 0x303 (optCode ab) (ta.val) (ssrcCode sp) (0) (rndCode rnd * 4096 + modeCode mode * 256 + ncCode nc * 64 + optSel ab * 32)
  | .mxb c mode ta sp ab => rrWord c 0x304 (optCode ab) (ta.val) (ssrcCode sp) (0) (modeCode mode * 256 + optSel ab * 32)
  | .mxbsp c mode ta sp ab => rrWord c 0x305 (optCode ab) (ta.val) (ssrcCode sp) (0) (modeCode mode * 256 + 128 + optSel ab * 32)
  | .scacc c rnd sr sa sb ab => rrWord c 0x306 (optCode ab) (ssrcCode sr) (ssrcCode sa) (ssrcCode sb) (rndCode rnd * 4096 + optSel ab * 32)
  | .accclr c sr ab => rrWord c 0x307 (optCode ab) (ssrcCode sr) (0) (0) (optSel ab * 32)
  | .accrd c rnd sat ic td sp ab => rrWord c 0x308 (optCode ab) (td.val) (ssrcCode sp) (0) (rndCode rnd * 4096 + bitOf sat * 2048 + bitOf ic + optSel ab * 32)
  | .accwr c ts sp ab => rrWord c 0x309 (optCode ab) (ts.val) (ssrcCode sp) (0) (optSel ab * 32)
  | .accmv c ss sd sz ab => rrWord c 0x30a (optCode ab) (ssrcCode ss) (ssrcCode sd) (ssrcCode sz) (optSel ab * 32)
  | .mxtile c rnd mode ta tb sp ab => rrWord c 0x30b (optCode ab) (ta.val) (tb.val) (ssrcCode sp) (rndCode rnd * 4096 + modeCode mode * 256 + optSel ab * 32)
  | .cptile c td ts ab => rrWord c 0x30c (optCode ab) (td.val) (ts.val) (0) (optSel ab * 32)
  | .sctile c rnd sc ta tb ab => rrWord c 0x30d (optCode ab) (ssrcCode sc) (ta.val) (tb.val) (rndCode rnd * 4096 + optSel ab * 32)
  | .cpcopy c sd ss sl ab => rrWord c 0x30e (optCode ab) (ssrcCode sd) (ssrcCode ss) (ssrcCode sl) (optSel ab * 32)
  | .cptr c td ts ab => rrWord c 0x30f (optCode ab) (td.val) (ts.val) (0) (optSel ab * 32)
  | .cpmcast c d so ts sk => rrWord c 0x310 (d.val) (ssrcCode so) (ts.val) (ssrcCode sk) (0)
  | .tdset c t a b => rrWord c 0x311 (t.val) (ssrcCode a) (ssrcCode b) (0) (0)
  | .tdget c hi d t => rrWord c 0x312 (d.val) (t.val) (0) (0) (bitOf hi)
  | .trap c n => rrWord c 0x340 (0) (0) (0) (0) (n.toNat)
  | .tret c => rrWord c 0x341 (0) (0) (0) (0) (0)
  | .sysrd c reg d => rrWord c 0x342 (d.val) (0) (0) (0) (sysregCode reg)
  | .syswr c reg a => rrWord c 0x343 (0) (a.val) (0) (0) (sysregCode reg)
  | .tlbinv c scope all a b => rrWord c 0x344 (0) (ssrcCode a) (ssrcCode b) (0) (scopeCode scope * 2048 + bitOf all * 1024 + 256)
  | .tlbinvS2 c scope a => rrWord c 0x344 (0) (ssrcCode a) (0) (0) (scopeCode scope * 2048 + 1536)
  | .brk c n => rrWord c 0x345 (0) (0) (0) (0) (n.toNat)
  | .fsend c d a b => rrWord c 0x360 (d.val) (ssrcCode a) (ssrcCode b) (0) (0)
  | .fsendLaunch c d a b => rrWord c 0x360 (d.val) (ssrcCode a) (ssrcCode b) (0) (1)
  | .frecv c d a b => rrWord c 0x361 (d.val) (ssrcCode a) (ssrcCode b) (0) (0)
  | .allreduce c td ts b x => rrWord c 0x362 (td.val) (ts.val) (ssrcCode b) (ssrcCode x) (0)
  | .reducescatter c td ts b x => rrWord c 0x362 (td.val) (ts.val) (ssrcCode b) (ssrcCode x) (0)
  | .allgather c td ts b x => rrWord c 0x362 (td.val) (ts.val) (ssrcCode b) (ssrcCode x) (0)
  | .broadcast c td ts b x => rrWord c 0x362 (td.val) (ts.val) (ssrcCode b) (ssrcCode x) (0)
  | .cgrp c d a b => rrWord c 0x363 (d.val) (ssrcCode a) (ssrcCode b) (0) (0)
  | .qenq c d a b => rrWord c 0x370 (d.val) (ssrcCode a) (ssrcCode b) (0) (0)
  | .evpost c scope d a b => rrWord c 0x371 (d.val) (ssrcCode a) (ssrcCode b) (0) (scopeCode scope * 2048)
  | .join _ => 0
  | .loadCompletion _ _ _ => 0
  | .storePerformed _ _ _ => 0
  | .engineCommandCompletion _ _ => 0
  | .fill _ => 0
  | .stream _ => 0
  | .scale _ => 0
  | .copy _ => 0
  | .copyQueueStep _ => 0
  | .governorWindow _ => 0
  | .fabricCompletion _ _ _ => 0
  | .fabricIngress _ _ => 0
  | .podAccess _ _ _ _ => 0
  | .launchRequest _ _ => 0
  | .collectiveCompletion _ _ _ => 0
  | .collectiveFallback _ _ _ => 0
  | .doorbell _ _ _ => 0
  | .queueReset _ _ => 0
  | .packetRead _ => 0
  | .waitaddrLoad _ => 0
  | .packetStart _ => 0
  | .blockDispatch _ _ _ => 0
  | .stealRequest _ _ => 0
  | .gangLaunch _ _ => 0
  | .blockEnd _ => 0
  | .packetCompletion _ => 0
  | .preemptionRequest _ _ => 0
  | .queueDestruction _ _ => 0
  | .runLimit _ => 0
  | .kernelWatchdog _ => 0
  | .handlerWatchdog _ => 0
  | .checkpoint _ => 0
  | .checkpointCommit _ => 0
  | .rollback _ => 0
  | .timeSliceStart _ _ => 0
  | .migrationImage _ => 0
  | .migrationAccept _ _ => 0
  | .bindRecordWrite _ _ _ => 0
  | .functionRecordWrite _ _ => 0
  | .launchTableWrite _ _ _ => 0
  | .loaderRequest _ => 0
  | .containerLoad _ _ => 0
  | .stewardRequest => 0
  | .eventLogControlWrite _ _ _ => 0
  | .wldoor _ => 0
  | .resume => 0
  | .layoutRequest _ => 0
  | .commit => 0
  | .done => 0
  | .policyCoreRestart _ => 0
  | .functionLevelReset _ => 0
  | .moduleReset _ => 0
  | .lockInterface _ => 0
  | .startInterface _ => 0
  | .stopInterface _ => 0
  | .getDeviceInterfaceReport _ => 0
  | .getDeviceInterfaceState _ => 0
  | .getVersion _ => 0
  | .getCapabilities _ _ => 0
  | .negotiateAlgorithms _ => 0
  | .getDigests _ => 0
  | .getCertificate _ _ _ => 0
  | .challenge _ _ => 0
  | .getMeasurements _ _ _ => 0
  | .keyExchange _ _ => 0
  | .finish _ _ => 0
  | .endSession _ => 0
  | .vendorDefinedRequest _ _ _ => 0
  | .memoryError _ _ => 0
  | .selfTest _ _ => 0
  | .patrolScrub _ _ => 0
  | .counterCommit => 0
  | .thermalThrottle _ _ => 0
  | .thermalShutdown => 0
  | .registerWrite _ _ _ => 0
  | .hostAccess _ => 0
  | .actldCompletion _ => 0
  | .asidTableWrite _ _ => 0
  | .laneRetrain _ _ _ => 0

/-- Whether an instruction has a word of its own; the other rows are steps of other agents. -/
def Instr.hasWord : Instr → Bool
  | .nop _ => true
  | .pairedWord _ _ _ => true
  | .illegalInstruction _ => true
  | .sadd _ _ _ _ _ => true
  | .ssub _ _ _ _ _ => true
  | .smul _ _ _ _ _ => true
  | .smulh _ _ _ _ => true
  | .smulhn _ _ _ _ => true
  | .smin _ _ _ _ => true
  | .smax _ _ _ _ => true
  | .sminn _ _ _ _ => true
  | .smaxn _ _ _ _ => true
  | .sand _ _ _ _ => true
  | .sor _ _ _ _ => true
  | .sxor _ _ _ _ => true
  | .sandn _ _ _ _ => true
  | .sshl _ _ _ _ => true
  | .sshr _ _ _ _ => true
  | .ssra _ _ _ _ => true
  | .srot _ _ _ _ => true
  | .sclz _ _ _ => true
  | .sctz _ _ _ => true
  | .spopc _ _ _ => true
  | .sbrev _ _ _ => true
  | .sbfx _ _ _ _ _ _ => true
  | .sbfi _ _ _ _ _ => true
  | .ssext _ _ _ _ _ => true
  | .slea _ _ _ _ _ _ => true
  | .sselz _ _ _ _ _ => true
  | .smov _ _ _ => true
  | .scmp _ _ _ _ => true
  | .sabs _ _ _ _ => true
  | .sclamp _ _ _ _ _ _ => true
  | .saddi _ _ _ _ _ => true
  | .smuli _ _ _ _ _ => true
  | .sandi _ _ _ _ => true
  | .sori _ _ _ _ => true
  | .sxori _ _ _ _ => true
  | .sshli _ _ _ _ => true
  | .sshri _ _ _ _ => true
  | .ssrai _ _ _ _ => true
  | .sroti _ _ _ _ => true
  | .scmpi _ _ _ _ => true
  | .smini _ _ _ _ => true
  | .smaxi _ _ _ _ => true
  | .smovk _ _ _ => true
  | .smovkh _ _ _ => true
  | .saddk _ _ _ => true
  | .sleapc _ _ _ => true
  | .exsave _ _ => true
  | .exload _ _ => true
  | .exand _ _ _ => true
  | .exandn _ _ _ => true
  | .exfromq _ _ _ _ => true
  | .qsave _ _ => true
  | .qload _ _ => true
  | .moderd _ _ => true
  | .modewr _ _ => true
  | .moderm _ _ => true
  | .bra _ _ _ => true
  | .bexz _ _ _ => true
  | .bexnz _ _ _ => true
  | .call _ _ _ => true
  | .ret _ _ => true
  | .brs _ _ => true
  | .brix _ _ => true
  | .brixl _ _ _ => true
  | .exit _ => true
  | .wait _ _ _ _ _ _ => true
  | .regang _ _ => true
  | .vadd _ _ _ _ _ _ _ => true
  | .vsub _ _ _ _ _ _ _ => true
  | .vmul _ _ _ _ _ _ _ => true
  | .vfma _ _ _ _ _ _ _ _ => true
  | .vfms _ _ _ _ _ _ _ _ => true
  | .vfnma _ _ _ _ _ _ _ _ => true
  | .vmin _ _ _ _ _ _ => true
  | .vmax _ _ _ _ _ _ => true
  | .vabs _ _ _ _ _ => true
  | .vneg _ _ _ _ _ => true
  | .vcpsgn _ _ _ _ _ _ => true
  | .vcmp _ _ _ _ _ => true
  | .vsel _ _ _ _ _ _ _ => true
  | .vmov _ _ _ _ => true
  | .vcvt _ _ _ _ _ _ _ => true
  | .vrnd _ _ _ _ _ => true
  | .vfdiv _ _ _ _ _ _ _ => true
  | .vclass _ _ _ _ => true
  | .vscalb _ _ _ _ _ _ _ => true
  | .vabsd _ _ _ _ _ => true
  | .vmad _ _ _ _ _ _ _ => true
  | .vmulh _ _ _ _ _ => true
  | .vand _ _ _ _ _ => true
  | .vor _ _ _ _ _ => true
  | .vxor _ _ _ _ _ => true
  | .vandn _ _ _ _ _ => true
  | .vnot _ _ _ _ => true
  | .vshl _ _ _ _ _ => true
  | .vshr _ _ _ _ _ => true
  | .vsra _ _ _ _ _ => true
  | .vclz _ _ _ _ => true
  | .vpopc _ _ _ _ => true
  | .vbrev _ _ _ _ => true
  | .vbfx _ _ _ _ _ _ _ => true
  | .vbfi _ _ _ _ _ _ => true
  | .vdot2 _ _ _ _ _ _ _ _ => true
  | .vpack _ _ _ _ _ _ _ => true
  | .vunpkl _ _ _ _ => true
  | .vunpkh _ _ _ _ => true
  | .vkbenc _ _ _ _ _ => true
  | .vkbdec _ _ _ _ _ => true
  | .vmovk _ _ _ => true
  | .vclamp _ _ _ _ _ _ _ => true
  | .vmovq _ _ => true
  | .vrcp _ _ _ _ _ _ => true
  | .vrsq _ _ _ _ _ _ => true
  | .vsqrt _ _ _ _ _ _ => true
  | .vexp2 _ _ _ _ _ _ => true
  | .vlog2 _ _ _ _ _ _ => true
  | .vsin _ _ _ _ _ _ => true
  | .vcos _ _ _ _ _ _ => true
  | .vtanh _ _ _ _ _ _ => true
  | .actld _ _ => true
  | .actsel _ _ => true
  | .vact _ _ _ _ _ => true
  | .vdivI32 _ _ _ _ => true
  | .vdivN32 _ _ _ _ => true
  | .vremI32 _ _ _ _ => true
  | .vremN32 _ _ _ _ => true
  | .vshfl _ _ _ _ _ _ _ => true
  | .vshflup _ _ _ _ _ _ _ => true
  | .vshfldn _ _ _ _ _ _ _ => true
  | .vshflx _ _ _ _ _ _ _ => true
  | .vbcast _ _ _ _ _ => true
  | .voteany _ _ _ _ => true
  | .voteall _ _ _ _ => true
  | .voteuni _ _ _ _ => true
  | .vballot _ _ _ _ _ => true
  | .vmatchany _ _ _ _ _ => true
  | .vmatchall _ _ _ _ _ => true
  | .vredadd _ _ _ _ _ => true
  | .vredmin _ _ _ _ _ => true
  | .vredmax _ _ _ _ _ => true
  | .vredand _ _ _ _ _ => true
  | .vredor _ _ _ _ _ => true
  | .vredxor _ _ _ _ _ => true
  | .vscanadd _ _ _ _ _ => true
  | .vld _ _ _ _ _ => true
  | .vst _ _ _ _ _ _ => true
  | .sld _ _ _ _ _ => true
  | .sst _ _ _ _ _ _ => true
  | .vldtr _ _ _ _ _ => true
  | .pref _ _ => true
  | .feset _ _ => true
  | .feclr _ _ => true
  | .atadd _ _ _ _ _ => true
  | .atmin _ _ _ _ _ => true
  | .atminn _ _ _ _ _ => true
  | .atmax _ _ _ _ _ => true
  | .atmaxn _ _ _ _ _ => true
  | .atand _ _ _ _ _ => true
  | .ator _ _ _ _ _ => true
  | .atxor _ _ _ _ _ => true
  | .atxchg _ _ _ _ _ => true
  | .atcas _ _ _ _ => true
  | .atfadd _ _ _ _ => true
  | .atbadd2 _ _ _ _ => true
  | .wld _ _ _ _ _ => true
  | .wdset _ _ _ => true
  | .wdget _ _ _ => true
  | .fence _ _ _ => true
  | .fenceSc _ => true
  | .xfence _ _ _ _ => true
  | .icinv _ _ _ _ _ => true
  | .podld _ _ _ _ => true
  | .podst _ _ _ _ => true
  | .podred _ _ _ _ _ => true
  | .bar _ _ _ => true
  | .abwait _ _ _ => true
  | .abtest _ _ _ => true
  | .abinit _ _ _ => true
  | .abarr _ _ _ _ _ => true
  | .abexp _ _ _ => true
  | .ldstat _ _ _ _ _ _ _ _ => true
  | .pswap _ _ => true
  | .mx _ _ _ _ _ _ => true
  | .mxsp _ _ _ _ _ _ _ => true
  | .mxb _ _ _ _ _ => true
  | .mxbsp _ _ _ _ _ => true
  | .scacc _ _ _ _ _ _ => true
  | .accclr _ _ _ => true
  | .accrd _ _ _ _ _ _ _ => true
  | .accwr _ _ _ _ => true
  | .accmv _ _ _ _ _ => true
  | .mxtile _ _ _ _ _ _ _ => true
  | .cptile _ _ _ _ => true
  | .sctile _ _ _ _ _ _ => true
  | .cpcopy _ _ _ _ _ => true
  | .cptr _ _ _ _ => true
  | .cpmcast _ _ _ _ _ => true
  | .tdset _ _ _ _ => true
  | .tdget _ _ _ _ => true
  | .trap _ _ => true
  | .tret _ => true
  | .sysrd _ _ _ => true
  | .syswr _ _ _ => true
  | .tlbinv _ _ _ _ _ => true
  | .tlbinvS2 _ _ _ => true
  | .brk _ _ => true
  | .fsend _ _ _ _ => true
  | .fsendLaunch _ _ _ _ => true
  | .frecv _ _ _ _ => true
  | .allreduce _ _ _ _ _ => true
  | .reducescatter _ _ _ _ _ => true
  | .allgather _ _ _ _ _ => true
  | .broadcast _ _ _ _ _ => true
  | .cgrp _ _ _ _ => true
  | .qenq _ _ _ _ => true
  | .evpost _ _ _ _ _ => true
  | .join _ => false
  | .loadCompletion _ _ _ => false
  | .storePerformed _ _ _ => false
  | .engineCommandCompletion _ _ => false
  | .fill _ => false
  | .stream _ => false
  | .scale _ => false
  | .copy _ => false
  | .copyQueueStep _ => false
  | .governorWindow _ => false
  | .fabricCompletion _ _ _ => false
  | .fabricIngress _ _ => false
  | .podAccess _ _ _ _ => false
  | .launchRequest _ _ => false
  | .collectiveCompletion _ _ _ => false
  | .collectiveFallback _ _ _ => false
  | .doorbell _ _ _ => false
  | .queueReset _ _ => false
  | .packetRead _ => false
  | .waitaddrLoad _ => false
  | .packetStart _ => false
  | .blockDispatch _ _ _ => false
  | .stealRequest _ _ => false
  | .gangLaunch _ _ => false
  | .blockEnd _ => false
  | .packetCompletion _ => false
  | .preemptionRequest _ _ => false
  | .queueDestruction _ _ => false
  | .runLimit _ => false
  | .kernelWatchdog _ => false
  | .handlerWatchdog _ => false
  | .checkpoint _ => false
  | .checkpointCommit _ => false
  | .rollback _ => false
  | .timeSliceStart _ _ => false
  | .migrationImage _ => false
  | .migrationAccept _ _ => false
  | .bindRecordWrite _ _ _ => false
  | .functionRecordWrite _ _ => false
  | .launchTableWrite _ _ _ => false
  | .loaderRequest _ => false
  | .containerLoad _ _ => false
  | .stewardRequest => false
  | .eventLogControlWrite _ _ _ => false
  | .wldoor _ => false
  | .resume => false
  | .layoutRequest _ => false
  | .commit => false
  | .done => false
  | .policyCoreRestart _ => false
  | .functionLevelReset _ => false
  | .moduleReset _ => false
  | .lockInterface _ => false
  | .startInterface _ => false
  | .stopInterface _ => false
  | .getDeviceInterfaceReport _ => false
  | .getDeviceInterfaceState _ => false
  | .getVersion _ => false
  | .getCapabilities _ _ => false
  | .negotiateAlgorithms _ => false
  | .getDigests _ => false
  | .getCertificate _ _ _ => false
  | .challenge _ _ => false
  | .getMeasurements _ _ _ => false
  | .keyExchange _ _ => false
  | .finish _ _ => false
  | .endSession _ => false
  | .vendorDefinedRequest _ _ _ => false
  | .memoryError _ _ => false
  | .selfTest _ _ => false
  | .patrolScrub _ _ => false
  | .counterCommit => false
  | .thermalThrottle _ _ => false
  | .thermalShutdown => false
  | .registerWrite _ _ _ => false
  | .hostAccess _ => false
  | .actldCompletion _ => false
  | .asidTableWrite _ _ => false
  | .laneRetrain _ _ _ => false

/-- The word of an instruction (R55); `none` for a step that has no word. -/
def encode (i : Instr) : Option Word64 := if i.hasWord then some (BitVec.ofNat 64 (encodeNat i)) else none

/-! ### The decoder -/

/-- Why a word is not an instruction (R73). -/
inductive DecodeError where
  /-- fewer than eight bytes -/
  | truncated
  /-- an opcode outside R71 -/
  | undefinedOpcode
  /-- a reserved code in some field, a reserved pair opcode included -/
  | reservedCode
  /-- a non-zero reserved bit or field -/
  | reservedBits
  /-- an operand rule of the opcode, or a pair rule of R69 -/
  | operandRule
  deriving DecidableEq, Repr

/-- Reads one word (R55, R73). -/
def decodeWord (w : Word64) : Except DecodeError Instr :=
  let n := w.toNat
  if bits n 62 1 == 0 && !knownOpcode (bits n 52 10) then .error .undefinedOpcode
  else
    match (if bits n 62 1 == 1 then parsePair n else parseFull n) with
    | none => .error .reservedCode
    | some i =>
      if i.wf then
        if encodeNat i == n then .ok i else .error .reservedBits
      else .error .operandRule

/-- The row of the table that an issued word stands for: what it decodes to, or the illegal instruction (R73). -/
def instrOf (w : Word64) : Instr :=
  match decodeWord w with
  | .ok i => i
  | .error _ => .illegalInstruction w

/-- Reads one instruction from bytes, lowest address first, and leaves the rest (R9, R55). -/
def decode (bs : List Byte) : Except DecodeError (Instr × List Byte) :=
  if bs.length < 8 then .error .truncated
  else
    match decodeWord (BitVec.ofNat 64 (leNat (bs.take 8))) with
    | .ok i => .ok (i, bs.drop 8)
    | .error e => .error e

/-- The bytes of a word, lowest address first (R9, R55). -/
def wordBytes (w : Word64) : List Byte := leBytes 8 w.toNat

/-- The row of the table for an instruction given as a number, bit 0 the least significant bit of its word, laid out as
bytes and read by the decoder (R9, R55). -/
def decodeTableWord (_nbits w : Nat) : Option Instr :=
  match decode (wordBytes (BitVec.ofNat 64 w)) with
  | .ok (i, _) => some i
  | .error _ => some (.illegalInstruction (BitVec.ofNat 64 w))

end Sys2Proof
end

