-- ==== Sys2Proof/Machine/Flags.lean ====
section
/-! DEFINITION. The exception flags (R25, R47), the slice mode register's fields, and the access sizes (R214). -/

namespace Sys2Proof

/-- The sticky flags an instruction raises (R47). -/
structure Flags where
  nv : Bool
  dz : Bool
  of : Bool
  uf : Bool
  nx : Bool
  deriving DecidableEq, Repr

/-- No flag. -/
def Flags.none : Flags := ⟨false, false, false, false, false⟩
/-- Invalid operation. -/
def Flags.invalid : Flags := ⟨true, false, false, false, false⟩
/-- Division by zero. -/
def Flags.divZero : Flags := ⟨false, true, false, false, false⟩
/-- Inexact. -/
def Flags.inexact : Flags := ⟨false, false, false, false, true⟩
/-- The flags raised by either of two operations. -/
def Flags.or (a b : Flags) : Flags := ⟨a.nv || b.nv, a.dz || b.dz, a.of || b.of, a.uf || b.uf, a.nx || b.nx⟩
/-- A flag set when a condition holds. -/
def Flags.when (c : Bool) (f : Flags) : Flags := if c then f else Flags.none
/-- The flags raised by any of several operations. -/
def Flags.all (l : List Flags) : Flags := l.foldl Flags.or Flags.none

/-- The flags as SMODE bits [8:4] (R25). -/
def Flags.toNat (f : Flags) : Nat :=
  bitOf f.nx * 16 + bitOf f.uf * 32 + bitOf f.of * 64 + bitOf f.dz * 128 + bitOf f.nv * 256
/-- Sets sticky flags in an SMODE value; none is cleared (R25). -/
def smodeRaise (w : BitVec 64) (f : Flags) : BitVec 64 := w ||| BitVec.ofNat 64 f.toNat

/-- SMODE.PRIV (R25): 0 user, 1 handler, 2 steward. -/
def smodePriv (w : BitVec 64) : Nat := fld w 15 14
/-- SMODE with PRIV replaced (R339, R342). -/
def smodeSetPriv (w : BitVec 64) (p : Nat) : BitVec 64 := BitVec.ofNat 64 (setBits w.toNat 14 2 p)
/-- The fields RM, NV, DZ, OF, UF, NX of SMODE (R102, R342). -/
def smodeUserMask : BitVec 64 := 0x1F3
/-- SMODE with its RW fields replaced by those of a value (R102, R342). -/
def smodeWrite (w v : BitVec 64) : BitVec 64 := (w &&& ~~~smodeUserMask) ||| (v &&& smodeUserMask)
/-- A rounding mode by its code (R40). -/
def rmOfCode (c : Nat) : RM := if c = 0 then .rne else if c = 1 then .rtz else if c = 2 then .rdn else .rup
/-- The code of a rounding mode (R40). -/
def rmBits : RM → Nat
  | .rne => 0 | .rtz => 1 | .rdn => 2 | .rup => 3
/-- SMODE.RM (R25). -/
def smodeRM (w : BitVec 64) : RM := rmOfCode (fld w 1 0)
/-- SMODE with RM replaced (R102). -/
def smodeSetRM (w : BitVec 64) (r : RM) : BitVec 64 := BitVec.ofNat 64 (setBits w.toNat 0 2 (rmBits r))
/-- EffectiveRM (R49): the mode a rounding code selects under an SMODE value. -/
def effRM (smode : BitVec 64) : Rnd → RM
  | .rne => .rne | .rtz => .rtz | .rdn => .rdn | .rup => .rup | .dflt => smodeRM smode

/-! ### Access sizes (R214) -/

/-- The size in bytes of an SZ code (R214). -/
def Sz.bytes : Sz → Nat
  | .i8 | .n8 => 1
  | .i16 | .n16 => 2
  | .w32 => 4
  | .w64 => 8
  | .w128 => 16

/-- The number of registers of an operand of a size (R214). -/
def Sz.regs : Sz → Nat
  | .w64 => 2
  | .w128 => 4
  | _ => 1

end Sys2Proof
end

