-- ==== Sys2Proof/Machine/Float.lean ====
section
/-! DEFINITION. Floating-point formats and exact arithmetic (chapter 02): values, Decode, Encode, conversions, block
elements, comparison, and the exact sum, product and quotient that every rounding starts from. -/

namespace Sys2Proof

/-- An exact value (R49): NaN, an infinity, or a signed rational num/den with den > 0; the sign matters for zero. -/
inductive FVal where
  | nan
  | inf (neg : Bool)
  | fin (neg : Bool) (num den : Nat)
  deriving DecidableEq, Repr

/-- The parameters of a floating-point format (R35): exponent bits, mantissa bits, bias, whether it has infinities,
whether it has a sign bit. -/
structure FPar where
  w : Nat
  m : Nat
  bias : Nat
  hasInf : Bool
  signed : Bool
  deriving DecidableEq, Repr

/-- R35. -/
def Fmt.par : Fmt → FPar
  | .f64 => ⟨11, 52, 1023, true, true⟩
  | .f16 => ⟨5, 10, 15, true, true⟩
  | .bf16 => ⟨8, 7, 127, true, true⟩
  | .e5m2 => ⟨5, 2, 15, true, true⟩
  | .e4m3 => ⟨4, 3, 7, false, true⟩
  | .e5m3 => ⟨5, 3, 15, false, false⟩
  | _ => ⟨8, 23, 127, true, true⟩

/-- Whether a format is a floating-point format of R35. -/
def Fmt.isFloat : Fmt → Bool
  | .f32 | .f64 | .f16 | .bf16 | .e5m2 | .e4m3 | .e5m3 => true
  | _ => false

/-- The bits of an element of a format (R120). -/
def Fmt.width : Fmt → Nat
  | .f64 | .i64 | .n64 => 64
  | .f32 | .i32 | .n32 | .bf16x2 | .f16x2 => 32
  | .f16 | .bf16 | .i16 | .n16 => 16
  | .kb4 => 4
  | _ => 8

/-- Whether an integer format is signed (R32). -/
def Fmt.isSigned : Fmt → Bool
  | .i8 | .i16 | .i32 | .i64 => true
  | _ => false

/-- 2^e as a numerator and a denominator. -/
def pow2 (e : Int) : Nat × Nat := if 0 ≤ e then (2 ^ e.toNat, 1) else (1, 2 ^ (-e).toNat)
/-- (−1)^neg × mant × 2^e. -/
def FVal.scaled (neg : Bool) (mant : Nat) (e : Int) : FVal := .fin neg (mant * (pow2 e).1) (pow2 e).2
/-- An exact integer (R45: 0 is +0). -/
def FVal.ofInt (x : Int) : FVal := .fin (decide (x < 0)) x.natAbs 1
/-- +0. -/
def FVal.zero : FVal := .fin false 0 1

/-- IsNaN (R49). -/
def FVal.isNaN : FVal → Bool
  | .nan => true
  | _ => false
/-- The sign of a value; NaN counts as positive. -/
def FVal.neg? : FVal → Bool
  | .nan => false
  | .inf n => n
  | .fin n _ _ => n
/-- Whether a value is ±0. -/
def FVal.isZero : FVal → Bool
  | .fin _ n _ => decide (n = 0)
  | _ => false

/-- Decode (R34, R35, R49). -/
def decodeF (f : Fmt) (bs : Nat) : FVal :=
  let p := f.par
  let e := bits bs p.m p.w
  let frac := bits bs 0 p.m
  let neg := p.signed && testBit bs (p.w + p.m)
  let normal : FVal := FVal.scaled neg (2 ^ p.m + frac) ((e : Int) - p.bias - p.m)
  if e = 0 then FVal.scaled neg frac (1 - (p.bias : Int) - p.m)
  else if e = 2 ^ p.w - 1 then
    if p.hasInf then (if frac = 0 then .inf neg else .nan)
    else if frac = 2 ^ p.m - 1 then .nan else normal
  else normal

/-- IsSNaN (R36). -/
def isSNaN (f : Fmt) (bs : Nat) : Bool :=
  let p := f.par
  p.hasInf && decide (bits bs p.m p.w = 2 ^ p.w - 1) && decide (bits bs 0 p.m ≠ 0) && !testBit bs (p.m - 1)

/-- CanonicalNaN (R35). -/
def canonNaN (f : Fmt) : Nat :=
  let p := f.par
  if p.hasInf then (2 ^ p.w - 1) * 2 ^ p.m + 2 ^ (p.m - 1) else 2 ^ (p.w + p.m) - 1
/-- The pattern of the largest finite value (R35). -/
def largestPat (f : Fmt) : Nat :=
  let p := f.par
  if p.hasInf then (2 ^ p.w - 1) * 2 ^ p.m - 1 else 2 ^ (p.w + p.m) - 2
/-- The pattern of infinity. -/
def infPat (f : Fmt) : Nat := (2 ^ f.par.w - 1) * 2 ^ f.par.m
/-- A magnitude pattern with a sign bit; E5M3 has none. -/
def withSign (f : Fmt) (neg : Bool) (mag : Nat) : Nat :=
  if f.par.signed && neg then mag + 2 ^ (f.par.w + f.par.m) else mag

/-- Floor(Log2(num/den)) for num, den > 0. -/
def floorLog2 (num den : Nat) : Int :=
  let e : Int := (Nat.log2 num : Int) - Nat.log2 den
  let q := pow2 e
  if den * q.1 ≤ num * q.2 then e else e - 1

/-- RoundToMultiple's quotient (R42): the integer k ≥ 0 such that k × 2^qe is the multiple chosen for num/den of the
given sign, and whether it is exact. -/
def roundQuot (neg : Bool) (num den : Nat) (qe : Int) (rm : RM) : Nat × Bool :=
  let q := pow2 qe
  let n := num * q.2
  let d := den * q.1
  let k := n / d
  let r := n % d
  let up : Bool :=
    match rm with
    | .rne => decide (d < 2 * r) || (decide (2 * r = d) && decide (k % 2 = 1))
    | .rtz => false
    | .rdn => neg && decide (r ≠ 0)
    | .rup => !neg && decide (r ≠ 0)
  (if up then k + 1 else k, decide (r = 0))

/-- Encode (R49): the pattern and the flags it sets. -/
def encodeF (f : Fmt) (v : FVal) (rm : RM) (sat : Bool) : Nat × Flags :=
  let p := f.par
  match v with
  | .nan => (canonNaN f, Flags.none)
  | .inf neg =>
    if !p.signed && neg then (2 ^ (p.w + p.m) - 1, Flags.invalid)
    else if p.hasInf then (withSign f neg (infPat f), Flags.none)
    else if sat then (withSign f neg (largestPat f), Flags.none)
    else (canonNaN f, Flags.invalid)
  | .fin neg num den =>
    if num = 0 then (withSign f neg 0, Flags.none)
    else if !p.signed && neg then (2 ^ (p.w + p.m) - 1, Flags.invalid)
    else
      let emin : Int := 1 - (p.bias : Int)
      let e := floorLog2 num den
      let e' := max e emin
      let (k, exact) := roundQuot neg num den (e' - p.m) rm
      let mag := ((e' - emin).toNat) * 2 ^ p.m + k
      let fl := Flags.mk false false false (!exact && decide (e < emin)) (!exact)
      if largestPat f < mag then
        let toward : Bool :=
          match rm with
          | .rne => true
          | .rtz => false
          | .rup => !neg
          | .rdn => neg
        let ofl : Flags := ⟨false, false, true, fl.uf, true⟩
        if !toward || sat then (withSign f neg (largestPat f), ofl)
        else if p.hasInf then (withSign f neg (infPat f), ofl)
        else (canonNaN f, ofl)
      else (withSign f neg mag, fl)

/-- RoundToMultiple(v, 1, rm) of a finite value as an integer, and whether it is exact (R49). -/
def roundInt (neg : Bool) (num den : Nat) (rm : RM) : Int × Bool :=
  let (k, ex) := roundQuot neg num den 0 rm
  (if neg then -(k : Int) else k, ex)

/-- ConvToInt (R49): the integer and the flags. -/
def convToInt (v : FVal) (n : Nat) (signed : Bool) (rm : RM) : Int × Flags :=
  let lo : Int := if signed then -(2 ^ (n - 1)) else 0
  let hi : Int := if signed then 2 ^ (n - 1) - 1 else 2 ^ n - 1
  match v with
  | .nan => (0, Flags.invalid)
  | .inf neg => (if neg then lo else hi, Flags.invalid)
  | .fin neg num den =>
    let (x, ex) := roundInt neg num den rm
    if x < lo then (lo, Flags.invalid)
    else if hi < x then (hi, Flags.invalid)
    else (x, Flags.when (!ex) Flags.inexact)

/-- KBValue (R37, R49): selector and integer value. -/
def kbValue (f : Fmt) (bs : Nat) : Nat × Int :=
  match f with
  | .kb4 => (bits bs 3 1, if testBit bs 2 then -(bits bs 0 2 : Int) else bits bs 0 2)
  | _ => (bits bs 7 1, if testBit bs 6 then -(bits bs 0 6 : Int) else bits bs 0 6)

/-- KBEncode (R49). -/
def kbEncode (f : Fmt) (x : Int) (sel : Nat) : Nat :=
  let s := bitOf (decide (x < 0))
  match f with
  | .kb4 => sel % 2 * 8 + s * 4 + min x.natAbs 3
  | _ => sel % 2 * 128 + s * 64 + min x.natAbs 63

/-! ### Exact arithmetic (R41, R45, R46): a value, and whether the operation was an invalid case -/

/-- A signed numerator over a common denominator, zero signed by the rounding mode when operands differ (R45). -/
def fAdd (rm : RM) (a b : FVal) : FVal × Bool :=
  match a, b with
  | .nan, _ => (.nan, false)
  | _, .nan => (.nan, false)
  | .inf x, .inf y => if x = y then (.inf x, false) else (.nan, true)
  | .inf x, .fin _ _ _ => (.inf x, false)
  | .fin _ _ _, .inf y => (.inf y, false)
  | .fin x n d, .fin y m e =>
    let l := n * e
    let r := m * d
    if x = y then (.fin x (l + r) (d * e), false)
    else if l = r then (.fin (match rm with | .rdn => true | _ => false) 0 1, false)
    else if r < l then (.fin x (l - r) (d * e), false)
    else (.fin y (r - l) (d * e), false)

/-- An exact product (R45, R46). -/
def fMul (a b : FVal) : FVal × Bool :=
  match a, b with
  | .nan, _ => (.nan, false)
  | _, .nan => (.nan, false)
  | .inf x, .inf y => (.inf (x != y), false)
  | .inf x, .fin y m _ => if m = 0 then (.nan, true) else (.inf (x != y), false)
  | .fin x n _, .inf y => if n = 0 then (.nan, true) else (.inf (x != y), false)
  | .fin x n d, .fin y m e => (.fin (x != y) (n * m) (d * e), false)

/-- A value with its sign inverted. -/
def fNeg : FVal → FVal
  | .nan => .nan
  | .inf n => .inf (!n)
  | .fin n a b => .fin (!n) a b

/-- a × b + c, exact (R41, R46). -/
def fFma (rm : RM) (a b c : FVal) : FVal × Bool :=
  let (p, i) := fMul a b
  let (r, j) := fAdd rm p c
  (r, i || j)

/-- An exact quotient (R124): value, invalid case, division by zero. -/
def fDiv (a b : FVal) : FVal × Bool × Bool :=
  match a, b with
  | .nan, _ => (.nan, false, false)
  | _, .nan => (.nan, false, false)
  | .inf _, .inf _ => (.nan, true, false)
  | .inf x, .fin y _ _ => (.inf (x != y), false, false)
  | .fin x _ _, .inf y => (.fin (x != y) 0 1, false, false)
  | .fin x n d, .fin y m e =>
    if m = 0 then
      if n = 0 then (.nan, true, false) else (.inf (x != y), false, true)
    else (.fin (x != y) (n * e) (d * m), false, false)

/-- x < y for values that are not NaN; −0 equals +0 (R128). -/
def fLt (a b : FVal) : Bool :=
  match a, b with
  | .nan, _ => false
  | _, .nan => false
  | .inf x, .inf y => x && !y
  | .inf x, .fin _ _ _ => x
  | .fin _ _ _, .inf y => !y
  | .fin x n d, .fin y m e =>
    let l : Int := if x then -((n * e : Nat) : Int) else (n * e : Nat)
    let r : Int := if y then -((m * d : Nat) : Int) else (m * d : Nat)
    decide (l < r)

/-- Encode of an exact result that an invalid case may have made NaN (R46, R124). -/
def encodeOp (f : Fmt) (r : FVal × Bool) (rm : RM) (sat : Bool) : Nat × Flags :=
  let (p, fl) := encodeF f r.1 rm sat
  (p, fl.or (Flags.when r.2 Flags.invalid))

/-- FP32 addition rounded once (R54, R178, R225). -/
def addF (f : Fmt) (rm : RM) (a b : Nat) : Nat × Flags := encodeOp f (fAdd rm (decodeF f a) (decodeF f b)) rm false

/-- Whether pattern a orders below b in minimum and maximum: −0 below +0 (R127). -/
def minLess (f : Fmt) (a b : Nat) : Bool :=
  let x := decodeF f a
  let y := decodeF f b
  if x.isZero && y.isZero then x.neg? && !y.neg? else fLt x y

/-- VMIN or VMAX of one element (R127). -/
def minMax (f : Fmt) (isMax prop : Bool) (a b : Nat) : Nat × Flags :=
  let x := decodeF f a
  let y := decodeF f b
  let fl := Flags.when (isSNaN f a || isSNaN f b) Flags.invalid
  let r :=
    if x.isNaN && y.isNaN then canonNaN f
    else if x.isNaN then (if prop then canonNaN f else b)
    else if y.isNaN then (if prop then canonNaN f else a)
    else if isMax then (if minLess f a b then b else a)
    else (if minLess f b a then b else a)
  (r, fl)

/-- VCLASS (R131): the bit number of the class of a pattern. -/
def classOf (f : Fmt) (a : Nat) : Nat :=
  let p := f.par
  let e := bits a p.m p.w
  match decodeF f a with
  | .nan => if isSNaN f a then 8 else 9
  | .inf neg => if neg then 0 else 7
  | .fin neg num _ =>
    if num = 0 then (if neg then 3 else 4)
    else if e = 0 then (if neg then 2 else 5)
    else if neg then 1 else 6

end Sys2Proof
end

