-- ==== Sys2Proof/Config.lean ====
section
/-! DEFINITION. What an implementation fixes and the spec leaves open: constants without a body, so that a statement
about a free value holds for every value of it. Each is named in a row of notes/assumptions. -/

namespace Sys2Proof.Config

/-- FREE VALUE: the choice a step makes where the spec allows several outcomes; applied to the counter State.fresh,
which every step advances, and to the number of the choice within the step (log entry 3). -/
opaque free : Nat → Nat → BitVec 64

/-- FREE VALUE: the bytes of a line read under another key than the one it was written under (R204): a function of
the address, the two keys and the stored byte (log entry 5). -/
opaque wrongKeyByte : Nat → Nat → Nat → BitVec 8 → BitVec 8

/-- Implementation-defined: which physical lines are host memory (R201, R205) (log entry 6). -/
opaque isHostMemory : Nat → Bool

/-- Implementation-defined: a die of the hard partition whose KSM stacks hold a physical line (R201, R202) (log entry 6). -/
opaque bankDie : Nat → Fin 4

/-- Implementation-defined: how a partition of k dies with interleave granule g (ILVG) places a physical line (R202, R390): the number
of the stack, taken modulo 3 × k, and the line within that stack of 64 GB (R2), decimal units (R9), which has 500,000,000 lines of 128 bytes (log entry 6). -/
opaque interleave : Nat → Nat → Nat → Nat × Fin 500000000

/-- Implementation-defined: translation in the management complex's own address space (R375) (log entry 7). -/
opaque mcAddress : Nat → Option Nat

/-- Implementation-defined: the version of the Braze unit, UNITVER (R327) (log entry 8). -/
opaque unitVersion : BitVec 32

/-- Implementation-defined: the device certificate chain up to the device identity certificate (R433) (log entry 8). -/
opaque deviceCertificates : List (BitVec 8)

/-- Implementation-defined: the alias certificate for a firmware measurement (R433) (log entry 8). -/
opaque aliasCertificate : BitVec 384 → List (BitVec 8)

/-- Implementation-defined: a signature by the alias key of a firmware measurement over a transcript (R434)
(log entry 8). -/
opaque aliasSign : BitVec 384 → List (BitVec 8) → List (BitVec 8)

/-- Implementation-defined: the boot ROM's version, measurement index 1 (R434) (log entry 8). -/
opaque bootRomVersion : List (BitVec 8)

/-- Implementation-defined: the SHA-384 of the root key fused into die 0 (R432) (log entry 8). -/
opaque rootKeyHash : BitVec 384

/-- Implementation-defined: the security version that a firmware image states (R432) (log entry 123). -/
opaque imageSecurity : List (BitVec 8) → Nat

/-- Implementation-defined: the firmware level that a firmware image states (R431) (log entry 123). -/
opaque imageLevel : List (BitVec 8) → BitVec 16

/-- Implementation-defined: the components of a firmware image, other than its fallback kernel (R432) (log entry 123). -/
opaque imageComponents : List (BitVec 8) → List (List (BitVec 8))

/-- Implementation-defined: the fallback kernel of a firmware image (R426, R432) (log entry 123). -/
opaque imageFallback : List (BitVec 8) → List (BitVec 8)

/-- Implementation-defined: the launch records of a firmware image's kernels, with their indices (R375, R376) (log entry 123). -/
opaque imageKernels : List (BitVec 8) → List (Nat × BitVec 1024)

/-- Implementation-defined: the layout byte of a configuration, if it gives one (R389, R432) (log entry 123). -/
opaque configLayout : List (BitVec 8) → Option (BitVec 8)

/-- Implementation-defined: capacity of a chip's undo log, in lines (R364) (log entry 8). -/
opaque undoCapacity : Nat

/-- Implementation-defined: number of spare lines or ways the device does not state (R436: ways of an L2 set, rows the
logic die spares) (log entry 8). -/
opaque spareUnits : Structure → Nat

/-- Implementation-defined: the device's SPDM capability flags (R434) (log entry 8). -/
opaque spdmCapabilities : BitVec 32

/-- Implementation-defined: the ephemeral ECDHE share the responder answers (R434) (log entry 8). -/
opaque responderShare : Nat → List (BitVec 8)

end Sys2Proof.Config
end

