-- ==== Sys2Proof/Machine/State.lean ====
section
/-! DEFINITION. The state of one module as plain data: slices, blocks, grids, cores, the virtual chips of its functions,
dies, the device, and memory; the faults and refusals a step can end in; and the state after reset.
INVENTORY.md lists every field with the rule that names it. -/

namespace Sys2Proof.Machine

/-! ### Traps -/

/-- Trap causes (R332), in code order 0x01–0x18. -/
inductive Cause where
  | illegalInstruction | privilege | registerRange | emulatedOpcode | misalignedFetch | fetchFault | misalignedData
  | dataFault | addressForm | podMember | scopePolicy | dispatchRange | uncorrectable | groupSync | wellPoison
  | engineOperand | engineFault | spliceDivergence | spliceResume | software | breakpoint | stage2Fault | frameFault
  | watchdog
  deriving DecidableEq, Repr

/-- What a trap records beside the slice's state (R336, R337): the cause and the fields ADDR, AUX, LANE, ENGERR, LEVEL,
WR, DEFER of INFO and the frame, and the pump state word; `ipa`: the address whose stage-2 translation failed, for the event (R400). -/
structure TrapInfo where
  cause : Cause
  addr : Word64 := 0
  aux : BitVec 32 := 0
  lane : Nat := 0
  engerr : Nat := 0
  level : Nat := 0
  wr : Bool := false
  defer : Bool := false
  pump : Word64 := 0
  ipa : Word64 := 0
  deriving DecidableEq, Repr

/-! ### What agents know of each other's writes (R242–R258) -/

/-- A place that several agents read and write under the consistency rules: a byte of physical memory, a byte of a block's scratchpad,
a byte of a block's registers by its offset in the register window, in physical numbering (R244), a tile descriptor of a block (R154),
a well descriptor of a chip (R233), or, as what an ICINV has invalidated, n bytes of a function's addresses (R240). -/
inductive Loc where
  | mem (a : Nat)
  | scratch (uid off : Nat)
  | reg (uid off : Nat)
  | words (v a n : Nat)
  | tdesc (uid n : Nat)
  | well (vf n : Nat)
  deriving DecidableEq, Repr

/-- Who makes an access (R242): the issuing slice by its key, its grid, the core and the die it acts on, and its function. -/
structure Site where
  key : Nat
  gid : Nat
  core : Nat
  die : Nat
  vf : Nat
  deriving DecidableEq, Repr

/-- That a write, by its number, must be seen on an access path (R249, R257): by accesses numbered `since` and later, and by agents that
share a scope with `site` (R239). -/
structure Known where
  stamp : Nat
  path : EClass
  since : Nat
  scope : Scope
  site : Site
  deriving DecidableEq, Repr

/-- What a release makes known to an acquire that synchronises with it (R247): its scope, its agent, the writes that happen before it. -/
structure Msg where
  scope : Scope
  site : Site
  knows : List Known
  deriving DecidableEq, Repr

/-- A write to one place whose replaced value an agent may still read (R251): the place, the replaced value, the write's number in
coherence order, its path, agent, number among the agent's operations, and scope (R245), its place among the writes that its die has sent
to other dies, 0 for one that reached them without being sent, with the die's vector clock at that time (R254), and the releases that its
release sequence carries (R247). For a register byte, whose value every read returns as it stands (R195), `old` holds what was written. -/
structure Past where
  loc : Loc
  old : Nat
  stamp : Nat
  path : EClass
  site : Site
  seq : Nat
  scope : Scope
  emit : Nat
  clock : Vector Word64 4
  rels : List Msg
  deriving DecidableEq, Repr

/-! ### Slices -/

/-- An element of the registers that a long result writes (R29, R31): a scalar register, or one lane of a vector
register. -/
inductive Elem where
  | s (n : Nat)
  | v (n lane : Nat)
  deriving DecidableEq, Repr

/-- What wrote a long result: a floating-point instruction (R103), an instruction of class LD, WL or FB (R114), or any other. -/
inductive LongKind where
  | fp | load | plain
  deriving DecidableEq, Repr

/-- A value that a scalar register held before a completion result, which a word may still read until a WAIT has let the counter fall
far enough (R30): EN if `en`, with `later` commands of the same queue issued after it, else FB. -/
structure Stale where
  reg : Nat
  old : Word64
  en : Bool
  later : Nat
  deriving DecidableEq, Repr

/-- A long result of the current run that has been computed and not yet settled (R30, R31). -/
structure PendWrite where
  elem : Elem
  val : Word64
  kind : LongKind
  deriving DecidableEq, Repr

/-- The five outstanding-operation counters (R114). -/
structure Counters where
  ld : BitVec 6
  st : BitVec 6
  en : BitVec 6
  wl : BitVec 6
  fb : BitVec 6
  deriving DecidableEq, Repr

/-- Read-modify-write operations (R225–R227). -/
inductive AtomOp where
  | add | min | minn | max | maxn | and | or | xor | xchg | cas | fadd | badd2
  deriving DecidableEq, Repr

/-- Where a load delivers its result (R214, R220). -/
inductive LoadDst where
  | sreg (n : Nat)
  | vreg (n : Nat)
  deriving DecidableEq, Repr

/-- What an outstanding operation does when it is performed. -/
inductive OpKind where
  | load (dst : LoadDst) (sz : Sz) (fe : FE)
  | loadTr (d : Nat) (sz : Sz) (fe : FE)
  | store (sz : Sz) (fe : FE) (elide : Bool)
  | feset | feclr
  | atomic (op : AtomOp) (sz : Sz) (ret : Option Nat)
  | well (d : Nat) (sz : Sz) (descs : List (Nat × BitVec 512)) (pr : PoisonReport)
  | actLoad
  | abInit (count : BitVec 16)
  | abUpdate (arrive : Bool) (bytes : Int)
  | podLoad (d : Nat) (sz : Sz)
  | podStore (sz : Sz)
  | podRed (op : AtomOp) (sz : Sz)
  | fsend (dst : BitVec 12) (src : Word64) (d : Nat)
  | fsendLaunch (dst : BitVec 12) (index : Fin 64) (args : Word64) (d : Nat)
  | frecv (link : BitVec 12) (dst : Word64) (d : Nat)
  deriving DecidableEq, Repr

/-- One lane of an outstanding operation: its address, the physical address its check gave (none in a core-local window),
its data and compare bytes, the bytes that a forwarding window supplies (R321), and, once performed, the bytes read.
`waited`: it met its granule empty (R197, R438). -/
structure LaneAcc where
  lane : Nat
  addr : Word64
  pa : Option Nat
  data : List Byte
  cmp : List Byte
  fwd : List (Option Byte)
  waited : Bool
  got : Option (List Byte)
  poisoned : Bool
  deriving DecidableEq, Repr

/-- An outstanding operation of a slice (R114), in program order by `seq`. `acq`: later accesses wait for it (R247); `rel`:
it waits for every earlier access. `pc`, `words`: the word it came from and the slice's word count there. `consumer`: a
WAIT is held by it (R438). `checked`: a pod access whose step-4 check has passed (R416). `sent`: a send that a Windlass pause has
held (R405). `status`: the code a fabric operation has returned (R413). `outside`: bound to a checkpoint (R367). `at_`:
the step in which it was issued. `rels`: the releases that its write carries, by scope and number (R247). `kidx`: the kernel-table index of
its word's origin (R324); `handler`: the word was issued at handler level (R333). -/
structure MemOp where
  seq : Nat
  kind : OpKind
  lanes : List LaneAcc
  scope : Scope
  acq : Bool
  rel : Bool
  pc : Word64
  words : Nat
  consumer : Bool
  checked : Bool
  sent : Bool
  status : Option Nat
  outside : Bool
  at_ : Nat
  rels : List (Scope × Nat) := []
  kidx : Nat := 0
  handler : Bool := false
  deriving DecidableEq, Repr

/-- What holds a slice, besides a word that waits by itself (R156, R169): parked (R30), an open instance (R168), a
barrier generation (R183), a collective meeting (R420), a WLD or pod access that must complete (R235, R416), a trap that
waits for long results (R334), a forced checkpoint (R367). -/
inductive Hold where
  | none
  | parked
  | inst (pc : Word64)
  | barrier (n : Nat)
  | coll
  | join
  | well (seq : Nat) (word : Word64)
  | pod (seq : Nat) (word : Word64)
  | trap (t : TrapInfo) (word : Word64)
  | forced
  deriving DecidableEq, Repr

/-- A deferred report of a poisoned full-empty load (R438): its lowest poisoned lane and address, the slice's word count
at the load, and whether the next word that issues reports it. -/
structure PoisonDue where
  addr : Word64
  lane : Nat
  issued : Nat
  ready : Bool
  deriving DecidableEq, Repr

/-- The copy of EXEC, Q and SMODE of the origin that is not running (R316). -/
structure OriginCtx where
  exec : BitVec 4
  q : Vector (BitVec 8) 4
  smode : Word64
  deriving DecidableEq, Repr

/-- The position of a slice in a spliced grid (R315): part 1–8, the other origin's copies, the decision that P's loop-back
recorded (R317). -/
structure SpliceSlice where
  part : Nat
  other : OriginCtx
  decision : Bool
  deriving DecidableEq, Repr

/-- One slice (R13) with what R29–R31, R114, R241, R277, R334–R341 and R367 add. `stale`: the values of R30 that completion results
replaced. `engFail`: failures of its commands by PC, code, pump state word and kernel-table index (R276). `dropDue`: the next word reports dropped writes (R324, R362). `forcedOk`:
its forcing word's checkpoint has been committed. `last`: the PC of the word it last issued (R354). `knows`: the writes that it
must see (R249); `reads`: the writes that its loads have returned; `lastRead`: the number of its last load and the releases that the load
read; `fences`: release fences whose release write is still to come (R247). -/
structure Slice where
  pc : Word64
  last : Word64
  s : Vector Word64 64
  v : Sparse Word32
  exec : BitVec 4
  live : BitVec 4
  q : Vector (BitVec 8) 4
  smode : Word64
  cnt : Counters
  ops : List MemOp
  seq : Nat
  pend : List PendWrite
  stale : List Stale
  hold : Hold
  ended : Bool
  frame : Option Word64
  enteredAt : Nat
  dropped : List (Nat × Word64 × Nat)
  dropDue : Bool
  poisonDue : List PoisonDue
  vpoison : Sparse Bool
  engFail : List (Word64 × Nat × Word64 × Nat)
  issued : Nat
  forcedOk : Bool
  splice : Option SpliceSlice
  knows : List Known := []
  reads : List Known := []
  lastRead : Nat × List Msg := (0, [])
  fences : List (Scope × Nat) := []
  deriving DecidableEq, Repr

/-! ### Blocks -/

/-- A slice joined to an instance (R168): the word, its mask, its active lanes and scalar guard, and the values its lanes
supply and keep. -/
structure Member where
  slice : Nat
  word : Instr
  mask : BitVec 8
  active : BitVec 4
  pass : Bool
  vals : List Word64
  olds : List Word64
  idx : List Word32
  deriving DecidableEq, Repr

/-- An open instance of a squad at an address (R168). -/
structure Inst where
  pc : Word64
  members : List Member
  deriving DecidableEq, Repr

/-- The current generation of a block barrier (R183): arrived slices with the squad mask each names and its word's M. -/
structure Arrival where
  slice : Nat
  mask : BitVec 32
  m : Bool
  word : Word64
  deriving DecidableEq, Repr

/-- A slice waiting in the meeting of a COLL word (R420): operands it read and its word's M. -/
structure CollArrival where
  slice : Nat
  op : Nat
  td : BitVec 128
  ts : BitVec 128
  control : Word64
  obj : Word64
  m : Bool
  word : Word64
  deriving DecidableEq, Repr

/-- Role kinds (R90, R151), codes 0–3. -/
inductive Role where
  | general | copy | matrix | epilogue
  deriving DecidableEq, Repr

/-- One squad (R15, R149–R151, R155). `pcount`: P's register count in a spliced squad (R314), else 0. -/
structure Squad where
  vbase : Nat
  vcount : Nat
  pcount : Nat
  role : Role
  roleIdx : Nat
  slot : Nat
  insts : List Inst
  deriving DecidableEq, Repr

/-- A forwarding window of a STORE tag (R319): tag, producer range, bytes written this iteration, and the lowest and
highest elided address so far (R323). -/
structure Window where
  tag : Nat
  base : Word64
  len : Nat
  written : Sparse (Option Byte)
  elided : Option (Nat × Nat)
  deriving DecidableEq, Repr

/-- What a spliced block shares (R314–R319): scratchpad of P, register maps of C, tag tables, windows, arrivals at the
current join. -/
structure SpliceBlock where
  pScratch : Nat
  smap : List Nat
  tmap : List Nat
  windows : List Window
  arrived : List Nat
  deriving DecidableEq, Repr

/-- What the arrivals and bytes counted by a barrier object make known (R187), by its scratchpad offset: those of the phase in progress
and those of the last phase that completed. -/
structure PhaseMsgs where
  off : Nat
  cur : List Msg
  done : List Msg
  deriving DecidableEq, Repr

/-- One block (R149, R152–R154, R183, R187–R189). `tdAt`: the cycle and the slice of the last write of each tile descriptor (R154). -/
structure Block where
  gid : Nat
  vf : Nat
  linear : Nat
  core : Nat
  squads : List Squad
  scratchAt : Nat
  scratchSize : Nat
  scratch : Sparse Byte
  full : Sparse Bool
  poison : Sparse Bool
  tdesc : Vector (BitVec 128) 16
  bars : Table (List Arrival)
  meet : List CollArrival
  actRes : Bool
  mxRes : Bool
  killed : Bool
  splice : Option SpliceBlock
  phases : List PhaseMsgs := []
  tdAt : Table (Nat × Nat) := []
  deriving DecidableEq, Repr

/-! ### Cores -/

/-- The tag of a plane (R270, R287). -/
structure PlaneTag where
  mode : Mode
  afmt : Fmt
  bfmt : Fmt
  nc : NC
  k : Nat
  ncol : Nat
  deriving DecidableEq, Repr

/-- A plane (R262, R287): the kept elements by logical index, key column × 1024 + k, and the tag; `none` is EMPTY. -/
structure Plane where
  elems : Table (BitVec 16)
  tag : Option PlaneTag
  deriving DecidableEq, Repr

/-- What a queued command does (R282): its operands as read at issue (R280). -/
inductive CmdKind where
  | ldstat (mode : Mode) (xf : Fmt) (nc : NC) (ns : Bool) (tb : BitVec 128) (sm : Word64)
  | pswap
  | stream (mode : Mode) (rnd : RM) (nc : NC) (ta : BitVec 128) (sp : Word64)
  | scacc (rnd : RM) (sr sa sb : Word64)
  | accclr (sr : Word64)
  | accrd (ic : Bool) (rnd : RM) (sat : Bool) (td : BitVec 128) (sp : Word64)
  | accwr (ts : BitVec 128) (sp : Word64)
  | accmv (ss sd sz : Word64)
  | mxtile (mode : Mode) (rnd : RM) (ta tb : BitVec 128) (sp : Word64)
  | cptile (td ts : BitVec 128)
  | sctile (rnd : RM) (sc : Word64) (ta tb : BitVec 128)
  | cpcopy (dst src : Word64) (len : Nat)
  | cptr (td ts : BitVec 128)
  | cpmcast (d : Nat) (so : Word64) (ts : BitVec 128) (mask : BitVec 8) (base : Nat)
  deriving DecidableEq, Repr

/-- A command of the command queue or the copy queue (R263, R295): issuing slice (none once detached, R275), its number
among the slice's operations (R304), the PC of its word, barrier object, the first step not completed, failure code, destination blocks by core of the cluster and
undelivered destinations (R207, R299), and the writes that its accesses must see (R257). `kidx`, `handler`: as of a memory operation;
`at_`: the first cycle after that of its issue (R263), before which it is not performed; `late`: rows of a multicast that a destination has still to receive, by core of the cluster and
scratchpad offset (R208). -/
structure Cmd where
  slice : Nat
  attached : Bool
  seq : Nat
  block : Nat
  pc : Word64
  kind : CmdKind
  ab : Option Word64
  next : Nat
  err : Nat
  dests : Table Nat
  undelivered : BitVec 8
  knows : List Known := []
  kidx : Nat := 0
  handler : Bool := false
  at_ : Nat := 0
  late : List (Nat × Nat × List Byte) := []
  deriving DecidableEq, Repr

/-- A buffer of the activation table (R136, R137). -/
structure ActBuf where
  valid : Bool
  header : BitVec 128
  entries : Sparse Word64
  deriving DecidableEq, Repr

/-- A table entry that a TLB or walker holds (R351): stage, its ASID (stage 1) or VMID (stage 2), the VMID, level, the input address
above that level's offset, and the entry's 64 bits. Entries of both stages down to the leaves make up a cached
translation with the ASID-table entry, which stands at level 4, and those above the leaves a partial walk. -/
structure TlbEntry where
  stage2 : Bool
  tag : Nat
  vmid : Nat
  level : Nat
  page : Nat
  entry : Nat
  deriving DecidableEq, Repr

/-- One core (R188, R199, R200, R262, R278, R279, R295, R351, R436). Of the governor (R278): the present window, its active cycles and its
bound, the held cycles of the window before, whether a step has been held in it, and the cycles that the streaming command at the head has
been given. -/
structure Core where
  mxOwner : Option Nat
  acc : Sparse Word32
  accPoison : Sparse Bool
  stationary : Plane
  shadow : Plane
  cmdq : List Cmd
  copyq : List Cmd
  govst : BitVec 32
  govcfg : Word64
  govNext : Word64
  window : Nat
  active : Nat
  budget : Nat
  held : Nat
  blocked : Bool
  streamed : Nat
  actOwner : Option Nat
  actBufs : Vector ActBuf 2
  actSel : Bool
  tlb : List TlbEntry
  icache : Table Word64
  retired : Bool
  noMatrix : Bool
  deriving DecidableEq, Repr

/-! ### Queues, grids -/

/-- Queue states (R377), codes 0–4. -/
inductive QState where
  | disabled | idle | running | error | stopped
  deriving DecidableEq, Repr

/-- A queue register block (R377), the packets read and not yet DONE in ring order, and a pre-emption request in
progress (R355). `posts`: what the releases of device-side enqueues make known, by ring index (R384, R386). -/
structure Queue where
  ridx : BitVec 32
  widx : BitVec 32
  base : Word64
  size : BitVec 5
  state : QState
  pkts : List Nat
  preempt : Bool
  posts : Table (List Msg) := []
  deriving DecidableEq, Repr

/-- Packet states after READ (R167). A packet that ends without a block stands in `killing` with its status until its
completion step; one that is DONE has no entry any more. -/
inductive PState where
  | waiting | dispatching | draining | killing
  deriving DecidableEq, Repr

/-- A fault that ended a grid (R166, R346): PC, kernel-table index, cause code with bit 7 (R333). -/
structure GridFault where
  pc : Word64
  kidx : Nat
  code : BitVec 8
  deriving DecidableEq, Repr

/-- What a brazed pair adds to its producer's grid (R312–R316, R327): the consumer's packet, record and code, the tables
and origin words of the stored image. -/
structure Splice where
  pktC : BitVec 512
  recC : BitVec 1024
  tableP : BitVec 1536
  tableC : BitVec 1536
  codeP : List Word64
  codeC : List Word64
  deriving DecidableEq, Repr

/-- A packet from READ on, and the grid it launches (R163–R167, R380–R383): its queue and ring index, the function in whose
context its blocks run (64: the management complex's own, R375), packet and record, undispatched block ranges [lo, hi) by
die, the cluster set of each CLUSTERSET unit placed (R160), the time of its start, the watchdog's deadline once armed and
whether a destruction armed it (R356), STATUS and fault. `waitOk`: the WAITADDR condition has held. `forcedAt`: CKSEQ when
the completion forced a checkpoint (R367). `elided`: tag, lowest and highest elided address (R323). `producer`: the grid
that runs a brazed consumer. `msgs`: the releases that its packet has read; `knows`: the writes that its blocks must see from the start
acquire on (R164, R248); `learned`: those that its ended slices knew (R165). `credit`: the blocks that it may dispatch in the present
round, by die (R380); `ticket`: its place in die 0's line of gang launches (R383); `podChips`: the virtual function that runs the blocks of
each POD index, none for a chip of another module (R160). -/
structure Grid where
  home : QRef
  idx : Nat
  ctx : Nat
  pkt : BitVec 512
  lrec : BitVec 1024
  state : PState
  waitOk : Bool
  undisp : Table (List (Nat × Nat))
  unitSet : Table Nat
  startedAt : Nat
  deadline : Option Nat
  destroyed : Bool
  status : Nat
  fault : Option GridFault
  forcedAt : Option Word64
  bzcode : Nat
  splice : Option Splice
  elided : List (Nat × Nat × Nat)
  producer : Option Nat
  msgs : List Msg := []
  knows : List Known := []
  learned : List Known := []
  credit : Table Nat := []
  ticket : Option Nat := none
  podChips : List (Option Nat) := []
  deriving DecidableEq, Repr

/-! ### Virtual chips -/

/-- An event for a log (R400). -/
structure Event where
  kind : Nat
  code : BitVec 16
  queue : BitVec 8
  vchip : BitVec 12
  gen : BitVec 32
  aux : Word64
  data : Word64
  deriving DecidableEq, Repr

/-- An event log control block (R399) with the function's MSI-X vector 0 (R401, R430): address, data, mask, pending bit,
messages sent. -/
structure EventLog where
  ridx : BitVec 32
  widx : BitVec 32
  base : Word64
  gen : BitVec 32
  lost : BitVec 32
  size : BitVec 5
  en : Bool
  msixAddr : Word64
  msixData : BitVec 32
  msixMask : Bool
  msixPending : Bool
  msixSent : List (Word64 × BitVec 32)
  deriving DecidableEq, Repr

/-- A loader request (R387), and the recovery request of the physical function (R432); `job`: address, length and result
address of the load in progress (BUSY). -/
structure Loader where
  addr : Word64
  len : Word64
  resaddr : Word64
  job : Option (Word64 × Word64 × Word64)
  deriving DecidableEq, Repr

/-- An installed collective group (R418): GID, EPOCH, members in rank order, own rank; the ranks of members of this module that have been
reset since (R424). -/
structure Group where
  gid : BitVec 128
  epoch : BitVec 16
  members : List Nat
  rank : Nat
  lost : List Nat := []
  deriving DecidableEq, Repr

/-- A collective command in the collective engine (R420–R424): slot, instance number, operation, tiles, control word,
object, block that issued it, slices that count it, the issue time, and the time from which its engine could grant it a slot (R426). -/
structure CollCmd where
  slot : Nat
  index : Nat
  op : Nat
  td : BitVec 128
  ts : BitVec 128
  control : Word64
  obj : Word64
  block : Nat
  issuedAt : Nat
  slices : List Nat
  headAt : Option Nat := none
  deriving DecidableEq, Repr

/-- TDISP interface states (R406). -/
inductive Tdisp where
  | unlocked | locked | run | error
  deriving DecidableEq, Repr

/-- The part of a core's state that belongs to a block's context (R361). -/
structure CoreCtx where
  acc : Sparse Word32
  accPoison : Sparse Bool
  stationary : Plane
  shadow : Plane
  cmdq : List Cmd
  copyq : List Cmd
  govst : BitVec 32
  actBufs : Vector ActBuf 2
  actSel : Bool
  mxOwner : Option Nat
  actOwner : Option Nat
  deriving DecidableEq, Repr

/-- A context image (R361). -/
structure Image where
  slices : Table Slice
  blocks : Table Block
  cores : Table CoreCtx
  grids : Table Grid
  queues : Table Queue
  wells : Table (BitVec 512)
  groups : Table Group
  colls : List CollCmd
  collCount : Table Nat
  tfbase : Word64
  hwdog : Word64
  ctbase : Word64
  deriving DecidableEq, Repr

/-- An entry of a chip's undo log (R202, R365): the line's number and what the line was: bytes, key, poison. -/
structure UndoLine where
  line : Nat
  old : List Byte
  key : Option Nat
  poison : Bool
  deriving DecidableEq, Repr

/-- One virtual chip and the virtual function that carries it (chapters 18–24). `forcing`: slices held at a word that forces
a checkpoint, with the word (R367). `shape`: the virtual-chip count of the machine whose image the chip holds (R370). `released`: the releases of completed packets (R165, R248); `fenceOrder`: the writes that come before
the next FENCE.SC in the total order (R256). -/
structure Chip where
  kernels : Table (BitVec 1024)
  kmeas : Table (BitVec 384)
  wells : Table (BitVec 512)
  tfbase : Word64
  hwdog : Word64
  ctbase : Word64
  asid : BitVec 12
  chipTab : Table (BitVec 128)
  labels : Table Word64
  mcast : Table (BitVec 256)
  launchTab : Table (BitVec 128)
  groups : Table Group
  colls : List CollCmd
  collCount : Table Nat
  queues : Table Queue
  log : EventLog
  pending : List Event
  loader : Loader
  tdisp : Tdisp
  keyId : Nat
  signKeys : List (List Byte)
  linkKeys : Table (BitVec 256)
  sendCount : Table Nat
  acceptCount : Table Nat
  att : BitVec 384
  images : List (BitVec 384)
  running : Bool
  cut : Bool
  ckseq : Word64
  undo : List UndoLine
  interval : Nat
  lastCommit : Nat
  committed : Option Image
  forcing : List (Nat × Word64)
  outsideWait : Bool
  migrating : Bool
  shape : Option Nat := none
  released : List Msg := []
  fenceOrder : List Known := []
  deriving DecidableEq, Repr

/-- A migration image (R369): the header; whether the body's integrity check passes; the function it was built from; the shape
of its machine (R370): layout byte, cluster sets, virtual chips; the time of its commit; and what the management complex puts into the body: the committed context, the chip's memory by
intermediate physical address, reset generation, pending events, recipes, keys and counts (R327, R399, R407), and the
installed kernels (log entry 45). -/
structure MigImage where
  header : BitVec 1024
  intact : Bool
  src : Nat
  layout : Nat
  sets : Nat
  chips : Nat
  commitAt : Nat
  body : Image
  mem : List (Nat × Byte)
  gen : BitVec 32
  pending : List Event
  recipes : List (BitVec 384)
  linkKeys : Table (BitVec 256)
  signKeys : List (List Byte)
  acceptCount : Table Nat
  sendCount : Table Nat
  kernels : Table (BitVec 1024)
  kmeas : Table (BitVec 384)
  deriving DecidableEq, Repr

/-! ### Dies and the device -/

/-- One die (R254, R351, R375, R379, R390, R392). `slotsNext`: bind records that wait for a packet in progress (R380).
`steward`: packets its policy core has put on its steward queue; `stewardPkts`: those read. -/
structure Die where
  slots : Table (BitVec 128)
  slotsNext : Table (BitVec 128)
  partcfg : Word64
  shadow : Option Word64
  quiesced : Bool
  clock : Vector Word64 4
  tlb : List TlbEntry
  steward : List (BitVec 512)
  stewardPkts : List Nat
  acked : Bool
  deriving DecidableEq, Repr

/-- The journal of die 0's policy core (R392): sequence number, new layout, last record. -/
inductive JStep where
  | prepare | commit | done
  deriving DecidableEq, Repr

/-- A journal record (R392). -/
structure Journal where
  seq : Nat
  layout : BitVec 8
  step : JStep
  deriving DecidableEq, Repr

/-- The steward request block (R376); `reserved`: the words of the block in which a reserved bit was written;
`result`: where the result of the request in progress goes. -/
structure Steward where
  resaddr : Word64
  args : Word64
  fkidx : BitVec 16
  ctx : BitVec 8
  reserved : List Nat
  busy : Bool
  result : Word64
  gid : Option Nat
  deriving DecidableEq, Repr

/-- A staged Windlass entry (R404): owning chip, table, index, half, value. -/
structure Staged where
  src : BitVec 12
  table : Nat
  index : Nat
  half : Bool
  value : BitVec 128
  deriving DecidableEq, Repr

/-- The Windlass (R404, R405): the guest whose script is paused, its staged entries, the address of its END command. -/
structure Windlass where
  podid : BitVec 16
  staged : List Staged
  endAt : Nat
  deriving DecidableEq, Repr

/-- Responses of the device to TDISP and SPDM requests (R406, R434). -/
inductive Response where
  | version (vs : List (BitVec 8))
  | capabilities (flags : BitVec 32)
  | algorithms (names : List String)
  | digests (d : BitVec 384)
  | certificate (part : List Byte) (remainder : Nat)
  | challengeAuth (digest : BitVec 384) (sig : List Byte)
  | measurements (blocks : List (Nat × List Byte))
  | keyExchange (share sig : List Byte)
  | finish
  | endSession
  | vendor
  | tdispAck
  | report (att : BitVec 384) (frec : BitVec 256) (partcfg : List Word64)
  | state (s : Tdisp)
  | error
  deriving DecidableEq, Repr

/-- The SPDM connection of a function (R434): how far the connection is negotiated, and the secure session. -/
structure Spdm where
  version : Option (BitVec 8)
  caps : Bool
  algs : Bool
  keyed : Bool
  session : Bool
  out : List Response
  deriving DecidableEq, Repr

/-- The module's own registers and management state (chapters 21, 22, 25); `moduleId`: its identity (R403; log entry 24); `nextTicket`: the
next place in die 0's line of gang launches (R383); `owners`: physical ranges, base and size, with the function whose share they joined last,
the latest first (R396). -/
structure Dev where
  frec : Table (BitVec 256)
  asids : Table (BitVec 128)
  devstat : Word64
  numVfs : BitVec 16
  pfLog : EventLog
  pfLoader : Loader
  steward : Steward
  firmware : Table (BitVec 1024)
  moduleId : BitVec 16
  fwMeas : BitVec 384
  fallbackMeas : BitVec 384
  configMeas : BitVec 384
  minSecurity : Nat
  measLog : List (BitVec 384)
  hsel : Word64
  counters : Table Word64
  savedCounters : Table Word64
  epoch : Nat
  commitsLeft : Nat
  shutdown : Bool
  journal : Option Journal
  jseq : Nat
  layoutResult : Option Nat
  windlass : Option Windlass
  windlassQueue : List Word64
  paused : List (BitVec 16)
  spdm : Table Spdm
  errors : List (Structure × Nat)
  tests : List Structure
  spared : List (Structure × Nat)
  badPages : List Nat
  halfWidth : List Nat
  images : List MigImage
  nextKey : Nat
  nextUid : Nat
  nextGid : Nat
  nextTicket : Nat
  owners : List (Nat × Nat × Nat)
  hostReads : List (Nat × List Byte)
  deriving DecidableEq, Repr

/-! ### The turn and the state -/

/-- Who moves in a step: a slice by key, or another agent whose step is a row of the table. -/
inductive Who where
  | slice (k : Nat)
  | event (i : Instr)
  deriving DecidableEq, Repr

/-- One turn of the schedule: core cycles that pass before it, and who moves. -/
structure Turn where
  dt : Nat
  who : Who
  deriving DecidableEq, Repr

/-- The state of one module.
`now`: core cycles since reset (R90, R92). `turns`: the schedule, plain data chosen from outside (R157).
`fresh`: counts the free values a run has taken. `cur`, `ir`: the slice that is issuing and its word.
Slices are keyed block × 256 + squad × 8 + slice; blocks and grids by a running number; cores by global core number
(R3); chips by virtual function number; dies by number. `past`: the writes whose replaced values an agent may still read, the
latest first, and `stamp`: the number of the next write (R251). -/
structure State where
  now : Nat
  turns : List Turn
  fresh : Nat
  cur : Nat
  ir : Word64
  slices : Table Slice
  blocks : Table Block
  grids : Table Grid
  cores : Table Core
  chips : Table Chip
  dies : Vector Die 4
  dev : Dev
  mem : List Host.Cell
  poison : Sparse Bool
  lineKey : Sparse (Option Nat)
  past : List Past := []
  stamp : Nat := 0
  deriving DecidableEq, Repr

/-! ### Faults and refusals -/

/-- Why the machine stops. -/
inductive Fault where
  /-- A word is executed while `cur` names no slice: no run reaches it, since `step` sets `cur` to a slice it found
  (safe). -/
  | noSlice
  deriving DecidableEq, Repr

/-- Why an instruction has no meaning. -/
inductive Refusal where
  /-- The arm of exec for an instruction not modelled yet (safe). -/
  | notModelled (mnemonic : String)
  deriving DecidableEq, Repr

/-! ### Reset -/

/-- Counters at slice start (R13, R114). -/
def Counters.zero : Counters := ⟨0, 0, 0, 0, 0⟩

/-- An empty plane (R200, R262). -/
def Plane.empty : Plane := ⟨[], none⟩

/-- A core after reset: GOVCFG EN 1, CAP 256, RAMP 64 (R279); engines scrubbed (R200, R262); both activation buffers
invalid, buffer 0 selected (R136). -/
def Core.reset : Core where
  mxOwner := none
  acc := []
  accPoison := []
  stationary := Plane.empty
  shadow := Plane.empty
  cmdq := []
  copyq := []
  govst := 0
  govcfg := 0x3000040
  govNext := 0x3000040
  window := 0
  active := 0
  budget := 64
  held := 0
  blocked := false
  streamed := 0
  actOwner := none
  actBufs := Vector.replicate 2 ⟨false, 0, []⟩
  actSel := false
  tlb := []
  icache := []
  retired := false
  noMatrix := false

/-- A queue after reset (R377): every field 0, STATE DISABLED. -/
def Queue.reset : Queue := ⟨0, 0, 0, 0, .disabled, [], false, []⟩

/-- An event log control block after reset (R399); the MSI-X vector masked, the PCI Express reset (log entry 12). -/
def EventLog.reset : EventLog := ⟨0, 0, 0, 0, 0, 0, false, 0, 0, true, false, []⟩

/-- A virtual chip after module reset (R210, R344, R364, R377, R385, R387, R399, R403, R406, R432). -/
def Chip.reset : Chip where
  kernels := []
  kmeas := []
  wells := []
  tfbase := 0
  hwdog := 1000
  ctbase := 0
  asid := 0
  chipTab := []
  labels := []
  mcast := []
  launchTab := []
  groups := []
  colls := []
  collCount := []
  queues := []
  log := EventLog.reset
  pending := []
  loader := ⟨0, 0, 0, none⟩
  tdisp := .unlocked
  keyId := 0
  signKeys := []
  linkKeys := []
  sendCount := []
  acceptCount := []
  att := 0
  images := []
  running := false
  cut := false
  ckseq := 0
  undo := []
  interval := 200
  lastCommit := 0
  committed := none
  forcing := []
  outsideWait := false
  migrating := false
  shape := none
  released := []
  fenceOrder := []

/-- A die after reset: slot table empty (R379, R432), PARTCFG of the boot layout 0x00 with one partition of four dies and
every bridge open (R389, R390, R432). -/
def Die.reset : Die where
  slots := []
  slotsNext := []
  partcfg := 0xFF00
  shadow := none
  quiesced := false
  clock := Vector.replicate 4 0
  tlb := []
  steward := []
  stewardPkts := []
  acked := false

/-- The device's registers after reset: function records at their reset value with VALID 0 (R395, R432), DEVSTAT with
STEPPING 0xA1 (R431), HSEL 0, 4,096 commits (R437). -/
def Dev.reset : Dev where
  frec := []
  asids := []
  devstat := 0xA1000000
  numVfs := 0
  pfLog := EventLog.reset
  pfLoader := ⟨0, 0, 0, none⟩
  steward := ⟨0, 0, 0, 0, [], false, 0, none⟩
  firmware := []
  moduleId := 0
  fwMeas := 0
  fallbackMeas := 0
  configMeas := 0
  minSecurity := 0
  measLog := []
  hsel := 0
  counters := []
  savedCounters := []
  epoch := 0
  commitsLeft := 4096
  shutdown := false
  journal := none
  jseq := 0
  layoutResult := none
  windlass := none
  windlassQueue := []
  paused := []
  spdm := []
  errors := []
  tests := []
  spared := []
  badPages := []
  halfWidth := []
  images := []
  nextKey := 1
  nextUid := 0
  nextGid := 0
  nextTicket := 0
  owners := []
  hostReads := []

/-- The module right after reset, before boot (R432): no packet, no block, no slice; function records, slot tables and
ASID tables with VALID 0; memory with nothing listed. -/
def State.reset : State where
  now := 0
  turns := []
  fresh := 0
  cur := 0
  ir := 0
  slices := []
  blocks := []
  grids := []
  cores := []
  chips := []
  dies := Vector.replicate 4 Die.reset
  dev := Dev.reset
  mem := []
  poison := []
  lineKey := []
  past := []
  stamp := 0

end Sys2Proof.Machine
end

