-- ==== Sys2Proof/Machine/Table.lean ====
section
/-! DEFINITION. Operations on sparse data and tables (Sys2Proof/Word.lean), which keep keys strictly rising and, for
sparse data, no entry equal to what an absent key reads as. -/

namespace Sys2Proof

/-- The value at a key of sparse data; `d` is what an absent key reads as. -/
def Sparse.get {α : Type} (d : α) : Sparse α → Nat → α
  | [], _ => d
  | (j, v) :: m, k => if k = j then v else Sparse.get d m k

/-- Removes a key, wherever it stands. -/
def Sparse.erase {α : Type} : Sparse α → Nat → Sparse α
  | [], _ => []
  | (j, v) :: m, k => if k = j then Sparse.erase m k else (j, v) :: Sparse.erase m k

/-- Inserts a value at a key, keys rising. -/
def Sparse.insert {α : Type} : Sparse α → Nat → α → Sparse α
  | [], k, v => [(k, v)]
  | (j, w) :: m, k, v =>
    if k < j then (k, v) :: (j, w) :: m
    else if k = j then (k, v) :: m
    else (j, w) :: Sparse.insert m k v

/-- Writes a value: an entry equal to what an absent key reads as is removed. -/
def Sparse.set {α : Type} [DecidableEq α] (d : α) (m : Sparse α) (k : Nat) (v : α) : Sparse α :=
  if v = d then Sparse.erase m k else Sparse.insert m k v

/-- Keys strictly rising, and all above `lo`. -/
def Sparse.risingFrom {α : Type} : Nat → Sparse α → Bool
  | _, [] => true
  | lo, (j, _) :: m => decide (lo ≤ j) && Sparse.risingFrom (j + 1) m

/-- The canonical form: keys strictly rising, no entry equal to the value an absent key reads as. -/
def Sparse.wf {α : Type} [DecidableEq α] (d : α) (m : Sparse α) : Bool :=
  Sparse.risingFrom 0 m && m.all (fun e => decide (e.2 ≠ d))

/-- The record at a key of a table. -/
def Table.find {α : Type} : Table α → Nat → Option α
  | [], _ => none
  | (j, v) :: m, k => if k = j then some v else Table.find m k

/-- The record at a key, or a default. -/
def Table.getD {α : Type} (m : Table α) (k : Nat) (d : α) : α := (Table.find m k).getD d

/-- Puts a record at a key. -/
def Table.put {α : Type} (m : Table α) (k : Nat) (v : α) : Table α := Sparse.insert m k v

/-- Removes the record at a key. -/
def Table.del {α : Type} (m : Table α) (k : Nat) : Table α := Sparse.erase m k

/-- The records with their keys that a predicate keeps. -/
def Table.keep {α : Type} (m : Table α) (p : Nat → α → Bool) : Table α := m.filter (fun e => p e.1 e.2)

end Sys2Proof
end

