-- ==== Sys2Proof/Machine/Mem.lean ====
section
/-! DEFINITION. Free choices, records by key, and physical memory: bytes, line keys, poison, and the undo log that a write
feeds (R9, R201–R204, R368). -/

namespace Sys2Proof.Machine

/-! ### Free choices (log entry 3) -/

/-- A number below n that nothing fixes; 0 when there is no choice. -/
def State.pick (s : State) (site n : Nat) : Nat := if n ≤ 1 then 0 else (Config.free s.fresh site).toNat % n

/-- One of several values; the first when all are equal. -/
def State.pickFrom {α : Type} [DecidableEq α] (s : State) (site : Nat) (d : α) (l : List α) : α :=
  match l with
  | [] => d
  | a :: as => if as.all (fun x => decide (x = a)) then a else (a :: as).getD (s.pick site (as.length + 1)) d

/-- A truth value that nothing fixes. -/
def State.flip (s : State) (site : Nat) : Bool := s.pick site 2 == 1

/-! ### Records by key -/

/-- Changes one slice. -/
def State.modSlice (s : State) (k : Nat) (f : Slice → Slice) : State :=
  match Table.find s.slices k with
  | some x => { s with slices := Table.put s.slices k (f x) }
  | none => s
/-- Changes one block. -/
def State.modBlock (s : State) (u : Nat) (f : Block → Block) : State :=
  match Table.find s.blocks u with
  | some x => { s with blocks := Table.put s.blocks u (f x) }
  | none => s
/-- Changes one grid. -/
def State.modGrid (s : State) (g : Nat) (f : Grid → Grid) : State :=
  match Table.find s.grids g with
  | some x => { s with grids := Table.put s.grids g (f x) }
  | none => s
/-- A core; one that nothing has touched is as after reset. -/
def State.core (s : State) (c : Nat) : Core := Table.getD s.cores c Core.reset
/-- Changes one core. -/
def State.modCore (s : State) (c : Nat) (f : Core → Core) : State :=
  { s with cores := Table.put s.cores c (f (s.core c)) }
/-- A virtual chip by its virtual function; one that nothing has touched is as after reset. -/
def State.chip (s : State) (f : Nat) : Chip := Table.getD s.chips f Chip.reset
/-- Changes one virtual chip. -/
def State.modChip (s : State) (v : Nat) (f : Chip → Chip) : State :=
  { s with chips := Table.put s.chips v (f (s.chip v)) }
/-- A die. -/
def State.die (s : State) (d : Nat) : Die := s.dies.toList.getD d Die.reset
/-- Changes one die. -/
def State.modDie (s : State) (d : Nat) (f : Die → Die) : State :=
  if h : d < 4 then { s with dies := s.dies.set d (f (s.dies[d])) } else s
/-- Changes the device's own registers. -/
def State.modDev (s : State) (f : Dev → Dev) : State := { s with dev := f s.dev }

/-- The slice key of a block, squad and slice number. -/
def keyOf (uid squad slice : Nat) : Nat := uid * 256 + squad * 8 + slice
/-- The block of a slice key. -/
def keyBlock (k : Nat) : Nat := k / 256
/-- The squad of a slice key. -/
def keySquad (k : Nat) : Nat := k / 8 % 32
/-- The slice number of a slice key. -/
def keySlice (k : Nat) : Nat := k % 8

/-- The die of a global core number (R3). -/
def coreDie (c : Nat) : Nat := c / 40
/-- The global cluster of a global core number (R3). -/
def coreCluster (c : Nat) : Nat := c / 8

/-- The function record of a virtual function (R395). -/
def State.frec (s : State) (f : Nat) : BitVec 256 := Table.getD s.dev.frec f 0x10000000000000000
/-- The global clusters of a virtual function, in its cluster sets (R395). -/
def State.clusters (s : State) (f : Nat) : List Nat :=
  (List.range 20).filter (fun g =>
    (List.range 4).any (fun i => testBit (s.frec f).toNat (176 + 20 * i + g)))
/-- The cores of a virtual function in ascending order; a core's COREID is its place among them (R90; the order: log entry 128). -/
def State.coresOf (s : State) (f : Nat) : List Nat :=
  (s.clusters f).flatMap (fun g => (List.range 8).map (fun c => g * 8 + c))
/-- The place of an element in a list, counted from a start. -/
def indexFrom (x : Nat) : Nat → List Nat → Option Nat
  | _, [] => none
  | i, y :: ys => if x = y then some i else indexFrom x (i + 1) ys
/-- COREID of a core within a virtual chip (R90); 0 where the chip has no such core (log entry 129). -/
def State.coreId (s : State) (f core : Nat) : Nat := (indexFrom core 0 (s.coresOf f)).getD 0
/-- The dies on which a virtual function has cluster sets. -/
def State.diesOf (s : State) (f : Nat) : List Nat :=
  (List.range 4).filter (fun d => (s.clusters f).any (fun g => g / 5 == d))

/-! ### Bind records (R379) -/

/-- VALID of a bind record. -/
def bindValid (b : BitVec 128) : Bool := fld b 0 0 == 1
/-- VF. -/
def bindVf (b : BitVec 128) : Nat := fld b 11 6
/-- QUEUE. -/
def bindQueue (b : BitVec 128) : Nat := fld b 17 12
/-- The valid bind record of a queue: the die whose slot table holds it, its place, and the record. -/
def State.bindRecord (s : State) (f q : Nat) : Option (Nat × Nat × BitVec 128) :=
  (List.range 4).findSome? (fun d =>
    ((s.die d).slots.find? (fun e => bindValid e.2 && bindVf e.2 == f && bindQueue e.2 == q)).map (fun e => (d, e.1, e.2)))
/-- MODE. -/
def bindSliced (b : BitVec 128) : Bool := fld b 32 32 == 1
/-- Whether a virtual chip is time-sliced (R360): as the first of its bind records states, and where it has none as its function record does
(R379, R395 MODE; log entry 131). -/
def State.timeSliced (s : State) (f : Nat) : Bool :=
  match (List.range 4).findSome? (fun d => (s.die d).slots.find? (fun e => bindValid e.2 && bindVf e.2 == f)) with
  | some e => bindSliced e.2
  | none => fld (s.frec f) 1 1 == 1
/-- VCHIPID of a block in the context of a function (R90, R379 VCHIP, R395): that of its queue's bind record, where the queue is the function's
own, else that of the function's record; for the management complex's own context, which no virtual chip holds, 0 (log entry 129). -/
def State.chipId (s : State) (v : Nat) (home : QRef) : Nat :=
  let own := fld (s.frec v) 127 116
  match home with
  | .vf f q => if f.val = v then ((s.bindRecord f.val q.val).map (fun e => fld e.2.2 99 88)).getD own else own
  | .steward _ => own

/-! ### Physical memory -/

/-- The number of the 128-byte line of an address. -/
def lineOf (a : Nat) : Nat := a / 128

/-- Memory is in canonical form: addresses strictly rising, no byte listed that reads as an unlisted one. -/
def Memory.wf (m : List Host.Cell) : Bool := Sparse.wf (0 : Byte) m

/-- What an unlisted address reads as: memory is zero after the boot scrub (R432; log entry 4). -/
def Memory.get (m : List Host.Cell) (a : Nat) : Byte := Sparse.get 0 m a

/-- Writes bytes from an address upwards. -/
def Memory.put (m : List Host.Cell) (a : Nat) : List Byte → List Host.Cell
  | [] => m
  | b :: bs => Memory.put (Sparse.set 0 m a b) (a + 1) bs

/-- The dies of a die's partition (R390 PDIES). -/
def State.partyOf (s : State) (d : Nat) : List Nat := (List.range 4).filter (fun e => testBit (s.die d).partcfg.toNat (12 + e))
/-- Whether the path between two dies is open: they are in one partition (R390, R391). -/
def State.joined (s : State) (d e : Nat) : Bool := d == e || (s.partyOf d).contains e

/-- The home die of a physical line (R201): die 0 for host memory, else the die of the stack at which the interleave of its partition
places it, each die having three stacks (R2, R202). -/
def State.homeDie (s : State) (l : Nat) : Nat :=
  if Config.isHostMemory l then 0
  else
    let d := (Config.bankDie l).val
    let ds := s.partyOf d
    ds.getD ((Config.interleave ds.length (fld (s.die d).partcfg 7 4) l).1 % (3 * ds.length) / 3) d

/-- The key a line was last written under; `none` for a line that nothing has written since a scrub. -/
def State.keyOfLine (s : State) (l : Nat) : Option Nat := Sparse.get none s.lineKey l

/-- The number of the device key, under which untagged requests read and write (R202). -/
def deviceKey : Nat := 0
/-- The key under which a function's requests read and write (R202): each function has its own, and a new one at each lock (R406); the
management complex's own requests are untagged. -/
def State.keyTag (s : State) (v : Nat) : Option Nat := if v < 64 then some (1 + v + 64 * (s.chip v).keyId) else some deviceKey

/-- A byte as a request under a key reads it (R202, R204), `none` for an untagged request: a line written under another key yields
unrelated bytes; host memory is not encrypted. -/
def State.readByte (s : State) (key : Option Nat) (a : Nat) : Byte :=
  let raw := Memory.get s.mem a
  match s.keyOfLine (lineOf a) with
  | none => raw
  | some k =>
    if key.getD deviceKey = k then raw
    else if Config.isHostMemory (lineOf a) then raw
    else Config.wrongKeyByte a k (key.getD deviceKey) raw

/-- Bytes from an address upwards. -/
def State.readBytes (s : State) (key : Option Nat) (a n : Nat) : List Byte :=
  (List.range n).map (fun i => s.readByte key (a + i))

/-- A byte whatever its line's key: the walkers read the stage-2 tables so (R349; log entry 13). -/
def State.readRaw (s : State) (a n : Nat) : List Byte := (List.range n).map (fun i => Memory.get s.mem (a + i))

/-- Whether any byte of a range lies in a poisoned line (R203). -/
def State.linePoisoned (s : State) (a n : Nat) : Bool :=
  (List.range ((a + n - 1) / 128 + 1 - a / 128)).any (fun i => Sparse.get false s.poison (a / 128 + i))

/-- The lines of a range. -/
def linesOf (a n : Nat) : List Nat := (List.range ((a + n - 1) / 128 + 1 - a / 128)).map (fun i => a / 128 + i)

/-- Whether a place is a byte of memory from a on, n bytes. -/
def Loc.inBytes (a n : Nat) : Loc → Bool
  | .mem x => decide (a ≤ x) && decide (x < a + n)
  | _ => false

/-- Forgets the replaced values of n bytes of memory: nobody reads them any more. -/
def State.forget (s : State) (a n : Nat) : State := { s with past := s.past.filter (fun w => !w.loc.inBytes a n) }

/-- Before a line that another key wrote is partly written, its bytes become what the writer's key reads (R204); what they were before is
gone. -/
def State.rekeyLine (s : State) (key : Option Nat) (l : Nat) : State :=
  if s.keyOfLine l = key then s
  else
    match s.keyOfLine l with
    | none => { s with lineKey := Sparse.set none s.lineKey l key }
    | some _ =>
      { s with
        mem := Memory.put s.mem (l * 128) (s.readBytes key (l * 128) 128)
        lineKey := Sparse.set none s.lineKey l key
        past := s.past.filter (fun w => !w.loc.inBytes (l * 128) 128) }

/-- Undo capture (R202): the first write to a line in an interval appends its old contents, newest first. -/
def Chip.capture (c : Chip) (u : UndoLine) : Chip :=
  if c.undo.any (fun e => e.line == u.line) then c else { c with undo := u :: c.undo }

/-- The bytes of a write that fall in a line, applied to the line's bytes. -/
def patchLine (l a : Nat) (bs : List Byte) (old : List Byte) : List Byte :=
  (List.range 128).map (fun i =>
    let x := l * 128 + i
    if a ≤ x ∧ x < a + bs.length then bs.getD (x - a) 0 else old.getD i 0)

/-- What a chip's undo log keeps of a write to one line (R202, R368): a write of the chip captures the line's old contents;
a write of an operation bound to the checkpoint captures nothing and is applied to a captured copy. -/
def State.undoLine (s : State) (v : Nat) (bound : Bool) (a : Nat) (bs : List Byte) (l : Nat) : State :=
  if bound then
    s.modChip v (fun c =>
      { c with undo := c.undo.map (fun e => if e.line = l then { e with old := patchLine l a bs e.old } else e) })
  else if Config.isHostMemory l then s
  else
    s.modChip v (fun c =>
      c.capture ⟨l, s.readRaw (l * 128) 128, s.keyOfLine l, Sparse.get false s.poison l⟩)

/-- Puts bytes into physical memory for a virtual function, or untagged. `bound`: by an operation bound to a checkpoint
(R368). A write of a whole line clears its poison (R203). -/
def State.putPhys (s : State) (vf : Option Nat) (bound : Bool) (a : Nat) (bs : List Byte) : State :=
  if bs.isEmpty then s
  else
    let ls := linesOf a bs.length
    let s1 :=
      match vf with
      | none => s
      | some v => if s.timeSliced v then ls.foldl (fun t l => t.undoLine v bound a bs l) s else s
    let key := match vf with
      | none => some deviceKey
      | some v => s.keyTag v
    let s2 := ls.foldl (fun t l => t.rekeyLine key l) s1
    { s2 with
      mem := Memory.put s2.mem a bs
      poison := ls.foldl
        (fun p l => if a ≤ l * 128 ∧ l * 128 + 128 ≤ a + bs.length then Sparse.set false p l false else p) s2.poison }

/-- A write of the device itself or of the host: every agent reads it from then on. -/
def State.writePhys (s : State) (vf : Option Nat) (bound : Bool) (a : Nat) (bs : List Byte) : State :=
  (s.putPhys vf bound a bs).forget a bs.length

/-- A state with the vector clocks of another, and nothing else of it. -/
def State.withClocks (s t : State) : State :=
  { s with dies := Vector.ofFn (fun e : Fin 4 => { s.dies[e] with clock := t.dies[e].clock }) }
/-- Vector clocks (R254): a write to memory that a die emits counts there. Another die counts it when it applies it. -/
def State.tick (s : State) (die : Nat) : State :=
  s.modDie die (fun x => { x with clock := Vector.ofFn (fun e : Fin 4 => x.clock[e] + (if e.val = die then 1 else 0)) })

end Sys2Proof.Machine
end

