-- ==== Sys2Proof/Machine/Translate.lean ====
section
/-! DEFINITION. Address translation (R347–R351): table entries, the two-stage walk, and the TLBs. -/

namespace Sys2Proof.Machine

/-- What an access needs of a page (R349); `splice`: the Braze unit's read of a splice table, to which a page that permits
nothing else is open (R85). -/
inductive Want where
  | read | write | atomic | fetch | splice
  deriving DecidableEq, Repr

/-- Why a translation fails (R349): stage 1 at a level, stage 2 with the faulting IPA (R400), or an uncorrectable error in
a table (R203). -/
inductive XErr where
  | stage1 (level : Nat)
  | stage2 (ipa : Nat)
  | uncorrectable (addr : Nat)
  deriving DecidableEq, Repr

/-- A successful translation: physical address, whether either leaf is device, and the table entries used. -/
structure Xlat where
  pa : Nat
  device : Bool
  used : List TlbEntry
  deriving DecidableEq, Repr

/-- A well-formed table entry (R348). -/
inductive Pte where
  | table (oa : Nat)
  | leaf (oa : Nat) (r w x device : Bool)
  deriving DecidableEq, Repr

/-- The lowest input bit that a level indexes (R347). -/
def levelShift (l : Nat) : Nat := if l = 0 then 55 else if l = 1 then 42 else if l = 2 then 29 else 16
/-- The number of input bits that a level indexes (R347). -/
def levelBits (l : Nat) : Nat := if l = 0 then 9 else 13
/-- The byte offset of an address's entry in the table of a level. -/
def pteOffset (l a : Nat) : Nat := bits a (levelShift l) (levelBits l) * 8

/-- Reads a table entry (R348); `none` for an invalid or malformed one. -/
def parsePte (l e : Nat) : Option Pte :=
  let oa := bits e 16 40 * 65536
  let leaf := testBit e 1
  if !testBit e 0 then none
  else if bits e 56 8 ≠ 0 ∨ bits e 10 6 ≠ 0 ∨ bits e 5 3 ≠ 0 then none
  else if leaf then
    if l < 2 ∨ 2 ≤ bits e 8 2 then none
    else if l = 2 ∧ bits e 16 13 ≠ 0 then none
    else some (.leaf oa (testBit e 2) (testBit e 3) (testBit e 4) (bits e 8 2 == 1))
  else if l = 3 ∨ bits e 8 2 ≠ 0 ∨ bits e 2 3 ≠ 0 then none
  else some (.table oa)

/-- Whether a leaf permits an access (R349). -/
def Want.ok (w : Want) (r wr x : Bool) : Bool :=
  match w with
  | .read => r
  | .write => wr
  | .atomic => r && wr
  | .fetch => x
  | .splice => r || !(r || wr || x)

/-- What an access needs of the stage-2 leaf. -/
def Want.under : Want → Want
  | .splice => .read
  | w => w

/-- The entries that TLBs hold for a place in the tables, other than the fresh one. -/
def cachedPtes (tlb : List TlbEntry) (stage2 : Bool) (tag level page : Nat) (fresh : Option Nat) : List Nat :=
  ((tlb.filter (fun e => e.stage2 == stage2 && e.tag == tag && e.level == level && e.page == page)).map
    (fun e => e.entry)).filter (fun e => !(some e == fresh))

/-- The entry an access uses: the one that a fresh walk reads, `none` where it meets an uncorrectable error, or any that a TLB still
holds (R351). -/
def State.pteUsed (s : State) (site : Nat) (tlb : List TlbEntry) (stage2 : Bool) (tag level addr : Nat) (fresh : Option Nat) : Option Nat :=
  s.pickFrom (site + level) fresh
    (fresh :: (cachedPtes tlb stage2 tag level (addr / 2 ^ levelShift level) fresh).map some)

/-- One stage-2 walk (R347, R349) over levels from a table at a physical address. -/
def State.walk2 (s : State) (tlb : List TlbEntry) (site vmid addr : Nat) (want : Want) :
    List Nat → Nat → List TlbEntry → Except XErr Xlat
  | [], _, _ => .error (.stage2 addr)
  | l :: ls, base, used =>
    let pa := base + pteOffset l addr
    match s.pteUsed site tlb true vmid l addr (if s.linePoisoned pa 8 then none else some (leNat (s.readRaw pa 8))) with
    | none => .error (.stage2 addr)
    | some e =>
      let used' := ⟨true, vmid, vmid, l, addr / 2 ^ levelShift l, e⟩ :: used
      match parsePte l e with
      | none => .error (.stage2 addr)
      | some (.table oa) => State.walk2 s tlb site vmid addr want ls oa used'
      | some (.leaf oa r w x dev) =>
        if want.ok r w x then .ok ⟨oa + addr % 2 ^ levelShift l, dev, used'⟩ else .error (.stage2 addr)

/-- What an entry of the ASID table says (R350): stage-2 root, stage-1 root, VMID; `none` when not live or malformed. -/
def parseAsid (e : BitVec 128) : Option (Nat × Nat × Nat) :=
  if fld e 0 0 = 1 ∧ fld e 5 1 = 0 ∧ fld e 75 64 = 0 then
    some (fld e 127 64, fld e 63 12 * 4096, fld e 11 6)
  else none
/-- An entry of the ASID table. -/
def State.asidEntry (s : State) (asid : Nat) : Option (Nat × Nat × Nat) := parseAsid (Table.getD s.dev.asids asid 0)
/-- The ASID-table entry that an access uses: the table's, or one that a TLB still holds with its translations (R351). TLB entries of
level 4 hold it. -/
def State.asidUsed (s : State) (tlb : List TlbEntry) (site asid : Nat) : Nat :=
  let fresh := (Table.getD s.dev.asids asid 0).toNat
  (s.pickFrom (site + 4) (some fresh) (some fresh :: (cachedPtes tlb false asid 4 0 (some fresh)).map some)).getD fresh

/-- Whether a physical address is homed beyond a bridge that is closed to a function's partition: no data crosses it (R390, R391). -/
def State.beyond (s : State) (v pa : Nat) : Bool :=
  let ds := s.partyOf (fld (s.frec v) 115 112)
  ds.length != 4 && !Config.isHostMemory (lineOf pa) && !ds.contains (s.homeDie (lineOf pa))

/-- Translates an IPA under a function's stage-2 tables; IPAs lie below 2^56 (R347). What lies beyond a closed bridge is not there (R391;
log entry 140). -/
def State.stage2 (s : State) (tlb : List TlbEntry) (site vmid root ipa : Nat) (want : Want) : Except XErr Xlat :=
  if 2 ^ 56 ≤ ipa then .error (.stage2 ipa)
  else
    match s.walk2 tlb site vmid ipa want [0, 1, 2, 3] root [] with
    | .ok x => if s.beyond vmid x.pa then .error (.stage2 ipa) else .ok x
    | .error e => .error e

/-- One stage-1 walk (R349) over levels from a table at an IPA; every entry is read through stage 2. -/
def State.walk1 (s : State) (key : Option Nat) (tlb : List TlbEntry) (site asid vmid root2 addr : Nat) (want : Want) :
    List Nat → Nat → List TlbEntry → Except XErr Xlat
  | [], _, _ => .error (.stage1 3)
  | l :: ls, base, used =>
    match s.stage2 tlb (site + 16 * (l + 1)) vmid root2 (base + pteOffset l addr) .read with
    | .error e => .error e
    | .ok x =>
      match s.pteUsed site tlb false asid l addr (if s.linePoisoned x.pa 8 then none else some (leNat (s.readBytes key x.pa 8))) with
      | none => .error (.uncorrectable x.pa)
      | some e =>
        let used' := ⟨false, asid, vmid, l, addr / 2 ^ levelShift l, e⟩ :: (x.used ++ used)
        match parsePte l e with
        | none => .error (.stage1 l)
        | some (.table oa) => State.walk1 s key tlb site asid vmid root2 addr want ls oa used'
        | some (.leaf oa r w xp dev) =>
          if want.ok r w xp then
            match s.stage2 tlb (site + 96) vmid root2 (oa + addr % 2 ^ levelShift l) want.under with
            | .error e => .error e
            | .ok y => .ok ⟨y.pa, dev || y.device, y.used ++ used'⟩
          else .error (.stage1 l)

/-- Both stages for one access under a chip's ASID, given the TLB entries in reach; an entry that names another function is none of the
chip's (R350; log entry 47). -/
def State.walkBoth (s : State) (v : Nat) (tlb : List TlbEntry) (site addr : Nat) (want : Want) : Except XErr Xlat :=
  let asid := (s.chip v).asid.toNat
  let e := s.asidUsed tlb site asid
  match parseAsid (BitVec.ofNat 128 e) with
  | none => .error (.stage2 0)
  | some (root2, root1, vmid) =>
    if vmid ≠ v then .error (.stage2 0)
    else s.walk1 (s.keyTag v) tlb site asid vmid root2 addr want [0, 1, 2, 3] root1 [⟨false, asid, vmid, 4, 0, e⟩]

/-- Translates a virtual address of a virtual chip (R347–R351), or of the management complex's own address space (R375; log
entry 7). A fault is always found by a fresh walk (R351). -/
def State.translate (s : State) (v : Nat) (tlb : List TlbEntry) (site addr : Nat) (want : Want) : Except XErr Xlat :=
  if 64 ≤ v then
    match Config.mcAddress addr with
    | some pa => .ok ⟨pa, false, []⟩
    | none => .error (.stage1 0)
  else
  match s.walkBoth v tlb site addr want with
  | .ok x => .ok x
  | .error e => if tlb.isEmpty then .error e else s.walkBoth v [] site addr want

/-- The TLB entries that a core's accesses may use: its own and its die's (R351). -/
def State.tlbOf (s : State) (core : Nat) : List TlbEntry := (s.core core).tlb ++ (s.die (coreDie core)).tlb

/-- Adds entries that are not held yet. -/
def addTlb (old new : List TlbEntry) : List TlbEntry :=
  new.foldl (fun t e => if t.contains e then t else e :: t) old

/-- The entries a checked access used may be held from now on by its core's TLB and its die's (R351). -/
def State.fillTlb (s : State) (core : Nat) (used : List TlbEntry) : State :=
  (s.modCore core (fun c => { c with tlb := addTlb c.tlb used })).modDie (coreDie core)
    (fun d => { d with tlb := addTlb d.tlb used })
/-- As `fillTlb`, for an access of a die's queue core or walker. -/
def State.fillDieTlb (s : State) (die : Nat) (used : List TlbEntry) : State :=
  s.modDie die (fun d => { d with tlb := addTlb d.tlb used })

end Sys2Proof.Machine
end

