-- ==== Sys2Proof/Machine/Events.lean ====
section
/-! DEFINITION. Event logs, pending events and MSI-X (R399–R401, R430). -/

namespace Sys2Proof.Machine

/-- Whether a virtual chip runs now: an exclusive one always, a time-sliced one in its time slice (R360, R401). -/
def State.chipRuns (s : State) (v : Nat) : Bool := !s.timeSliced v || (s.chip v).running

/-- The event log control block of a function. -/
def State.logOf (s : State) : Fn → EventLog
  | .pf => s.dev.pfLog
  | .vf n => (s.chip n.val).log
/-- Changes the event log control block of a function. -/
def State.modLog (s : State) (fn : Fn) (f : EventLog → EventLog) : State :=
  match fn with
  | .pf => s.modDev (fun d => { d with pfLog := f d.pfLog })
  | .vf n => s.modChip n.val (fun c => { c with log := f c.log })

/-- Raises MSI-X vector 0, or sets its pending bit while it is masked (R401). -/
def EventLog.raise (l : EventLog) : EventLog :=
  if l.msixMask then { l with msixPending := true }
  else { l with msixSent := (l.msixAddr, l.msixData) :: l.msixSent }

/-- The bytes of entry i of a ring of 2^size entries (R400). -/
def Event.bytes (e : Event) (size i : Nat) : List Byte :=
  leBytes 32
    (e.kind % 256 + (1 - i / 2 ^ size % 2) * 2 ^ 8 + e.code.toNat * 2 ^ 48 + e.queue.toNat * 2 ^ 64
      + e.vchip.toNat * 2 ^ 84 + e.gen.toNat * 2 ^ 96 + e.aux.toNat * 2 ^ 128 + e.data.toNat * 2 ^ 192)

/-- The physical address of a function's log entry: a virtual function's log lies in its address space, the physical
function's at a physical address (log entry 14). -/
def State.logAddr (s : State) (fn : Fn) (a : Nat) : Option Nat :=
  match fn with
  | .pf => some a
  | .vf n =>
    match s.translate n.val (s.die 0).tlb 20000 a .write with
    | .ok x => some x.pa
    | .error _ => none

/-- Appends an event to an enabled log (R401): a full ring, or an entry that cannot be written (log entry 14), counts in
LOST. The result says whether it was appended. -/
def State.appendEvent (s : State) (fn : Fn) (e : Event) : State × Bool :=
  let l := s.logOf fn
  if (l.widx - l.ridx).toNat = 2 ^ l.size.toNat then
    (s.modLog fn (fun l => { l with lost := l.lost + 1 }), false)
  else
    let i := l.widx.toNat
    match s.logAddr fn (l.base.toNat + 32 * (i % 2 ^ l.size.toNat)) with
    | none => (s.modLog fn (fun l => { l with lost := l.lost + 1 }), false)
    | some pa =>
      let vf := match fn with
        | .pf => none
        | .vf n => some n.val
      (((s.writePhys vf true pa (e.bytes l.size.toNat i)).modLog fn (fun l => { l with widx := l.widx + 1 })).modLog fn
        EventLog.raise, true)

/-- An event arises (R401): appended, or kept on the pending list of a chip that is not running or whose log is off. -/
def State.postEvent (s : State) (fn : Fn) (e : Event) : State :=
  match fn with
  | .pf => if s.dev.pfLog.en then (s.appendEvent fn e).1 else s
  | .vf n =>
    if s.chipRuns n.val && (s.chip n.val).log.en then (s.appendEvent fn e).1
    else s.modChip n.val (fun c => { c with pending := c.pending ++ [e] })

/-- Appends the pending events whose generation still holds, in order (R401). -/
def State.flushPending (s : State) (n : Fin 64) : State :=
  let c := s.chip n.val
  if c.log.en && s.chipRuns n.val then
    c.pending.foldl (fun t e => if e.gen = c.log.gen then (t.appendEvent (.vf n) e).1 else t)
      (s.modChip n.val (fun c => { c with pending := [] }))
  else s

/-- The number of a virtual function as a function of the device. -/
def fnOf (v : Nat) : Fn := if h : v < 64 then .vf ⟨v, h⟩ else .pf

/-- VCHIP of a function's record (R395). -/
def State.vchipOf (s : State) (v : Nat) : Nat := fld (s.frec v) 127 116
/-- PODID of a function's record (R395). -/
def State.podOf (s : State) (v : Nat) : Nat := fld (s.frec v) 143 128

/-- An event of a virtual function, stamped with its chip and generation (R400). -/
def State.eventOf (s : State) (v kind code queue aux data : Nat) : Event :=
  { kind := kind, code := BitVec.ofNat 16 code, queue := BitVec.ofNat 8 queue
    vchip := BitVec.ofNat 12 (s.vchipOf v), gen := (s.chip v).log.gen
    aux := BitVec.ofNat 64 aux, data := BitVec.ofNat 64 data }

/-- A stage-2 fault is reported to the physical function (R349, R400 KIND 6). -/
def State.reportStage2 (s : State) (v ipa : Nat) : State := s.postEvent .pf (s.eventOf v 6 v 0 0 ipa)

end Sys2Proof.Machine
end

