-- ==== Sys2Proof/Machine/Views.lean ====
section
/-! DEFINITION. The memory consistency model (R242–R258): which agents share a scope, which writes a reader must see, the older values
that it may still read, and what releases make known to acquires. Memory and scratchpad hold the latest write of each place in its coherence
order; `State.past` holds what the writes have replaced. -/

namespace Sys2Proof.Machine

/-! ### Scopes and agents (R242) -/

/-- Scopes in order of width. -/
def scopeRank : Scope → Nat
  | .slice => 0 | .squad => 1 | .block => 2 | .core => 3 | .cluster => 4 | .die => 5 | .tenant => 6 | .pod => 7 | .system => 8
/-- The wider of two scopes. -/
def widerScope (a b : Scope) : Scope := if scopeRank a < scopeRank b then b else a
/-- Whether a scope is wider than CORE (R252). -/
def pastCore (s : Scope) : Bool := decide (scopeRank .core < scopeRank s)

/-- Whether two agents share a scope (R242). -/
def State.shares (s : State) (a b : Site) : Scope → Bool
  | .slice => a.key == b.key
  | .squad => a.key / 8 == b.key / 8
  | .block => keyBlock a.key == keyBlock b.key
  | .core => a.core == b.core
  | .cluster => coreCluster a.core == coreCluster b.core
  | .die => a.die == b.die
  | .tenant => a.vf == b.vf
  | .pod => a.vf == b.vf || s.podOf a.vf == s.podOf b.vf
  | .system => true

/-- The queue core of a die as an agent of a function: no slice, no block and no core. -/
def queueSite (v die : Nat) : Site := ⟨2 ^ 64 * 256 + v * 8, 0, 160 + 8 * v, die, v⟩

/-! ### Readers -/

/-- A read: its agent, path and scope, its number among the agent's operations, and what the agent knows. -/
structure Reader where
  site : Site
  path : EClass
  scope : Scope
  seq : Nat
  knows : List Known
  deriving DecidableEq, Repr

/-- Whether a die has applied a write that a die emitted (R254). -/
def State.applied (s : State) (w : Past) (d : Nat) : Bool :=
  decide (w.emit ≤ ((s.die d).clock.toList.getD w.site.die 0).toNat)

/-- Whether a write reaches a read by itself: on the read's own path, once it is performed at a scope that the two agents share (R245), or
applied on the reader's die (R253, R254); a load at CORE scope or narrower may still find an older copy in its core's L1 (R190, R252). -/
def State.reaches (s : State) (r : Reader) (w : Past) : Bool :=
  w.path == r.path && (match w.loc with
    | .mem _ =>
      let far := r.path != .ls || pastCore r.scope
      if w.site.die = r.site.die then s.shares w.site r.site w.scope && (far || w.site.core == r.site.core)
      else far && s.applied w r.site.die
    | _ => s.shares w.site r.site w.scope)

/-- A register byte. -/
def Loc.isReg : Loc → Bool
  | .reg _ _ => true
  | _ => false

/-- Whether a read must return a write or a later one (R251): the reader's own earlier LS write, also for a well load (R236); a write that
reaches it; a write that it knows on its path. A register has one value for every agent (R195). -/
def State.mustSee (s : State) (r : Reader) (w : Past) : Bool :=
  w.loc.isReg || (w.site.key == r.site.key && w.path == .ls && (r.path == .ls || r.path == .wl))
    || s.reaches r w
    || r.knows.any (fun k =>
      k.stamp == w.stamp && k.path == r.path && decide (k.since ≤ r.seq) && s.shares k.site r.site k.scope)

/-! ### What a read returns -/

/-- The places that one read takes at one moment (R219): 8 bytes of memory, 16 of scratchpad, a descriptor. -/
def Loc.unit : Loc → Loc
  | .mem a => .mem (a / 8)
  | .scratch u o => .scratch u (o / 16)
  | .reg u o => .reg u (o / 4)
  | l => l
/-- A number for the choices of a unit. -/
def Loc.code : Loc → Nat
  | .mem a => 5 * a
  | .scratch u o => 5 * (u * 2 ^ 24 + o) + 1
  | .tdesc u n => 5 * (u * 16 + n) + 2
  | .well v n => 5 * (v * 64 + n) + 3
  | .reg u o => 5 * (u * 2 ^ 24 + o) + 4
  | .words _ _ _ => 0

/-- The value of a place in coherence order's end. -/
def State.atLoc (s : State) : Loc → Nat
  | .mem a => (Memory.get s.mem a).toNat
  | .scratch u o => match Table.find s.blocks u with
    | none => 0
    | some b => (Sparse.get 0 b.scratch o).toNat
  | .reg u o => match Table.find s.slices (keyOf u (o / 2 ^ 15) (o / 16 % 8)) with
    | none => 0
    | some x => (Sparse.get 0 x.v (o / 2 ^ 7 % 2 ^ 8 * 4 + o / 4 % 4)).toNat / 2 ^ (8 * (o % 4)) % 2 ^ 8
  | .tdesc u n => match Table.find s.blocks u with
    | none => 0
    | some b => (b.tdesc.toList.getD n 0).toNat
  | .well v n => (Table.getD (s.chip v).wells n 0).toNat
  | .words _ _ _ => 0

/-- The moment at which a read takes the places `sel` of a unit: the number of the first write that it does not see, by a free choice
among the writes that it need not see. -/
def State.moment (s : State) (r : Reader) (site : Nat) (sel : Loc → Bool) (u : Loc) : Nat :=
  let ts := (s.past.filter (fun w => sel w.loc && w.loc.unit == u && !s.mustSee r w)).map (fun w => w.stamp)
  (s.stamp :: ts).getD (s.pick (2 ^ 80 + u.code * 4096 + site) (ts.length + 1)) s.stamp

/-- The value before the latest writes that are not seen, and the write that is. -/
def olderOf (unseen : Past → Bool) : Nat → List Past → Nat × Option Past
  | v, [] => (v, none)
  | v, w :: ws => if unseen w then olderOf unseen w.old ws else (v, some w)

/-- The value that a read returns at a place, and the write that it comes from (R251). -/
def State.view (s : State) (r : Reader) (site : Nat) (sel : Loc → Bool) (l : Loc) : Nat × Option Past :=
  let t := s.moment r site sel l.unit
  olderOf (fun w => decide (t ≤ w.stamp) && !s.mustSee r w) (s.atLoc l) (s.past.filter (fun w => w.loc == l))

/-- The places among `sel` with a replaced value. -/
def State.pastLocs (s : State) (sel : Loc → Bool) : List Loc := ((s.past.map (fun w => w.loc)).filter sel).eraseDups

/-- Puts a byte of memory or scratchpad in place, for one read. -/
def State.showAt (s : State) (l : Loc) (v : Nat) : State :=
  match l with
  | .mem a => { s with mem := Sparse.set 0 s.mem a (BitVec.ofNat 8 v) }
  | .scratch u o => s.modBlock u (fun b => { b with scratch := Sparse.set 0 b.scratch o (BitVec.ofNat 8 v) })
  | _ => s

/-- The state as a read sees it in the places `sel`. -/
def State.seen (s : State) (r : Reader) (site : Nat) (sel : Loc → Bool) : State :=
  (s.pastLocs sel).foldl (fun t l =>
    let v := (s.view r site sel l).1
    if v = s.atLoc l then t else t.showAt l v) s
/-- Whether a place still holds what a write put there: the slice's own instructions write registers too (R244). -/
def State.holds (s : State) (w : Past) : Bool := !w.loc.isReg || w.old == s.atLoc w.loc
/-- The writes whose values it returns there. -/
def State.seenWrites (s : State) (r : Reader) (site : Nat) (sel : Loc → Bool) : List Past :=
  ((s.pastLocs sel).filterMap (fun l => (s.view r site sel l).2)).filter s.holds

/-! ### Writes -/

/-- A write: its agent and path, its number among the agent's operations, the scope at which it is performed, and the releases it
carries. -/
structure Writer where
  site : Site
  path : EClass
  seq : Nat
  scope : Scope
  rels : List Msg
  deriving DecidableEq, Repr

/-- A die has applied what another die's clock counts, as far as the two are in one partition (R254, R391). -/
def State.mergeClock (s : State) (d src : Nat) (clock : Vector Word64 4) : State :=
  if src = d ∨ !s.joined d src then s
  else
    s.modDie d (fun x => { x with clock := Vector.ofFn (fun e : Fin 4 =>
      if x.clock[e].toNat < clock[e].toNat ∧ s.joined d e.val then clock[e] else x.clock[e]) })

/-- Notes what a write replaces. `homes`: the home dies of the lines it writes, none for a place that is not memory. A write leaves its
die, with the die's vector clock, when a home is another die, or when another die holds a copy, which is a free choice; a home die orders
it after applying what happens before it (R254). -/
def State.noteWrite (s : State) (w : Writer) (cells : List (Loc × Nat)) (homes : List Nat) : State :=
  if cells.isEmpty then s
  else
    let d := w.site.die
    let away := homes.filter (fun h => s.joined h d && h != d)
    let emits := !away.isEmpty || (!homes.isEmpty && s.flip (9000 + s.stamp % 512))
    let t := if emits then s.tick d else s
    let clock := (t.die d).clock
    let u := away.foldl (fun t h => t.mergeClock h d clock) t
    { s.withClocks u with
      past := cells.map (fun c =>
        ⟨c.1, c.2, s.stamp, w.path, w.site, w.seq, w.scope, if emits then (clock.toList.getD d 0).toNat else 0, clock, w.rels⟩) ++ s.past
      stamp := s.stamp + 1 }

/-- A write of an agent to physical memory. The bytes of a line that another key wrote are not kept (R204). -/
def State.writeMem (s : State) (w : Writer) (v : Nat) (bound : Bool) (a : Nat) (bs : List Byte) : State :=
  let key := s.keyTag v
  let cells := (List.range bs.length).filterMap (fun i =>
    let k := s.keyOfLine (lineOf (a + i))
    if k = none ∨ k = key then some (Loc.mem (a + i), (Memory.get s.mem (a + i)).toNat) else none)
  (s.putPhys (some v) bound a bs).noteWrite w cells ((linesOf a bs.length).map s.homeDie).eraseDups

/-- Notes what a write to n bytes of a block's scratchpad replaces. -/
def State.noteScratch (s : State) (w : Writer) (uid off n : Nat) : State :=
  s.noteWrite w ((List.range n).map (fun i => (Loc.scratch uid (off + i), s.atLoc (.scratch uid (off + i))))) []

/-- The latest writes of some places. -/
def State.latest (s : State) (sel : Loc → Bool) : List Past :=
  (s.pastLocs sel).filterMap (fun l => s.past.find? (fun w => w.loc == l))

/-! ### Releases and acquires (R247–R249) -/

/-- A write as something known on a path. -/
def Past.known (w : Past) (path : EClass) (since : Nat) : Known := ⟨w.stamp, path, since, .system, w.site⟩

/-- The engine classes. -/
def allPaths : List EClass := [.ls, .cp, .mx, .cl, .fb, .wl]

/-- The writes of a slice before its operation n, on one path. -/
def State.ownWrites (s : State) (key n : Nat) (path : EClass) : List Past :=
  s.past.filter (fun w => w.site.key == key && w.path == path && decide (w.seq < n))

/-- What a release of a slice, its operation n, makes known: its earlier LS writes, to well loads too (R236), at POD scope and wider its pod
writes, and each of them on the other's path (R417), the writes that it must see itself, and those that its loads have returned (R249, R253). -/
def State.message (s : State) (site : Site) (x : Slice) (scope : Scope) (n : Nat) : Msg where
  scope := scope
  site := site
  knows :=
    (s.ownWrites site.key n .ls).flatMap (fun w => [w.known .ls 0, w.known .wl 0])
      ++ (if scopeRank .tenant < scopeRank scope then
          (s.ownWrites site.key n .ls).map (fun w => w.known .fb 0)
            ++ (s.ownWrites site.key n .fb).flatMap (fun w => [w.known .ls 0, w.known .fb 0])
        else [])
      ++ x.knows.filter (fun k => decide (k.since ≤ n)) ++ x.reads.filter (fun k => decide (k.since < n))

/-- What an acquire learns from the releases that it synchronises with: both agents share both scopes (R247). -/
def State.gains (s : State) (site : Site) (scope : Scope) (since : Nat) (ms : List Msg) : List Known :=
  (ms.filter (fun m => s.shares m.site site m.scope && s.shares m.site site scope)).flatMap (fun m =>
    (m.knows.filter (fun k => s.shares k.site site k.scope)).map (fun k => { k with since := since }))

/-- The writes that have reached an agent's die: after an acquire wider than CORE its later loads find none of them in an old copy
(R252). -/
def State.arrived (s : State) (site : Site) (scope : Scope) (since : Nat) : List Known :=
  if pastCore scope then (s.past.filter (s.reaches ⟨site, .ls, .system, 0, []⟩)).map (fun w => w.known .ls since) else []

/-- A slice learns of writes. -/
def Slice.learn (x : Slice) (ks : List Known) : Slice := { x with knows := x.knows ++ ks.filter (fun k => !x.knows.contains k) }

/-- What an acquire fence, or an acquire without an active lane, orders before the slice's later accesses (R238, R250): what its
earlier loads returned, and with `sync` the releases that its last load read. -/
def State.fenceLearns (s : State) (site : Site) (x : Slice) (scope : Scope) (sync : Bool) : List Known :=
  x.reads.map (fun k => { k with since := x.seq })
    ++ (if sync then s.gains site scope x.seq x.lastRead.2 else []) ++ s.arrived site scope x.seq

/-- Whether a place is a byte, and no descriptor: a WDSET is no store (R233). -/
def Loc.isByte : Loc → Bool
  | .mem _ | .scratch _ _ | .reg _ _ => true
  | _ => false
/-- Every store of a slice before its operation n is performed at a scope (R238, R240). -/
def State.widen (s : State) (key n : Nat) (scope : Scope) : State :=
  { s with past := s.past.map (fun w =>
      if w.site.key = key ∧ w.path = .ls ∧ w.loc.isByte ∧ w.seq < n then { w with scope := widerScope w.scope scope } else w) }

/-- A die applies a write of another die, and with it every write that the other die had emitted or applied before (R254, R255). -/
def State.applyAt (s : State) (d : Nat) (w : Past) : State :=
  match w.loc with
  | .mem _ => s.mergeClock d w.site.die w.clock
  | _ => s

/-- A die has applied, as far as the bridges are open, the writes that an agent on it now knows (R254, R255). -/
def State.applyKnown (s : State) (d : Nat) (ks : List Known) : State :=
  s.withClocks (ks.foldl (fun t k =>
    match s.past.find? (fun w => w.stamp == k.stamp) with
    | none => t
    | some w => t.applyAt d w) s)

/-- Whether a write is visible to every agent of a reader's die at one moment: one of another agent, at DIE scope or wider or from another
die (R253). -/
def Past.atOnce (w : Past) (site : Site) : Bool :=
  w.site.key != site.key && (decide (scopeRank .die ≤ scopeRank w.scope) || w.site.die != site.die)

/-- A read has returned writes: the reader's die has applied them, and the slice keeps them (R251, R254), its own later reads too where
every agent of the die sees them by then (R253); an acquire load learns from the releases that it read (R247). -/
def State.noteRead (s : State) (r : Reader) (acq : Bool) (ws : List Past) : State :=
  let s1 := s.withClocks (ws.foldl (fun t w => t.applyAt r.site.die w) s)
  let got (since : Nat) : List Known := ws.map (fun w => w.known r.path since)
  let ms := ws.flatMap (fun w => w.rels)
  s1.modSlice r.site.key (fun x =>
    let y := { x.learn ((ws.filter (fun w => w.atOnce r.site)).map (fun w => w.known r.path (r.seq + 1))) with
      reads := x.reads ++ got r.seq
      lastRead := if x.lastRead.1 < r.seq then (r.seq, ms)
        else if x.lastRead.1 = r.seq then (r.seq, x.lastRead.2 ++ ms) else x.lastRead }
    if acq then
      y.learn (got (r.seq + 1) ++ s1.gains r.site r.scope (r.seq + 1) ms ++ s1.arrived r.site r.scope (r.seq + 1))
    else y)

/-! ### Barrier objects (R187) -/

/-- Adds what an arrival or counted bytes make known to the phase in progress; `completes`: the update completes the phase. -/
def Block.phaseAdd (b : Block) (off : Nat) (ms : List Msg) (completes : Bool) : Block :=
  let p : PhaseMsgs := (b.phases.find? (fun p => p.off == off)).getD ⟨off, [], []⟩
  let q : PhaseMsgs := if completes then ⟨off, [], p.cur ++ ms⟩ else ⟨off, p.cur ++ ms, p.done⟩
  if q = p then b
  else { b with phases := q :: b.phases.filter (fun p => p.off != off) }
/-- What the last completed phase of an object makes known. -/
def Block.phaseDone (b : Block) (off : Nat) : List Msg :=
  match b.phases.find? (fun p => p.off == off) with
  | none => []
  | some p => p.done

end Sys2Proof.Machine
end

