-- ==== Sys2Proof/Machine/Ops.lean ====
section
/-! DEFINITION. The named operations on a slice: registers in the numbering of the word's origin, long results and parking,
moving on, taking a trap, ending a grid, and the checks every word makes when it issues. -/

namespace Sys2Proof.Machine

/-! ### The issuing word -/

/-- What a word sees when it issues: the state, its slice by key, and its block. -/
structure Ctx where
  s : State
  k : Nat
  x : Slice
  b : Block
  deriving DecidableEq, Repr

/-- The context of a slice, if it exists. -/
def State.ctx (s : State) (k : Nat) : Option Ctx :=
  match Table.find s.slices k with
  | none => none
  | some x =>
    match Table.find s.blocks (keyBlock k) with
    | none => none
    | some b => some ⟨s, k, x, b⟩

/-- The slice as an agent (R242). -/
def Ctx.site (c : Ctx) : Site := ⟨c.k, c.b.gid, c.b.core, coreDie c.b.core, c.b.vf⟩
/-- A read of the slice, its operation n. -/
def Ctx.reader (c : Ctx) (path : EClass) (scope : Scope) (n : Nat) : Reader := ⟨c.site, path, scope, n, c.x.knows⟩
/-- A write of the slice, its operation n, with the releases it carries. -/
def Ctx.writer (c : Ctx) (path : EClass) (n : Nat) (scope : Scope) (rels : List (Scope × Nat)) : Writer :=
  ⟨c.site, path, n, scope, rels.map (fun r => c.s.message c.site c.x r.1 r.2)⟩

/-- A squad of a block. -/
def Block.squad (b : Block) (q : Nat) : Squad := b.squads.getD q ⟨0, 0, 0, .general, 0, 0, []⟩
/-- The slice's squad. -/
def Ctx.squad (c : Ctx) : Squad := c.b.squad (keySquad c.k)

/-- Parts whose words have C's origin (R315). -/
def partIsC (p : Nat) : Bool := p == 2 || p == 6 || p == 8
/-- Whether the slice's words have the consumer's origin (R316). -/
def Ctx.inC (c : Ctx) : Bool :=
  match c.x.splice with
  | none => false
  | some sp => partIsC sp.part

/-- The grid of the slice's block. -/
def Ctx.grid? (c : Ctx) : Option Grid := Table.find c.s.grids c.b.gid
/-- The launch record that governs the slice's words: its origin's (R316). -/
def Ctx.lrec (c : Ctx) : BitVec 1024 :=
  match c.grid? with
  | none => 0
  | some g =>
    match g.splice with
    | none => g.lrec
    | some sp => if c.inC then sp.recC else g.lrec
/-- The kernel-table index of the slice's origin (R324). -/
def Ctx.kidx (c : Ctx) : Nat :=
  match c.grid? with
  | none => 0
  | some g =>
    match g.splice with
    | none => fld g.pkt 31 16
    | some sp => if c.inC then fld sp.pktC 31 16 else fld g.pkt 31 16

/-- The registers of the squad in the word's origin's view (R15, R325): count and base. -/
def Ctx.vcount (c : Ctx) : Nat :=
  match c.x.splice with
  | none => c.squad.vcount
  | some _ => if c.inC then c.squad.vcount - c.squad.pcount else c.squad.pcount
/-- The squad's register base in the origin's view. -/
def Ctx.vbase (c : Ctx) : Nat := if c.inC then c.squad.vbase + c.squad.pcount * 128 else c.squad.vbase

/-- A scalar register number of the word as a physical one (R314). -/
def Ctx.physS (c : Ctx) (n : Nat) : Nat :=
  if c.inC then
    match c.b.splice with
    | none => n
    | some sp => sp.smap.getD n n
  else n
/-- A vector register number of the word as a physical one (R314). -/
def Ctx.physV (c : Ctx) (n : Nat) : Nat := if c.inC then n + c.squad.pcount else n
/-- A tile descriptor number of the word as a physical one (R314). -/
def Ctx.physT (c : Ctx) (n : Nat) : Nat :=
  if c.inC then
    match c.b.splice with
    | none => n
    | some sp => sp.tmap.getD n n
  else n

/-! ### Registers -/

/-- A scalar register by physical number. -/
def Slice.sreg (x : Slice) (n : Nat) : Word64 := x.s.toList.getD n 0
/-- Writes a scalar register by physical number. -/
def Slice.setS (x : Slice) (n : Nat) (v : Word64) : Slice :=
  if h : n < 64 then { x with s := x.s.set n v } else x
/-- A lane of a vector register by physical number. -/
def Slice.vreg (x : Slice) (n l : Nat) : Word32 := Sparse.get 0 x.v (n * 4 + l)
/-- Writes a lane of a vector register by physical number. -/
def Slice.setV (x : Slice) (n l : Nat) (v : Word32) : Slice := { x with v := Sparse.set 0 x.v (n * 4 + l) v }
/-- A lane's Q. -/
def Slice.qLane (x : Slice) (l : Nat) : BitVec 8 := x.q.toList.getD l 0
/-- Q of lane l at depth d (R22). -/
def Slice.qBit (x : Slice) (l d : Nat) : Bool := testBit (x.qLane l).toNat d
/-- EXEC of lane l. -/
def Slice.execBit (x : Slice) (l : Nat) : Bool := testBit x.exec.toNat l
/-- The privilege level (R26). -/
def Slice.priv (x : Slice) : Nat := smodePriv x.smode

/-! ### Long results (R29–R31) -/

/-- The 32-bit value of a loaded element in a vector register (R120, R214). -/
def loadedWord (sz : Sz) (bs : List Byte) : Nat :=
  match sz with
  | .i8 => wrap (sext (leNat bs) 8) 32
  | .i16 => wrap (sext (leNat bs) 16) 32
  | _ => leNat bs
/-- The 64-bit value of a loaded element in a scalar register (R220). -/
def loadedScalar (sz : Sz) (bs : List Byte) : Word64 :=
  match sz with
  | .i8 => BitVec.ofInt 64 (sext (leNat bs) 8)
  | .i16 => BitVec.ofInt 64 (sext (leNat bs) 16)
  | _ => BitVec.ofNat 64 (leNat bs)

/-- The long results of n registers from bytes in a lane. -/
def regWrites (v n l : Nat) (x : Nat) : List PendWrite :=
  (List.range n).map (fun i => ⟨.v (v + i) l, BitVec.ofNat 64 (x / 2 ^ (32 * i) % 2 ^ 32), .load⟩)

/-- Byte or half b of the row that lane r read (R222); zero for an inactive lane. A row that met a poisoned word gives the other lanes the
bytes that are stored (log entry 117). -/
def rowPart (ls : List LaneAcc) (w r b : Nat) : Nat :=
  match ls.find? (fun a => a.lane == r) with
  | none => 0
  | some a => leNat (((a.got.getD []).drop (b * w)).take w)

/-- What a load, an atomic, a WLD or a PODLD writes, by lane that still lives and, but for WLD, was not poisoned (R113, R213, R222, R438). -/
def MemOp.results (o : MemOp) (live : BitVec 4) : List PendWrite :=
  let ls := o.lanes.filter (fun a => !a.poisoned)
  match o.kind with
  | .load (.sreg n) sz _ => ls.flatMap (fun a => [⟨.s n, loadedScalar sz (a.got.getD []), .load⟩])
  | .load (.vreg n) sz _ =>
    (ls.filter (fun a => testBit live.toNat a.lane)).flatMap
      (fun a => regWrites n sz.regs a.lane (loadedWord sz (a.got.getD [])))
  | .loadTr n sz _ =>
    (ls.filter (fun a => testBit live.toNat a.lane)).flatMap (fun a =>
      let l := a.lane
      let w := sz.bytes
      regWrites n w l ((List.range 4).foldl (fun v r => v + rowPart o.lanes w r l * 2 ^ (8 * w * r)) 0))
  | .atomic _ sz (some n) =>
    (ls.filter (fun a => testBit live.toNat a.lane)).flatMap
      (fun a => regWrites n sz.regs a.lane (leNat (a.got.getD [])))
  | .podLoad n sz =>
    (ls.filter (fun a => testBit live.toNat a.lane)).flatMap
      (fun a => regWrites n sz.regs a.lane (loadedWord sz (a.got.getD [])))
  | .well n _ _ _ =>
    (o.lanes.filter (fun a => testBit live.toNat a.lane)).flatMap (fun a => regWrites n 1 a.lane (leNat (a.got.getD [])))
  | _ => []
/-- What an outstanding operation may have written already, by lane that has its value (R31): a slice that WLD holds reads nothing, and
VLDTR writes no lane before it has every row. -/
def MemOp.arriving (o : MemOp) (live : BitVec 4) : List PendWrite :=
  let ls := o.lanes.filter (fun a => a.got.isSome)
  match o.kind with
  | .loadTr _ _ _ => if ls.length = o.lanes.length then o.results live else []
  | .well _ _ _ pr => if pr = .noq then { o with lanes := ls }.results live else []
  | _ => { o with lanes := ls }.results live

/-- The number of the choice made for an element of a register file. -/
def elemSite : Elem → Nat
  | .s n => n
  | .v n l => 64 + n * 4 + l

/-- The computed long results of the current run that an element may still receive (R31). -/
def Slice.pendOf (x : Slice) (e : Elem) : List Word64 := (x.pend.filter (fun p => p.elem == e)).map (fun p => p.val)
/-- The values that a word may read at an element besides the one it holds (R31): results still due, those of outstanding loads among
them. -/
def Slice.dueAt (x : Slice) (e : Elem) : List Word64 :=
  x.pendOf e ++ ((x.ops.flatMap (fun o => o.arriving x.live)).filter (fun p => p.elem == e)).map (fun p => p.val)

/-- Reads an element (R31): its value, or that of any long result of the run. -/
def Ctx.rdElem (c : Ctx) (e : Elem) (old : Word64) : Word64 := c.s.pickFrom (elemSite e) old (old :: c.x.dueAt e)

/-- The values that a scalar register held before completion results that a word may not have waited for (R30). -/
def Slice.staleOf (x : Slice) (n : Nat) : List Word64 := (x.stale.filter (fun p => p.reg == n)).map (fun p => p.old)
/-- Reads a scalar register of the word: operands of one word that name one register read it once (log entry 135). -/
def Ctx.rdS (c : Ctx) (n : Nat) : Word64 :=
  let p := c.physS n
  c.s.pickFrom p (c.x.sreg p) (c.x.sreg p :: (c.x.dueAt (.s p) ++ c.x.staleOf p))
/-- Reads a lane of a vector register of the word. -/
def Ctx.rdV (c : Ctx) (n l : Nat) : Word32 :=
  (c.rdElem (.v (c.physV n) l) ((c.x.vreg (c.physV n) l).setWidth 64)).setWidth 32

/-- An element's value. -/
def Slice.getElem (x : Slice) (e : Elem) : Word64 :=
  match e with
  | .s n => x.sreg n
  | .v n l => (x.vreg n l).setWidth 64

/-- Writes an element. -/
def Slice.setElem (x : Slice) (e : Elem) (v : Word64) : Slice :=
  match e with
  | .s n => x.setS n v
  | .v n l => x.setV n l (v.setWidth 32)

/-- A completion result is written (R29, R30); `en`: its counter is EN, else FB; `later`: the commands of its queue issued after it. -/
def Slice.complete (x : Slice) (n : Nat) (v : Word64) (en : Bool) (later : Nat) : Slice :=
  { x.setS n v with stale := x.stale ++ [⟨n, x.sreg n, en, later⟩] }
/-- A write after which the register's older values are read no more. -/
def Slice.putS (x : Slice) (n : Nat) (v : Word64) : Slice := { x.setS n v with stale := x.stale.filter (fun p => p.reg != n) }
/-- What a WAIT with thresholds for EN and FB leaves readable of older values (R30): commands of one queue complete in order, so a
counter at the threshold has let those fall that enough later ones follow. -/
def Stale.survives (p : Stale) (en fb : Fin 8) : Bool :=
  if p.en then en.val == 7 || decide (p.later < en.val) else fb.val != 0

/-- Results due to an element when a write reaches it that is none of them: one that has landed is overwritten, and a computed one may
land before or after the write (R195; log entry 15). -/
def State.overtaken (s : State) (site : Nat) (e : Elem) (l : List PendWrite) : List PendWrite :=
  l.filter (fun p => !(p.elem == e) || (p.kind != .load && s.flip site))
/-- A short result (R29): visible to the next word. -/
def State.wrShort (s : State) (x : Slice) (n : Nat) (v : Word64) : Slice :=
  let y := x.putS n v
  { y with pend := s.overtaken (3000 + n) (.s n) y.pend }

/-- The elements that have a long result due. -/
def Slice.pendElems (x : Slice) : List Elem := (x.pend.map (fun p => p.elem)).eraseDups

/-- A long result lands in an element. -/
def Slice.land (x : Slice) (e : Elem) (v : Word64) : Slice :=
  match e with
  | .s n => x.putS n v
  | .v n l => x.setV n l (v.setWidth 32)

/-- Whether long results write all four lanes of a vector register, a full 16-byte write (R191). -/
def coversReg (ws : List PendWrite) (n : Nat) : Bool := (List.range 4).all (fun l => ws.any (fun w => w.elem == .v n l))
/-- The vector registers that long results write. -/
def writtenRegs (ws : List PendWrite) : List Nat :=
  (ws.filterMap (fun w => match w.elem with
    | .v n _ => some n
    | _ => none)).eraseDups
/-- The counter of an instruction falls: its elements are written (R114). One for which a computed result is due holds either after the
parking point (R31). A full write clears a register's poison (R191). -/
def Slice.deliver (x : Slice) (ws : List PendWrite) : Slice :=
  { ws.foldl (fun y w => y.land w.elem w.val) x with
    pend := x.pend ++ ws.filter (fun w => x.pend.any (fun p => p.elem == w.elem))
    vpoison := (writtenRegs ws).foldl (fun p n => if coversReg ws n then Sparse.set false p n false else p) x.vpoison }

/-- Long results land (R30): an element that several words of the run wrote holds one of their values (R31). -/
def State.settle (s : State) (x : Slice) : Slice :=
  if x.pend.isEmpty then x
  else
    { x.pendElems.foldl
        (fun y e => y.land e (s.pickFrom (4096 + elemSite e) 0 (x.pendOf e))) x with pend := [] }

/-- Whether an element belongs to a lane of m; a scalar register belongs to the slice, which all four lanes make up. -/
def Elem.inLanes (e : Elem) (m : BitVec 4) : Bool :=
  match e with
  | .s _ => m == 0xF
  | .v _ l => testBit m.toNat l

/-- The long results due to lanes that end (R113): one still in flight is discarded, and which are is not stated; those of an
instruction whose counter has fallen have been written (R114). -/
def State.settleLanes (s : State) (m : BitVec 4) (x : Slice) : Slice :=
  let due := x.pend.filter (fun p => p.elem.inLanes m)
  let old (e : Elem) : List Word64 :=
    if due.any (fun p => p.elem == e && p.kind == .load) then [] else [x.getElem e]
  { (due.map (fun p => p.elem)).eraseDups.foldl
      (fun y e => y.land e (s.pickFrom (8192 + elemSite e) 0 (old e ++ x.pendOf e))) x with
    pend := x.pend.filter (fun p => !p.elem.inLanes m) }

/-- The results of earlier floating-point words land (R103). -/
def State.settleFp (s : State) (x : Slice) : Slice :=
  let es := (x.pend.filter (fun p => p.kind == .fp)).map (fun p => p.elem)
  if es.isEmpty then x
  else
    { es.eraseDups.foldl
        (fun y e => y.land e (s.pickFrom (4096 + elemSite e) 0 (x.pendOf e))) x with
      pend := x.pend.filter (fun p => !(es.contains p.elem)) }

/-- A push (R23): one bit per lane at depth 0. -/
def Slice.push (x : Slice) (b : Nat → Bool) : Slice :=
  { x with q := Vector.ofFn (fun l : Fin 4 => (x.qLane l.val <<< 1) ||| BitVec.ofNat 8 (bitOf (b l.val))) }
/-- A push of the same bit into all four lanes (R23). -/
def Slice.pushAll (x : Slice) (b : Bool) : Slice := x.push (fun _ => b)
/-- A write to EXEC (R20). -/
def Slice.setExec (x : Slice) (m : BitVec 4) : Slice := { x with exec := m &&& x.live }

/-! ### Guards (R21, R22) -/

/-- Whether a guard passes for a lane. -/
def Slice.guardLane (x : Slice) (g : Guard) (l : Nat) : Bool :=
  match g with
  | .always => true
  | .q neg d => x.qBit l d.val != neg
/-- Whether a scalar instruction's guard passes. -/
def Slice.guardScalar (x : Slice) (g : Guard) : Bool :=
  match g with
  | .always => true
  | .q _ _ => (List.range 4).any (fun l => x.execBit l && x.guardLane g l)
/-- An active lane. -/
def Slice.active (x : Slice) (g : Guard) (l : Nat) : Bool := x.execBit l && x.guardLane g l
/-- The active lanes, ascending. -/
def Slice.lanes (x : Slice) (g : Guard) : List Nat := (List.range 4).filter (fun l => x.active g l)

/-! ### Outstanding operations (R114) -/

/-- Whether an operation delivers a long result (R29). -/
def OpKind.isLong : OpKind → Bool
  | .load _ _ _ | .loadTr _ _ _ | .well _ _ _ _ | .podLoad _ _ => true
  | .atomic _ _ ret => ret.isSome
  | _ => false
/-- Whether an operation reads and delivers to a register under LD (R114). -/
def OpKind.isLd : OpKind → Bool
  | .load _ _ _ | .loadTr _ _ _ => true
  | .atomic _ _ ret => ret.isSome
  | _ => false
/-- Whether an operation is counted under ST (R114) or is a barrier-object update that is performed as a store (R302). -/
def OpKind.isSt : OpKind → Bool
  | .store _ _ _ | .feset | .feclr | .abInit _ | .abUpdate _ _ => true
  | .atomic _ _ ret => ret.isNone
  | _ => false
/-- Whether an operation is a load that binds a value (R246): a long result, or the read of an ACTLD (R138) or of an FSEND (R414). -/
def OpKind.binds : OpKind → Bool
  | .actLoad | .fsend _ _ _ => true
  | k => k.isLong
/-- Whether a slice has a long result outstanding. -/
def Slice.longOut (x : Slice) : Bool := x.ops.any (fun o => o.kind.isLong)

/-! ### Moving on -/

/-- Waiting reports of poisoned loads become due at a parking point (R438). -/
def Slice.readyPoison (x : Slice) : Slice :=
  { x with poisonDue := x.poisonDue.map (fun d => { d with ready := true }) }

/-- Parking (R30): a slice with no long result outstanding goes on at once. -/
def State.parkSlice (s : State) (x : Slice) : Slice :=
  if x.longOut then { x with hold := .parked } else (s.settle x).readyPoison

/-- Fields of a splice table's header (R311). -/
def tableBegin (t : BitVec 1536) : Nat := fld t 447 416
/-- END of a splice table. -/
def tableEnd (t : BitVec 1536) : Nat := fld t 415 384
/-- LAST of a splice table. -/
def tableLast (t : BitVec 1536) : Nat := fld t 287 256
/-- ENTRY of a launch record (R158). -/
def recEntry (r : BitVec 1024) : Nat := fld r 63 0

/-- Where part 8 starts (R315). -/
def startPart8 (sp : Splice) : Nat × Nat := (8, recEntry sp.recC + tableEnd sp.tableC + 8)
/-- Where part 7 starts; an empty part 7 is passed over. -/
def startPart7 (g : Grid) (sp : Splice) : Nat × Nat :=
  if tableEnd sp.tableP + 8 = tableLast sp.tableP then startPart8 sp
  else (7, recEntry g.lrec + tableEnd sp.tableP + 8)
/-- Join A, before P's section. -/
def startPart3 (g : Grid) (sp : Splice) : Nat × Nat := (3, recEntry g.lrec + tableBegin sp.tableP)
/-- Where part 2 starts. -/
def startPart2 (g : Grid) (sp : Splice) : Nat × Nat :=
  if tableBegin sp.tableC = 0 then startPart3 g sp else (2, recEntry sp.recC)
/-- Where part 1 starts. -/
def startPart1 (g : Grid) (sp : Splice) : Nat × Nat :=
  if tableBegin sp.tableP = 0 then startPart2 g sp else (1, recEntry g.lrec)

/-- Where a transfer of control in a spliced grid leads (R439): the part and the PC, or nowhere. `direct`: a direct branch
or the next word. -/
def splicedTarget (g : Grid) (sp : Splice) (part target : Nat) (direct : Bool) : Option (Nat × Nat) :=
  let eP := recEntry g.lrec
  let eC := recEntry sp.recC
  let offP := (target + 2 ^ 64 - eP) % 2 ^ 64
  let offC := (target + 2 ^ 64 - eC) % 2 ^ 64
  let bP := tableBegin sp.tableP
  let bC := tableBegin sp.tableC
  let nP := tableEnd sp.tableP
  let nC := tableEnd sp.tableC
  if part = 1 then
    if offP < bP then some (1, target) else if offP = bP ∧ direct then some (startPart2 g sp) else none
  else if part = 2 then
    if offC < bC then some (2, target) else if offC = bC ∧ direct then some (startPart3 g sp) else none
  else if part = 4 then
    if bP ≤ offP ∧ offP ≤ nP then some (4, target)
    else if offP = nP + 8 ∧ direct then some (5, eC + bC) else none
  else if part = 6 then
    if bC ≤ offC ∧ offC ≤ nC then some (6, target)
    else if offC = nC + 8 ∧ direct then some (startPart7 g sp) else none
  else if part = 7 then
    if nP < offP ∧ offP < tableLast sp.tableP then some (7, target)
    else if offP = tableLast sp.tableP then some (startPart8 sp) else none
  else if part = 8 then
    if nC < offC ∧ offC ≤ tableLast sp.tableC then some (8, target) else none
  else none

/-- A PC's bits [2:0] are zero (R27), whatever a record's ENTRY holds (log entry 114). -/
def alignedPc (pc : Nat) : Nat := pc / 8 * 8

/-- Enters a part: a change of origin exchanges the copies of EXEC, Q and SMODE (R316). -/
def Slice.enterPart (x : Slice) (sp : SpliceSlice) (part pc : Nat) : Slice :=
  let y := { x with pc := BitVec.ofNat 64 (alignedPc pc) }
  if partIsC sp.part = partIsC part then { y with splice := some { sp with part := part } }
  else
    { y with
      exec := sp.other.exec, q := sp.other.q, smode := sp.other.smode
      splice := some { sp with part := part, other := ⟨x.exec, x.q, x.smode⟩ } }

/-! ### Ending a grid -/

/-- Kills every block of a grid (R346, R357). -/
def State.killBlocks (s : State) (gid : Nat) : State :=
  { s with blocks := s.blocks.map (fun e => if e.2.gid = gid then (e.1, { e.2 with killed := true }) else e) }

/-- Whether a grid runs on several chips of this module (R160). -/
def Grid.spansChips (g : Grid) : Bool := decide (1 < (g.podChips.filterMap id).eraseDups.length)
/-- The end of a grid that runs on several chips reaches the committed images of those that are time-sliced: no rollback undoes it (log entry
41). -/
def State.endInImages (s : State) (gid : Nat) (h : Grid → Grid) : State :=
  match Table.find s.grids gid with
  | none => s
  | some g =>
    if g.spansChips then
      { s with chips := s.chips.map (fun e => (e.1, { e.2 with committed := e.2.committed.map (fun i =>
          { i with
            grids := i.grids.map (fun p => if p.1 = gid then (p.1, h p.2) else p)
            blocks := i.blocks.map (fun p => if p.2.gid = gid then (p.1, { p.2 with killed := true }) else p) }) })) }
    else s
/-- A grid that a fault ends (R167). -/
def Grid.endBy (g : Grid) (f : GridFault) (status : Nat) : Grid :=
  if g.state = .dispatching ∨ g.state = .draining then
    { g with state := .killing, status := status, fault := some f, undisp := [] }
  else g
/-- A fault ends a grid (R346, R167): the first one recorded is reported, undispatched blocks are dropped, every block is
killed. -/
def State.endGrid (s : State) (gid : Nat) (f : GridFault) (status : Nat) : State :=
  ((s.endInImages gid (fun g => g.endBy f status)).modGrid gid (fun g => g.endBy f status)).killBlocks gid

/-- The code of a cause (R332). -/
def Cause.code : Cause → Nat
  | .illegalInstruction => 0x01 | .privilege => 0x02 | .registerRange => 0x03 | .emulatedOpcode => 0x04
  | .misalignedFetch => 0x05 | .fetchFault => 0x06 | .misalignedData => 0x07 | .dataFault => 0x08
  | .addressForm => 0x09 | .podMember => 0x0A | .scopePolicy => 0x0B | .dispatchRange => 0x0C
  | .uncorrectable => 0x0D | .groupSync => 0x0E | .wellPoison => 0x0F | .engineOperand => 0x10
  | .engineFault => 0x11 | .spliceDivergence => 0x12 | .spliceResume => 0x13 | .software => 0x14
  | .breakpoint => 0x15 | .stage2Fault => 0x16 | .frameFault => 0x17 | .watchdog => 0x18

/-- Whether a cause is delivered to a handler (R332). -/
def Cause.delivered : Cause → Bool
  | .spliceResume | .stage2Fault | .frameFault | .watchdog => false
  | _ => true

/-- A fault of a word of kernel-table index `kidx` ends the slice's grid (R324, R332, R333): bit 7 when it arose at handler level or at
handler entry. -/
def Ctx.endGridFor (c : Ctx) (pc : Word64) (kidx : Nat) (cause : Cause) (handler : Bool) : State :=
  c.s.endGrid c.b.gid
    ⟨pc, kidx, BitVec.ofNat 8 (cause.code + (if handler then 128 else 0))⟩
    (match cause with | .watchdog => 3 | _ => 4)
/-- A fault of the slice's present word ends its grid. -/
def Ctx.endGridAt (c : Ctx) (pc : Word64) (cause : Cause) (handler : Bool) : State := c.endGridFor pc c.kidx cause handler

/-! ### Taking a trap (R334–R339) -/

/-- INFO of a trap (R337). -/
def infoWord (x : Slice) (t : TrapInfo) : Nat :=
  t.cause.code + bitOf t.defer * 2 ^ 8 + bitOf t.wr * 2 ^ 9 + t.level % 4 * 2 ^ 10 + t.engerr % 16 * 2 ^ 12
    + x.exec.toNat * 2 ^ 16 + x.live.toNat * 2 ^ 20 + t.lane % 4 * 2 ^ 24 + t.aux.toNat * 2 ^ 32
/-- Q as 32 bits: lane l, depth k at bit 8l + k (R101, R336). -/
def Slice.qWord (x : Slice) : Nat :=
  (x.qLane 0).toNat + (x.qLane 1).toNat * 2 ^ 8 + (x.qLane 2).toNat * 2 ^ 16 + (x.qLane 3).toNat * 2 ^ 24

/-- The trap frame (R336), lowest byte first. -/
def Ctx.frameBytes (c : Ctx) (t : TrapInfo) (word : Word64) : List Byte :=
  leBytes 512
    (c.x.pc.toNat + word.toNat * 2 ^ 64 + t.addr.toNat * 2 ^ 128 + infoWord c.x t * 2 ^ 192
      + c.x.smode.toNat * 2 ^ 256 + c.x.qWord * 2 ^ 320 + c.vbase % 2 ^ 20 * 2 ^ 384 + c.vcount % 2 ^ 9 * 2 ^ 404
      + keySquad c.k * 2 ^ 432 + keySlice c.k * 2 ^ 440 + c.kidx % 2 ^ 16 * 2 ^ 448 + t.pump.toNat * 2 ^ 512)
  ++ (List.range 64).flatMap (fun n => leBytes 8 (c.x.sreg (c.physS n)).toNat)

/-- The frame address of a slice (R335). -/
def Ctx.frameAddr (c : Ctx) : Nat :=
  (c.s.chip c.b.vf).tfbase.toNat
    + 1024 * (c.s.coreId c.b.vf c.b.core * 512 + c.squad.slot * 8 + keySlice c.k)

/-- An address that goes to translation (R205). -/
def isVirtual (a : Nat) : Bool := decide (a < 0x7FFFFF0000000000)

/-- Reports a stage-2 failure to the physical function, if that is what it was (R349). -/
def State.noteXErr (s : State) (v : Nat) (e : XErr) : State :=
  match e with
  | .stage2 ipa => s.reportStage2 v ipa
  | _ => s

/-- Enters the handler at TRAPVEC (R339); a target that is misaligned or cannot be fetched ends the grid (R333). -/
def Ctx.enterHandler (c : Ctx) (t : TrapInfo) (frame vec : Nat) : State :=
  let pc := c.x.pc
  if vec % 8 ≠ 0 then c.endGridAt pc .misalignedFetch true
  else
    match (if isVirtual vec then c.s.translate c.b.vf (c.s.tlbOf c.b.core) 22000 vec .fetch else .error (.stage1 0)) with
    | .error e => ({ c with s := c.s.noteXErr c.b.vf e }).endGridAt pc .fetchFault true
    | .ok _ =>
      let info := infoWord c.x t
      c.s.modSlice c.k (fun x =>
        { (x.putS (c.physS 0) (BitVec.ofNat 64 frame)).putS (c.physS 1) (BitVec.ofNat 64 info) with
          smode := smodeSetPriv x.smode 1, exec := x.live, pc := BitVec.ofNat 64 vec
          hold := .none, frame := some (BitVec.ofNat 64 frame), enteredAt := c.s.now })

/-- The slice has made an access for a word itself: it takes a number among the slice's operations. -/
def Slice.wrote (x : Slice) : Slice := { x with seq := x.seq + 1 }

/-- Writes the frame as LS stores at CORE scope in the tenant's address space and enters handler level (R334, R335). -/
def Ctx.deliver (c : Ctx) (t : TrapInfo) (word : Word64) : State :=
  let vec := fld c.lrec 191 128
  if vec = 0 then c.endGridAt c.x.pc t.cause false
  else
    let base := (c.s.chip c.b.vf).tfbase
    let a := c.frameAddr
    if base = 0 ∨ !isVirtual a then c.endGridAt c.x.pc .frameFault false
    else
      match c.s.translate c.b.vf (c.s.tlbOf c.b.core) 24000 a .write with
      | .error e => ({ c with s := c.s.noteXErr c.b.vf e }).endGridAt c.x.pc .frameFault false
      | .ok x =>
        let s1 := (c.s.fillTlb c.b.core x.used).writeMem (c.writer .ls c.x.seq .core []) c.b.vf false x.pa (c.frameBytes t word)
        ({ c with s := s1.modSlice c.k Slice.wrote }).enterHandler t a vec

/-- Takes a trap once every long result has been written (R31, R334): a trap above user level ends the grid (R340; log
entry 16), as does a cause that no handler receives (R332). -/
def State.enterTrap (s : State) (k : Nat) (t : TrapInfo) (word : Word64) : State :=
  let s1 := s.modSlice k (fun x => { s.settle x with hold := .none })
  match s1.ctx k with
  | none => s1
  | some c =>
    if c.x.priv = 1 then c.endGridAt c.x.pc t.cause true
    else if c.x.priv ≠ 0 ∨ !t.cause.delivered then c.endGridAt c.x.pc t.cause false
    else c.deliver t word

/-- A word meets a cause (R334): the slice issues nothing further and first waits for its long results. -/
def State.takeTrap (s : State) (k : Nat) (t : TrapInfo) (word : Word64) : State :=
  match Table.find s.slices k with
  | none => s
  | some x =>
    if x.longOut then s.modSlice k (fun x => { x with hold := .trap t word }) else s.enterTrap k t word

/-- The issuing word takes a trap. -/
def Ctx.trap (c : Ctx) (t : TrapInfo) : State := c.s.takeTrap c.k t c.s.ir

/-- A slice moves to an origin address (R27, R439): the next word, a branch target, or a return. -/
def State.goto (s : State) (k : Nat) (target : Word64) (direct m : Bool) : State :=
  match s.ctx k with
  | none => s
  | some c =>
    let s0 := s.modSlice k (fun x => { x with issued := x.issued + 1 })
    match c.x.splice, c.grid?.bind (fun g => g.splice.map (fun sp => (g, sp))) with
    | some ss, some (g, sp) =>
      if c.x.priv ≠ 0 then
        s0.modSlice k (fun x => let y := { x with pc := target }; if m then s.parkSlice y else y)
      else
        match splicedTarget g sp ss.part target.toNat direct with
        | none => ({ c with s := s0 }).endGridAt target .spliceResume false
        | some (p, pc) =>
          s0.modSlice k (fun x =>
            let y := x.enterPart ss p pc
            if m || p != ss.part then s.parkSlice y else y)
    | _, _ => s0.modSlice k (fun x => let y := { x with pc := target }; if m then s.parkSlice y else y)

/-- The word is done: the slice goes on at PC + 8 (R27), and parks when M = 1 (R30). -/
def State.finish (s : State) (k : Nat) (m : Bool) : State :=
  match Table.find s.slices k with
  | none => s
  | some x => s.goto k (x.pc + 8) true m

/-! ### What every word checks when it issues (R74, R191, R277, R438) -/

/-- A vector register operand of a word: first register, count, whether it is read. -/
structure VUse where
  n : Nat
  count : Nat
  read : Bool
  deriving DecidableEq, Repr

/-- The checks of a word that its entry adds to the common ones; `unreserved`: its block lacks the matrix reservation (R283 step 1). -/
structure WordChk where
  illegal : Bool := false
  unreserved : Bool := false
  user : Bool := true
  handler : Bool := true
  steward : Bool := true
  regs : List VUse := []
  engine : Bool := false
  deriving DecidableEq, Repr

/-- Whether the level the slice runs at permits the word (R26). -/
def WordChk.permits (w : WordChk) (priv : Nat) : Bool :=
  if priv = 0 then w.user else if priv = 1 then w.handler else w.steward

/-- Whether some register operand passes VCOUNT (R17, R214). -/
def Ctx.outOfRange (c : Ctx) (w : WordChk) : Bool := w.regs.any (fun r => decide (c.vcount < r.n + r.count))

/-- The first poisoned register that a word reads (R191), by register-window address (R194; log entry 9). -/
def Ctx.poisonedRead (c : Ctx) (w : WordChk) : Option Nat :=
  let ns := w.regs.flatMap (fun r => if r.read then (List.range r.count).map (fun i => r.n + i) else [])
  (ns.find? (fun n => Sparse.get false c.x.vpoison (c.physV n))).map
    (fun n => 0x7FFFFF0100000000 + keySquad c.k * 32768 + n * 128 + keySlice c.k * 16)

/-- The report of a poisoned full-empty load that is due (R438); none at handler level (log entry 17). -/
def Ctx.poisonReport (c : Ctx) : Option TrapInfo :=
  if c.x.priv = 1 then none
  else
    (c.x.poisonDue.find? (fun d => d.ready)).map (fun d =>
      { cause := .uncorrectable, addr := d.addr, aux := BitVec.ofNat 32 (c.x.issued - d.issued), lane := d.lane
        defer := true })

/-- The engine failure that a qualifying word reports (R277): none at handler level. -/
def Ctx.engineReport (c : Ctx) : Option TrapInfo :=
  if c.x.priv = 1 then none
  else
    c.x.engFail.head?.map (fun f =>
      { cause := .engineFault, addr := f.1, engerr := f.2.1, pump := f.2.2.1 })

/-- The deferred data-fault of dropped writes (R241, R337): their number, and the earliest in program order. -/
def Slice.dropReport (x : Slice) : Option TrapInfo :=
  (x.dropped.find? (fun d => x.dropped.all (fun e => decide (d.1 ≤ e.1)))).map (fun d =>
    { cause := .dataFault, addr := d.2.1, level := d.2.2, aux := BitVec.ofNat 32 x.dropped.length, wr := true
      defer := true })

/-- The report of writes that were dropped at a join or at a checkpoint's cut (R324, R362). -/
def Ctx.dropReport (c : Ctx) : Option TrapInfo := if c.x.dropDue then c.x.dropReport else none

/-- What stops a word when it issues, before its own checks, in the order of R74, R277 and R283. -/
def Ctx.stops (c : Ctx) (w : WordChk) : Option State :=
  match c.dropReport, c.poisonReport with
  | some t, _ =>
    some (({ c with s := c.s.modSlice c.k (fun x => { x with dropped := [], dropDue := false }) }).trap t)
  | none, some t =>
    some (({ c with s := c.s.modSlice c.k (fun x =>
      { x with poisonDue := x.poisonDue.eraseP (fun d => d.ready) }) }).trap t)
  | none, none =>
    if w.illegal then some (c.trap { cause := .illegalInstruction })
    else if !w.permits c.x.priv then some (c.trap { cause := .privilege })
    else if c.outOfRange w then some (c.trap { cause := .registerRange })
    else
      match (if w.engine then c.engineReport else none) with
      | some t =>
        some (({ c with s := c.s.modSlice c.k (fun x => { x with engFail := x.engFail.tail }) }).trap t)
      | none =>
        if w.unreserved then some (c.trap { cause := .illegalInstruction })
        else (c.poisonedRead w).map (fun a => c.trap { cause := .uncorrectable, addr := BitVec.ofNat 64 a })

/-- A word issues for the current slice: the common checks, then its effect. -/
def issue (s : State) (chk : Ctx → WordChk) (body : Ctx → State) : Host.Outcome State Fault Refusal :=
  match s.ctx s.cur with
  | none => .fault .noSlice
  | some c => .next ((c.stops (chk c)).getD (body c))

end Sys2Proof.Machine
end

