-- ==== Sys2Proof/Machine/Operands.lean ====
section
/-! DEFINITION. Operand forms: scalar and special sources (R58, R90, R91), vector elements and broadcasts (R62, R120), and the
effect of a register word (R28, R29). -/

namespace Sys2Proof.Machine

/-! ### Special sources (R90) -/

/-- GRIDX, GRIDY, GRIDZ of a launch record (R158). -/
def recGridX (r : BitVec 1024) : Nat := fld r 276 256
/-- GRIDY. -/
def recGridY (r : BitVec 1024) : Nat := fld r 297 277
/-- GRIDZ. -/
def recGridZ (r : BitVec 1024) : Nat := fld r 318 298
/-- A level word (R158, R159). -/
def recLevel (r : BitVec 1024) (k : Nat) : Nat := bits r.toNat (512 + 32 * k) 32
/-- EXTENT of a level word. -/
def levelExtent (l : Nat) : Nat := bits l 0 16
/-- KIND of a level word. -/
def levelKind (l : Nat) : Nat := bits l 23 3
/-- The product of the extents below level k (R160). -/
def extentBelow (r : BitVec 1024) : Nat → Nat
  | 0 => 1
  | k + 1 => extentBelow r k * levelExtent (recLevel r k)
/-- The LEVELk source of a block (R160): 0 for a level not declared. -/
def levelIndex (r : BitVec 1024) (linear k : Nat) : Nat :=
  if levelKind (recLevel r k) = 0 then 0
  else linear / extentBelow r k % levelExtent (recLevel r k)

/-- Three coordinates packed as in BLOCKXYZ (R90). -/
def packXyz (x y z : Nat) : Nat := x + y * 2 ^ 21 + z * 2 ^ 42

/-- The code of a role (R90). -/
def roleCode : Role → Nat
  | .general => 0 | .copy => 1 | .matrix => 2 | .epilogue => 3

/-- WCNT (R118). -/
def Counters.word (n : Counters) : Nat :=
  n.ld.toNat + n.st.toNat * 2 ^ 8 + n.en.toNat * 2 ^ 16 + n.wl.toNat * 2 ^ 24 + n.fb.toNat * 2 ^ 32

/-- The scratchpad window's base (R192). -/
def scratchBase : Nat := 0x7FFFFF0000000000

/-- A special source in lane l; a scalar word reads lane 0 (R90, R91). -/
def Ctx.special (c : Ctx) (l : Nat) : Special → Nat
  | .laneId => l
  | .tid => keySlice c.k * 4 + l
  | .sliceId => keySlice c.k
  | .squadId => keySquad c.k
  | .blockId => c.b.linear
  | .blockXyz =>
    let gx := recGridX c.lrec
    let gy := recGridY c.lrec
    packXyz (c.b.linear % gx) (c.b.linear / gx % gy) (c.b.linear / gx / gy)
  | .gridDim => packXyz (recGridX c.lrec) (recGridY c.lrec) (recGridZ c.lrec)
  | .roleId => roleCode c.squad.role + c.squad.roleIdx * 256
  | .live => c.x.live.toNat
  | .vbase => c.vbase
  | .vcount => c.vcount
  | .dtlen => fld c.lrec 383 352
  | .dtbase => fld c.lrec 127 64
  | .kentry => recEntry c.lrec
  | .vchipId => match c.grid? with
    | none => 0
    | some g => c.s.chipId c.b.vf g.home
  | .coreId => c.s.coreId c.b.vf c.b.core
  | .clock => c.s.now % 2 ^ 64
  | .wcnt => c.x.cnt.word
  | .govst => (c.s.core c.b.core).govst.toNat
  | .scrbase =>
    if c.inC then
      match c.b.splice with
      | none => scratchBase
      | some sp => scratchBase + sp.pScratch
    else scratchBase
  | .level k => levelIndex c.lrec c.b.linear k.val

/-- A scalar source (R58, R89). -/
def Ctx.src (c : Ctx) : SSrc → Word64
  | .s n => c.rdS n.val
  | .sp x => BitVec.ofNat 64 (c.special 0 x)

/-- A scalar source broadcast to lane l (R62, R91). -/
def Ctx.srcLane (c : Ctx) (l : Nat) : SSrc → Word64
  | .s n => c.rdS n.val
  | .sp x => BitVec.ofNat 64 (c.special l x)

/-! ### Vector elements (R120) -/

/-- A 64-bit pair Vn:n+1 in lane l (R17). -/
def Ctx.rdPair (c : Ctx) (n l : Nat) : Nat := (c.rdV n l).toNat + (c.rdV (n + 1) l).toNat * 2 ^ 32

/-- The element of a format in a vector register, as its bits (R120). -/
def Ctx.elem (c : Ctx) (f : Fmt) (n l : Nat) : Nat :=
  if f.is64 then c.rdPair n l else (c.rdV n l).toNat % 2 ^ f.width

/-- The element of a format in source B or C (R62, R120). -/
def Ctx.elemSrc (c : Ctx) (f : Fmt) (l : Nat) : VSrc → Nat
  | .v n => c.elem f n.val l
  | .s x => (c.srcLane l x).toNat % 2 ^ (if f.is64 then 64 else f.width)

/-- A 32-bit operand in source B or C, whatever the format (R123, R130). -/
def Ctx.word32Src (c : Ctx) (l : Nat) : VSrc → Nat
  | .v n => (c.rdV n.val l).toNat
  | .s x => (c.srcLane l x).toNat % 2 ^ 32

/-- The integer an element of an integer format stands for (R125). -/
def intOf (f : Fmt) (x : Nat) : Int := if f.isSigned then sext x f.width else zext x f.width
/-- An integer result in n bits, wrapped or clamped (R33, R125). -/
def intResult (f : Fmt) (sat : Bool) (v : Int) : Nat :=
  if sat then wrap (if f.isSigned then clampI v f.width else clampN v f.width) f.width else wrap v f.width
/-- An element as the lane's 32 bits, or 64 for a pair: a signed I8 or I16 result is sign-extended (R120). -/
def widen (f : Fmt) (x : Nat) : Nat :=
  match f with
  | .i8 => wrap (sext x 8) 32
  | .i16 => wrap (sext x 16) 32
  | _ => x

/-! ### What a register word does -/

/-- The effect of a word or half on its slice (R28, R29): short scalar results, long scalar results, long vector results by
register and lane, the bits pushed by lane, writes to EXEC, Q and SMODE, flags, and whether it is a floating-point
instruction (R103). Register numbers are the word's. -/
structure Fx where
  sShort : List (Nat × Word64) := []
  sLong : List (Nat × Word64) := []
  vLong : List (Nat × Nat × Word32) := []
  push : Option (BitVec 4) := none
  exec : Option (BitVec 4) := none
  q : Option (Vector (BitVec 8) 4) := none
  smode : Option Word64 := none
  flags : Flags := Flags.none
  fp : Bool := false
  deriving DecidableEq, Repr

/-- The lane writes of one element (R120): one register, or a pair. -/
def elemWrites (f : Fmt) (d l x : Nat) : List (Nat × Nat × Word32) :=
  if f.is64 then [(d, l, BitVec.ofNat 32 x), (d + 1, l, BitVec.ofNat 32 (x / 2 ^ 32))]
  else [(d, l, BitVec.ofNat 32 (widen f x))]

/-- A mask of four lanes from a predicate. -/
def laneMask (p : Nat → Bool) : BitVec 4 := BitVec.ofNat 4 (bitOf (p 0) + bitOf (p 1) * 2 + bitOf (p 2) * 4 + bitOf (p 3) * 8)

/-- The registers of which a word writes all four lanes: a full 16-byte write clears a word's poison (R191). -/
def fullWrites (ws : List (Nat × Nat × Word32)) : List Nat :=
  ((ws.map (fun w => w.1)).eraseDups).filter (fun n => (List.range 4).all (fun l => ws.any (fun w => w.1 == n && w.2.1 == l)))

/-- Applies an effect to the slice (R28, R29, R31). -/
def Ctx.applyTo (c : Ctx) (fx : Fx) (x : Slice) : Slice :=
  let x1 := fx.sShort.foldl (fun y w => c.s.wrShort y (c.physS w.1) w.2) x
  let x2 := match fx.exec with
    | none => x1
    | some m => x1.setExec m
  let x3 := match fx.q with
    | none => x2
    | some q => { x2 with q := q }
  let x4 := match fx.push with
    | none => x3
    | some b => x3.push (fun l => testBit b.toNat l)
  let x5 := match fx.smode with
    | none => x4
    | some w => { x4 with smode := w }
  let x6 := if fx.flags = Flags.none then x5 else { x5 with smode := smodeRaise x5.smode fx.flags }
  let kind : LongKind := if fx.fp then .fp else .plain
  let long := fx.sLong.map (fun w => PendWrite.mk (.s (c.physS w.1)) w.2 kind)
    ++ fx.vLong.map (fun w => PendWrite.mk (.v (c.physV w.1) w.2.1) (w.2.2.setWidth 64) kind)
  { x6 with
    pend := x6.pend ++ long
    vpoison := (fullWrites fx.vLong).foldl (fun p n => Sparse.set false p (c.physV n) false) x6.vpoison }

/-- Applies an effect and moves on (R27, R30). -/
def Ctx.done (c : Ctx) (fx : Fx) (m : Bool) : State := (c.s.modSlice c.k (c.applyTo fx)).finish c.k m

/-- A register word: the common checks, then its effect, then the next word. -/
def regWord (s : State) (m : Bool) (chk : Ctx → WordChk) (fx : Ctx → Fx) : Host.Outcome State Fault Refusal :=
  issue s chk (fun c => c.done (fx c) m)

/-- The register uses of a vector operand of a format (R17, R120). -/
def useD (f : Fmt) (n : VReg) : VUse := ⟨n.val, if f.is64 then 2 else 1, false⟩
/-- A vector source. -/
def useA (f : Fmt) (n : VReg) : VUse := ⟨n.val, if f.is64 then 2 else 1, true⟩
/-- A vector source that may be a broadcast scalar. -/
def useB (f : Fmt) : VSrc → List VUse
  | .v n => [useA f n]
  | .s _ => []

/-- The checks of a word with these register operands. -/
def chkRegs (l : List VUse) : Ctx → WordChk := fun _ => { regs := l }

end Sys2Proof.Machine
end

