-- ==== Sys2Proof/Machine/Access.lean ====
section
/-! DEFINITION. Accesses of class LS: regions (R192–R195, R205), the checks of a memory word (R216, R217), full-empty granules
(R196, R197), reading a lane and performing a held write (R220–R229, R241, R245), and release points. -/

namespace Sys2Proof.Machine

/-! ### Regions -/

/-- Where an address leads (R192, R205), with the offset in the region. -/
inductive Region where
  | pod
  | scratch (off : Nat)
  | reg (off : Nat)
  | well (off : Nat)
  | reserved
  | virt
  deriving DecidableEq, Repr

/-- The first address of the core-local window (R192). -/
def windowBase : Nat := 0x7FFFFF0000000000

/-- The region of an address. -/
def regionOf (a : Nat) : Region :=
  if 2 ^ 63 ≤ a then .pod
  else if a < windowBase then .virt
  else
    let o := a - windowBase
    if o / 2 ^ 32 = 0 then .scratch o
    else if o / 2 ^ 32 = 1 then .reg (o % 2 ^ 32)
    else if o / 2 ^ 32 = 2 then .well (o % 2 ^ 32)
    else .reserved

/-- Whether a scope is at TENANT or wider and the policy of the function denies it (R243, R397); no policy governs the
management complex's own grids. -/
def State.scopeDenied (s : State) (v : Nat) : Scope → Bool
  | .tenant => decide (v < 64) && fld (s.frec v) 64 64 == 0
  | .pod => decide (v < 64) && fld (s.frec v) 65 65 == 0
  | .system => decide (v < 64) && fld (s.frec v) 66 66 == 0
  | _ => false

/-! ### The checks of a memory word (R217) -/

/-- What a word asks of an address: the access it needs, its bytes, whether it is WLD, whether it carries a full-empty
qualifier or acts on granules, whether it is an atomic. -/
structure Ask where
  want : Want
  size : Nat
  well : Bool := false
  granule : Bool := false
  deriving DecidableEq, Repr

/-- Step 2: address form (R8, R192, R206). -/
def badForm (q : Ask) (a : Nat) : Bool :=
  match regionOf a with
  | .pod => true
  | .reserved => true
  | .reg o => q.well || decide (2 ^ 20 ≤ o)
  | .well o => !q.well || decide (2 ^ 26 ≤ o)
  | _ => q.well

/-- The element that a register-window offset names (R194): squad, register, slice, lane. -/
def regWindow (o : Nat) : Nat × Nat × Nat × Nat := (o / 2 ^ 15 % 32, o / 2 ^ 7 % 256, o / 16 % 8, o / 4 % 4)

/-- The register count of a squad in the word's origin's view (R325). -/
def Ctx.viewCount (c : Ctx) (q : Nat) : Nat :=
  let sq := c.b.squad q
  match c.x.splice with
  | none => sq.vcount
  | some _ => if c.inC then sq.vcount - sq.pcount else sq.pcount

/-- Step 4 for the register window (R194). -/
def Ctx.regWindowBad (c : Ctx) (q : Ask) (o : Nat) : Bool :=
  let (sq, n, _, _) := regWindow o
  c.x.priv == 0 || q.granule || q.want == .atomic || !(q.size == 4 || q.size == 8 || q.size == 16)
    || decide (c.b.squads.length ≤ sq) || decide (c.viewCount sq ≤ n)

/-- A data fault at a lane. -/
def faultAt (cause : Cause) (l a : Nat) (wr : Bool) (level : Nat := 0) : TrapInfo :=
  { cause := cause, addr := BitVec.ofNat 64 a, lane := l, level := level, wr := wr }

/-- Whether an access writes. -/
def Want.writes : Want → Bool
  | .write | .atomic => true
  | _ => false

/-- The trap a failed translation gives (R349). -/
def trapOfXErr (e : XErr) (l a : Nat) (wr : Bool) : TrapInfo :=
  match e with
  | .stage1 lv => faultAt .dataFault l a wr lv
  | .stage2 ipa => { faultAt .stage2Fault l a wr with ipa := BitVec.ofNat 64 ipa }
  | .uncorrectable pa => faultAt .uncorrectable l pa wr

/-- The number of the choices made when lane l of the word is translated (R351). -/
def laneSite (l : Nat) : Nat := 30000 + 256 * l

/-- The element format of a well descriptor (R210). -/
def wellFmt (d : BitVec 512) : Option Fmt :=
  let f := fld d 13 9
  if f = 0 then some .f32 else if f = 2 then some .f16 else if f = 3 then some .bf16
  else if f = 13 then some .i32 else if f = 14 then some .n32 else none
/-- The size of a well's element. -/
def wellSize (d : BitVec 512) : Nat :=
  match wellFmt d with
  | some .f16 | some .bf16 => 2
  | _ => 4
/-- The descriptor that a well-window offset names (R209), perhaps as it stood before a WDSET that the slice need not see (R233). -/
def Ctx.wellDesc (c : Ctx) (o : Nat) : BitVec 512 :=
  let l := Loc.well c.b.vf (o / 2 ^ 20 % 64)
  if c.s.past.any (fun w => w.loc == l) then BitVec.ofNat 512 (c.s.view (c.reader .ls .core c.x.seq) 0 (fun p => p == l) l).1
  else Table.getD (c.s.chip c.b.vf).wells (o / 2 ^ 20 % 64) 0

/-- Step 4 for one lane: the physical address of an access to memory and the table entries it used, or the trap. -/
def Ctx.resolve (c : Ctx) (q : Ask) (l a : Nat) : Except TrapInfo (Option Xlat) :=
  match regionOf a with
  | .scratch o =>
    if c.b.scratchSize < o + q.size then .error (faultAt .dataFault l a q.want.writes) else .ok none
  | .reg o => if c.regWindowBad q o then .error (faultAt .dataFault l a q.want.writes) else .ok none
  | .virt =>
    if q.granule then .error (faultAt .dataFault l a q.want.writes)
    else
      match c.s.translate c.b.vf (c.s.tlbOf c.b.core) (laneSite l) a q.want with
      | .ok x => .ok (some x)
      | .error e => .error (trapOfXErr e l a q.want.writes)
  | .well o =>
    let d := c.wellDesc o
    if fld d 0 0 = 0 ∨ wellSize d ≠ q.size then .error (faultAt .dataFault l a false) else .ok none
  | _ => .ok none

/-- Resolves lanes in ascending order; the first that fails is reported. -/
def Ctx.resolveAll (c : Ctx) (q : Ask) : List (Nat × Nat) → Except TrapInfo (List (Nat × Nat × Option Xlat))
  | [] => .ok []
  | (l, a) :: ls =>
    match c.resolve q l a with
    | .error t => .error t
    | .ok x =>
      match Ctx.resolveAll c q ls with
      | .error t => .error t
      | .ok r => .ok ((l, a, x) :: r)

/-- Steps 2 to 4 over the active lanes, given as lane and address in ascending order (R217). -/
def Ctx.check (c : Ctx) (q : Ask) (ls : List (Nat × Nat)) : Except TrapInfo (List (Nat × Nat × Option Xlat)) :=
  match ls.find? (fun p => badForm q p.2) with
  | some p => .error (faultAt .addressForm p.1 p.2 q.want.writes)
  | none =>
    match ls.find? (fun p => p.2 % q.size != 0) with
    | some p => .error (faultAt .misalignedData p.1 p.2 q.want.writes)
    | none => c.resolveAll q ls

/-- The table entries that the accesses of a word used. -/
def usedOf (r : List (Nat × Nat × Option Xlat)) : List TlbEntry :=
  r.flatMap (fun p => match p.2.2 with
    | some x => x.used
    | none => [])

/-- A trap, with a stage-2 failure reported to the physical function by its IPA (R349, R400). -/
def Ctx.trapX (c : Ctx) (t : TrapInfo) : State :=
  if t.cause = .stage2Fault then ({ c with s := c.s.reportStage2 c.b.vf t.ipa.toNat }).trap t else c.trap t

/-! ### Granules and poison -/

/-- The full-empty bit of the granule of a scratchpad offset (R196). -/
def Block.isFull (b : Block) (off : Nat) : Bool := Sparse.get false b.full (off / 16)
/-- Sets or clears the full-empty bit of a granule. -/
def Block.setFull (b : Block) (off : Nat) (v : Bool) : Block := { b with full := Sparse.set false b.full (off / 16) v }
/-- Whether a scratchpad range of at most 16 aligned bytes lies in a poisoned word (R191). -/
def Block.isPoisoned (b : Block) (off : Nat) : Bool := Sparse.get false b.poison (off / 16)
/-- A scratchpad byte. -/
def Block.byte (b : Block) (off : Nat) : Byte := Sparse.get 0 b.scratch off
/-- Writes scratchpad bytes; a full 16-byte write clears the word's poison (R191). -/
def Block.write (b : Block) (off : Nat) (bs : List Byte) : Block :=
  { b with
    scratch := Memory.put b.scratch off bs
    poison := (List.range (bs.length / 16)).foldl
      (fun p i => if off % 16 = 0 then Sparse.set false p (off / 16 + i) false else p) b.poison }

/-- The register element behind a window offset: the slice's key, the physical register number, the lane (R194, R325). -/
def Ctx.windowElem (c : Ctx) (o : Nat) : Nat × Nat × Nat :=
  let (sq, n, sl, l) := regWindow o
  (keyOf (keyBlock c.k) sq sl, if c.inC then n + (c.b.squad sq).pcount else n, l)

/-- A byte behind a window offset: a register's value before an outstanding long result, or after it, whole (R195). -/
def Ctx.windowByte (c : Ctx) (o : Nat) : Byte :=
  let (k, n, l) := c.windowElem o
  match Table.find c.s.slices k with
  | none => 0
  | some x =>
    let old := x.vreg n l
    let v := c.s.pickFrom (40000 + o / 4 * 4) old (old :: (x.dueAt (.v n l)).map (fun w => w.setWidth 32))
    BitVec.ofNat 8 (v.toNat / 2 ^ (8 * (o % 4)))

/-- Whether n bytes from the i-th byte of a lane on lie in a poisoned word or line (R191, R203). -/
def Ctx.partPoisoned (c : Ctx) (a : LaneAcc) (i n : Nat) : Bool :=
  match a.pa with
  | some p => c.s.linePoisoned (p + i) n
  | none =>
    match regionOf a.addr.toNat with
    | .scratch o => (List.range (((o + i) % 16 + n + 15) / 16)).any (fun j => c.b.isPoisoned (o + i + 16 * j))
    | .reg o =>
      let (k, r, _) := c.windowElem (o + i)
      match Table.find c.s.slices k with
      | none => false
      | some x => Sparse.get false x.vpoison r
    | _ => false
/-- Whether a lane's bytes lie in a poisoned word or line; a byte that a forwarding window supplies is not read there (R321). -/
def Ctx.lanePoisoned (c : Ctx) (a : LaneAcc) (n : Nat) : Bool :=
  if a.fwd.isEmpty then c.partPoisoned a 0 n
  else (List.range n).any (fun i => (a.fwd.getD i none).isNone && c.partPoisoned a i 1)

/-- Whether a lane's granule is full; only the scratchpad has granules. -/
def Ctx.laneFull (c : Ctx) (a : LaneAcc) : Bool :=
  match regionOf a.addr.toNat with
  | .scratch o => c.b.isFull o
  | _ => true

/-! ### Reading -/

/-- A number that names a byte's location: physical memory, or a byte of the core-local window. -/
def LaneAcc.loc (a : LaneAcc) : Nat :=
  match a.pa with
  | some p => p
  | none => 2 ^ 64 + a.addr.toNat

/-- The bytes an operation touches in a lane: location and length. -/
def OpKind.size : OpKind → Nat
  | .load _ sz _ => sz.bytes
  | .loadTr _ sz _ => sz.bytes * 4
  | .store sz _ _ => sz.bytes
  | .feset | .feclr => 16
  | .atomic _ sz _ => sz.bytes
  | .well _ sz _ _ => sz.bytes
  | .podLoad _ sz => sz.bytes
  | .podStore sz => sz.bytes
  | .podRed _ sz => sz.bytes
  | .fsend _ _ _ | .frecv _ _ _ => 64
  | _ => 16

/-- A store whose bytes the slice's later loads may take before it is performed (R251). -/
def OpKind.forwards : OpKind → Bool
  | .store _ _ _ => true
  | _ => false

/-- Whether two operations touch a common byte. -/
def MemOp.overlaps (o p : MemOp) : Bool :=
  o.lanes.any (fun a => p.lanes.any (fun b =>
    decide (a.loc < b.loc + p.kind.size) && decide (b.loc < a.loc + o.kind.size)))

/-- The byte that a slice's own held stores, earlier in program order, leave at a location (R251). -/
def Slice.forwarded (x : Slice) (seq loc : Nat) : Option Byte :=
  x.ops.foldl (fun r o =>
    match o.kind with
    | .store sz _ _ =>
      if o.seq < seq then
        o.lanes.foldl (fun r a => if a.loc ≤ loc ∧ loc < a.loc + sz.bytes then a.data[loc - a.loc]? else r) r
      else r
    | _ => r) none

/-- A byte of a lane as the slice reads it (R220, R251). -/
def Ctx.loadByte (c : Ctx) (seq : Nat) (a : LaneAcc) (i : Nat) : Byte :=
  match a.fwd.getD i none with
  | some b => b
  | none =>
    match c.x.forwarded seq (a.loc + i) with
    | some b => b
    | none =>
      match a.pa with
      | some p => c.s.readByte (c.s.keyTag c.b.vf) (p + i)
      | none =>
        match regionOf a.addr.toNat with
        | .scratch o => c.b.byte (o + i)
        | .reg o => c.windowByte (o + i)
        | _ => 0

/-- The bytes of a lane. -/
def Ctx.loadLane (c : Ctx) (seq : Nat) (a : LaneAcc) (n : Nat) : List Byte :=
  (List.range n).map (fun i => c.loadByte seq a i)

/-- The place of a lane's byte i. -/
def LaneAcc.place (a : LaneAcc) (uid i : Nat) : Option Loc :=
  match a.pa with
  | some p => some (.mem (p + i))
  | none =>
    match regionOf a.addr.toNat with
    | .scratch o => some (.scratch uid (o + i))
    | _ => none
/-- A byte of the register window as a place. -/
def Ctx.windowLoc (c : Ctx) (o : Nat) : Loc :=
  let (k, n, l) := c.windowElem o
  .reg (keyBlock c.k) (keySquad k * 2 ^ 15 + n * 2 ^ 7 + keySlice k * 16 + l * 4 + o % 4)
/-- The place of a lane's byte i, registers among them (R244). -/
def Ctx.placeOf (c : Ctx) (a : LaneAcc) (i : Nat) : Option Loc :=
  match a.pa, regionOf a.addr.toNat with
  | none, .reg o => some (c.windowLoc (o + i))
  | _, _ => a.place (keyBlock c.k) i
/-- The places of a lane's n bytes. -/
def LaneAcc.covers (a : LaneAcc) (uid n : Nat) (l : Loc) : Bool := (List.range n).any (fun i => a.place uid i == some l)

/-- The places whose bytes a load takes from memory, scratchpad or registers: no forwarding window and no held store supplies them. -/
def Ctx.takes (c : Ctx) (seq : Nat) (a : LaneAcc) (n : Nat) (l : Loc) : Bool :=
  (List.range n).any (fun i =>
    c.placeOf a i == some l && (a.fwd.getD i none).isNone && (c.x.forwarded seq (a.loc + i)).isNone)

/-- The same word's context after the state has changed. -/
def Ctx.at (c : Ctx) (s : State) : Ctx := (s.ctx c.k).getD { c with s := s }

/-- A lane's bytes as a load of the slice may return them, and the writes that they come from (R251). -/
def Ctx.loadSeen (c : Ctx) (scope : Scope) (seq : Nat) (a : LaneAcc) (n : Nat) : List Byte × List Past :=
  let r := c.reader .ls scope seq
  let site := a.lane + 4 * (seq % 1000)
  ((c.at (c.s.seen r site (c.takes seq a n))).loadLane seq a n, c.s.seenWrites r site (c.takes seq a n))

/-! ### Performing writes -/

/-- What is written in one lane. -/
def Ctx.writeLane (c : Ctx) (w : Writer) (a : LaneAcc) (pa : Option Nat) (bs : List Byte) (bound : Bool) : State :=
  match pa with
  | some p => c.s.writeMem w c.b.vf bound p bs
  | none =>
    match regionOf a.addr.toNat with
    | .scratch o => (c.s.noteScratch w (keyBlock c.k) o bs.length).modBlock (keyBlock c.k) (fun b => b.write o bs)
    | .reg o =>
      (List.range (bs.length / 4)).foldl
        (fun t i =>
          let (k, n, l) := c.windowElem (o + 4 * i)
          t.modSlice k (fun x =>
            { x.setV n l (BitVec.ofNat 32 (leNat ((bs.drop (4 * i)).take 4))) with
              pend := t.overtaken (41000 + n * 4 + l) (.v n l) x.pend
              vpoison := if bs.length = 16 then Sparse.set false x.vpoison n false else x.vpoison }))
        (c.s.noteWrite w ((List.range bs.length).map (fun i => (c.windowLoc (o + i), (bs.getD i 0).toNat))) [])
    | _ => c.s

/-- Bitwise and arithmetic read-modify-write operations on units of n bits (R225–R227). -/
def AtomOp.apply (op : AtomOp) (n old operand cmp : Nat) : Nat :=
  match op with
  | .add => (old + operand) % 2 ^ n
  | .min => if sext operand n < sext old n then operand else old
  | .minn => if operand < old then operand else old
  | .max => if sext old n < sext operand n then operand else old
  | .maxn => if old < operand then operand else old
  | .and => old &&& operand
  | .or => old ||| operand
  | .xor => old ^^^ operand
  | .xchg => operand
  | .cas => if old = cmp then operand else old
  | .fadd => (addF .f32 .rne old operand).1
  | .badd2 =>
    (addF .bf16 .rne (old % 2 ^ 16) (operand % 2 ^ 16)).1
      + (addF .bf16 .rne (old / 2 ^ 16) (operand / 2 ^ 16)).1 * 2 ^ 16

/-- Update of R302 on the 128 bits of a barrier object: `arrive` adds an arrival, `bytes` pending bytes. -/
def abUpdated (g : Nat) (arrive : Bool) (bytes : Int) : Nat :=
  if !testBit g 1 then setBits g 2 1 1
  else
    let extra := arrive && bits g 32 16 == 0
    let v := sext (bits g 64 40) 40 + bytes
    let bad := extra || decide (v < -(2 ^ 39)) || decide (2 ^ 39 ≤ v)
    let arr := bits g 32 16 - bitOf (arrive && !extra)
    let g1 := if bad then setBits g 2 1 1 else g
    let g2 := setBits g1 64 40 (wrap v 40)
    if arr = 0 ∧ wrap v 40 = 0 then setBits (setBits g2 0 1 (1 - g % 2)) 32 16 (bits g 48 16)
    else setBits g2 32 16 arr

/-- An update of a barrier object by scratchpad offset (R302): the full-empty bit and a poison stay. `ms`: what the arrival or the bytes
make known, if the object counts them (R187). -/
def Block.abUpdate (b : Block) (off : Nat) (arrive : Bool) (bytes : Int) (ms : List Msg) : Block :=
  let g := leNat ((List.range 16).map (fun i => b.byte (off + i)))
  let n := abUpdated g arrive bytes
  ({ b with scratch := Memory.put b.scratch off (leBytes 16 n) }).phaseAdd off
    (if testBit g 1 && !(arrive && bits g 32 16 == 0) then ms else []) (testBit n 0 != testBit g 0)

/-- An update of a barrier object of a block, an atomic in the coherence order of its granule (R302): it goes on with the release sequence
that it reads (R247), and what it makes known counts for the phase if the object counts it. -/
def State.abUpdate (s : State) (w : Writer) (uid off : Nat) (arrive : Bool) (bytes : Int) (ms : List Msg) : State :=
  let read := (s.latest (fun l => match l with
    | .scratch u o => u == uid && decide (off ≤ o) && decide (o < off + 16)
    | _ => false)).flatMap (fun p => p.rels)
  (s.noteScratch { w with rels := w.rels ++ read.filter (fun m => !w.rels.contains m) } uid off 16).modBlock uid (fun b =>
    b.abUpdate off arrive bytes ms)
/-- ABINIT's 16-byte store (R303): the object starts anew, and no message of a phase in progress stays. -/
def Block.abClear (b : Block) (off : Nat) : Block := { b with phases := b.phases.filter (fun p => p.off != off) }

/-- The full-empty bit of a lane's granule becomes v. -/
def Ctx.setGranule (c : Ctx) (a : LaneAcc) (v : Bool) : State :=
  match regionOf a.addr.toNat with
  | .scratch o => c.s.modBlock (keyBlock c.k) (fun b => b.setFull o v)
  | _ => c.s

/-- The write of a store-class operation. -/
def Ctx.opWriter (c : Ctx) (o : MemOp) : Writer := c.writer .ls o.seq o.scope o.rels

/-- The write of an atomic in one lane: it goes on with the release sequence that it reads, and an acquire learns from it (R230, R247); one
without return is no read that a later FENCE could take for its acquire. -/
def Ctx.rmwWrite (c : Ctx) (o : MemOp) (a : LaneAcc) (bs : List Byte) : State :=
  let ws := c.s.latest (a.covers (keyBlock c.k) bs.length)
  let w := c.opWriter o
  let s1 := c.writeLane { w with rels := w.rels ++ ws.flatMap (fun p => p.rels) } a a.pa bs o.outside
  if o.kind.isLd then s1.noteRead (c.reader .ls o.scope o.seq) o.acq ws
  else if o.acq then (s1.noteRead (c.reader .ls o.scope o.seq) true ws).modSlice c.k (fun x => { x with lastRead := c.x.lastRead })
  else s1
/-- An ATCAS whose compare fails reads and writes nothing (R224, R226). -/
def Ctx.rmwRead (c : Ctx) (o : MemOp) (a : LaneAcc) (n : Nat) : State :=
  c.s.noteRead (c.reader .ls o.scope o.seq) o.acq (c.s.latest (a.covers (keyBlock c.k) n))

/-- Whether a lane lies in the register window. -/
def LaneAcc.inRegs (a : LaneAcc) : Bool :=
  a.pa.isNone && match regionOf a.addr.toNat with
    | .reg _ => true
    | _ => false
/-- Whether a lane's halves are performed apart: of an ATBADD2 (R229), and of a 16-byte access outside the scratchpad (R219); a load from
memory takes each 8-byte unit at a moment of its own as it is (State.moment). -/
def MemOp.isHalves (o : MemOp) (a : LaneAcc) : Bool :=
  match o.kind with
  | .atomic .badd2 _ _ => true
  | .store sz _ _ => sz.bytes == 16 && (a.pa.isSome || a.inRegs)
  | .load _ sz _ => sz.bytes == 16 && a.inRegs
  | _ => false
/-- What is still to be performed of a lane: its halves, else the whole. `cmp` of such a lane holds the number of the half that has
been performed, and for ATBADD2 and a load what it was. -/
def MemOp.parts (o : MemOp) (a : LaneAcc) : List Nat :=
  if a.got.isSome then []
  else if o.isHalves a then
    match a.cmp with
    | [] => [0, 1]
    | h :: _ => if h = 0 then [1] else [0]
  else [0]
/-- Where a part of a lane lies: location and length. -/
def MemOp.partAt (o : MemOp) (a : LaneAcc) (p : Nat) : Nat × Nat :=
  let n := o.kind.size
  if o.isHalves a then (a.loc + n / 2 * p, n / 2) else (a.loc, n)
/-- Whether lanes of one word at common bytes are performed in ascending order: those of stores and atomics (R220, R228). -/
def OpKind.ascends : OpKind → Bool
  | .load _ _ _ | .loadTr _ _ _ => false
  | _ => true
/-- What an event performs of each lane. Lanes are unordered (R246): `later` puts lane l off by bit l, and the upper half of a lane in halves
by bit 4 + l. A part at the bytes of a lower lane's part waits for that part (R220, R228, R229). -/
def MemOp.plan (o : MemOp) (later : BitVec 8) : List (LaneAcc × List Nat) :=
  o.lanes.foldl (fun r a =>
    let held (p : Nat) : Bool := o.kind.ascends && r.any (fun e => (o.parts e.1).any (fun q =>
      let x := o.partAt e.1 q
      let y := o.partAt a p
      !e.2.contains q && decide (x.1 < y.1 + y.2) && decide (y.1 < x.1 + x.2)))
    r ++ [(a, (o.parts a).filter (fun p => !testBit later.toNat (a.lane + 4 * p) && !held p))]) []

/-- A half of a unit of n bytes. -/
def LaneAcc.half (a : LaneAcc) (n h : Nat) : LaneAcc :=
  let d := n / 2 * h
  { a with addr := a.addr + BitVec.ofNat 64 d, pa := a.pa.map (fun p => p + d), data := (a.data.drop d).take (n / 2) }
/-- Updates one half of an ATBADD2 unit (R227, R229): the state and what the half was. -/
def Ctx.updateHalf (c : Ctx) (o : MemOp) (a : LaneAcc) (h : Nat) : State × List Byte :=
  let b := a.half 4 h
  let bs := c.loadLane 0 b 2
  (c.rmwWrite o b (leBytes 2 (AtomOp.apply .badd2 16 (leNat bs) (leNat b.data) 0)), bs)

/-- A lane's 16 bytes of the register window have been written in halves: a full write, which clears the poison (R191). -/
def Ctx.regsWritten (c : Ctx) (s : State) (a : LaneAcc) : State :=
  match a.pa, regionOf a.addr.toNat with
  | none, .reg o =>
    let (k, n, _) := c.windowElem o
    s.modSlice k (fun x => { x with vpoison := Sparse.set false x.vpoison n false })
  | _, _ => s

/-- Performs the parts `ps` of one lane of a store or an atomic without return (R220, R224): the page is translated again, and a write
that it no longer permits is dropped, as is one whose tables meet an uncorrectable error (log entry 115); in a slice that has ended it
ends the grid at its EXIT (R241). -/
def Ctx.performLane (c : Ctx) (o : MemOp) (a : LaneAcc) (ps : List Nat) : State :=
  let want : Want := match o.kind with
    | .atomic _ _ _ => .atomic
    | _ => .write
  let tr : Except XErr (Option Nat) :=
    match a.pa with
    | none => .ok none
    | some _ =>
      match c.s.translate c.b.vf (c.s.tlbOf c.b.core) (laneSite a.lane + 1024 * (o.seq + 1)) a.addr.toNat want with
      | .ok x => .ok (some x.pa)
      | .error e => .error e
  match tr with
  | .error (.stage2 ipa) => (c.at (c.s.reportStage2 c.b.vf ipa)).endGridFor o.pc o.kidx .stage2Fault o.handler
  | .error e =>
    let lv := match e with
      | .stage1 l => l
      | _ => 0
    if c.x.ended then c.endGridAt c.x.pc .dataFault (c.x.priv == 1)
    else c.s.modSlice c.k (fun x =>
      { x with dropped := x.dropped ++ [(o.seq, a.addr, lv)], dropDue := x.dropDue || (c.s.chip c.b.vf).cut })
  | .ok pa =>
    match o.kind with
    | .store sz fe _ =>
      let b := { a with pa := pa }
      let d := if o.isHalves a && ps.length == 1 then b.half sz.bytes (ps.headD 0) else b
      let s1 := c.writeLane (c.opWriter o) d d.pa d.data o.outside
      let s2 := if d.data.length < b.data.length && !a.cmp.isEmpty then c.regsWritten s1 a else s1
      match fe with
      | .setf => (c.at s2).setGranule a true
      | _ => s2
    | .feset => c.setGranule a true
    | .feclr => c.setGranule a false
    | .abInit _ =>
      match regionOf a.addr.toNat with
      | .scratch off => (c.writeLane (c.opWriter o) a pa a.data o.outside).modBlock (keyBlock c.k) (fun b => b.abClear off)
      | _ => c.s
    | .abUpdate arrive bytes =>
      match regionOf a.addr.toNat with
      | .scratch off => c.s.abUpdate (c.opWriter o) (keyBlock c.k) off arrive bytes (c.opWriter o).rels
      | _ => c.s
    | .atomic op sz _ =>
      let a' := { a with pa := pa }
      if o.isHalves a && ps.length == 1 then (c.updateHalf o a' (ps.headD 0)).1
      else
        let old := leNat (c.loadLane 0 a' sz.bytes)
        let new := op.apply (8 * sz.bytes) old (leNat a.data) (leNat a.cmp)
        c.rmwWrite o a' (leBytes sz.bytes new)
    | _ => c.s

/-- Whether a load or an atomic with return has bound its value in every lane (R246); its result may still be due. -/
def MemOp.bound (o : MemOp) : Bool :=
  (match o.kind with
    | .load _ _ _ | .loadTr _ _ _ => true
    | .atomic _ _ ret => ret.isSome
    | _ => false) && o.lanes.all (fun a => a.got.isSome)

/-- Whether an earlier operation of the slice lies at a scratchpad offset that a WLD reads: the slice's own store happens before the WLD
(R236, R249). -/
def MemOp.meetsWell (e o : MemOp) : Bool :=
  o.lanes.any (fun a => e.lanes.any (fun b =>
    match regionOf b.addr.toNat with
    | .scratch p =>
      let off := (a.addr.toNat - windowBase) % 2 ^ 20
      decide (p < off + o.kind.size) && decide (off < p + e.kind.size)
    | _ => false))

/-- Whether an operation must wait for an earlier one of its slice (R236, R246, R247, R251). A load with a full-empty qualifier does not
wait for the slice's own held FESET, FECLR or .SETF (log entry 116). -/
def MemOp.waitsFor (o e : MemOp) : Bool :=
  decide (e.seq < o.seq) && (e.acq || o.rel || (match o.kind with
    | .load _ _ _ | .loadTr _ _ _ | .actLoad =>
      (match e.kind with
        | .atomic _ _ _ | .abUpdate _ _ | .abInit _ => e.overlaps o
        | _ => false)
    | .well _ _ _ _ =>
      (match e.kind with
        | .atomic _ _ _ => true
        | k => k.isSt) && e.meetsWell o
    | .podLoad _ _ =>
      (match e.kind with
        | .podStore _ | .podRed _ _ => e.overlaps o
        | _ => false)
    | .fsendLaunch _ _ _ _ => false
    | _ => (e.kind.binds || e.overlaps o) && !e.bound))

/-- Whether an outstanding operation may be performed now. -/
def Slice.mayPerform (x : Slice) (o : MemOp) : Bool := !(x.ops.any (fun e => o.waitsFor e))

/-- An operation bound to a checkpoint takes effect on the committed image too, so that a rollback does not undo it (R367):
`f` acts on the chip as it is and on the chip as the image holds it. -/
def State.alsoInImage (s : State) (v : Nat) (bound : Bool) (f : State → State) : State :=
  let s1 := f s
  if bound then
    match (s.chip v).committed with
    | none => s1
    | some i =>
      let t := f ({ s with slices := i.slices, blocks := i.blocks, grids := i.grids }.modChip v (fun c =>
        { c with queues := i.queues, colls := i.colls }))
      s1.modChip v (fun c =>
        { c with committed := some { i with
            slices := t.slices, blocks := t.blocks, grids := t.grids
            queues := (t.chip v).queues, colls := (t.chip v).colls } })
  else s1

/-- Performs the lanes of a store-class operation that `later` does not put off; once none is left the operation leaves the slice's list and
ST falls (R114). -/
def Ctx.performStore (c : Ctx) (o : MemOp) (later : BitVec 8) : State :=
  let plan := o.plan later
  let rest := plan.filterMap (fun p =>
    if p.2 = o.parts p.1 then none
    else some (match p.2 with
      | h :: _ => { p.1 with cmp := [BitVec.ofNat 8 h] }
      | [] => p.1))
  (plan.foldl (fun t p => if p.2.isEmpty then t else (c.at t).performLane o p.1 p.2) c.s).modSlice c.k (fun x =>
    if rest.isEmpty then
      { x with
        ops := x.ops.filter (fun e => e.seq != o.seq)
        cnt := { x.cnt with st := x.cnt.st - 1 } }
    else { x with ops := x.ops.map (fun e => if e.seq = o.seq then { e with lanes := rest } else e) })

/-- Performs, in program order, every held write of a slice that may be performed (R241, R245). -/
def State.performHeld (s : State) (k : Nat) : List MemOp → State
  | [] => s
  | o :: os =>
    match s.ctx k with
    | none => s
    | some c =>
      if o.kind.isSt && c.x.mayPerform o then
        State.performHeld
          (s.alsoInImage c.b.vf o.outside (fun t => ((t.ctx k).map (fun y => y.performStore o 0)).getD t)) k os
      else State.performHeld s k os

/-- Every held write of a slice. -/
def State.drain (s : State) (k : Nat) : State :=
  match Table.find s.slices k with
  | none => s
  | some x => s.performHeld k x.ops

/-- A release point (R241): every held write is performed; if one was dropped the word traps, once no write is held any more, and has no
effect, else `go` follows. -/
def Ctx.release (c : Ctx) (go : Ctx → State) : State :=
  let c1 := c.at (c.s.drain c.k)
  match c1.x.dropReport with
  | some t =>
    if c1.x.ops.any (fun o => o.kind.isSt) then c1.s
    else (c1.at (c1.s.modSlice c1.k (fun x => { x with dropped := [], dropDue := false }))).trap t
  | none => go c1

/-- A release point that waits until every write the slice holds has been performed (R238, R241): a write may have to wait for
an earlier load (R246). -/
def Ctx.releaseAll (c : Ctx) (go : Ctx → State) : State :=
  c.release (fun c1 => if c1.x.ops.any (fun o => o.kind.isSt) then c1.s else go c1)

/-- A new outstanding operation of the issuing word. -/
def Ctx.newOp (c : Ctx) (kind : OpKind) (lanes : List LaneAcc) (scope : Scope) : MemOp :=
  { seq := c.x.seq, kind := kind, lanes := lanes, scope := scope, acq := false, rel := false, pc := c.x.pc, words := c.x.issued
    consumer := false, checked := false, sent := false, status := none, outside := false, at_ := c.s.fresh
    kidx := c.kidx, handler := c.x.priv == 1 }

/-- A word that cannot complete yet: the slice stays at it and is polled again (R116, R156). -/
def Ctx.stay (c : Ctx) : State := c.s

/-! ### Reads made at issue (R111, R232) -/

/-- Whether the slice has an unperformed write, of a kind that a load does not forward, to one of n bytes (R251). -/
def Ctx.ownWrite (c : Ctx) (stores : Bool) (a n : Nat) : Bool :=
  c.x.ops.any (fun o => o.kind.isSt && (stores || !o.kind.forwards) && o.lanes.any (fun l =>
    decide (l.addr.toNat < a + n) && decide (a < l.addr.toNat + o.kind.size)))

/-- Performs the slice's own writes to n bytes that a read must see, as far as they may be performed. -/
def Ctx.drained (c : Ctx) (stores : Bool) (a n : Nat) : Ctx := if c.ownWrite stores a n then c.at (c.s.drain c.k) else c

/-- Whether an earlier acquire of the slice is still to be performed (R247): nothing after it may be. -/
def Slice.acquiring (x : Slice) : Bool := x.ops.any (fun o => o.acq)

/-- Goes on once the slice's earlier acquires, and its own writes to n bytes that a read must see, have been performed. -/
def Ctx.afterOwn (c : Ctx) (stores : Bool) (a n : Nat) (go : Ctx → State) : State :=
  let c1 := c.drained stores a n
  if c1.ownWrite stores a n || c1.x.acquiring then c1.s else go c1

/-- The word itself has read bytes of a lane as an LS load, its next operation (R247, R251): the bytes, and the context after it. -/
def Ctx.loadNow (c : Ctx) (scope : Scope) (acc : LaneAcc) (n : Nat) : List Byte × Ctx :=
  let r := c.loadSeen scope c.x.seq acc n
  (r.1, c.at ((c.s.noteRead (c.reader .ls scope c.x.seq) false r.2).modSlice c.k Slice.wrote))

/-- Reads an aligned unit of memory for the word itself, as an LS load with read permission. -/
def Ctx.readNow (c : Ctx) (scope : Scope) (a n : Nat) : Except TrapInfo (List Byte × Ctx) :=
  match c.check { want := .read, size := n } [(0, a)] with
  | .error t => .error t
  | .ok r =>
    let pa := match r with
      | (_, _, some x) :: _ => some x.pa
      | _ => none
    let acc : LaneAcc := ⟨0, BitVec.ofNat 64 a, pa, [], [], [], false, none, false⟩
    if c.lanePoisoned acc n then .error (faultAt .uncorrectable 0 a false)
    else .ok ((c.at (c.s.fillTlb c.b.core (usedOf r))).loadNow scope acc n)

end Sys2Proof.Machine
end

