-- ==== Sys2Proof/Machine/Memory.lean ====
section
/-! DEFINITION. Loads, stores, prefetch, full-empty control and atomics (R214–R230), and the steps that perform them
(R114, R197, R245, R438). -/

namespace Sys2Proof.Machine

/-! ### Forwarding windows of a spliced grid (R319–R322) -/

/-- FGRAN × 16 of a splice table: the bytes of a forwarding window (R311, R319). -/
def tableWindow (t : BitVec 1536) : Nat := fld t 303 288 * 16
/-- A tag entry of a splice table (R311): TREG when the tag is declared with the direction. -/
def tableTag (t : BitVec 1536) (load : Bool) (tag : Nat) : Option Nat :=
  let e := bits t.toNat (512 + 64 * tag) 64
  if testBit e 7 && (testBit e 6 == load) then some (bits e 0 4) else none

/-- The part of a user-level slice in a spliced grid; 0 otherwise. -/
def Ctx.partNow (c : Ctx) : Nat :=
  match c.x.splice with
  | none => 0
  | some sp => if c.x.priv = 0 then sp.part else 0

/-- Whether a lane's bytes all lie in a range. -/
def inRange (base len a n : Nat) : Bool := decide (base ≤ a) && decide (a + n ≤ base + len)

/-- Writes a store's bytes into one window, noting elided bytes (R320, R323). -/
def Window.store (w : Window) (a : Nat) (bs : List Byte) (elide : Bool) : Window :=
  if inRange w.base.toNat w.len a bs.length then
    { w with
      written := (List.range bs.length).foldl
        (fun m i => Sparse.set none m (a - w.base.toNat + i) (some (bs.getD i 0))) w.written
      elided := if elide then
          match w.elided with
          | none => some (a, a + bs.length - 1)
          | some (lo, hi) => some (min lo a, max hi (a + bs.length - 1))
        else w.elided }
  else w

/-- Whether a store lane participates in some tag (R320). -/
def Ctx.participates (c : Ctx) (a n : Nat) : Bool :=
  c.partNow == 4 && (match c.b.splice with
    | none => false
    | some sp => sp.windows.any (fun w => inRange w.base.toNat w.len a n))

/-- The block after a store lane has passed its windows. -/
def Ctx.windowStore (c : Ctx) (elide : Bool) (lanes : List LaneAcc) : State :=
  if c.partNow = 4 then
    c.s.modBlock (keyBlock c.k) (fun b =>
      { b with splice := b.splice.map (fun sp =>
          { sp with windows := sp.windows.map (fun w =>
              lanes.foldl (fun w a => w.store a.addr.toNat a.data elide) w) }) })
  else c.s

/-- The bytes that windows supply to a load lane in part 6 (R321). -/
def Ctx.windowLoad (c : Ctx) (a n : Nat) : List (Option Byte) :=
  if c.partNow = 6 then
    match c.b.splice, c.grid?.bind (fun g => g.splice) with
    | some sb, some sp =>
      (List.range n).map (fun i =>
        sb.windows.foldl (fun r w =>
          match tableTag sp.tableC true w.tag with
          | none => r
          | some t =>
            let base := fld (c.b.tdesc.toList.getD (c.physT t) 0) 127 64
            if inRange base w.len a n && inRange w.base.toNat w.len (a + i) 1 then
              match Sparse.get none w.written (a + i - w.base.toNat) with
              | some x => some x
              | none => r
            else r) none)
    | _, _ => []
  else []

/-! ### Issuing a memory word (R114, R215–R218) -/

/-- What a memory word is: its fields, whether it acts per lane, what it asks of an address, what it becomes, and the data and
compare bytes of a lane. -/
structure MemWord where
  mem : MemArg
  vec : Bool
  ask : Ask
  kind : OpKind
  data : Ctx → Nat → List Byte × List Byte

/-- The address of a lane (R64, R216). -/
def Ctx.address (c : Ctx) (m : MemArg) (size l : Nat) : Nat :=
  let idx := match m.idx with
    | none => 0
    | some v => (c.rdV v.val l).toNat
  wrap ((c.rdS m.base.val).toNat + idx + m.off.toInt * size) 64

/-- The lanes on which a memory word acts; a scalar word acts once, as lane 0. -/
def Ctx.memLanes (c : Ctx) (vec : Bool) (g : Guard) : List Nat :=
  if vec then c.x.lanes g else if c.x.guardScalar g then [0] else []

/-- Whether an ordering includes acquire. -/
def ordAcq : Ord → Bool
  | .acq | .ar => true
  | _ => false
/-- Whether an ordering includes release. -/
def ordRel : Ord → Bool
  | .rel | .ar => true
  | _ => false

/-- Whether the counter of a word's class stands at 63 (R115). -/
def OpKind.full (k : OpKind) (n : Counters) : Bool :=
  match k with
  | .well _ _ _ _ => n.wl == 63
  | .podLoad _ _ | .podStore _ | .podRed _ _ => n.fb == 63
  | _ => if k.isLd then n.ld == 63 else n.st == 63
/-- The counters after a word of a class has issued (R114). -/
def OpKind.count (k : OpKind) (n : Counters) : Counters :=
  match k with
  | .well _ _ _ _ => { n with wl := n.wl + 1 }
  | .podLoad _ _ | .podStore _ | .podRed _ _ => { n with fb := n.fb + 1 }
  | _ => if k.isLd then { n with ld := n.ld + 1 } else { n with st := n.st + 1 }

/-- A full-empty qualifier that waits. -/
def feWaits : FE → Bool
  | .waitf | .waitfClr => true
  | _ => false
/-- The qualifier of an operation. -/
def OpKind.fe : OpKind → FE
  | .load _ _ fe | .loadTr _ _ fe | .store _ fe _ => fe
  | _ => .none
/-- A load, to which a forwarding window may supply bytes (R321): an atomic never returns one (R322). -/
def OpKind.isLoad : OpKind → Bool
  | .load _ _ _ | .loadTr _ _ _ => true
  | _ => false
/-- Whether an operation reads memory: loads, and atomics of either kind. -/
def OpKind.reads : OpKind → Bool
  | .load _ _ _ | .loadTr _ _ _ | .atomic _ _ _ => true
  | _ => false

/-- A write to another chip's memory (R416). -/
def OpKind.isPodWrite : OpKind → Bool
  | .podStore _ | .podRed _ _ => true
  | _ => false
/-- An access to another chip's memory (R416). -/
def OpKind.isPod : OpKind → Bool
  | .podLoad _ _ => true
  | k => k.isPodWrite
/-- A write of class FB, which a release at POD scope covers (R417). -/
def OpKind.isFbWrite : OpKind → Bool
  | .frecv _ _ _ => true
  | k => k.isPodWrite
/-- POD and SYSTEM scope. -/
def atPod : Scope → Bool
  | .pod | .system => true
  | _ => false

/-- What an ordering makes of what the slice knows (R238, R247, R250): with release its earlier stores are performed at the scope, and a
fence's release write is still to come; with acquire the slice learns. `sync`: a fence, and not a word without an active lane. -/
def Ctx.ordered (c : Ctx) (scope : Scope) (acq rel sync : Bool) : Ctx :=
  let s1 := if rel then c.s.widen c.k c.x.seq scope else c.s
  let s2 := if acq then s1.modSlice c.k (fun x => x.learn (s1.fenceLearns c.site x scope sync)) else s1
  c.at (if rel && sync then s2.modSlice c.k (fun x => { x with fences := x.fences ++ [(scope, x.seq)] }) else s2)

/-- The ordering of a word without an active lane, or of FENCE (R238, R250, R258): it waits for earlier loads, and with release
for every earlier access of class LS, and at POD scope for writes of class FB (R417). -/
def Ctx.fenced (c : Ctx) (scope : Scope) (acq rel sync : Bool) (go : Ctx → State) : State :=
  if (acq || rel) && c.x.ops.any (fun o => (o.kind.binds && !o.bound) || o.acq) then c.stay
  else if rel then
    if atPod scope && c.x.ops.any (fun o => o.kind.isFbWrite) then c.stay
    else c.releaseAll (fun y => go (y.ordered scope acq rel sync))
  else if acq then go (c.ordered scope acq rel sync)
  else go c

/-- Whether an operation can be the release write of an earlier fence (R247). -/
def OpKind.carries : OpKind → Bool
  | .store _ _ _ | .atomic _ _ _ | .abInit _ | .abUpdate _ _ | .podStore _ | .podRed _ _ => true
  | _ => false
/-- The releases that a write of the slice's next operation carries: its own, at a scope, and those of fences whose release write it is
(R247). -/
def Slice.carried (x : Slice) (kind : OpKind) (own : Option Scope) : List (Scope × Nat) :=
  (own.map (fun s => (s, x.seq))).toList ++ (if kind.carries then x.fences else [])
/-- The slice after a word has put an operation on its list. -/
def Slice.addOp (x : Slice) (o : MemOp) : Slice :=
  { x with ops := x.ops ++ [o], seq := x.seq + 1, fences := if o.kind.carries then [] else x.fences }

/-- Puts an operation on the slice's list: its counter rises (R114), and `next` says how the slice goes on. -/
def Ctx.enqueue (c : Ctx) (used : List TlbEntry) (w : MemWord) (lanes : List LaneAcc) (next : State → State) : State :=
  let s1 := if used.isEmpty then c.s else c.s.fillTlb c.b.core used
  let op : MemOp :=
    { c.newOp w.kind lanes w.mem.scope with
      acq := ordAcq w.mem.ord, rel := ordRel w.mem.ord, outside := c.x.forcedOk
      rels := c.x.carried w.kind (if ordRel w.mem.ord then some w.mem.scope else none) }
  next (s1.modSlice c.k (fun x => { x.addOp op with cnt := w.kind.count x.cnt, forcedOk := false }))

/-- A forcing word of a time-sliced chip holds its slice until a checkpoint has been committed (R367). -/
def Ctx.forceWord (c : Ctx) (word : Word64) : State :=
  (c.s.modSlice c.k (fun x => { x with hold := .forced })).modChip c.b.vf
    (fun h => { h with forcing := h.forcing ++ [(c.k, word)] })
/-- The issuing word forces a checkpoint. -/
def Ctx.force (c : Ctx) : State := c.forceWord c.s.ir
/-- Whether a forcing word must wait for a checkpoint. -/
def Ctx.mustForce (c : Ctx) : Bool := c.s.timeSliced c.b.vf && !c.x.forcedOk
/-- Whether an earlier operation of the slice must still bind its value, or is an acquire: a forcing word that becomes an operation of the
slice is performed after it, so it waits for it first, and the chip can resume (R246, R367). -/
def Slice.unbound (x : Slice) : Bool := x.ops.any (fun o => o.acq || (o.kind.binds && !o.bound))
/-- A forcing word takes effect, once its checkpoint has been committed where it needs one (R367). -/
def Ctx.orForce (c : Ctx) (go : Ctx → State) : State :=
  if !c.mustForce then go c else if c.x.unbound then c.stay else c.force
/-- Whether a store or atomic goes to host memory (R367). -/
def hostLane (w : Want) (r : List (Nat × Nat × Option Xlat)) : Bool :=
  w.writes && r.any (fun p => match p.2.2 with
    | some x => Config.isHostMemory (lineOf x.pa)
    | none => false)

/-- The lanes of an operation from the lanes its checks passed. -/
def Ctx.lanesOf (c : Ctx) (w : MemWord) (r : List (Nat × Nat × Option Xlat)) : List LaneAcc :=
  r.map (fun p =>
    let d := w.data c p.1
    let acc : LaneAcc :=
      { lane := p.1, addr := BitVec.ofNat 64 p.2.1, pa := p.2.2.map (fun x => x.pa), data := d.1, cmp := d.2
        fwd := if w.kind.isLoad then c.windowLoad p.2.1 w.ask.size else [], waited := false, got := none
        poisoned := false }
    { acc with waited := feWaits w.kind.fe && !c.laneFull acc })

/-- A memory word whose checks have passed takes effect. -/
def Ctx.memEffect (c : Ctx) (w : MemWord) (next : State → State) (r : List (Nat × Nat × Option Xlat)) : State :=
  let lanes := c.lanesOf w r
  match (if w.kind.reads then lanes.find? (fun a => !a.waited && c.lanePoisoned a w.ask.size) else none) with
  | some a => c.trap (faultAt .uncorrectable a.lane a.addr.toNat w.ask.want.writes)
  | none =>
    let act (c1 : Ctx) : State :=
      match w.kind with
      | .store _ _ el =>
        let c2 := c1.at (c1.windowStore el lanes)
        c2.enqueue (usedOf r) w
          (if el then lanes.filter (fun a => !c1.participates a.addr.toNat a.data.length) else lanes) next
      | _ => c1.enqueue (usedOf r) w lanes next
    let go (c1 : Ctx) : State := if hostLane w.ask.want r then c1.orForce act else act c1
    if ordRel w.mem.ord then c.releaseAll go else go c

/-- Issues a memory word (R217, R218): `none` follows when no lane is active, `next` once the operation is on the slice's
list. -/
def Ctx.memIssueTo (c : Ctx) (w : MemWord) (ctl : Ctl) (noLane : Ctx → State) (next : State → State) : State :=
  let ls := c.memLanes w.vec ctl.guard
  if w.kind.full c.x.cnt then c.stay
  else if (!ls.isEmpty || w.mem.ord != .none) && c.s.scopeDenied c.b.vf w.mem.scope then
    c.trap { cause := .scopePolicy }
  else if ls.isEmpty then c.fenced w.mem.scope (ordAcq w.mem.ord) (ordRel w.mem.ord) false noLane
  else
    match c.check w.ask (ls.map (fun l => (l, c.address w.mem w.ask.size l))) with
    | .error t => c.trapX t
    | .ok r => c.memEffect w next r

/-- Issues a memory word after which the slice goes on at the next word. -/
def Ctx.memIssue (c : Ctx) (w : MemWord) (ctl : Ctl) : State :=
  c.memIssueTo w ctl (fun c1 => c1.s.finish c1.k ctl.m) (fun t => t.finish c.k ctl.m)

/-- The register uses of a memory word: the lane offsets, and D. -/
def memUses (m : MemArg) (d : List VUse) : List VUse :=
  (match m.idx with
    | none => []
    | some v => [⟨v.val, 1, true⟩]) ++ d
/-- A memory word. -/
def memWord (s : State) (ctl : Ctl) (uses : List VUse) (w : Ctx → MemWord) : Host.Outcome State Fault Refusal :=
  issue s (chkRegs uses) (fun c => c.memIssue (w c) ctl)

/-- The bytes of n registers in a lane, lowest register first. -/
def Ctx.regBytes (c : Ctx) (v n l : Nat) : List Byte :=
  (List.range n).flatMap (fun i => leBytes 4 (c.rdV (v + i) l).toNat)

/-! ### Loads and stores (R220–R223) -/

/-- VLD. -/
def execVld (c : Ctl) (m : MemArg) (fe : FE) (sz : Sz) (d : VReg) (s : State) : Host.Outcome State Fault Refusal :=
  memWord s c (memUses m [⟨d.val, sz.regs, false⟩]) (fun x =>
    ⟨m, true, { want := .read, size := sz.bytes, granule := feWaits fe }, .load (.vreg (x.physV d.val)) sz fe,
      fun _ _ => ([], [])⟩)
/-- VST. -/
def execVst (c : Ctl) (m : MemArg) (fe : FE) (sz : Sz) (el : Bool) (d : VReg) (s : State) : Host.Outcome State Fault Refusal :=
  memWord s c (memUses m [⟨d.val, sz.regs, true⟩]) (fun _ =>
    ⟨m, true, { want := .write, size := sz.bytes, granule := fe == .setf }, .store sz fe el,
      fun x l => ((x.regBytes d.val sz.regs l).take sz.bytes, [])⟩)
/-- SLD. -/
def execSld (c : Ctl) (m : MemArg) (fe : FE) (sz : Sz) (d : SReg) (s : State) : Host.Outcome State Fault Refusal :=
  memWord s c (memUses m []) (fun x =>
    ⟨m, false, { want := .read, size := sz.bytes, granule := feWaits fe }, .load (.sreg (x.physS d.val)) sz fe,
      fun _ _ => ([], [])⟩)
/-- SST. -/
def execSst (c : Ctl) (m : MemArg) (fe : FE) (sz : Sz) (el : Bool) (d : SReg) (s : State) : Host.Outcome State Fault Refusal :=
  memWord s c (memUses m []) (fun _ =>
    ⟨m, false, { want := .write, size := sz.bytes, granule := fe == .setf }, .store sz fe el,
      fun x _ => (leBytes sz.bytes (x.rdS d.val).toNat, [])⟩)
/-- VLDTR (R222): the row bytes scale OFF8 and are the access size. -/
def execVldtr (c : Ctl) (m : MemArg) (fe : FE) (sz : Sz) (d : VReg) (s : State) : Host.Outcome State Fault Refusal :=
  memWord s c (memUses m [⟨d.val, sz.bytes, false⟩]) (fun x =>
    ⟨m, true, { want := .read, size := sz.bytes * 4, granule := feWaits fe }, .loadTr (x.physV d.val) sz fe,
      fun _ _ => ([], [])⟩)
/-- PREF (R223): a hint; a lane whose checks fail is dropped silently (R217). -/
def execPref (c : Ctl) (m : MemArg) (s : State) : Host.Outcome State Fault Refusal :=
  issue s (chkRegs (memUses m [])) (fun x => x.s.finish x.k c.m)
/-- FESET. -/
def execFeset (c : Ctl) (m : MemArg) (s : State) : Host.Outcome State Fault Refusal :=
  memWord s c (memUses m []) (fun _ =>
    ⟨m, true, { want := .write, size := 16, granule := true }, .feset, fun _ _ => ([], [])⟩)
/-- FECLR. -/
def execFeclr (c : Ctl) (m : MemArg) (s : State) : Host.Outcome State Fault Refusal :=
  memWord s c (memUses m []) (fun _ =>
    ⟨m, true, { want := .write, size := 16, granule := true }, .feclr, fun _ _ => ([], [])⟩)

/-! ### Atomics (R224–R230) -/

/-- An atomic word: the operand is D at issue; with RV = 1 the old unit returns to D. -/
def atomicWord (op : AtomOp) (s : State) (c : Ctl) (m : MemArg) (sz : Sz) (rv : Bool) (d : VReg) :
    Host.Outcome State Fault Refusal :=
  memWord s c (memUses m [⟨d.val, sz.regs, true⟩]) (fun x =>
    ⟨m, true, { want := .atomic, size := sz.bytes }, .atomic op sz (if rv then some (x.physV d.val) else none),
      fun x l => (x.regBytes d.val sz.regs l, [])⟩)
/-- ATADD. -/
def execAtadd (c : Ctl) (m : MemArg) (sz : Sz) (rv : Bool) (d : VReg) (s : State) := atomicWord .add s c m sz rv d
/-- ATMIN. -/
def execAtmin (c : Ctl) (m : MemArg) (sz : Sz) (rv : Bool) (d : VReg) (s : State) := atomicWord .min s c m sz rv d
/-- ATMINN. -/
def execAtminn (c : Ctl) (m : MemArg) (sz : Sz) (rv : Bool) (d : VReg) (s : State) := atomicWord .minn s c m sz rv d
/-- ATMAX. -/
def execAtmax (c : Ctl) (m : MemArg) (sz : Sz) (rv : Bool) (d : VReg) (s : State) := atomicWord .max s c m sz rv d
/-- ATMAXN. -/
def execAtmaxn (c : Ctl) (m : MemArg) (sz : Sz) (rv : Bool) (d : VReg) (s : State) := atomicWord .maxn s c m sz rv d
/-- ATAND. -/
def execAtand (c : Ctl) (m : MemArg) (sz : Sz) (rv : Bool) (d : VReg) (s : State) := atomicWord .and s c m sz rv d
/-- ATOR. -/
def execAtor (c : Ctl) (m : MemArg) (sz : Sz) (rv : Bool) (d : VReg) (s : State) := atomicWord .or s c m sz rv d
/-- ATXOR. -/
def execAtxor (c : Ctl) (m : MemArg) (sz : Sz) (rv : Bool) (d : VReg) (s : State) := atomicWord .xor s c m sz rv d
/-- ATXCHG. -/
def execAtxchg (c : Ctl) (m : MemArg) (sz : Sz) (rv : Bool) (d : VReg) (s : State) := atomicWord .xchg s c m sz rv d
/-- ATCAS (R226): the compare value in the low registers of D, the new value in the high ones. -/
def execAtcas (c : Ctl) (m : MemArg) (sz : Sz) (d : VReg) (s : State) : Host.Outcome State Fault Refusal :=
  memWord s c (memUses m [⟨d.val, 2 * sz.regs, true⟩]) (fun x =>
    ⟨m, true, { want := .atomic, size := sz.bytes }, .atomic .cas sz (some (x.physV d.val)),
      fun x l => (x.regBytes (d.val + sz.regs) sz.regs l, x.regBytes d.val sz.regs l)⟩)
/-- ATFADD. -/
def execAtfadd (c : Ctl) (m : MemArg) (rv : Bool) (d : VReg) (s : State) := atomicWord .fadd s c m .w32 rv d
/-- ATBADD2. -/
def execAtbadd2 (c : Ctl) (m : MemArg) (rv : Bool) (d : VReg) (s : State) := atomicWord .badd2 s c m .w32 rv d

/-! ### Completion -/

/-- Long results have landed: a parked slice goes on, a trap that waited for them is taken (R30, R31, R334). -/
def State.afterLong (s : State) (k : Nat) : State :=
  match Table.find s.slices k with
  | none => s
  | some x =>
    if x.longOut then s
    else
      match x.hold with
      | .parked => s.modSlice k (fun x => { (s.settle x).readyPoison with hold := .none })
      | .trap t w => s.enterTrap k t w
      | _ => s

/-- Whether a load's result belongs to the slice and not to a lane: EXIT of lane 0 does not discard it (R113). -/
def OpKind.toScalar : OpKind → Bool
  | .load (.sreg _) _ _ => true
  | _ => false
/-- The report that a poisoned load leaves (R438): its lowest poisoned lane whose result EXIT has not discarded. -/
def MemOp.poisonDue (o : MemOp) (live : BitVec 4) : List PoisonDue :=
  match o.lanes.find? (fun a => a.poisoned && (o.kind.toScalar && live != 0 || testBit live.toNat a.lane)) with
  | none => []
  | some a => [⟨a.addr, a.lane, o.words, o.consumer⟩]

/-- A load-class operation all of whose lanes have been read completes: its results are written and LD falls (R114). -/
def State.deliverLoad (s : State) (k : Nat) (o : MemOp) : State :=
  (s.modSlice k (fun x =>
    { x.deliver (o.results x.live) with
      ops := x.ops.filter (fun e => e.seq != o.seq)
      poisonDue := x.poisonDue ++ o.poisonDue x.live
      cnt := { x.cnt with ld := x.cnt.ld - 1 } })).afterLong k

/-- Replaces an operation on a slice's list. -/
def State.putOp (s : State) (k : Nat) (o : MemOp) : State :=
  s.modSlice k (fun x => { x with ops := x.ops.map (fun e => if e.seq = o.seq then o else e) })

/-- Performs the parts `ps` of one lane of a load, or marks it as waiting on an empty granule (R197); a .WAITF.CLR lane clears the granule. A lane that
observes its granule full returns the latest write; any other may return an older one (R197, R251). -/
def Ctx.loadStep (c : Ctx) (o : MemOp) (a : LaneAcc) (ps : List Nat) : State × LaneAcc :=
  let n := o.kind.size
  if feWaits o.kind.fe then
    if c.laneFull a then
      ((if o.kind.fe = .waitfClr then c.setGranule a false else c.s).noteRead (c.reader .ls o.scope o.seq) o.acq
          (c.s.latest (c.takes o.seq a n)),
        { a with got := some (c.loadLane o.seq a n), poisoned := c.lanePoisoned a n })
    else (c.s, { a with waited := true })
  else if o.isHalves a && ps.length == 1 then
    let h := ps.headD 0
    let b := a.half n h
    let r := c.loadSeen o.scope o.seq b (n / 2)
    let bs := r.1
    let p := a.poisoned || c.lanePoisoned b (n / 2)
    (c.s.noteRead (c.reader .ls o.scope o.seq) o.acq r.2, match a.cmp with
      | [] => { a with cmp := BitVec.ofNat 8 h :: bs, poisoned := p }
      | _ :: old => { a with got := some (if h = 0 then bs ++ old else old ++ bs), poisoned := p })
  else
    let r := c.loadSeen o.scope o.seq a n
    (c.s.noteRead (c.reader .ls o.scope o.seq) o.acq r.2, { a with got := some r.1, poisoned := c.lanePoisoned a n })

/-- Performs the parts `ps` of one lane of an atomic with return (R224, R229). -/
def Ctx.rmwStep (c : Ctx) (op : AtomOp) (sz : Sz) (o : MemOp) (a : LaneAcc) (ps : List Nat) : State × LaneAcc :=
  if c.lanePoisoned a sz.bytes then (c.s, { a with got := some [], poisoned := true })
  else if o.isHalves a && ps.length == 1 then
    let h := ps.headD 0
    let r := c.updateHalf o a h
    match a.cmp with
    | [] => (r.1, { a with cmp := BitVec.ofNat 8 h :: r.2 })
    | _ :: old => (r.1, { a with got := some (if h = 0 then r.2 ++ old else old ++ r.2) })
  else
    let bs := c.loadLane 0 a sz.bytes
    let new := op.apply (8 * sz.bytes) (leNat bs) (leNat a.data) (leNat a.cmp)
    (if op = .cas ∧ leNat bs ≠ leNat a.cmp then c.rmwRead o a sz.bytes else c.rmwWrite o a (leBytes sz.bytes new), { a with got := some bs })

/-- Performs what a plan says of the lanes of a load-class operation, in ascending order. -/
def Ctx.loadLanes (c : Ctx) (o : MemOp) : List (LaneAcc × List Nat) → State × List LaneAcc
  | [] => (c.s, [])
  | (a, ps) :: as =>
    let r := if ps.isEmpty then (c.s, a) else
      match o.kind with
      | .atomic op sz _ => c.rmwStep op sz o a ps
      | _ => c.loadStep o a ps
    let t := Ctx.loadLanes (c.at r.1) o as
    (t.1, r.2 :: t.2)

/-- An outstanding operation of a slice by its number. -/
def Slice.op? (x : Slice) (n : Nat) : Option MemOp := x.ops.find? (fun o => o.seq == n)

/-- LOAD_COMPLETION for loads and atomics with return: the lanes that can be read and that `later` does not put off are read; when none is
left, and `later` does not hold the counter back by bit 7 (R31), the operation completes (R114, R197, R221). -/
def Ctx.completeLoad (c : Ctx) (o : MemOp) (later : BitVec 8) : State :=
  let r := c.loadLanes o (o.plan later)
  let o' := { o with lanes := r.2 }
  if r.2.all (fun a => a.got.isSome) && !later.getLsbD 7 then r.1.deliverLoad c.k o' else r.1.putOp c.k o'

/-- Whether an operation is a load or an atomic with return that still has a lane to read. -/
def MemOp.isUnbound (o : MemOp) : Bool := o.kind.isLd && !o.bound
/-- Whether it has one, and none on an empty granule. -/
def MemOp.unread (o : MemOp) : Bool := o.isUnbound && !(o.lanes.any (fun a => a.waited && a.got.isNone))

/-- Binds the values of the slice's outstanding loads and atomics with return that `which` names, lane by lane as far as they can be read
now. -/
def Ctx.bindThose (c : Ctx) (which : MemOp → Bool) : State :=
  c.x.ops.foldl (fun t o =>
    match t.ctx c.k with
    | none => t
    | some y =>
      if which o && o.isUnbound && !o.outside && y.x.mayPerform o then
        let r := y.loadLanes o ((o.plan 0).map (fun p => if p.1.waited then (p.1, []) else p))
        r.1.putOp y.k { o with lanes := r.2 }
      else t) c.s
/-- Binds all of them: a release that waits for no counter orders them (R184, R246). -/
def Ctx.bindLoads (c : Ctx) : State := c.bindThose (fun _ => true)
/-- Before an error strikes a place, every load that has been issued and needs to wait for nothing has read it: a load that meets poison
would trap at its own word (R191, R203; log entry 58). -/
def State.bindBefore (s : State) (hit : Ctx → LaneAcc → Nat → Bool) : State :=
  s.slices.foldl (fun t e =>
    match t.ctx e.1 with
    | none => t
    | some c => c.bindThose (fun o => o.lanes.any (fun a => hit c a o.kind.size))) s
/-- Whether a load or an atomic with return, past its own word and not waiting on an empty granule, has still to read a place: no error
strikes it there, since the load would have had to trap at its word (R191, R203, R438; log entry 58). -/
def State.awaited (s : State) (hit : Ctx → LaneAcc → Nat → Bool) : Bool :=
  s.slices.any (fun e =>
    match s.ctx e.1 with
    | none => false
    | some c => e.2.ops.any (fun o => o.kind.isLd && o.lanes.any (fun a => a.got.isNone && !a.waited && hit c a o.kind.size)))

/-- STORE_PERFORMED (R245): the lanes of a held write that `later` does not put off are performed at its scope, and ST falls with the last
of them; nothing happens while an earlier access of the slice must come first (R246). -/
def execStorePerformed (k n : Nat) (later : BitVec 8) (s : State) : Host.Outcome State Fault Refusal :=
  match s.ctx k with
  | none => .next s
  | some c =>
    match c.x.op? n with
    | none => .next s
    | some o =>
      .next (if o.kind.isSt && c.x.mayPerform o then
          s.alsoInImage c.b.vf o.outside (fun t => ((t.ctx k).map (fun c => c.performStore o later)).getD t)
        else s)

end Sys2Proof.Machine
end

