-- ==== Sys2Proof/Machine/Real.lean ====
section
/-! DEFINITION. The special functions of R135, rounded once from their exact values. A value that is rational is formed
exactly; any other value is enclosed between two rationals, more and more narrowly, until both round alike. -/

namespace Sys2Proof

/-! ### Fixed point: an integer a at p stands for a / 2^p -/

/-- Product at p, rounded down. -/
def fxMul (p : Nat) (a b : Int) : Int := a * b / 2 ^ p

/-- The odd series of atanh (sgn = 1) or atan (sgn = −1) of 1/k: sum of sgn^i (1/k)^(2i+1) / (2i+1). -/
def fxInvSeries (p k : Nat) (sgn : Int) : Nat → Nat → Int → Int → Int
  | 0, _, _, acc => acc
  | fuel + 1, i, t, acc =>
    if t = 0 then acc
    else fxInvSeries p k sgn fuel (i + 1) (t * sgn / ((k : Int) * k)) (acc + t / (2 * i + 1))

/-- ln 2 = 2 atanh(1/3). -/
def fxLn2 (p : Nat) : Int := 2 * fxInvSeries p 3 1 p 0 (2 ^ p / 3) 0
/-- π = 16 atan(1/5) − 4 atan(1/239). -/
def fxPi (p : Nat) : Int :=
  16 * fxInvSeries p 5 (-1) p 0 (2 ^ p / 5) 0 - 4 * fxInvSeries p 239 (-1) p 0 (2 ^ p / 239) 0

/-- The power series of e^x: terms x^i / i!. -/
def fxExpSeries (p : Nat) (x : Int) : Nat → Nat → Int → Int → Int
  | 0, _, _, acc => acc
  | fuel + 1, i, t, acc =>
    if t = 0 ∨ t = -1 then acc
    else fxExpSeries p x fuel (i + 1) (fxMul p t x / (i + 1)) (acc + t)
/-- e^x for |x| ≤ 2. -/
def fxExp (p : Nat) (x : Int) : Int := fxExpSeries p x (2 * p) 0 (2 ^ p) 0

/-- The alternating series of sine and cosine: terms t, −t x²/((i+1)(i+2)), … -/
def fxTrigSeries (p : Nat) (x2 : Int) : Nat → Nat → Int → Int → Int
  | 0, _, _, acc => acc
  | fuel + 1, i, t, acc =>
    if t = 0 ∨ t = -1 then acc
    else fxTrigSeries p x2 fuel (i + 2) (-(fxMul p t x2 / (((i : Int) + 1) * (i + 2)))) (acc + t)
/-- sin x for 0 ≤ x ≤ 2. -/
def fxSin (p : Nat) (x : Int) : Int := fxTrigSeries p (fxMul p x x) (2 * p) 1 x 0
/-- cos x for 0 ≤ x ≤ 2. -/
def fxCos (p : Nat) (x : Int) : Int := fxTrigSeries p (fxMul p x x) (2 * p) 0 (2 ^ p) 0

/-- The series of atanh z for 0 ≤ z ≤ 1/3. -/
def fxAtanhSeries (p : Nat) (z2 : Int) : Nat → Nat → Int → Int → Int
  | 0, _, _, acc => acc
  | fuel + 1, i, t, acc =>
    if t = 0 then acc else fxAtanhSeries p z2 fuel (i + 1) (fxMul p t z2) (acc + t / (2 * i + 1))
/-- ln m for 1 ≤ m ≤ 2 given as a fraction: 2 atanh((m − 1)/(m + 1)). -/
def fxLn (p num den : Nat) : Int :=
  let z : Int := ((num : Int) - den) * 2 ^ p / (num + den)
  2 * fxAtanhSeries p (fxMul p z z) p 0 z 0

/-- Floor of the square root, digit by digit. -/
def isqrtGo : Nat → Nat → Nat → Nat
  | 0, _, r => r
  | fuel + 1, n, r =>
    let c := r + 2 ^ fuel
    isqrtGo fuel n (if c * c ≤ n then c else r)
/-- Floor of the square root. -/
def isqrt (n : Nat) : Nat := isqrtGo (Nat.log2 n / 2 + 1) n 0

/-! ### Rounding an enclosed value -/

/-- A signed integer at p as a value. -/
def fxVal (p : Nat) (a : Int) : FVal := .fin (decide (a < 0)) a.natAbs (2 ^ p)

/-- Rounds the value that `approx` encloses: at each precision p it lies strictly within `err` units of `approx p`; the
first precision whose two bounds round alike decides. -/
def roundEnclosed (f : Fmt) (rm : RM) (sat : Bool) (approx : Nat → Int) (err : Int) : List Nat → Nat × Flags
  | [] => (canonNaN f, Flags.inexact)
  | p :: ps =>
    let a := approx p
    let lo := encodeF f (fxVal p (a - err)) rm sat
    let hi := encodeF f (fxVal p (a + err)) rm sat
    if lo.1 = hi.1 ∨ ps = [] then (lo.1, (lo.2.or hi.2).or Flags.inexact)
    else roundEnclosed f rm sat approx err ps

/-- The precisions tried: enough for every argument of FP32, FP16 and BF16. -/
def precisions : List Nat := [320, 480, 720, 1000]

/-! ### The functions -/

/-- 1/√x or √x of a positive fraction: exact when it is a binary fraction, else enclosed. -/
def sqrtVal (f : Fmt) (rm : RM) (sat : Bool) (num den : Nat) : Nat × Flags :=
  let p := 400
  let n := num * 4 ^ p
  let q := n / den
  let r := isqrt q
  if n % den = 0 ∧ r * r = q then encodeF f (.fin false r (2 ^ p)) rm sat
  else
    let lo := encodeF f (.fin false r (2 ^ p)) rm sat
    let mid := encodeF f (.fin false (2 * r + 1) (2 ^ (p + 1))) rm sat
    (mid.1, (lo.2.or mid.2).or Flags.inexact)

/-- 2^x (R135). Arguments beyond ±600 stand at ±600, where every format overflows or rounds as a tiny value. -/
def exp2Val (f : Fmt) (rm : RM) (sat : Bool) (neg : Bool) (num den : Nat) : Nat × Flags :=
  let x : Int := if neg then -(num : Int) else num
  let fl : Int := x / den
  let fr := (x % den).toNat
  let e := max (-600) (min fl 600)
  if fr = 0 then encodeF f (FVal.scaled false 1 e) rm sat
  else if 600 ≤ fl ∨ fl < -600 then
    encodeF f (FVal.scaled false 3 (e - 1)) rm sat
  else
    roundEnclosed f rm sat
      (fun p =>
        let y := fxExp (p + 64) (fxLn2 (p + 64) * fr / den)
        if 0 ≤ e then y * 2 ^ e.toNat / 2 ^ 64 else y / 2 ^ (64 + (-e).toNat)) (2 ^ (e.toNat + 4)) precisions

/-- log2 of a positive value (R135): exact for a power of two. -/
def log2Val (f : Fmt) (rm : RM) (sat : Bool) (num den : Nat) : Nat × Flags :=
  let e := floorLog2 num den
  let q := pow2 e
  let n := num * q.2
  let d := den * q.1
  if n = d then encodeF f (FVal.ofInt e) rm sat
  else
    roundEnclosed f rm sat
      (fun p =>
        let l := fxLn (p + 64) n d
        (e * 2 ^ (p + 64) + l * 2 ^ (p + 64) / fxLn2 (p + 64)) / 2 ^ 64) 16 precisions

/-- sin(π r) or cos(π r) for a fraction r in [0, 1/2], as a function of the precision. -/
def trigApprox (cosine : Bool) (num den : Nat) (p : Nat) : Int :=
  let th := fxPi (p + 64) * num / den
  (if cosine then fxCos (p + 64) th else fxSin (p + 64) th) / 2 ^ 64

/-- sin(π x) (R135): a zero with the sign of x at an integer, ±1 at an odd multiple of one half. -/
def sinPiVal (f : Fmt) (rm : RM) (sat : Bool) (neg : Bool) (num den : Nat) : Nat × Flags :=
  let k := num / den
  let r := num % den
  let s := neg != (k % 2 == 1)
  if r = 0 then encodeF f (.fin neg 0 1) rm sat
  else if 2 * r = den then encodeF f (.fin s 1 1) rm sat
  else
    let r' := if 2 * r < den then r else den - r
    roundEnclosed f rm sat (fun p => if s then -trigApprox false r' den p else trigApprox false r' den p) 16 precisions

/-- cos(π x) (R135): ±1 at an integer, +0 at an odd multiple of one half. -/
def cosPiVal (f : Fmt) (rm : RM) (sat : Bool) (num den : Nat) : Nat × Flags :=
  let k := num / den
  let r := num % den
  let s := k % 2 == 1
  if r = 0 then encodeF f (.fin s 1 1) rm sat
  else if 2 * r = den then encodeF f FVal.zero rm sat
  else
    let (r', s') := if 2 * r < den then (r, s) else (den - r, !s)
    roundEnclosed f rm sat (fun p => if s' then -trigApprox true r' den p else trigApprox true r' den p) 16 precisions

/-- tanh x (R135) for x ≠ 0; beyond 64 it stands at ±(1 − 2^−100), which rounds alike. -/
def tanhVal (f : Fmt) (rm : RM) (sat : Bool) (neg : Bool) (num den : Nat) : Nat × Flags :=
  if 64 * den ≤ num then encodeF f (.fin neg (2 ^ 100 - 1) (2 ^ 100)) rm sat
  else
    roundEnclosed f rm sat
      (fun p =>
        let w := p + 320
        let ln2 := fxLn2 w
        let y : Int := 2 * num * 2 ^ w / den
        let k := y / ln2
        let ex := fxExp w (y - k * ln2) * 2 ^ k.toNat
        let t := (ex - 2 ^ w) * 2 ^ w / (ex + 2 ^ w)
        (if neg then -t else t) / 2 ^ 320) 16 precisions

/-- The eight special functions (R135). -/
inductive SpecialFn where
  | rcp | rsq | sqrt | exp2 | log2 | sin | cos | tanh
  deriving DecidableEq, Repr

/-- R135: a special function of a pattern, with its flags. -/
def specialFn (fn : SpecialFn) (f : Fmt) (rm : RM) (sat : Bool) (a : Nat) : Nat × Flags :=
  let nan := (canonNaN f, Flags.invalid)
  let one : FVal := .fin false 1 1
  let dz (neg : Bool) := (withSign f neg (infPat f), Flags.divZero)
  let pos (v : FVal) := encodeF f v rm sat
  match decodeF f a with
  | .nan => (canonNaN f, Flags.when (isSNaN f a) Flags.invalid)
  | .inf neg =>
    match fn with
    | .rcp => pos (.fin neg 0 1)
    | .rsq => if neg then nan else pos FVal.zero
    | .sqrt => if neg then nan else pos (.inf false)
    | .exp2 => if neg then pos FVal.zero else pos (.inf false)
    | .log2 => if neg then nan else pos (.inf false)
    | .sin => nan
    | .cos => nan
    | .tanh => pos (.fin neg 1 1)
  | .fin neg num den =>
    if num = 0 then
      match fn with
      | .rcp => dz neg
      | .rsq => dz neg
      | .sqrt => pos (.fin neg 0 1)
      | .exp2 => pos one
      | .log2 => (withSign f true (infPat f), Flags.divZero)
      | .sin => pos (.fin neg 0 1)
      | .cos => pos one
      | .tanh => pos (.fin neg 0 1)
    else
      match fn with
      | .rcp => pos (.fin neg den num)
      | .rsq => if neg then nan else sqrtVal f rm sat den num
      | .sqrt => if neg then nan else sqrtVal f rm sat num den
      | .exp2 => exp2Val f rm sat neg num den
      | .log2 => if neg then nan else log2Val f rm sat num den
      | .sin => sinPiVal f rm sat neg num den
      | .cos => cosPiVal f rm sat num den
      | .tanh => tanhVal f rm sat neg num den

end Sys2Proof
end

