-- ==== Sys2Proof/Machine/Scalar.lean ====
section
/-! DEFINITION. Scalar, address, compare, EXEC, Q and mode instructions (R89–R103, R119): the arithmetic on 64-bit values, and
one meaning per instruction. -/

namespace Sys2Proof.Machine

/-- Shift count b<5:0> (R94). -/
def shCount (b : Word64) : Nat := b.toNat % 64
/-- The signed value of a 64-bit source (R94). -/
def sgn (a : Word64) : Int := a.toInt

/-- An exact result in 64 bits: clamped as I64 with .SAT, else wrapped (R94). -/
def res64 (sat : Bool) (v : Int) : Word64 := BitVec.ofInt 64 (if sat then clampI v 64 else v)

/-- SADD, SSUB, SMUL (R94). -/
def addS (sat : Bool) (a b : Word64) : Word64 := res64 sat (sgn a + sgn b)
/-- SSUB. -/
def subS (sat : Bool) (a b : Word64) : Word64 := res64 sat (sgn a - sgn b)
/-- SMUL. -/
def mulS (sat : Bool) (a b : Word64) : Word64 := res64 sat (sgn a * sgn b)
/-- SMULH: the high half of the signed product. -/
def mulhS (a b : Word64) : Word64 := BitVec.ofInt 64 (sgn a * sgn b / 2 ^ 64)
/-- SMULHN: the high half of the unsigned product. -/
def mulhN (a b : Word64) : Word64 := BitVec.ofNat 64 (a.toNat * b.toNat / 2 ^ 64)
/-- Signed minimum. -/
def minS (a b : Word64) : Word64 := if sgn b < sgn a then b else a
/-- Signed maximum. -/
def maxS (a b : Word64) : Word64 := if sgn a < sgn b then b else a
/-- Unsigned minimum. -/
def minN (a b : Word64) : Word64 := if b.toNat < a.toNat then b else a
/-- Unsigned maximum. -/
def maxN (a b : Word64) : Word64 := if a.toNat < b.toNat then b else a
/-- SSHL. -/
def shlS (a : Word64) (n : Nat) : Word64 := BitVec.ofNat 64 (a.toNat * 2 ^ n)
/-- SSHR. -/
def shrS (a : Word64) (n : Nat) : Word64 := BitVec.ofNat 64 (a.toNat / 2 ^ n)
/-- SSRA. -/
def sraS (a : Word64) (n : Nat) : Word64 := BitVec.ofInt 64 (sgn a / 2 ^ n)
/-- SROT: rotated right. -/
def rotS (a : Word64) (n : Nat) : Word64 := BitVec.ofNat 64 (a.toNat / 2 ^ n + a.toNat % 2 ^ n * 2 ^ (64 - n))
/-- The number of one bits among the low w bits. -/
def popc (w x : Nat) : Nat := (List.range w).foldl (fun n i => n + x / 2 ^ i % 2) 0
/-- The number of leading zero bits among w bits; w for zero. -/
def clz (w x : Nat) : Nat := if x % 2 ^ w = 0 then w else w - 1 - Nat.log2 (x % 2 ^ w)
/-- The number of trailing zero bits among w bits; w for zero. -/
def ctz (w x : Nat) : Nat := ((List.range w).find? (fun i => testBit x i)).getD w
/-- Bit i moved to bit w − 1 − i. -/
def brev (w x : Nat) : Nat := (List.range w).foldl (fun n i => n + x / 2 ^ i % 2 * 2 ^ (w - 1 - i)) 0
/-- SBFX and VBFX at width w (R95, R130). -/
def bfx (w : Nat) (signed : Bool) (a pos len : Nat) : Nat :=
  let n := min len (w - pos)
  let f := bits a pos n
  if signed && decide (0 < n) then wrap (sext f n) w else f
/-- SBFI and VBFI at width w (R95, R130). -/
def bfi (w old a pos len : Nat) : Nat := setBits old pos (min len (w - pos)) a
/-- SLEA (R96). -/
def lea (pod : Bool) (k : Nat) (a b : Word64) : Word64 :=
  if pod then BitVec.ofNat 64 (2 ^ 63 + b.toNat % 2 ^ 12 * 2 ^ 44 + a.toNat % 2 ^ 44)
  else BitVec.ofNat 64 (a.toNat + b.toNat * 2 ^ k)
/-- SABS. -/
def absS (sat : Bool) (a : Word64) : Word64 := res64 sat (sgn a).natAbs
/-- SCLAMP: the result is c when b exceeds c. -/
def clampS (n : Bool) (a b c : Word64) : Word64 := if n then minN (maxN a b) c else minS (maxS a b) c

/-- A compare condition on two 64-bit values (R97). -/
def condHolds (k : Cond) (a b : Word64) : Bool :=
  match k with
  | .eq => a == b
  | .ne => a != b
  | .lt => decide (sgn a < sgn b)
  | .le => decide (sgn a ≤ sgn b)
  | .gt => decide (sgn b < sgn a)
  | .ge => decide (sgn b ≤ sgn a)
  | .ltn => decide (a.toNat < b.toNat)
  | .len => decide (a.toNat ≤ b.toNat)
  | .gtn => decide (b.toNat < a.toNat)
  | .gen => decide (b.toNat ≤ a.toNat)
  | .tst => (a &&& b) != 0
  | .ntst => (a &&& b) == 0
  | .un => false
  | .or => true

/-- K16 as R60 widens it where it is sign-extended. -/
def k16s (k : BitVec 16) : Word64 := BitVec.ofInt 64 k.toInt
/-- K16 where it is zero-extended. -/
def k16z (k : BitVec 16) : Word64 := BitVec.ofNat 64 k.toNat
/-- K32 sign-extended (R100). -/
def k32s (k : BitVec 32) : Word64 := BitVec.ofInt 64 k.toInt

/-- A scalar word that writes D when its guard passes. -/
def scalarWord (s : State) (c : Ctl) (d : SReg) (f : Ctx → Word64) : Host.Outcome State Fault Refusal :=
  regWord s c.m (chkRegs []) (fun x => if x.x.guardScalar c.guard then { sShort := [(d.val, f x)] } else {})

/-- A scalar compare: pushes its result, or 0 when its guard fails, into all four lanes (R23, R98). -/
def compareFx (x : Ctx) (g : Guard) (r : Bool) : Fx :=
  { push := some (if x.x.guardScalar g && r then 0xF else 0) }

/-- A word that changes EXEC and delivers its old value (R101). -/
def execWord (s : State) (c : Ctl) (d : Option SReg) (f : Ctx → BitVec 4) : Host.Outcome State Fault Refusal :=
  regWord s c.m (chkRegs []) (fun x =>
    if x.x.guardScalar c.guard then
      { sShort := (d.map (fun r => (r.val, x.x.exec.setWidth 64))).toList, exec := some (f x) }
    else {})

/-! ### Scalar register instructions (R94) -/

/-- NOP (R119). -/
def execNop (c : Ctl) (s : State) : Host.Outcome State Fault Refusal := regWord s c.m (chkRegs []) (fun _ => {})
/-- SADD. -/
def execSadd (c : Ctl) (sat : Bool) (d : SReg) (a b : SSrc) (s : State) := scalarWord s c d (fun x => addS sat (x.src a) (x.src b))
/-- SSUB. -/
def execSsub (c : Ctl) (sat : Bool) (d : SReg) (a b : SSrc) (s : State) := scalarWord s c d (fun x => subS sat (x.src a) (x.src b))
/-- SMUL. -/
def execSmul (c : Ctl) (sat : Bool) (d : SReg) (a b : SSrc) (s : State) := scalarWord s c d (fun x => mulS sat (x.src a) (x.src b))
/-- SMULH. -/
def execSmulh (c : Ctl) (d : SReg) (a b : SSrc) (s : State) := scalarWord s c d (fun x => mulhS (x.src a) (x.src b))
/-- SMULHN. -/
def execSmulhn (c : Ctl) (d : SReg) (a b : SSrc) (s : State) := scalarWord s c d (fun x => mulhN (x.src a) (x.src b))
/-- SMIN. -/
def execSmin (c : Ctl) (d : SReg) (a b : SSrc) (s : State) := scalarWord s c d (fun x => minS (x.src a) (x.src b))
/-- SMAX. -/
def execSmax (c : Ctl) (d : SReg) (a b : SSrc) (s : State) := scalarWord s c d (fun x => maxS (x.src a) (x.src b))
/-- SMINN. -/
def execSminn (c : Ctl) (d : SReg) (a b : SSrc) (s : State) := scalarWord s c d (fun x => minN (x.src a) (x.src b))
/-- SMAXN. -/
def execSmaxn (c : Ctl) (d : SReg) (a b : SSrc) (s : State) := scalarWord s c d (fun x => maxN (x.src a) (x.src b))
/-- SAND. -/
def execSand (c : Ctl) (d : SReg) (a b : SSrc) (s : State) := scalarWord s c d (fun x => x.src a &&& x.src b)
/-- SOR. -/
def execSor (c : Ctl) (d : SReg) (a b : SSrc) (s : State) := scalarWord s c d (fun x => x.src a ||| x.src b)
/-- SXOR. -/
def execSxor (c : Ctl) (d : SReg) (a b : SSrc) (s : State) := scalarWord s c d (fun x => x.src a ^^^ x.src b)
/-- SANDN. -/
def execSandn (c : Ctl) (d : SReg) (a b : SSrc) (s : State) := scalarWord s c d (fun x => x.src a &&& ~~~(x.src b))
/-- SSHL. -/
def execSshl (c : Ctl) (d : SReg) (a b : SSrc) (s : State) := scalarWord s c d (fun x => shlS (x.src a) (shCount (x.src b)))
/-- SSHR. -/
def execSshr (c : Ctl) (d : SReg) (a b : SSrc) (s : State) := scalarWord s c d (fun x => shrS (x.src a) (shCount (x.src b)))
/-- SSRA. -/
def execSsra (c : Ctl) (d : SReg) (a b : SSrc) (s : State) := scalarWord s c d (fun x => sraS (x.src a) (shCount (x.src b)))
/-- SROT. -/
def execSrot (c : Ctl) (d : SReg) (a b : SSrc) (s : State) := scalarWord s c d (fun x => rotS (x.src a) (shCount (x.src b)))
/-- SCLZ. -/
def execSclz (c : Ctl) (d : SReg) (a : SSrc) (s : State) := scalarWord s c d (fun x => BitVec.ofNat 64 (clz 64 (x.src a).toNat))
/-- SCTZ. -/
def execSctz (c : Ctl) (d : SReg) (a : SSrc) (s : State) := scalarWord s c d (fun x => BitVec.ofNat 64 (ctz 64 (x.src a).toNat))
/-- SPOPC. -/
def execSpopc (c : Ctl) (d : SReg) (a : SSrc) (s : State) := scalarWord s c d (fun x => BitVec.ofNat 64 (popc 64 (x.src a).toNat))
/-- SBREV. -/
def execSbrev (c : Ctl) (d : SReg) (a : SSrc) (s : State) := scalarWord s c d (fun x => BitVec.ofNat 64 (brev 64 (x.src a).toNat))
/-- SBFX (R95). -/
def execSbfx (c : Ctl) (signed : Bool) (d : SReg) (a b e : SSrc) (s : State) :=
  scalarWord s c d (fun x => BitVec.ofNat 64 (bfx 64 signed (x.src a).toNat (shCount (x.src b)) ((x.src e).toNat % 128)))
/-- SBFI (R95): D is also a source. -/
def execSbfi (c : Ctl) (d : SReg) (a b e : SSrc) (s : State) :=
  scalarWord s c d (fun x =>
    BitVec.ofNat 64 (bfi 64 (x.rdS d.val).toNat (x.src a).toNat (shCount (x.src b)) ((x.src e).toNat % 128)))
/-- SSEXT (R95). -/
def execSsext (c : Ctl) (z : Bool) (n : BitVec 7) (d : SReg) (a : SSrc) (s : State) :=
  scalarWord s c d (fun x =>
    if z then BitVec.ofNat 64 (zext (x.src a).toNat n.toNat) else BitVec.ofInt 64 (sext (x.src a).toNat n.toNat))
/-- SLEA (R96). -/
def execSlea (c : Ctl) (pod : Bool) (k : Fin 8) (d : SReg) (a b : SSrc) (s : State) :=
  scalarWord s c d (fun x => lea pod k.val (x.src a) (x.src b))
/-- SSELZ. -/
def execSselz (c : Ctl) (d : SReg) (a b e : SSrc) (s : State) :=
  scalarWord s c d (fun x => if x.src e = 0 then x.src a else x.src b)
/-- SMOV. -/
def execSmov (c : Ctl) (d : SReg) (a : SSrc) (s : State) := scalarWord s c d (fun x => x.src a)
/-- SCMP (R98). -/
def execScmp (c : Ctl) (k : Cond) (a b : SSrc) (s : State) :=
  regWord s c.m (chkRegs []) (fun x => compareFx x c.guard (condHolds k (x.src a) (x.src b)))
/-- SABS. -/
def execSabs (c : Ctl) (sat : Bool) (d : SReg) (a : SSrc) (s : State) := scalarWord s c d (fun x => absS sat (x.src a))
/-- SCLAMP. -/
def execSclamp (c : Ctl) (n : Bool) (d : SReg) (a b e : SSrc) (s : State) :=
  scalarWord s c d (fun x => clampS n (x.src a) (x.src b) (x.src e))

/-! ### Immediate forms (R99, R100) -/

/-- SADDI. -/
def execSaddi (c : Ctl) (sat : Bool) (d : SReg) (a : SSrc) (k : BitVec 16) (s : State) := scalarWord s c d (fun x => addS sat (x.src a) (k16s k))
/-- SMULI. -/
def execSmuli (c : Ctl) (sat : Bool) (d : SReg) (a : SSrc) (k : BitVec 16) (s : State) := scalarWord s c d (fun x => mulS sat (x.src a) (k16s k))
/-- SANDI. -/
def execSandi (c : Ctl) (d : SReg) (a : SSrc) (k : BitVec 16) (s : State) := scalarWord s c d (fun x => x.src a &&& k16z k)
/-- SORI. -/
def execSori (c : Ctl) (d : SReg) (a : SSrc) (k : BitVec 16) (s : State) := scalarWord s c d (fun x => x.src a ||| k16z k)
/-- SXORI. -/
def execSxori (c : Ctl) (d : SReg) (a : SSrc) (k : BitVec 16) (s : State) := scalarWord s c d (fun x => x.src a ^^^ k16z k)
/-- SSHLI. -/
def execSshli (c : Ctl) (d : SReg) (a : SSrc) (k : BitVec 6) (s : State) := scalarWord s c d (fun x => shlS (x.src a) k.toNat)
/-- SSHRI. -/
def execSshri (c : Ctl) (d : SReg) (a : SSrc) (k : BitVec 6) (s : State) := scalarWord s c d (fun x => shrS (x.src a) k.toNat)
/-- SSRAI. -/
def execSsrai (c : Ctl) (d : SReg) (a : SSrc) (k : BitVec 6) (s : State) := scalarWord s c d (fun x => sraS (x.src a) k.toNat)
/-- SROTI. -/
def execSroti (c : Ctl) (d : SReg) (a : SSrc) (k : BitVec 6) (s : State) := scalarWord s c d (fun x => rotS (x.src a) k.toNat)
/-- SCMPI (R98). -/
def execScmpi (c : Ctl) (k : Cond) (a : SSrc) (i : BitVec 16) (s : State) :=
  regWord s c.m (chkRegs []) (fun x => compareFx x c.guard (condHolds k (x.src a) (k16s i)))
/-- SMINI. -/
def execSmini (c : Ctl) (d : SReg) (a : SSrc) (k : BitVec 16) (s : State) := scalarWord s c d (fun x => minS (x.src a) (k16s k))
/-- SMAXI. -/
def execSmaxi (c : Ctl) (d : SReg) (a : SSrc) (k : BitVec 16) (s : State) := scalarWord s c d (fun x => maxS (x.src a) (k16s k))
/-- SMOVK. -/
def execSmovk (c : Ctl) (d : SReg) (k : BitVec 32) (s : State) := scalarWord s c d (fun _ => k32s k)
/-- SMOVKH. -/
def execSmovkh (c : Ctl) (d : SReg) (k : BitVec 32) (s : State) :=
  scalarWord s c d (fun x => BitVec.ofNat 64 (k.toNat * 2 ^ 32 + (x.rdS d.val).toNat % 2 ^ 32))
/-- SADDK. -/
def execSaddk (c : Ctl) (d : SReg) (k : BitVec 32) (s : State) := scalarWord s c d (fun x => x.rdS d.val + k32s k)
/-- SLEAPC: PC is the address of this word. -/
def execSleapc (c : Ctl) (d : SReg) (k : BitVec 32) (s : State) := scalarWord s c d (fun x => x.x.pc + k32s k)

/-! ### EXEC, Q and mode (R101–R103) -/

/-- EXSAVE. -/
def execExsave (c : Ctl) (d : SReg) (s : State) := scalarWord s c d (fun x => x.x.exec.setWidth 64)
/-- EXLOAD. -/
def execExload (c : Ctl) (a : SSrc) (s : State) := execWord s c none (fun x => (x.src a).setWidth 4)
/-- EXAND. -/
def execExand (c : Ctl) (d : SReg) (a : SSrc) (s : State) := execWord s c (some d) (fun x => x.x.exec &&& (x.src a).setWidth 4)
/-- EXANDN. -/
def execExandn (c : Ctl) (d : SReg) (a : SSrc) (s : State) := execWord s c (some d) (fun x => x.x.exec &&& ~~~((x.src a).setWidth 4))
/-- EXFROMQ. -/
def execExfromq (c : Ctl) (neg : Bool) (depth : Fin 8) (d : SReg) (s : State) :=
  execWord s c (some d) (fun x => x.x.exec &&& laneMask (fun l => x.x.qBit l depth.val != neg))
/-- QSAVE. -/
def execQsave (c : Ctl) (d : SReg) (s : State) := scalarWord s c d (fun x => BitVec.ofNat 64 x.x.qWord)
/-- QLOAD: not a push. -/
def execQload (c : Ctl) (a : SSrc) (s : State) :=
  regWord s c.m (chkRegs []) (fun x =>
    if x.x.guardScalar c.guard then
      { q := some (Vector.ofFn (fun l : Fin 4 => BitVec.ofNat 8 ((x.src a).toNat / 2 ^ (8 * l.val)))) }
    else {})

/-- A mode word issues only when every earlier floating-point word has written its result (R103). -/
def Ctx.settledFp (c : Ctx) : Ctx :=
  { c with s := c.s.modSlice c.k (fun x => c.s.settleFp x), x := c.s.settleFp c.x }

/-- MODERD. -/
def execModerd (c : Ctl) (d : SReg) (s : State) :=
  issue s (chkRegs []) (fun x =>
    x.settledFp.done (if x.x.guardScalar c.guard then { sShort := [(d.val, x.x.smode)] } else {}) c.m)
/-- MODEWR. -/
def execModewr (c : Ctl) (a : SSrc) (s : State) :=
  issue s (chkRegs []) (fun x =>
    let y := x.settledFp
    y.done (if x.x.guardScalar c.guard then { smode := some (smodeWrite y.x.smode (y.src a)) } else {}) c.m)
/-- MODERM. -/
def execModerm (c : Ctl) (r : RM) (s : State) :=
  regWord s c.m (chkRegs []) (fun x =>
    if x.x.guardScalar c.guard then { smode := some (smodeSetRM x.x.smode r) } else {})

end Sys2Proof.Machine
end

