-- ==== Sys2Proof/Machine/Vector.lean ====
section
/-! DEFINITION. Vector register instructions (R120–R135, R142): the operation on one element, then one meaning per
instruction. -/

namespace Sys2Proof.Machine

/-! ### Operations on elements: a result in the format's bits, and flags -/

/-- The format of the halves of a packed format (R126). -/
def halfFmt : Fmt → Fmt
  | .f16x2 => .f16
  | _ => .bf16

/-- An operation on a format, or on each half of a packed one (R126). -/
def liftPk (f : Fmt) (g : Fmt → List Nat → Nat × Flags) (args : List Nat) : Nat × Flags :=
  if f.isPK then
    let lo := g (halfFmt f) (args.map (fun a => a % 2 ^ 16))
    let hi := g (halfFmt f) (args.map (fun a => a / 2 ^ 16 % 2 ^ 16))
    (lo.1 + hi.1 * 2 ^ 16, lo.2.or hi.2)
  else g f args

/-- A floating-point row (R124): NV for a signalling operand, the exact expression, one rounding. -/
def floatRow (rm : RM) (sat : Bool) (op : List FVal → FVal × Bool) (f : Fmt) (args : List Nat) : Nat × Flags :=
  let r := encodeOp f (op (args.map (decodeF f))) rm sat
  (r.1, r.2.or (Flags.when (args.any (isSNaN f)) Flags.invalid))

/-- The expressions of VADD, VSUB, VMUL, VFMA, VFMS and VFNMA. -/
inductive Arith where
  | add | sub | mul | fma | fms | fnma
  deriving DecidableEq, Repr

/-- An expression on exact values (R123). -/
def Arith.onF (rm : RM) : Arith → List FVal → FVal × Bool
  | .add, [x, y] => fAdd rm x y
  | .sub, [x, y] => fAdd rm x (fNeg y)
  | .mul, [x, y] => fMul x y
  | .fma, [x, y, z] => fFma rm x y z
  | .fms, [x, y, z] => fFma rm x y (fNeg z)
  | .fnma, [x, y, z] => fFma rm (fNeg x) y z
  | _, _ => (.nan, false)
/-- An expression on integers. -/
def Arith.onI : Arith → List Int → Int
  | .add, [x, y] => x + y
  | .sub, [x, y] => x - y
  | .mul, [x, y] => x * y
  | .fma, [x, y, z] => x * y + z
  | _, _ => 0

/-- VADD, VSUB, VMUL and the fused forms on elements of a format (R124–R126). -/
def arith (k : Arith) (f : Fmt) (rm : RM) (sat : Bool) (args : List Nat) : Nat × Flags :=
  if f.isIN then (intResult f sat (k.onI (args.map (intOf f))), Flags.none)
  else liftPk f (floatRow rm sat (k.onF rm)) args

/-- VMIN or VMAX on elements (R127). -/
def minMaxElem (isMax : Bool) (f : Fmt) (prop : Bool) (a b : Nat) : Nat × Flags :=
  if f.isIN then
    (if (if isMax then decide (intOf f a < intOf f b) else decide (intOf f b < intOf f a)) then b else a, Flags.none)
  else
    liftPk f (fun h args => minMax h isMax prop (args.getD 0 0) (args.getD 1 0)) [a, b]

/-- VCLAMP: VMIN(VMAX(x, y), z) (R127). -/
def clampElem (f : Fmt) (prop : Bool) (a b c : Nat) : Nat × Flags :=
  let m := minMaxElem true f prop a b
  let r := minMaxElem false f prop m.1 c
  (r.1, m.2.or r.2)

/-- The sign bit of a floating-point format of w bits. -/
def signBit (f : Fmt) : Nat := 2 ^ (f.width - 1)
/-- VABS, VNEG on elements (R123, R44, R125). -/
def absNeg (neg : Bool) (f : Fmt) (sat : Bool) (a : Nat) : Nat × Flags :=
  if f.isI then
    (intResult f sat (if neg then -(intOf f a) else (intOf f a).natAbs), Flags.none)
  else
    liftPk f (fun h args =>
      let x := args.getD 0 0
      let sb := signBit h
      let m := x % sb
      (if neg then (if x / sb % 2 = 1 then m else m + sb) else m, Flags.none)) [a]
/-- VCPSGN (R123). -/
def cpsgn (xor : Bool) (f : Fmt) (a b : Nat) : Nat × Flags :=
  liftPk f (fun h args =>
    let x := args.getD 0 0
    let y := args.getD 1 0
    let sb := signBit h
    let s := if xor then (x / sb + y / sb) % 2 else y / sb % 2
    (x % sb + s * sb, Flags.none)) [a, b]

/-- VCMP on elements: the result and NV (R128). -/
def cmpElem (k : Cond) (f : Fmt) (a b : Nat) : Bool × Flags :=
  if f.isIN then
    (condHolds k (BitVec.ofInt 64 (intOf f a)) (BitVec.ofInt 64 (intOf f b)), Flags.none)
  else
    let x := decodeF f a
    let y := decodeF f b
    let un := x.isNaN || y.isNaN
    let eq := !un && !fLt x y && !fLt y x
    let ord := match k with
      | .lt | .le | .gt | .ge => true
      | _ => false
    let r := match k with
      | .eq => eq
      | .ne => !eq
      | .lt => fLt x y
      | .le => fLt x y || eq
      | .gt => fLt y x
      | .ge => fLt y x || eq
      | .un => un
      | .or => !un
      | _ => false
    (r, Flags.when (isSNaN f a || isSNaN f b || (un && ord)) Flags.invalid)

/-- VCVT on an element (R48, R132). -/
def cvtElem (dst src : Fmt) (rm : RM) (sat : Bool) (a : Nat) : Nat × Flags :=
  if src.isFloat then
    let v := decodeF src a
    let r := if dst.isFloat then encodeF dst v rm sat
      else
        let q := convToInt v dst.width dst.isSigned rm
        (wrap q.1 dst.width, q.2)
    (r.1, r.2.or (Flags.when (isSNaN src a) Flags.invalid))
  else if dst.isFloat then encodeF dst (FVal.ofInt (intOf src a)) rm sat
  else (intResult dst sat (intOf src a), Flags.none)

/-- VRND on an element (R124): no UF, NX when the value changes, a zero keeps the sign of x. -/
def rndElem (f : Fmt) (rm : RM) (a : Nat) : Nat × Flags :=
  let nv := Flags.when (isSNaN f a) Flags.invalid
  match decodeF f a with
  | .nan => (canonNaN f, nv)
  | .inf neg => (withSign f neg (infPat f), nv)
  | .fin neg num den =>
    let r := roundInt neg num den rm
    ((encodeF f (.fin neg r.1.natAbs 1) rm false).1, Flags.when (!r.2) Flags.inexact)

/-- VFDIV on elements (R124): division by zero gives an infinity whatever SAT holds. -/
def divElem (f : Fmt) (rm : RM) (sat : Bool) (a b : Nat) : Nat × Flags :=
  let nv := Flags.when (isSNaN f a || isSNaN f b) Flags.invalid
  let q := fDiv (decodeF f a) (decodeF f b)
  if q.2.2 then (withSign f q.1.neg? (infPat f), nv.or Flags.divZero)
  else
    let r := encodeOp f (q.1, q.2.1) rm sat
    (r.1, r.2.or nv)

/-- x × 2^y; exponents beyond ±5,000 round as ±5,000 does in every format. -/
def scalbVal (v : FVal) (y : Int) : FVal :=
  match v with
  | .fin neg num den =>
    let p := pow2 (max (-5000) (min y 5000))
    .fin neg (num * p.1) (den * p.2)
  | _ => v
/-- VSCALB on an element (R123, R124). -/
def scalbElem (f : Fmt) (rm : RM) (sat : Bool) (a b : Nat) : Nat × Flags :=
  let r := encodeF f (scalbVal (decodeF f a) (sext b 32)) rm sat
  (r.1, r.2.or (Flags.when (isSNaN f a) Flags.invalid))

/-- VABSD, VMAD, VMULH on elements (R123, R125). -/
def absdElem (f : Fmt) (a b : Nat) : Nat := wrap (intOf f a - intOf f b).natAbs f.width
/-- VMULH: the high half of the product. -/
def mulhElem (f : Fmt) (a b : Nat) : Nat := wrap (intOf f a * intOf f b / 2 ^ f.width) f.width

/-- A shift count at a width (R130). -/
def vCount (f : Fmt) (b : Nat) : Nat := b % f.width

/-- Whether a sum of values has the invalid case ∞ − ∞ (R46), which a quiet NaN among them does not suppress (R47). -/
def infClash (vs : List FVal) : Bool := vs.contains (.inf false) && vs.contains (.inf true)

/-- VDOT2 (R133). -/
def dot2 (f : Fmt) (rm : RM) (sat : Bool) (a b z : Nat) : Nat × Flags :=
  let lo (x : Nat) := x % 2 ^ 16
  let hi (x : Nat) := x / 2 ^ 16 % 2 ^ 16
  if f.isPK then
    let h := halfFmt f
    let p := fMul (decodeF h (lo a)) (decodeF h (lo b))
    let q := fMul (decodeF h (hi a)) (decodeF h (hi b))
    let r := fAdd rm p.1 q.1
    let t := fAdd rm r.1 (decodeF .f32 z)
    let o := encodeOp .f32 (t.1, p.2 || q.2 || infClash [p.1, q.1, decodeF .f32 z]) rm sat
    let sn := isSNaN h (lo a) || isSNaN h (hi a) || isSNaN h (lo b) || isSNaN h (hi b) || isSNaN .f32 z
    (o.1, o.2.or (Flags.when sn Flags.invalid))
  else
    let g : Fmt := if f.isSigned then .i32 else .n32
    (intResult g sat (intOf f (lo a) * intOf f (lo b) + intOf f (hi a) * intOf f (hi b) + intOf g z), Flags.none)

/-- VPACK (R133). -/
def packElem (f : Fmt) (rm : RM) (sat : Bool) (a b : Nat) : Nat × Flags :=
  if f.isPK then
    let one (x : Nat) : Nat × Flags :=
      let r := encodeF (halfFmt f) (decodeF .f32 x) rm sat
      (r.1, r.2.or (Flags.when (isSNaN .f32 x) Flags.invalid))
    let lo := one a
    let hi := one b
    (lo.1 + hi.1 * 2 ^ 16, lo.2.or hi.2)
  else
    let g : Fmt := if f.isSigned then .i32 else .n32
    (intResult f sat (intOf g a) + intResult f sat (intOf g b) * 2 ^ 16, Flags.none)

/-- VUNPKL, VUNPKH (R133). -/
def unpackElem (high : Bool) (f : Fmt) (a : Nat) : Nat × Flags :=
  let h := if high then a / 2 ^ 16 % 2 ^ 16 else a % 2 ^ 16
  if f.isPK then
    ((encodeF .f32 (decodeF (halfFmt f) h) .rne false).1, Flags.when (isSNaN (halfFmt f) h) Flags.invalid)
  else (wrap (intOf f h) 32, Flags.none)

/-! ### Words -/

/-- A vector word (R21): a result and flags in each active lane; D holds elements of format `df`. -/
def laneFx (x : Ctx) (g : Guard) (df : Fmt) (d : Nat) (r : Nat → Nat × Flags) : Fx :=
  let ls := x.x.lanes g
  { vLong := ls.flatMap (fun l => elemWrites df d l (r l).1)
    flags := Flags.all (ls.map (fun l => (r l).2)) }

/-- A vector word of format f that reads and writes elements of f. -/
def vecWord (s : State) (c : Ctl) (regs : List VUse) (df : Fmt) (d : VReg) (fp : Bool)
    (r : Ctx → Nat → Nat × Flags) : Host.Outcome State Fault Refusal :=
  regWord s c.m (chkRegs regs) (fun x => { laneFx x c.guard df d.val (r x) with fp := fp })

/-- The effective rounding mode of a word (R40). -/
def Ctx.rm (x : Ctx) (r : Rnd) : RM := effRM x.x.smode r

/-- A two-source arithmetic word. -/
def arith2 (k : Arith) (s : State) (c : Ctl) (f : Fmt) (r : Rnd) (sat : Bool) (d a : VReg) (b : VSrc) :=
  vecWord s c (useD f d :: useA f a :: useB f b) f d (!f.isIN)
    (fun x l => arith k f (x.rm r) sat [x.elem f a.val l, x.elemSrc f l b])
/-- A three-source arithmetic word. -/
def arith3 (k : Arith) (s : State) (c : Ctl) (f : Fmt) (r : Rnd) (sat : Bool) (d a : VReg) (b e : VSrc) :=
  vecWord s c (useD f d :: useA f a :: (useB f b ++ useB f e)) f d (!f.isIN)
    (fun x l => arith k f (x.rm r) sat [x.elem f a.val l, x.elemSrc f l b, x.elemSrc f l e])
/-- A word on one element of A. -/
def vec1 (s : State) (c : Ctl) (f df : Fmt) (d a : VReg) (fp : Bool) (r : Ctx → Nat → Nat × Flags) :=
  vecWord s c [useD df d, useA f a] df d fp (fun x l => r x (x.elem f a.val l))
/-- A word on elements of A and B. -/
def vec2 (s : State) (c : Ctl) (f : Fmt) (d a : VReg) (b : VSrc) (fp : Bool) (r : Ctx → Nat → Nat → Nat × Flags) :=
  vecWord s c (useD f d :: useA f a :: useB f b) f d fp (fun x l => r x (x.elem f a.val l) (x.elemSrc f l b))
/-- A bit operation on a W element with a 32-bit count in B (R130). -/
def vecShift (s : State) (c : Ctl) (f : Fmt) (d a : VReg) (b : VSrc) (r : Nat → Nat → Nat) :=
  vecWord s c (useD f d :: useA f a :: useB .n32 b) f d false
    (fun x l => (r (x.elem f a.val l) (vCount f (x.word32Src l b)), Flags.none))

/-- VADD. -/
def execVadd (c : Ctl) (f : Fmt) (r : Rnd) (sat : Bool) (d a : VReg) (b : VSrc) (s : State) := arith2 .add s c f r sat d a b
/-- VSUB. -/
def execVsub (c : Ctl) (f : Fmt) (r : Rnd) (sat : Bool) (d a : VReg) (b : VSrc) (s : State) := arith2 .sub s c f r sat d a b
/-- VMUL. -/
def execVmul (c : Ctl) (f : Fmt) (r : Rnd) (sat : Bool) (d a : VReg) (b : VSrc) (s : State) := arith2 .mul s c f r sat d a b
/-- VFMA. -/
def execVfma (c : Ctl) (f : Fmt) (r : Rnd) (sat : Bool) (d a : VReg) (b e : VSrc) (s : State) := arith3 .fma s c f r sat d a b e
/-- VFMS. -/
def execVfms (c : Ctl) (f : Fmt) (r : Rnd) (sat : Bool) (d a : VReg) (b e : VSrc) (s : State) := arith3 .fms s c f r sat d a b e
/-- VFNMA. -/
def execVfnma (c : Ctl) (f : Fmt) (r : Rnd) (sat : Bool) (d a : VReg) (b e : VSrc) (s : State) := arith3 .fnma s c f r sat d a b e
/-- VMIN (R127). -/
def execVmin (c : Ctl) (f : Fmt) (prop : Bool) (d a : VReg) (b : VSrc) (s : State) :=
  vec2 s c f d a b (!f.isIN) (fun _ => minMaxElem false f prop)
/-- VMAX (R127). -/
def execVmax (c : Ctl) (f : Fmt) (prop : Bool) (d a : VReg) (b : VSrc) (s : State) :=
  vec2 s c f d a b (!f.isIN) (fun _ => minMaxElem true f prop)
/-- VABS. -/
def execVabs (c : Ctl) (f : Fmt) (sat : Bool) (d a : VReg) (s : State) := vec1 s c f f d a (!f.isI) (fun _ => absNeg false f sat)
/-- VNEG. -/
def execVneg (c : Ctl) (f : Fmt) (sat : Bool) (d a : VReg) (s : State) := vec1 s c f f d a (!f.isI) (fun _ => absNeg true f sat)
/-- VCPSGN. -/
def execVcpsgn (c : Ctl) (f : Fmt) (xor : Bool) (d a : VReg) (b : VSrc) (s : State) := vec2 s c f d a b true (fun _ => cpsgn xor f)

/-- A vector compare: pushes its result in each active lane and 0 elsewhere (R23, R128). -/
def vcmpFx (x : Ctx) (g : Guard) (f : Fmt) (k : Cond) (a : Nat) (b : VSrc) : Fx :=
  let r (l : Nat) := cmpElem k f (x.elem f a l) (x.elemSrc f l b)
  { push := some (laneMask (fun l => x.x.active g l && (r l).1))
    flags := Flags.all ((x.x.lanes g).map (fun l => (r l).2)), fp := !f.isIN }
/-- VCMP. -/
def execVcmp (c : Ctl) (f : Fmt) (k : Cond) (a : VReg) (b : VSrc) (s : State) :=
  regWord s c.m (chkRegs (useA f a :: useB f b)) (fun x => vcmpFx x c.guard f k a.val b)
/-- VSEL (R129). -/
def execVsel (c : Ctl) (f : Fmt) (neg : Bool) (depth : Fin 8) (d a : VReg) (b : VSrc) (s : State) :=
  vecWord s c (useD f d :: useA f a :: useB f b) f d false
    (fun x l => (if x.x.qBit l depth.val != neg then x.elem f a.val l else x.elemSrc f l b, Flags.none))
/-- VMOV (R129). -/
def execVmov (c : Ctl) (f : Fmt) (d : VReg) (b : VSrc) (s : State) :=
  vecWord s c (useD f d :: useB f b) f d false (fun x l => (x.elemSrc f l b, Flags.none))
/-- VCVT (R132). -/
def execVcvt (c : Ctl) (f src : Fmt) (r : Rnd) (sat : Bool) (d a : VReg) (s : State) :=
  vec1 s c src f d a (f.isFloat || src.isFloat) (fun x => cvtElem f src (x.rm r) sat)
/-- VRND (R124). -/
def execVrnd (c : Ctl) (f : Fmt) (r : Rnd) (d a : VReg) (s : State) := vec1 s c f f d a true (fun x => rndElem f (x.rm r))
/-- VFDIV (R124). -/
def execVfdiv (c : Ctl) (f : Fmt) (r : Rnd) (sat : Bool) (d a : VReg) (b : VSrc) (s : State) :=
  vec2 s c f d a b true (fun x => divElem f (x.rm r) sat)
/-- VCLASS (R131): D is one register. -/
def execVclass (c : Ctl) (f : Fmt) (d a : VReg) (s : State) :=
  vec1 s c f .n32 d a true (fun _ a => (2 ^ classOf f a, Flags.none))
/-- VSCALB: B is one 32-bit operand read as I32 (R123). -/
def execVscalb (c : Ctl) (f : Fmt) (r : Rnd) (sat : Bool) (d a : VReg) (b : VSrc) (s : State) :=
  vecWord s c (useD f d :: useA f a :: useB .n32 b) f d true
    (fun x l => scalbElem f (x.rm r) sat (x.elem f a.val l) (x.word32Src l b))
/-- VABSD: delivered unsigned and zero-extended (R120, R123). -/
def execVabsd (c : Ctl) (f : Fmt) (d a : VReg) (b : VSrc) (s : State) :=
  vecWord s c (useD f d :: useA f a :: useB f b) (if f.is64 then .n64 else .n32) d false
    (fun x l => (absdElem f (x.elem f a.val l) (x.elemSrc f l b), Flags.none))
/-- VMAD (R125). -/
def execVmad (c : Ctl) (f : Fmt) (sat : Bool) (d a : VReg) (b e : VSrc) (s : State) := arith3 .fma s c f .rne sat d a b e
/-- VMULH. -/
def execVmulh (c : Ctl) (f : Fmt) (d a : VReg) (b : VSrc) (s : State) := vec2 s c f d a b false (fun _ x y => (mulhElem f x y, Flags.none))
/-- VAND. -/
def execVand (c : Ctl) (f : Fmt) (d a : VReg) (b : VSrc) (s : State) := vec2 s c f d a b false (fun _ x y => (x &&& y, Flags.none))
/-- VOR. -/
def execVor (c : Ctl) (f : Fmt) (d a : VReg) (b : VSrc) (s : State) := vec2 s c f d a b false (fun _ x y => (x ||| y, Flags.none))
/-- VXOR. -/
def execVxor (c : Ctl) (f : Fmt) (d a : VReg) (b : VSrc) (s : State) := vec2 s c f d a b false (fun _ x y => (x ^^^ y, Flags.none))
/-- NOT a at a width. -/
def notElem (f : Fmt) (a : Nat) : Nat := 2 ^ f.width - 1 - a
/-- VANDN. -/
def execVandn (c : Ctl) (f : Fmt) (d a : VReg) (b : VSrc) (s : State) := vec2 s c f d a b false (fun _ x y => (x &&& notElem f y, Flags.none))
/-- VNOT. -/
def execVnot (c : Ctl) (f : Fmt) (d a : VReg) (s : State) := vec1 s c f f d a false (fun _ x => (notElem f x, Flags.none))
/-- The shifts on a W element (R130). -/
def shlElem (f : Fmt) (a n : Nat) : Nat := a * 2 ^ n % 2 ^ f.width
/-- VSHR. -/
def shrElem (_f : Fmt) (a n : Nat) : Nat := a / 2 ^ n
/-- VSRA. -/
def sraElem (f : Fmt) (a n : Nat) : Nat := wrap (sext a f.width / 2 ^ n) f.width
/-- VSHL. -/
def execVshl (c : Ctl) (f : Fmt) (d a : VReg) (b : VSrc) (s : State) := vecShift s c f d a b (shlElem f)
/-- VSHR. -/
def execVshr (c : Ctl) (f : Fmt) (d a : VReg) (b : VSrc) (s : State) := vecShift s c f d a b (shrElem f)
/-- VSRA. -/
def execVsra (c : Ctl) (f : Fmt) (d a : VReg) (b : VSrc) (s : State) := vecShift s c f d a b (sraElem f)
/-- VCLZ. -/
def execVclz (c : Ctl) (f : Fmt) (d a : VReg) (s : State) := vec1 s c f f d a false (fun _ x => (clz f.width x, Flags.none))
/-- VPOPC. -/
def execVpopc (c : Ctl) (f : Fmt) (d a : VReg) (s : State) := vec1 s c f f d a false (fun _ x => (popc f.width x, Flags.none))
/-- VBREV. -/
def execVbrev (c : Ctl) (f : Fmt) (d a : VReg) (s : State) := vec1 s c f f d a false (fun _ x => (brev f.width x, Flags.none))
/-- VBFX (R130). -/
def execVbfx (c : Ctl) (f : Fmt) (signed : Bool) (d a : VReg) (b e : VSrc) (s : State) :=
  vecWord s c (useD f d :: useA f a :: (useB .n32 b ++ useB .n32 e)) f d false
    (fun x l => (bfx f.width signed (x.elem f a.val l) (vCount f (x.word32Src l b)) (x.word32Src l e % 128), Flags.none))
/-- VBFI: the old D is also a source (R130). -/
def execVbfi (c : Ctl) (f : Fmt) (d a : VReg) (b e : VSrc) (s : State) :=
  vecWord s c (useA f d :: useA f a :: (useB .n32 b ++ useB .n32 e)) f d false
    (fun x l => (bfi f.width (x.elem f d.val l) (x.elem f a.val l) (vCount f (x.word32Src l b)) (x.word32Src l e % 128), Flags.none))
/-- VDOT2 (R133): D and C are 32-bit. -/
def execVdot2 (c : Ctl) (f : Fmt) (r : Rnd) (sat : Bool) (d a : VReg) (b e : VSrc) (s : State) :=
  vecWord s c (useD .n32 d :: useA .n32 a :: (useB .n32 b ++ useB .n32 e)) .n32 d f.isPK
    (fun x l => dot2 f (x.rm r) sat (x.elem .n32 a.val l) (x.word32Src l b) (x.word32Src l e))
/-- VPACK (R133). -/
def execVpack (c : Ctl) (f : Fmt) (r : Rnd) (sat : Bool) (d a : VReg) (b : VSrc) (s : State) :=
  vec2 s c .n32 d a b f.isPK (fun x => packElem f (x.rm r) sat)
/-- VUNPKL (R133). -/
def execVunpkl (c : Ctl) (f : Fmt) (d a : VReg) (s : State) := vec1 s c .n32 .n32 d a f.isPK (fun _ => unpackElem false f)
/-- VUNPKH (R133). -/
def execVunpkh (c : Ctl) (f : Fmt) (d a : VReg) (s : State) := vec1 s c .n32 .n32 d a f.isPK (fun _ => unpackElem true f)
/-- VKBENC (R134). -/
def execVkbenc (c : Ctl) (f : Fmt) (d a : VReg) (b : VSrc) (s : State) :=
  vec2 s c .n32 d a b false (fun _ x y => (kbEncode f (sext x 32) (y % 2), Flags.none))
/-- VKBDEC (R134): with .Q it also pushes the selectors. -/
def execVkbdec (c : Ctl) (f : Fmt) (q : Bool) (d a : VReg) (s : State) :=
  regWord s c.m (chkRegs [useD .n32 d, useA .n32 a]) (fun x =>
    { laneFx x c.guard .n32 d.val (fun l => (wrap (kbValue f (x.elem .n32 a.val l)).2 32, Flags.none)) with
      push := if q then
          some (laneMask (fun l => x.x.active c.guard l && (kbValue f (x.elem .n32 a.val l)).1 == 1))
        else none })
/-- VMOVK (R129). -/
def execVmovk (c : Ctl) (d : VReg) (k : BitVec 32) (s : State) :=
  vecWord s c [useD .n32 d] .n32 d false (fun _ _ => (k.toNat, Flags.none))
/-- VCLAMP (R127). -/
def execVclamp (c : Ctl) (f : Fmt) (prop : Bool) (d a : VReg) (b e : VSrc) (s : State) :=
  vecWord s c (useD f d :: useA f a :: (useB f b ++ useB f e)) f d (!f.isIN)
    (fun x l => clampElem f prop (x.elem f a.val l) (x.elemSrc f l b) (x.elemSrc f l e))
/-- VMOVQ (R129). -/
def execVmovq (c : Ctl) (d : VReg) (s : State) :=
  vecWord s c [useD .n32 d] .n32 d false (fun x l => ((x.x.qLane l).toNat, Flags.none))

/-! ### Special functions (R135) -/

/-- A special-function word. -/
def specialWord (fn : SpecialFn) (s : State) (c : Ctl) (f : Fmt) (r : Rnd) (sat : Bool) (d a : VReg) :=
  vec1 s c f f d a true (fun x => specialFn fn f (x.rm r) sat)
/-- VRCP. -/
def execVrcp (c : Ctl) (f : Fmt) (r : Rnd) (sat : Bool) (d a : VReg) (s : State) := specialWord .rcp s c f r sat d a
/-- VRSQ. -/
def execVrsq (c : Ctl) (f : Fmt) (r : Rnd) (sat : Bool) (d a : VReg) (s : State) := specialWord .rsq s c f r sat d a
/-- VSQRT. -/
def execVsqrt (c : Ctl) (f : Fmt) (r : Rnd) (sat : Bool) (d a : VReg) (s : State) := specialWord .sqrt s c f r sat d a
/-- VEXP2. -/
def execVexp2 (c : Ctl) (f : Fmt) (r : Rnd) (sat : Bool) (d a : VReg) (s : State) := specialWord .exp2 s c f r sat d a
/-- VLOG2. -/
def execVlog2 (c : Ctl) (f : Fmt) (r : Rnd) (sat : Bool) (d a : VReg) (s : State) := specialWord .log2 s c f r sat d a
/-- VSIN. -/
def execVsin (c : Ctl) (f : Fmt) (r : Rnd) (sat : Bool) (d a : VReg) (s : State) := specialWord .sin s c f r sat d a
/-- VCOS. -/
def execVcos (c : Ctl) (f : Fmt) (r : Rnd) (sat : Bool) (d a : VReg) (s : State) := specialWord .cos s c f r sat d a
/-- VTANH. -/
def execVtanh (c : Ctl) (f : Fmt) (r : Rnd) (sat : Bool) (d a : VReg) (s : State) := specialWord .tanh s c f r sat d a

/-! ### Emulation-defined division (R75, R142) -/

/-- An emulation-defined word on stepping A1: the emulated-opcode trap when a lane is active, else no effect (R75). It reads no
register, so that a poisoned source is not reported (R74, R191; log entry 113). -/
def emulated (s : State) (c : Ctl) (d a : VReg) (b : VSrc) : Host.Outcome State Fault Refusal :=
  issue s (chkRegs ((useD .n32 d :: useA .n32 a :: useB .n32 b).map (fun u => { u with read := false }))) (fun x =>
    if (x.x.lanes c.guard).isEmpty then x.done {} c.m else x.trap { cause := .emulatedOpcode })
/-- VDIV.I32. -/
def execVdivI32 (c : Ctl) (d a : VReg) (b : VSrc) (s : State) := emulated s c d a b
/-- VDIV.N32. -/
def execVdivN32 (c : Ctl) (d a : VReg) (b : VSrc) (s : State) := emulated s c d a b
/-- VREM.I32. -/
def execVremI32 (c : Ctl) (d a : VReg) (b : VSrc) (s : State) := emulated s c d a b
/-- VREM.N32. -/
def execVremN32 (c : Ctl) (d a : VReg) (b : VSrc) (s : State) := emulated s c d a b

/-- The quotient and remainder that an emulating handler must reproduce (R142): the result and DZ. -/
def divEmu (signed rem : Bool) (a b : Nat) : Nat × Flags :=
  if b % 2 ^ 32 = 0 then (if rem then a else 2 ^ 32 - 1, Flags.divZero)
  else if signed then
    let x := sext a 32
    let y := sext b 32
    (wrap (if rem then x.tmod y else x.tdiv y) 32, Flags.none)
  else (if rem then a % b else a / b, Flags.none)

end Sys2Proof.Machine
end

