-- ==== Sys2Proof/Machine/Control.lean ====
section
/-! DEFINITION. Branches, calls, returns, dispatch tables and WAIT (R104–R111, R116), paired words (R28, R65–R69), and words
that are not instructions (R73). EXIT stands in Sys2Proof/Machine/Leave.lean. -/

namespace Sys2Proof.Machine

/-! ### Branches -/

/-- The target of a BR word (R61). -/
def Ctx.relative (c : Ctx) (disp : BitVec 32) : Word64 := c.x.pc + BitVec.ofInt 64 (8 * disp.toInt)

/-- Whether the word is the loop-back word of its origin's section (R313, R317). -/
def Ctx.atLoopBack (c : Ctx) : Bool :=
  match c.grid?.bind (fun g => g.splice.map (fun sp => (g, sp))) with
  | none => false
  | some (g, sp) =>
    (c.partNow == 4 && c.x.pc.toNat == recEntry g.lrec + tableEnd sp.tableP)
      || (c.partNow == 6 && c.x.pc.toNat == recEntry sp.recC + tableEnd sp.tableC)

/-- C's taken loop-back goes to join A (R315); the end of the part is a parking point. -/
def State.toJoinA (s : State) (k : Nat) : State :=
  match s.ctx k with
  | none => s
  | some c =>
    match c.x.splice, c.grid?.bind (fun g => g.splice.map (fun sp => (g, sp))) with
    | some ss, some (g, sp) =>
      let t := startPart3 g sp
      s.modSlice k (fun x => s.parkSlice ({ x with issued := x.issued + 1 }.enterPart ss t.1 t.2))
    | _, _ => s

/-- The loop-back word of a spliced section (R315, R317): P's records its decision, C's decides. -/
def Ctx.loopBack (c : Ctx) (taken m : Bool) : State :=
  match c.x.splice with
  | none => c.s
  | some ss =>
    if ss.part = 4 then
      (c.s.modSlice c.k (fun x => { x with splice := some { ss with decision := taken } })).finish c.k m
    else if taken != ss.decision then c.trap { cause := .spliceDivergence }
    else if taken then c.s.toJoinA c.k
    else c.s.finish c.k m

/-- A BR word: branches when its guard passes and its condition holds (R104). -/
def branch (s : State) (ctl : Ctl) (disp : BitVec 32) (cond : Ctx → Bool) : Host.Outcome State Fault Refusal :=
  issue s (chkRegs []) (fun c =>
    let taken := c.x.guardScalar ctl.guard && cond c
    if c.atLoopBack then c.loopBack taken ctl.m
    else if taken then c.s.goto c.k (c.relative disp) true ctl.m
    else c.s.finish c.k ctl.m)

/-- BRA; .PACK changes nothing in the slice's architectural state (R105). -/
def execBra (c : Ctl) (_pack : Bool) (disp : BitVec 32) (s : State) := branch s c disp (fun _ => true)
/-- BEXZ. -/
def execBexz (c : Ctl) (_pack : Bool) (disp : BitVec 32) (s : State) := branch s c disp (fun x => x.x.exec == 0)
/-- BEXNZ. -/
def execBexnz (c : Ctl) (_pack : Bool) (disp : BitVec 32) (s : State) := branch s c disp (fun x => x.x.exec != 0)
/-- CALL. -/
def execCall (c : Ctl) (d : SReg) (disp : BitVec 32) (s : State) : Host.Outcome State Fault Refusal :=
  issue s (chkRegs []) (fun x =>
    if x.x.guardScalar c.guard then
      (x.s.modSlice x.k (x.applyTo { sShort := [(d.val, x.x.pc + 8)] })).goto x.k (x.relative disp) true c.m
    else x.s.finish x.k c.m)

/-- A jump to a register's value (R106). -/
def jumpTo (s : State) (ctl : Ctl) (a : SSrc) : Host.Outcome State Fault Refusal :=
  issue s (chkRegs []) (fun c =>
    if c.x.guardScalar ctl.guard then
      let t := c.src a
      if t.toNat % 8 ≠ 0 then c.trap { cause := .misalignedFetch, addr := t }
      else c.s.goto c.k t false ctl.m
    else c.s.finish c.k ctl.m)
/-- RET. -/
def execRet (c : Ctl) (a : SSrc) (s : State) := jumpTo s c a
/-- BRS. -/
def execBrs (c : Ctl) (a : SSrc) (s : State) := jumpTo s c a

/-- The target that a dispatch-table index selects (R108, R109, R111): the trap, or the target and the context after
the read. -/
def Ctx.dispatch (c : Ctx) (idx : Nat) : Except TrapInfo (Word64 × Ctx) :=
  if c.special 0 .dtlen ≤ idx then .error { cause := .dispatchRange, addr := BitVec.ofNat 64 idx }
  else
    match c.readNow .core (wrap (c.special 0 .dtbase + 8 * idx) 64) 8 with
    | .error t => .error t
    | .ok (bs, y) =>
      let t := BitVec.ofNat 64 (c.special 0 .kentry + leNat bs)
      if t.toNat % 8 ≠ 0 then .error { cause := .misalignedFetch, addr := t } else .ok (t, y)

/-- BRIX (R109). -/
def execBrix (c : Ctl) (a : SSrc) (s : State) : Host.Outcome State Fault Refusal :=
  issue s (chkRegs []) (fun x =>
    if x.x.guardScalar c.guard then
      x.afterOwn false (wrap (x.special 0 .dtbase + 8 * (x.src a).toNat) 64) 8 (fun y =>
        match y.dispatch (y.src a).toNat with
        | .error t => y.trapX t
        | .ok (t, z) => z.s.goto z.k t false c.m)
    else x.s.finish x.k c.m)

/-- BRIXL (R110). -/
def execBrixl (c : Ctl) (d : SReg) (va : VReg) (s : State) : Host.Outcome State Fault Refusal :=
  issue s (chkRegs [useA .n32 va]) (fun x =>
    match (List.range 4).find? (fun l => x.x.execBit l) with
    | none => x.done { sShort := [(d.val, 0)] } c.m
    | some l =>
      let idx := x.rdV va.val l
      x.afterOwn false (wrap (x.special 0 .dtbase + 8 * idx.toNat) 64) 8 (fun y =>
        match y.dispatch idx.toNat with
        | .error t => y.trapX t
        | .ok (t, z) =>
          let m := laneMask (fun j => y.x.execBit j && y.rdV va.val j == idx)
          let fx : Fx := { sShort := [(d.val, (y.x.exec &&& ~~~m).setWidth 64)], exec := some m }
          (z.s.modSlice z.k (y.applyTo fx)).goto z.k t false c.m))

/-! ### WAIT -/

/-- Whether a counter meets a threshold (R116): 7 does not wait. -/
def meets (n : BitVec 6) (t : Fin 8) : Bool := t.val == 7 || decide (n.toNat ≤ t.val)

/-- What a WAIT on EN or FB makes known: the writes of the slice's engine commands and fabric operations that have completed, on their own
paths (R239, R257). -/
def State.waited (s : State) (k : Nat) (en fb : Fin 8) : State :=
  match s.ctx k with
  | none => s
  | some c =>
    let core := s.core c.b.core
    let busy (n : Nat) : Bool := (core.cmdq ++ core.copyq).any (fun d => d.slice == k && d.seq == n)
    let ws := s.past.filter (fun w =>
      en.val != 7 && ((w.path == .cp || w.path == .mx) && w.site.key == k && !busy w.seq
          || w.path == .cl && keyBlock w.site.key == keyBlock k)
        || fb.val != 7 && w.path == .fb && w.site.key == k && !c.x.ops.any (fun o => o.seq == w.seq))
    if ws.isEmpty then s else s.modSlice k (fun x => x.learn (ws.map (fun w => w.known w.path x.seq)))

/-- WAIT (R116, R117, R245, R277, R438): a WAIT below the ST count performs every held write; while a threshold is exceeded
the slice stays. -/
def execWait (c : Ctl) (ld st en wl fb : Fin 8) (s : State) : Host.Outcome State Fault Refusal :=
  issue s (fun _ => { engine := en.val != 7 }) (fun x =>
    if x.x.guardScalar c.guard then
      let go (y : Ctx) : State :=
        let n := y.x.cnt
        if meets n.ld ld && meets n.st st && meets n.en en && meets n.wl wl && meets n.fb fb then
          ((y.s.waited y.k en fb).modSlice y.k (fun z =>
            { z with stale := z.stale.filter (fun p => p.survives en fb) })).finish y.k c.m
        else if meets n.ld ld then y.s
        else
          y.s.modSlice y.k (fun z =>
            { z with ops := z.ops.map (fun o => if o.kind.isLd then { o with consumer := true } else o) })
      if meets x.x.cnt.st st then go x else x.release go
    else x.s.finish x.k c.m)

/-! ### Paired words -/

/-- The guard of a half (R66). -/
def halfGuard (pg : Fin 8) : Guard :=
  if pg.val = 0 then .always
  else if pg.val = 1 then .q false 0
  else if pg.val = 2 then .q true 0
  else if pg.val = 3 then .q false 1
  else if pg.val = 4 then .q true 1
  else if pg.val = 5 then .q false 2
  else if pg.val = 6 then .q true 2
  else .q false 3

/-- A half that writes a scalar register. -/
def Ctx.halfS (x : Ctx) (h : Half) (v : Word64) : Fx :=
  if x.x.guardScalar (halfGuard h.pg) then { sShort := [(h.d.toNat % 64, v)] } else {}
/-- A half that writes a vector register. -/
def Ctx.halfV (x : Ctx) (h : Half) (fp : Bool) (r : Nat → Nat × Flags) : Fx :=
  { laneFx x (halfGuard h.pg) .n32 h.d.toNat r with fp := fp }

/-- The effect of a half (R68): that of the full-word instruction in its row. -/
def Ctx.half (x : Ctx) (h : Half) : Fx :=
  let sa := x.rdS (h.a.toNat % 64)
  let sx := x.rdS (h.x.toNat % 64)
  let va (l : Nat) := (x.rdV h.a.toNat l).toNat
  let vx (l : Nat) := (x.rdV h.x.toNat l).toNat
  let vd (l : Nat) := (x.rdV h.d.toNat l).toNat
  let rm := x.rm .dflt
  match h.pop with
  | .nop => {}
  | .sadd => x.halfS h (addS false sa sx)
  | .ssub => x.halfS h (subS false sa sx)
  | .sand => x.halfS h (sa &&& sx)
  | .sor => x.halfS h (sa ||| sx)
  | .sxor => x.halfS h (sa ^^^ sx)
  | .smov => x.halfS h sa
  | .saddi => x.halfS h (addS false sa (BitVec.ofInt 64 (sext h.x.toNat 7)))
  | .sshli => x.halfS h (shlS sa (h.x.toNat % 64))
  | .sshri => x.halfS h (shrS sa (h.x.toNat % 64))
  | .scmpEq => compareFx x (halfGuard h.pg) (condHolds .eq sa sx)
  | .scmpLt => compareFx x (halfGuard h.pg) (condHolds .lt sa sx)
  | .scmpLtn => compareFx x (halfGuard h.pg) (condHolds .ltn sa sx)
  | .vaddF32 => x.halfV h true (fun l => arith .add .f32 rm false [va l, vx l])
  | .vsubF32 => x.halfV h true (fun l => arith .sub .f32 rm false [va l, vx l])
  | .vmulF32 => x.halfV h true (fun l => arith .mul .f32 rm false [va l, vx l])
  | .vfmaF32 => x.halfV h true (fun l => arith .fma .f32 rm false [va l, vx l, vd l])
  | .vminF32 => x.halfV h true (fun l => minMaxElem false .f32 false (va l) (vx l))
  | .vmaxF32 => x.halfV h true (fun l => minMaxElem true .f32 false (va l) (vx l))
  | .vaddI32 => x.halfV h false (fun l => arith .add .i32 rm false [va l, vx l])
  | .vsubI32 => x.halfV h false (fun l => arith .sub .i32 rm false [va l, vx l])
  | .vmulI32 => x.halfV h false (fun l => arith .mul .i32 rm false [va l, vx l])
  | .vand => x.halfV h false (fun l => (va l &&& vx l, Flags.none))
  | .vor => x.halfV h false (fun l => (va l ||| vx l, Flags.none))
  | .vxor => x.halfV h false (fun l => (va l ^^^ vx l, Flags.none))
  | .vmov => x.halfV h false (fun l => (va l, Flags.none))
  | .vmovS => x.halfV h false (fun _ => (sa.toNat % 2 ^ 32, Flags.none))
  | .vshl => x.halfV h false (fun l => (shlElem .n32 (va l) (vCount .n32 (vx l)), Flags.none))
  | .vshr => x.halfV h false (fun l => (shrElem .n32 (va l) (vCount .n32 (vx l)), Flags.none))
  | .vcmpLtF32 =>
    let r (l : Nat) := cmpElem .lt .f32 (va l) (vx l)
    { push := some (laneMask (fun l => x.x.active (halfGuard h.pg) l && (r l).1))
      flags := Flags.all ((x.x.lanes (halfGuard h.pg)).map (fun l => (r l).2)), fp := true }
  | .vcmpEqI32 =>
    let r (l : Nat) := cmpElem .eq .i32 (va l) (vx l)
    { push := some (laneMask (fun l => x.x.active (halfGuard h.pg) l && (r l).1)) }
  | .vcvtF32I32 => x.halfV h true (fun l => cvtElem .f32 .i32 rm false (va l))
  | .vcvtI32F32 => x.halfV h true (fun l => cvtElem .i32 .f32 rm false (va l))

/-- The register uses of a half (R17, R68). -/
def halfUses (h : Half) : List VUse :=
  let d : VUse := ⟨h.d.toNat, 1, false⟩
  let a : VUse := ⟨h.a.toNat, 1, true⟩
  let x : VUse := ⟨h.x.toNat, 1, true⟩
  match h.pop with
  | .nop | .sadd | .ssub | .sand | .sor | .sxor | .smov | .saddi | .sshli | .sshri | .scmpEq | .scmpLt | .scmpLtn => []
  | .vaddF32 | .vsubF32 | .vmulF32 | .vminF32 | .vmaxF32 | .vaddI32 | .vsubI32 | .vmulI32
  | .vand | .vor | .vxor | .vshl | .vshr => [d, a, x]
  | .vfmaF32 => [{ d with read := true }, a, x]
  | .vmov | .vcvtF32I32 | .vcvtI32F32 => [d, a]
  | .vmovS => [d]
  | .vcmpLtF32 | .vcmpEqI32 => [a, x]

/-- A paired word (R28): both halves read before either writes; the first half's writes come first, and where both write one
element the second half's value remains. -/
def execPairedWord (m : Bool) (h1 h2 : Half) (s : State) : Host.Outcome State Fault Refusal :=
  issue s (chkRegs (halfUses h1 ++ halfUses h2)) (fun c =>
    let f1 := c.half h1
    let f2 := c.half h2
    let f1' := { f1 with vLong := f1.vLong.filter (fun w => !f2.vLong.any (fun u => u.1 == w.1 && u.2.1 == w.2.1)) }
    (c.s.modSlice c.k (fun x => c.applyTo f2 (c.applyTo f1' x))).finish c.k m)

/-- A word that is not an instruction takes the illegal-instruction trap (R73). -/
def execIllegalInstruction (_w : Word64) (s : State) : Host.Outcome State Fault Refusal :=
  issue s (fun _ => { illegal := true }) (fun c => c.s)

end Sys2Proof.Machine
end

