-- ==== Sys2Proof/Machine/CrossLane.lean ====
section
/-! DEFINITION. Cross-lane instructions and REGANG (R168–R181): instances, what each word delivers to a member, and the words. -/

namespace Sys2Proof.Machine

/-! ### The threads of an instance (R171) -/

/-- The member that holds a slice number. -/
def memberOf (ms : List Member) (sl : Nat) : Option Member := ms.find? (fun m => keySlice m.slice == sl)
/-- Whether thread u is available: its slice is a member and its lane is active (R171). -/
def available (ms : List Member) (u : Nat) : Bool :=
  match memberOf ms (u / 4) with
  | none => false
  | some m => testBit m.active.toNat (u % 4)
/-- The value that thread u supplies. -/
def suppliedBy (ms : List Member) (u : Nat) : Nat :=
  match memberOf ms (u / 4) with
  | none => 0
  | some m => (m.vals.getD (u % 4) 0).toNat
/-- The available threads, ascending. -/
def contributors (ms : List Member) : List Nat := (List.range 32).filter (available ms)
/-- The mask of threads that satisfy a predicate. -/
def threadMask (ms : List Member) (p : Nat → Bool) : Nat :=
  ((contributors ms).filter p).foldl (fun m u => m + 2 ^ u) 0

/-! ### Trees and scans (R178, R179) -/

/-- One level of the complete binary tree: an absent child passes the other unchanged. -/
def treeLevel {α : Type} (f : α → α → α) : List (Option α) → List (Option α)
  | some a :: some b :: l => some (f a b) :: treeLevel f l
  | some a :: none :: l => some a :: treeLevel f l
  | none :: x :: l => x :: treeLevel f l
  | l => l
/-- The root of the tree over 32 leaves. -/
def treeRoot {α : Type} (f : α → α → α) (l : List (Option α)) : Option α :=
  ((treeLevel f (treeLevel f (treeLevel f (treeLevel f (treeLevel f l))))).head?).join

/-- The reductions of R178. -/
inductive Red where
  | add | min | max | and | or | xor
  deriving DecidableEq, Repr

/-- A leaf with the flags it raises: a NaN becomes the canonical NaN (R44), and a signalling one raises NV (R178). -/
def redLeaf (f : Fmt) (x : Nat) : Nat × Flags :=
  if f = .f32 ∧ isSNaN .f32 x = true then (canonNaN .f32, Flags.invalid)
  else if f = .f32 ∧ (decodeF .f32 x).isNaN = true then (canonNaN .f32, Flags.none)
  else (x, Flags.none)
/-- A node (R178). -/
def redNode (r : Red) (f : Fmt) (a b : Nat × Flags) : Nat × Flags :=
  let fl := a.2.or b.2
  if f = .f32 then
    let n := match r with
      | .add => addF .f32 .rne a.1 b.1
      | .min => minMax .f32 false false a.1 b.1
      | .max => minMax .f32 true false a.1 b.1
      | _ => (0, Flags.none)
    (n.1, fl.or n.2)
  else
    ((match r with
      | .add => wrap (intOf f a.1 + intOf f b.1) 32
      | .min => if intOf f b.1 < intOf f a.1 then b.1 else a.1
      | .max => if intOf f a.1 < intOf f b.1 then b.1 else a.1
      | .and => a.1 &&& b.1
      | .or => a.1 ||| b.1
      | .xor => a.1 ^^^ b.1), fl)

/-- The reduction of an instance's contributors. -/
def reduce (r : Red) (f : Fmt) (ms : List Member) : Nat × Flags :=
  (treeRoot (redNode r f) ((List.range 32).map (fun u =>
    if available ms u then some (redLeaf f (suppliedBy ms u)) else none))).getD (0, Flags.none)

/-- The inclusive prefixes over contributors in ascending order, by thread, and every flag raised (R179). -/
def scanAdd (f : Fmt) (ms : List Member) : List Nat → Option (Nat × Flags) → List (Nat × Nat) × Flags
  | [], acc => ([], (acc.map (fun a => a.2)).getD Flags.none)
  | u :: us, acc =>
    let x := redLeaf f (suppliedBy ms u)
    let v := match acc with
      | none => x
      | some a => redNode .add f a x
    let r := scanAdd f ms us (some v)
    ((u, v.1) :: r.1, r.2)

/-! ### What a completed word delivers to a member (R175–R179) -/

/-- The lane writes and pushed bits of a shuffle. -/
def shuffleFx (f : Fmt) (d : Nat) (keep : Bool) (src : Int → Int → Int) (ms : List Member) (m : Member) : Fx :=
  let t (l : Nat) : Nat := keySlice m.slice * 4 + l
  let u (l : Nat) : Int := src (t l) (m.idx.getD l 0).toNat
  let ok (l : Nat) : Bool := decide (0 ≤ u l) && decide (u l < 32) && available ms (u l).toNat
  let act (l : Nat) : Bool := testBit m.active.toNat l
  { vLong := ((List.range 4).filter act).flatMap (fun l =>
      elemWrites f d l
        (if ok l then suppliedBy ms (u l).toNat
         else if keep then (m.olds.getD l 0).toNat else 0))
    push := some (laneMask (fun l => act l && ok l)) }

/-- The same element in every active lane of a member. -/
def toActive (f : Fmt) (d : Nat) (m : Member) (r : Nat → Nat) : List (Nat × Nat × Word32) :=
  ((List.range 4).filter (fun l => testBit m.active.toNat l)).flatMap (fun l => elemWrites f d l (r l))

/-- A push of one bit in the active lanes. -/
def pushActive (m : Member) (b : Bool) : Fx := { push := some (if b then m.active else 0) }

/-- Whether two contributors hold different patterns. -/
def uniform (ms : List Member) : Bool :=
  match contributors ms with
  | [] => true
  | u :: us => us.all (fun v => suppliedBy ms v == suppliedBy ms u)

/-- A reduction's effect on a member: flags go to members with an active lane. -/
def redFx (r : Red) (f : Fmt) (d : Nat) (ms : List Member) (m : Member) : Fx :=
  let v := reduce r f ms
  { vLong := toActive f d m (fun _ => v.1), flags := if m.active = 0 then Flags.none else v.2, fp := f == .f32 }

/-- The effect of a completed instance on a member. -/
def memberFx (ms : List Member) (m : Member) : Fx :=
  match m.word with
  | .vshfl _ f keep _ d _ _ => shuffleFx f d.val keep (fun _ b => b) ms m
  | .vshflup _ f keep _ d _ _ => shuffleFx f d.val keep (fun t b => t - b) ms m
  | .vshfldn _ f keep _ d _ _ => shuffleFx f d.val keep (fun t b => t + b) ms m
  | .vshflx _ f keep _ d _ _ => shuffleFx f d.val keep (fun t b => (t.toNat ^^^ b.toNat : Nat)) ms m
  | .vbcast _ f _ d _ =>
    { vLong := toActive f d.val m (fun _ => ((contributors ms).head?.map (suppliedBy ms)).getD 0) }
  | .voteany _ _ _ _ => pushActive m ((contributors ms).any (fun u => suppliedBy ms u != 0))
  | .voteall _ _ _ _ => pushActive m ((contributors ms).all (fun u => suppliedBy ms u != 0))
  | .voteuni _ _ _ _ => pushActive m (uniform ms)
  | .vballot _ _ _ d _ =>
    if m.pass then { sLong := [(d.val, BitVec.ofNat 64 (threadMask ms (fun u => suppliedBy ms u != 0)))] } else {}
  | .vmatchany _ _ _ d _ =>
    { vLong := toActive .n32 d.val m (fun l =>
        threadMask ms (fun u => suppliedBy ms u == (m.vals.getD l 0).toNat)) }
  | .vmatchall _ _ _ d _ =>
    { vLong := toActive .n32 d.val m (fun _ => if uniform ms then threadMask ms (fun _ => true) else 0)
      push := some (if uniform ms then m.active else 0) }
  | .vredadd _ f _ d _ => redFx .add f d.val ms m
  | .vredmin _ f _ d _ => redFx .min f d.val ms m
  | .vredmax _ f _ d _ => redFx .max f d.val ms m
  | .vredand _ f _ d _ => redFx .and f d.val ms m
  | .vredor _ f _ d _ => redFx .or f d.val ms m
  | .vredxor _ f _ d _ => redFx .xor f d.val ms m
  | .vscanadd _ f _ d _ =>
    let r := scanAdd f ms (contributors ms) none
    { vLong := toActive f d.val m (fun l =>
        ((r.1.find? (fun p => p.1 == keySlice m.slice * 4 + l)).map (fun p => p.2)).getD 0)
      flags := if m.active = 0 then Flags.none else r.2, fp := f == .f32 }
  | _ => {}

/-- The switch marker of a member's word. -/
def markerOf : Instr → Bool
  | .vshfl c _ _ _ _ _ _ | .vshflup c _ _ _ _ _ _ | .vshfldn c _ _ _ _ _ _ | .vshflx c _ _ _ _ _ _ => c.m
  | .vbcast c _ _ _ _ | .vballot c _ _ _ _ | .vmatchany c _ _ _ _ | .vmatchall c _ _ _ _ => c.m
  | .voteany c _ _ _ | .voteall c _ _ _ | .voteuni c _ _ _ => c.m
  | .vredadd c _ _ _ _ | .vredmin c _ _ _ _ | .vredmax c _ _ _ _ | .vredand c _ _ _ _ | .vredor c _ _ _ _
  | .vredxor c _ _ _ _ | .vscanadd c _ _ _ _ => c.m
  | .regang c _ => c.m
  | _ => false

/-! ### Instances (R168–R170) -/

/-- Whether a slice can still join: launched and not ended. -/
def State.mayCome (s : State) (k : Nat) : Bool :=
  match Table.find s.slices k with
  | none => false
  | some x => !x.ended

/-- Whether an instance of a squad is complete (R168). -/
def State.instComplete (s : State) (uid squad : Nat) (i : Inst) : Bool :=
  (List.range 8).all (fun sl =>
    !(i.members.any (fun m => testBit m.mask.toNat sl)) || (memberOf i.members sl).isSome
      || !s.mayCome (keyOf uid squad sl))

/-- Whether all members hold the same mask (R170). -/
def sameMask : List Member → Bool
  | [] => true
  | m :: ms => ms.all (fun n => n.mask == m.mask)

/-- A completed instance takes effect on one member, or traps it (R170). -/
def State.finishMember (s : State) (ms : List Member) (m : Member) : State :=
  let s1 := s.modSlice m.slice (fun x => { x with hold := .none })
  match s1.ctx m.slice with
  | none => s1
  | some c =>
    if sameMask ms then c.done (memberFx ms m) (markerOf m.word)
    else s1.takeTrap m.slice { cause := .groupSync } ((encode m.word).getD 0)

/-- Changes one squad of a block. -/
def Block.modSquad (b : Block) (q : Nat) (f : Squad → Squad) : Block :=
  { b with squads := (List.range b.squads.length).map (fun i => if i = q then f (b.squad i) else b.squad i) }

/-- Completes an instance of a squad if it can complete. -/
def State.tryInst (s : State) (uid squad : Nat) (i : Inst) : State :=
  if s.instComplete uid squad i then
    i.members.foldl (fun t m => t.finishMember i.members m)
      (s.modBlock uid (fun b => b.modSquad squad (fun q => { q with insts := q.insts.filter (fun j => j.pc != i.pc) })))
  else s

/-- Completes every instance of a squad that can complete: a slice has joined or ended (R168). -/
def State.checkInsts (s : State) (uid squad : Nat) : State :=
  match Table.find s.blocks uid with
  | none => s
  | some b => (b.squad squad).insts.foldl (fun t i => t.tryInst uid squad i) s

/-- A member joins the squad's open instance at its address. -/
def Squad.join (q : Squad) (pc : Word64) (m : Member) : Squad :=
  if q.insts.any (fun i => i.pc == pc) then
    { q with insts := q.insts.map (fun i => if i.pc = pc then { i with members := i.members ++ [m] } else i) }
  else { q with insts := q.insts ++ [⟨pc, [m]⟩] }

/-- The slice joins an instance and is held there (R168); its own bit clear in its mask traps (R170). -/
def Ctx.joinInst (c : Ctx) (m : Member) : State :=
  if !testBit m.mask.toNat (keySlice c.k) then c.trap { cause := .groupSync }
  else
    ((c.s.modSlice c.k (fun x => { x with hold := .inst c.x.pc })).modBlock (keyBlock c.k)
      (fun b => b.modSquad (keySquad c.k) (fun q => q.join c.x.pc m))).checkInsts (keyBlock c.k) (keySquad c.k)

/-- The participation mask of a cross-lane word (R173). -/
def Ctx.sliceMask (c : Ctx) (sm : SliceMask) : BitVec 8 :=
  ~~~sm.xsm &&& (match sm.reg with
    | none => 0xFF
    | some r => (c.rdS r.val).setWidth 8)

/-- A cross-lane word: `f` and `a` give the supplied element, `b` an index operand, `old` the fill of KEEP. -/
def crossLane (s : State) (ctl : Ctl) (i : Instr) (sm : SliceMask) (f : Fmt) (uses : List VUse) (a : VReg)
    (b : Option VSrc) (old : Option VReg) : Host.Outcome State Fault Refusal :=
  issue s (fun _ => { handler := false, regs := useA f a :: uses }) (fun c =>
    c.joinInst
      { slice := c.k, word := i, mask := c.sliceMask sm, active := laneMask (fun l => c.x.active ctl.guard l)
        pass := c.x.guardScalar ctl.guard
        vals := (List.range 4).map (fun l => BitVec.ofNat 64 (c.elem f a.val l))
        olds := match old with
          | none => []
          | some d => (List.range 4).map (fun l => BitVec.ofNat 64 (c.elem f d.val l))
        idx := match b with
          | none => []
          | some x => (List.range 4).map (fun l => BitVec.ofNat 32 (c.word32Src l x)) })

/-- A shuffle word. -/
def shuffleWord (s : State) (ctl : Ctl) (i : Instr) (sm : SliceMask) (keep : Bool) (f : Fmt) (d a : VReg) (b : VSrc) :=
  crossLane s ctl i sm f ((if keep then useA f d else useD f d) :: useB .n32 b) a (some b) (if keep then some d else none)

/-- VSHFL. -/
def execVshfl (c : Ctl) (f : Fmt) (keep : Bool) (sm : SliceMask) (d a : VReg) (b : VSrc) (s : State) :=
  shuffleWord s c (.vshfl c f keep sm d a b) sm keep f d a b
/-- VSHFLUP. -/
def execVshflup (c : Ctl) (f : Fmt) (keep : Bool) (sm : SliceMask) (d a : VReg) (b : VSrc) (s : State) :=
  shuffleWord s c (.vshflup c f keep sm d a b) sm keep f d a b
/-- VSHFLDN. -/
def execVshfldn (c : Ctl) (f : Fmt) (keep : Bool) (sm : SliceMask) (d a : VReg) (b : VSrc) (s : State) :=
  shuffleWord s c (.vshfldn c f keep sm d a b) sm keep f d a b
/-- VSHFLX. -/
def execVshflx (c : Ctl) (f : Fmt) (keep : Bool) (sm : SliceMask) (d a : VReg) (b : VSrc) (s : State) :=
  shuffleWord s c (.vshflx c f keep sm d a b) sm keep f d a b
/-- VBCAST. -/
def execVbcast (c : Ctl) (f : Fmt) (sm : SliceMask) (d a : VReg) (s : State) :=
  crossLane s c (.vbcast c f sm d a) sm f [useD f d] a none none
/-- VOTEANY. -/
def execVoteany (c : Ctl) (f : Fmt) (sm : SliceMask) (a : VReg) (s : State) :=
  crossLane s c (.voteany c f sm a) sm f [] a none none
/-- VOTEALL. -/
def execVoteall (c : Ctl) (f : Fmt) (sm : SliceMask) (a : VReg) (s : State) :=
  crossLane s c (.voteall c f sm a) sm f [] a none none
/-- VOTEUNI. -/
def execVoteuni (c : Ctl) (f : Fmt) (sm : SliceMask) (a : VReg) (s : State) :=
  crossLane s c (.voteuni c f sm a) sm f [] a none none
/-- VBALLOT. -/
def execVballot (c : Ctl) (f : Fmt) (sm : SliceMask) (d : SReg) (a : VReg) (s : State) :=
  crossLane s c (.vballot c f sm d a) sm f [] a none none
/-- VMATCHANY. -/
def execVmatchany (c : Ctl) (f : Fmt) (sm : SliceMask) (d a : VReg) (s : State) :=
  crossLane s c (.vmatchany c f sm d a) sm f [useD .n32 d] a none none
/-- VMATCHALL. -/
def execVmatchall (c : Ctl) (f : Fmt) (sm : SliceMask) (d a : VReg) (s : State) :=
  crossLane s c (.vmatchall c f sm d a) sm f [useD .n32 d] a none none
/-- VREDADD. -/
def execVredadd (c : Ctl) (f : Fmt) (sm : SliceMask) (d a : VReg) (s : State) :=
  crossLane s c (.vredadd c f sm d a) sm f [useD f d] a none none
/-- VREDMIN. -/
def execVredmin (c : Ctl) (f : Fmt) (sm : SliceMask) (d a : VReg) (s : State) :=
  crossLane s c (.vredmin c f sm d a) sm f [useD f d] a none none
/-- VREDMAX. -/
def execVredmax (c : Ctl) (f : Fmt) (sm : SliceMask) (d a : VReg) (s : State) :=
  crossLane s c (.vredmax c f sm d a) sm f [useD f d] a none none
/-- VREDAND. -/
def execVredand (c : Ctl) (f : Fmt) (sm : SliceMask) (d a : VReg) (s : State) :=
  crossLane s c (.vredand c f sm d a) sm f [useD f d] a none none
/-- VREDOR. -/
def execVredor (c : Ctl) (f : Fmt) (sm : SliceMask) (d a : VReg) (s : State) :=
  crossLane s c (.vredor c f sm d a) sm f [useD f d] a none none
/-- VREDXOR. -/
def execVredxor (c : Ctl) (f : Fmt) (sm : SliceMask) (d a : VReg) (s : State) :=
  crossLane s c (.vredxor c f sm d a) sm f [useD f d] a none none
/-- VSCANADD. -/
def execVscanadd (c : Ctl) (f : Fmt) (sm : SliceMask) (d a : VReg) (s : State) :=
  crossLane s c (.vscanadd c f sm d a) sm f [useD f d] a none none

/-- REGANG (R181): a member whose guard fails joins and continues too. -/
def execRegang (c : Ctl) (xsm : BitVec 8) (s : State) : Host.Outcome State Fault Refusal :=
  issue s (fun _ => { handler := false }) (fun x =>
    x.joinInst
      { slice := x.k, word := .regang c xsm, mask := ~~~xsm, active := 0, pass := x.x.guardScalar c.guard
        vals := [], olds := [], idx := [] })

end Sys2Proof.Machine
end

