-- ==== Sys2Proof/Machine/Sync.lean ====
section
/-! DEFINITION. Block barriers (R182–R184), waiting on and updating asynchronous barrier objects (R185–R187, R301–R304), fences
and instruction-cache invalidation (R237–R241). -/

namespace Sys2Proof.Machine

/-! ### Block barriers -/

/-- The squads that a generation names: where its arrivals name different masks, all of theirs (log entry 118). -/
def namedSquads (as : List Arrival) : BitVec 32 := as.foldl (fun m a => m ||| a.mask) 0

/-- Whether a generation is complete (R183): every launched slice of the named squads has arrived or has ended. -/
def State.barComplete (s : State) (uid : Nat) (b : Block) (as : List Arrival) : Bool :=
  !as.isEmpty && (List.range b.squads.length).all (fun q =>
    !testBit (namedSquads as).toNat q || (List.range 8).all (fun sl =>
      as.any (fun a => a.slice == keyOf uid q sl) || !s.mayCome (keyOf uid q sl)))

/-- Whether a write is known on another path than the one it was made on: an XFENCE has made it visible there (R239, R257). -/
def State.carried (s : State) (p : Known) : Bool := s.past.any (fun w => w.stamp == p.stamp && w.path != p.path)
/-- What the slices that meet at a barrier make known to one another (R184): a release of each at BLOCK scope. Of writes on other classes
it holds those that an XFENCE has carried to another path. -/
def State.meetKnows (s : State) (ks : List Nat) : List Known :=
  ks.flatMap (fun k => match s.ctx k with
    | none => []
    | some c => (s.message c.site c.x .block c.x.seq).knows.filter (fun p => p.path == .ls || p.path == .wl || s.carried p))
/-- The acquire of a slice that leaves a barrier. -/
def Slice.meet (x : Slice) (ks : List Known) : Slice := x.learn (ks.map (fun p => { p with since := x.seq }))

/-- A completed generation lets one arrived slice go on with what the others made known, or traps it when the masks differ (R183, R184). -/
def State.leaveBar (s : State) (as : List Arrival) (ks : List Known) (a : Arrival) : State :=
  if as.all (fun b => b.mask == a.mask) then (s.modSlice a.slice (fun x => { x.meet ks with hold := .none })).finish a.slice a.m
  else (s.modSlice a.slice (fun x => { x with hold := .none })).takeTrap a.slice { cause := .groupSync } a.word

/-- Completes the current generation of a barrier if it can complete. -/
def State.checkBar (s : State) (uid n : Nat) : State :=
  match Table.find s.blocks uid with
  | none => s
  | some b =>
    let as := Table.getD b.bars n []
    if s.barComplete uid b as then
      as.foldl (fun t a => t.leaveBar as (s.meetKnows (as.map (fun a => a.slice))) a) (s.modBlock uid (fun b => { b with bars := Table.del b.bars n }))
    else s

/-- Completes every generation of a block that can complete. -/
def State.checkBars (s : State) (uid : Nat) : State := (List.range 16).foldl (fun t n => t.checkBar uid n) s

/-- A slice comes to a barrier: a release at BLOCK scope and a release point (R184, R241). Earlier loads bind their values, except
lanes that wait on an empty granule; no counter is waited for. -/
def Ctx.barRelease (c : Ctx) (go : Ctx → State) : State :=
  (c.at c.bindLoads).releaseAll (fun y => if y.x.ops.any (fun o => o.unread) then y.stay else go y)

/-- BAR (R182–R184). -/
def execBar (c : Ctl) (id : Fin 16) (mask : Option SSrc) (s : State) : Host.Outcome State Fault Refusal :=
  issue s (fun _ => { handler := false }) (fun x =>
    if !x.x.guardScalar c.guard then x.s.finish x.k c.m
    else
      let named : BitVec 32 := match mask with
        | none => 0xFFFFFFFF
        | some a => (x.src a).setWidth 32
      let used : BitVec 32 := named &&& BitVec.ofNat 32 (2 ^ x.b.squads.length - 1)
      if !testBit used.toNat (keySquad x.k) then x.trap { cause := .groupSync }
      else
        x.barRelease (fun y =>
          ((y.s.modSlice y.k (fun z => { z with hold := .barrier id.val })).modBlock (keyBlock y.k) (fun b =>
            { b with bars := Table.put b.bars id.val (Table.getD b.bars id.val [] ++ [⟨y.k, used, c.m, y.s.ir⟩]) })).checkBar
            (keyBlock y.k) id.val))

/-! ### Asynchronous barrier objects -/

/-- The address checks of R185: the trap, or the scratchpad offset of the object. `reads`: the word reads the object, and a
poisoned one traps (R191); ABINIT writes the whole granule. -/
def Ctx.abCheck (c : Ctx) (a : Nat) (wr reads : Bool) : Except TrapInfo Nat :=
  if a % 16 ≠ 0 then .error (faultAt .misalignedData 0 a wr)
  else
    match regionOf a with
    | .scratch o =>
      if c.b.scratchSize < o + 16 then .error (faultAt .dataFault 0 a wr)
      else if reads && c.b.isPoisoned o then .error (faultAt .uncorrectable 0 a wr)
      else .ok o
    | _ => .error (faultAt .dataFault 0 a wr)

/-- The access to a barrier object as one lane. -/
def abLane (a : Nat) (data : List Byte) : LaneAcc := ⟨0, BitVec.ofNat 64 a, none, data, [], [], false, none, false⟩

/-- Reads the phase bit of an object as its granule holds it (R185), the slice's own writes performed as far as they may be: `go` receives
it. -/
def Ctx.abPhase (c : Ctx) (a : Nat) (go : Ctx → Bool → State) : State :=
  match c.abCheck a false true with
  | .error t => c.trap t
  | .ok o =>
    let c1 := c.drained true a 16
    go c1 (testBit (c1.b.byte o).toNat 0)

/-- A slice has observed a completed phase of an object: an acquire of what the phase makes known (R187), which is one wider than CORE where
an arrival's release is (R252). -/
def Ctx.observed (c : Ctx) (a : Nat) : Ctx :=
  let ms := c.b.phaseDone (a - windowBase)
  let wide := ms.any (fun m => pastCore m.scope && c.s.shares m.site c.site m.scope)
  c.at (c.s.modSlice c.k (fun x =>
    x.learn (c.s.gains c.site .system x.seq ms ++ (if wide then c.s.arrived c.site .system x.seq else []))))

/-- ABWAIT (R186): the read comes after the slice's earlier acquires and its own writes to the object (R247, R251). -/
def execAbwait (c : Ctl) (a b : SSrc) (s : State) : Host.Outcome State Fault Refusal :=
  issue s (fun _ => { handler := false }) (fun x =>
    if x.x.guardScalar c.guard then
      x.abPhase (x.src a).toNat (fun y p =>
        if p != testBit (y.src b).toNat 0 && !y.x.acquiring && !y.ownWrite true (x.src a).toNat 16 then
          (y.observed (x.src a).toNat).s.finish y.k c.m
        else y.stay)
    else x.s.finish x.k c.m)

/-- ABTEST (R186): it holds the slice for nothing, and reads the granule as it stands (log entry 119). -/
def execAbtest (c : Ctl) (a b : SSrc) (s : State) : Host.Outcome State Fault Refusal :=
  issue s (fun _ => { handler := false }) (fun x =>
    let pushed (y : Ctx) (v : Bool) : State := y.done { push := some (laneMask (fun _ => v)) } c.m
    if x.x.guardScalar c.guard then
      x.abPhase (x.src a).toNat (fun y p =>
        if p != testBit (y.src b).toNat 0 then pushed (y.observed (x.src a).toNat) true else pushed y false)
    else pushed x false)

/-- Puts a barrier-object operation on the slice's list (R303): counted under ST, performed as a scratchpad atomic. -/
def Ctx.abIssue (c : Ctx) (a : Nat) (kind : OpKind) (data : List Byte) (rel : Option Scope) (m : Bool) : State :=
  let op : MemOp :=
    { c.newOp kind [abLane a data] (rel.getD .block) with rel := rel.isSome, rels := c.x.carried kind rel }
  (c.s.modSlice c.k (fun x => { x.addOp op with cnt := { x.cnt with st := x.cnt.st + 1 } })).finish c.k m

/-- A word that updates a barrier object: the counter, the guard and the address checks, then `go`; `off` follows when the guard
fails. -/
def abWord (s : State) (ctl : Ctl) (a : SSrc) (reads : Bool) (off : Ctx → State) (go : Ctx → Nat → State) :
    Host.Outcome State Fault Refusal :=
  issue s (chkRegs []) (fun x =>
    if x.x.cnt.st = 63 then x.stay
    else if !x.x.guardScalar ctl.guard then off x
    else
      match x.abCheck (x.src a).toNat true reads with
      | .error t => x.trap t
      | .ok _ => go x (x.src a).toNat)

/-- A barrier object as ABINIT writes it (R303). -/
def abImage (count : Nat) : Nat := 2 + count * 2 ^ 32 + count * 2 ^ 48

/-- ABINIT (R303). -/
def execAbinit (c : Ctl) (a b : SSrc) (s : State) : Host.Outcome State Fault Refusal :=
  abWord s c a false (fun x => x.s.finish x.k c.m) (fun x addr =>
    let n := (x.src b).toNat % 2 ^ 16
    if n = 0 then x.trap { cause := .engineOperand }
    else x.abIssue addr (.abInit (BitVec.ofNat 16 n)) (leBytes 16 (abImage n)) none c.m)

/-- ABARR (R303); with a failing guard its release still orders what came before, as FENCE.REL does (R22, R218, R250). -/
def execAbarr (c : Ctl) (scope : Scope) (rel : Bool) (a : SSrc) (bytes : Option SSrc) (s : State) :
    Host.Outcome State Fault Refusal :=
  abWord s c a true (fun x =>
    if rel && x.s.scopeDenied x.b.vf scope then x.trap { cause := .scopePolicy }
    else x.fenced scope false rel false (fun y => y.s.finish y.k c.m)) (fun x addr =>
    let n : Int := match bytes with
      | none => 0
      | some b => sext (x.src b).toNat 40
    if rel && x.s.scopeDenied x.b.vf scope then x.trap { cause := .scopePolicy }
    else if rel then x.releaseAll (fun y => y.abIssue addr (.abUpdate true n) [] (some scope) c.m)
    else x.abIssue addr (.abUpdate true n) [] none c.m)

/-- ABEXP (R303). -/
def execAbexp (c : Ctl) (a b : SSrc) (s : State) : Host.Outcome State Fault Refusal :=
  abWord s c a true (fun x => x.s.finish x.k c.m) (fun x addr => x.abIssue addr (.abUpdate false (sext (x.src b).toNat 40)) [] none c.m)

/-! ### Fences -/

/-- FENCE (R238). -/
def execFence (c : Ctl) (scope : Scope) (ord : Ord) (s : State) : Host.Outcome State Fault Refusal :=
  issue s (chkRegs []) (fun x =>
    if x.s.scopeDenied x.b.vf scope then x.trap { cause := .scopePolicy }
    else x.fenced scope (ordAcq ord) (ordRel ord) true (fun y => y.s.finish y.k c.m))

/-- The place of a FENCE.SC in the total order of its virtual function (R256): the slice learns what happens before the earlier ones, and
later ones learn what happens before this one. -/
def Ctx.inOrder (c : Ctx) : State :=
  let before := (c.s.chip c.b.vf).fenceOrder
  let mine := (c.s.message c.site c.x .tenant c.x.seq).knows
  (c.s.modSlice c.k (fun x => x.learn (before.map (fun p => { p with since := x.seq })))).modChip c.b.vf (fun h =>
    { h with fenceOrder := before ++ mine.filter (fun p => !before.contains p) })

/-- FENCE.SC (R237, R238): a fence of both kinds at TENANT scope; the step is its place in the total order. -/
def execFenceSc (c : Ctl) (s : State) : Host.Outcome State Fault Refusal :=
  issue s (chkRegs []) (fun x =>
    if x.s.scopeDenied x.b.vf .tenant then x.trap { cause := .scopePolicy }
    else x.fenced .tenant true true true (fun y => y.inOrder.finish y.k c.m))

/-- XFENCE from one path to another (R239): the writes performed on the first that are visible to the slice, its own LS stores among them,
are visible on the second to its later accesses, and at the scope to accesses of agents that synchronise with it. -/
def Ctx.crossed (c : Ctx) (scope : Scope) (frm too : EClass) : State :=
  if frm = too then c.s
  else
    c.s.modSlice c.k (fun x =>
      let own := if frm = .ls then (c.s.ownWrites c.k x.seq .ls).map (fun w => w.stamp) else []
      let got := (x.knows.filter (fun p => c.s.shares p.site c.site p.scope
        && c.s.past.any (fun w => w.stamp == p.stamp && w.path == frm))).map (fun p => p.stamp)
      x.learn ((own ++ got).eraseDups.map (fun n => ⟨n, too, x.seq, scope, c.site⟩)))

/-- XFENCE (R239): from LS it is a release point (R241). -/
def execXfence (c : Ctl) (scope : Scope) (frm too : EClass) (s : State) : Host.Outcome State Fault Refusal :=
  issue s (chkRegs []) (fun x =>
    if x.s.scopeDenied x.b.vf scope then x.trap { cause := .scopePolicy }
    else
      match frm with
      | .ls => x.releaseAll (fun y => (y.crossed scope frm too).finish y.k c.m)
      | _ => (x.crossed scope frm too).finish x.k c.m)

/-- The cores within a scope of a core (R242): TENANT takes every core of the virtual function. -/
def State.coresIn (s : State) (v core : Nat) : Scope → List Nat
  | .core => [core]
  | .cluster => (List.range 160).filter (fun c => coreCluster c == coreCluster core)
  | .die => (List.range 160).filter (fun c => coreDie c == coreDie core)
  | _ => core :: s.coresOf v

/-- Drops the words of a range from the instruction caches of the cores given (R240); a cache holds words by virtual function
and address. -/
def State.dropIcache (s : State) (cores : List Nat) (v : Nat) (hit : Nat → Bool) : State :=
  cores.foldl (fun t c => t.modCore c (fun k =>
    { k with icache := k.icache.filter (fun e => !(e.1 / 2 ^ 64 == v && hit (e.1 % 2 ^ 64))) })) s

/-- Whether an address lies in the bytes from a to a + b, extended to whole lines; nothing for b = 0 (R240). -/
def inLines (a b x : Nat) : Bool :=
  decide (0 < b) && decide (a / 128 ≤ x / 128) && decide (x / 128 ≤ (a + b - 1) / 128)

/-- The invalidation of b bytes from a on, as something that other slices learn of (R240): their fetches are fresh once synchronisation
orders them after it. -/
def Ctx.noteIcinv (c : Ctx) (scope : Scope) (a b : Nat) : State :=
  (c.s.noteWrite (c.writer .ls c.x.seq scope []) (if b = 0 then [] else [(.words c.b.vf a b, 0)]) []).modSlice c.k Slice.wrote

/-- ICINV (R240). -/
def execIcinv (c : Ctl) (scope : Scope) (all : Bool) (a b : SSrc) (s : State) : Host.Outcome State Fault Refusal :=
  issue s (chkRegs []) (fun x =>
    if x.s.scopeDenied x.b.vf scope then x.trap { cause := .scopePolicy }
    else
      x.releaseAll (fun y =>
        let hit (p : Nat) : Bool := all || inLines (y.src a).toNat (y.src b).toNat p
        let z := y.at (y.s.widen y.k y.x.seq scope)
        ((if all then z.noteIcinv scope 0 (2 ^ 64) else z.noteIcinv scope (y.src a).toNat (y.src b).toNat).dropIcache
          (y.s.coresIn y.b.vf y.b.core scope) y.b.vf hit).finish y.k c.m))

end Sys2Proof.Machine
end

