-- ==== Sys2Proof/Machine/Wells.lean ====
section
/-! DEFINITION. Wells (R209–R213, R231–R236): WLD, WDSET, WDGET, and how a well's element is formed. -/

namespace Sys2Proof.Machine

/-! ### Descriptors (R210, R211) -/

/-- Whether slot i has a member. -/
def wellHas (d : BitVec 512) (i : Nat) : Bool := testBit d.toNat (96 + i)
/-- The COREID of slot i. -/
def wellCore (d : BitVec 512) (i : Nat) : Nat := bits d.toNat (128 + 8 * i) 8
/-- The member COREIDs. -/
def wellMembers (d : BitVec 512) : List Nat :=
  ((List.range 32).filter (wellHas d)).map (wellCore d)

/-- Whether a descriptor is well formed: its reserved bits are zero (R11, R210), and with VALID = 1 it meets R211 (log entry 20). -/
def State.wellFormed (s : State) (v : Nat) (d : BitVec 512) : Bool :=
  let op := fld d 8 6
  let ms := wellMembers d
  let cs := s.coresOf v
  fld d 511 384 == 0 && fld d 95 14 == 0 && fld d 5 1 == 0 && (fld d 0 0 == 0
    || ((wellFmt d).isSome && decide (op < 6)
      && (decide (op < 3) || wellFmt d == some .i32 || wellFmt d == some .n32)
      && (List.range 32).all (fun i => wellHas d i || wellCore d i == 0)
      && ms.eraseDups.length == ms.length
      && ms.all (fun m => decide (m < cs.length))
      && ((ms.map (fun m => coreDie (cs.getD m 0))).eraseDups).length ≤ 1))

/-! ### The element (R212, R213, R54) -/

/-- The state of a slot. -/
inductive SlotVal where
  | absent
  | poisoned
  | present (x : Nat)
  deriving DecidableEq, Repr

/-- The block of a grid on a core that multicast fills and wells reach (R207), with its key: the lowest linear number. -/
def State.blockOn (s : State) (gid core : Nat) : Option (Nat × Block) :=
  s.blocks.foldl (fun r e =>
    if e.2.gid = gid ∧ e.2.core = core ∧ !e.2.killed then
      match r with
      | none => some e
      | some b => if e.2.linear < b.2.linear then some e else r
    else r) none

/-- The places that a well load reads at a scratchpad offset: n bytes in each member's block. -/
def Ctx.wellPlaces (c : Ctx) (d : BitVec 512) (off n : Nat) (l : Loc) : Bool :=
  match l with
  | .scratch u o =>
    decide (off ≤ o) && decide (o < off + n) && (List.range 32).any (fun i =>
      wellHas d i && ((c.s.blockOn c.b.gid ((c.s.coresOf c.b.vf).getD (wellCore d i) 0)).map (fun e => e.1) == some u))
  | _ => false

/-- What slot i contributes at a scratchpad offset (R212); a slot that names a retired core is poisoned (R436). -/
def Ctx.slotVal (c : Ctx) (d : BitVec 512) (off n i : Nat) : SlotVal :=
  if !wellHas d i then .absent
  else
    let core := (c.s.coresOf c.b.vf).getD (wellCore d i) 0
    if (c.s.core core).retired then .poisoned
    else match c.s.blockOn c.b.gid core with
    | none => .absent
    | some (_, b) =>
      if b.scratchSize < off + n ∨ b.isPoisoned off then .poisoned
      else .present (leNat ((List.range n).map (fun j => b.byte (off + j))))

/-- The operation of a node. -/
def wellRed (op : Nat) : Red :=
  if op = 0 then .add else if op = 1 then .min else if op = 2 then .max else if op = 3 then .and
  else if op = 4 then .or else .xor

/-- A contribution as the tree's operand (R54): floats are widened to FP32. -/
def wellLeaf (f : Fmt) (x : Nat) : Nat × Flags :=
  (match f with
   | .f16 | .bf16 => (encodeF .f32 (decodeF f x) .rne false).1
   | _ => x, Flags.none)
/-- The format in which nodes combine. -/
def wellNode : Fmt → Fmt
  | .f16 | .bf16 => .f32
  | f => f
/-- The root rounded to the element format (R54). -/
def wellRoot (f : Fmt) (x : Nat) : Nat :=
  match f with
  | .f32 | .f16 | .bf16 => (encodeF f (decodeF .f32 x) .rne false).1
  | _ => x

/-- The element when every slot is absent (R213). -/
def wellIdentity (f : Fmt) (op : Nat) : Nat :=
  match f with
  | .i32 => if op = 1 then 0x7FFFFFFF else if op = 2 then 0x80000000 else if op = 3 then 0xFFFFFFFF else 0
  | .n32 => if op = 1 ∨ op = 3 then 0xFFFFFFFF else 0
  | _ =>
    if op = 1 then (encodeF f (.inf false) .rne false).1
    else if op = 2 then (encodeF f (.inf true) .rne false).1 else 0

/-- The element of a well at an offset, and whether it is poisoned (R213). -/
def Ctx.wellElement (c : Ctx) (d : BitVec 512) (off : Nat) : Nat × Bool :=
  let f := (wellFmt d).getD .f32
  let vs := (List.range 32).map (c.slotVal d off (wellSize d))
  if vs.any (fun v => v == .poisoned) then
    ((match f with
      | .i32 | .n32 => 0
      | _ => canonNaN f), true)
  else
    let leaves := vs.map (fun v => match v with
      | .present x => some (wellLeaf f x)
      | _ => none)
    match treeRoot (redNode (wellRed (fld d 8 6)) (wellNode f)) leaves with
    | none => (wellIdentity f (fld d 8 6), false)
    | some r => (wellRoot f r.1, false)

/-! ### WLD (R234, R235) -/

/-- A WLD word reads its descriptors after the slice's earlier acquires (R233, R247): with PR 0 and 2 the slice is held until it completes; with PR 0 a word without an active lane pushes zeros. -/
def execWld (c : Ctl) (m : MemArg) (sz : Sz) (pr : PoisonReport) (d : VReg) (s : State) : Host.Outcome State Fault Refusal :=
  issue s (chkRegs (memUses m [⟨d.val, 1, false⟩])) (fun x =>
    if !(x.x.lanes c.guard).isEmpty && x.x.acquiring then x.stay else
    let descs := (x.x.lanes c.guard).map (fun l =>
      (l, x.wellDesc ((x.address m sz.bytes l - windowBase) % 2 ^ 32)))
    let w : MemWord :=
      ⟨m, true, { want := .read, size := sz.bytes, well := true }, .well (x.physV d.val) sz descs pr, fun _ _ => ([], [])⟩
    match pr with
    | .noq => x.memIssue w c
    | .push =>
      x.memIssueTo w c (fun y => y.done { push := some 0 } c.m)
        (fun t => t.modSlice x.k (fun z => { z with hold := .well x.x.seq x.s.ir }))
    | .trap =>
      x.memIssueTo w c (fun y => y.s.finish y.k c.m)
        (fun t => t.modSlice x.k (fun z => { z with hold := .well x.x.seq x.s.ir })))

/-- The read of a WLD in one lane: its descriptor, its offset, and the places that it reads. -/
def Ctx.wellRead (c : Ctx) (descs : List (Nat × BitVec 512)) (a : LaneAcc) : BitVec 512 × Nat × (Loc → Bool) :=
  let d := ((descs.find? (fun e => e.1 == a.lane)).map (fun e => e.2)).getD 0
  let off := (a.addr.toNat - windowBase) % 2 ^ 20
  (d, off, c.wellPlaces d off (wellSize d))

/-- The number of the choices of an operation's lane. -/
def laneChoice (o : MemOp) (a : LaneAcc) : Nat := a.lane + 4 * (o.seq % 1000)

/-- The lanes of a WLD once every element has been formed: each contribution may be an older value, as far as the loading slice need not
see what replaced it (R236, R258). -/
def Ctx.wellLanes (c : Ctx) (o : MemOp) (descs : List (Nat × BitVec 512)) : List LaneAcc :=
  o.lanes.map (fun a =>
    let w := c.wellRead descs a
    let r := (c.at (c.s.seen (c.reader .wl o.scope o.seq) (laneChoice o a) w.2.2)).wellElement w.1 w.2.1
    { a with got := some (leBytes o.kind.size r.1), poisoned := r.2 })
/-- The writes that the elements come from: a WLD synchronises with no release (R258). -/
def Ctx.wellWrites (c : Ctx) (o : MemOp) (descs : List (Nat × BitVec 512)) : List Past :=
  (o.lanes.flatMap (fun a =>
    c.s.seenWrites (c.reader .wl o.scope o.seq) (laneChoice o a) (c.wellRead descs a).2.2)).map (fun w => { w with rels := [] })

/-- A WLD with its elements formed, if they were not. -/
def Ctx.formWell (c : Ctx) (o : MemOp) (descs : List (Nat × BitVec 512)) : Ctx × MemOp :=
  if o.lanes.all (fun a => a.got.isSome) then (c, o)
  else
    (c.at (c.s.noteRead (c.reader .wl o.scope o.seq) o.acq (c.wellWrites o descs)), { o with lanes := c.wellLanes o descs })

/-- A WLD completes (R234): its elements are written, WL falls, and PR 0 and 2 let the slice go on or trap it (R235). -/
def Ctx.completeWell (c0 : Ctx) (o : MemOp) (descs : List (Nat × BitVec 512)) (pr : PoisonReport) : State :=
  let (c, w) := c0.formWell o descs
  let poisoned := w.lanes.filter (fun a => a.poisoned)
  let results := w.results c.x.live
  let off (t : State) : State := t.modSlice c.k (fun x =>
    { x with ops := x.ops.filter (fun e => e.seq != o.seq), cnt := { x.cnt with wl := x.cnt.wl - 1 } })
  let due (t : State) : State := t.modSlice c.k (fun x => x.deliver results)
  match c.x.hold with
  | .well n word =>
    let m := testBit word.toNat 63
    if n = o.seq then
      let free := (off c.s).modSlice c.k (fun x => { x with hold := .none })
      match pr, poisoned with
      | .trap, a :: _ =>
        free.takeTrap c.k { cause := .wellPoison, addr := a.addr, lane := a.lane } word
      | .push, _ =>
        ((due free).modSlice c.k (fun x => x.push (fun l => poisoned.any (fun a => a.lane == l)))).finish c.k m
      | _, _ => (due free).finish c.k m
    else (due (off c.s)).afterLong c.k
  | _ => (due (off c.s)).afterLong c.k

/-- LOAD_COMPLETION (R114, R197, R221, R234, R438): a load, an atomic with return or a WLD is performed when every access it
must follow has been (R247); `later` puts lanes of a load or an atomic off, and its bit 7 holds back the counter (R31). -/
def execLoadCompletion (k n : Nat) (later : BitVec 8) (s : State) : Host.Outcome State Fault Refusal :=
  match s.ctx k with
  | none => .next s
  | some c =>
    match c.x.op? n with
    | none => .next s
    | some o =>
      if !c.x.mayPerform o then .next s
      else
        match o.kind with
        | .well _ _ descs pr =>
          if later.getLsbD 7 && pr == .noq then
            let (y, w) := c.formWell o descs
            .next (y.s.putOp k w)
          else .next (c.completeWell o descs pr)
        | kind =>
          .next (if kind.isLd then
              s.alsoInImage c.b.vf o.outside (fun t => ((t.ctx k).map (fun c => c.completeLoad o later)).getD t)
            else s)

/-! ### WDSET, WDGET (R231–R233) -/

/-- The 64-byte image of WDSET and WDGET: its checks (R232), then `go` with the place it resolved to; `off` follows when the
guard fails. -/
def wellImage (s : State) (ctl : Ctl) (b : SSrc) (want : Want) (off : Ctx → State)
    (go : Ctx → LaneAcc → List TlbEntry → State) : Host.Outcome State Fault Refusal :=
  issue s (chkRegs []) (fun x =>
    if !x.x.guardScalar ctl.guard then off x
    else
      let a := (x.src b).toNat
      match x.check { want := want, size := 64 } [(0, a)] with
      | .error t => x.trapX t
      | .ok r =>
        let pa := match r with
          | (_, _, some y) :: _ => some y.pa
          | _ => none
        go x ⟨0, BitVec.ofNat 64 a, pa, [], [], [], false, none, false⟩ (usedOf r))

/-- WDSET, whose image is read as an LS load (R232): a guard that fails still pushes 0 (R23). -/
def execWdset (c : Ctl) (a b : SSrc) (s : State) : Host.Outcome State Fault Refusal :=
  wellImage s c b .read (fun x => x.done { push := some 0 } c.m) (fun x acc used =>
    x.afterOwn false acc.addr.toNat 64 (fun y =>
      if y.lanePoisoned acc 64 then y.trap (faultAt .uncorrectable 0 acc.addr.toNat false)
      else
        let (bs, z) := (y.at (y.s.fillTlb y.b.core used)).loadNow .core acc 64
        let d := BitVec.ofNat 512 (leNat bs)
        let i := (y.src a).toNat
        let ok := decide (i < 64) && y.s.wellFormed y.b.vf d
        let s2 := if ok then
            ((z.s.noteWrite (z.writer .ls z.x.seq .slice []) [(.well y.b.vf i, z.s.atLoc (.well y.b.vf i))] []).modChip y.b.vf
              (fun h => { h with wells := Table.put h.wells i d })).modSlice y.k Slice.wrote
          else z.s
        (y.at s2).done { push := some (laneMask (fun _ => ok)) } c.m))

/-- WDGET: the store is performed before the next word, after the slice's earlier loads and writes to those bytes (R246); it may be the
release write of an earlier fence (R247), and one to host memory forces a checkpoint of a time-sliced chip (R367). -/
def execWdget (c : Ctl) (a b : SSrc) (s : State) : Host.Outcome State Fault Refusal :=
  wellImage s c b .write (fun x => x.s.finish x.k c.m) (fun x acc used =>
    let i := (x.src a).toNat
    if 64 ≤ i then x.s.finish x.k c.m
    else if x.x.ops.any (fun o => o.kind.binds && !o.bound) then x.stay
    else
      x.afterOwn true acc.addr.toNat 64 (fun y =>
        if y.mustForce && acc.pa.any (fun p => Config.isHostMemory (lineOf p)) then y.force
        else
        let d := Table.getD (y.s.chip y.b.vf).wells i 0
        let s1 := (y.at (y.s.fillTlb y.b.core used)).writeLane (y.writer .ls y.x.seq .core y.x.fences) acc acc.pa
          (leBytes 64 d.toNat) y.x.forcedOk
        (s1.modSlice y.k (fun z => { z.wrote with fences := [], forcedOk := false })).finish y.k c.m))

end Sys2Proof.Machine
end

