-- ==== Sys2Proof/Machine/Act.lean ====
section
/-! DEFINITION. The activation table (R136–R141): ACTLD, ACTSEL, VACT. -/

namespace Sys2Proof.Machine

/-- The value of a finite decoded number as a quotient. -/
def finQuot : FVal → Int × Nat
  | .fin neg num den => (if neg then -(num : Int) else num, den)
  | _ => (0, 1)

/-- Whether a header passes R137: XMIN finite, INVW finite and greater than 0. -/
def actHeaderOk (h : BitVec 128) : Bool :=
  (match decodeF .f32 (fld h 31 0) with
   | .fin _ _ _ => true
   | _ => false)
  && (match decodeF .f32 (fld h 63 32) with
   | .fin neg num _ => !neg && decide (0 < num)
   | _ => false)

/-- VACT on one element from one buffer (R140); a remainder of 0 counts as +0 (log entry 21). -/
def actElem (b : ActBuf) (rm : RM) (sat : Bool) (a : Nat) : Nat × Flags :=
  let exactly (w : Nat) : Nat × Flags := (encodeF .f32 (decodeF .f32 w) .rne false)
  if !b.valid then (canonNaN .f32, Flags.invalid)
  else
    match decodeF .f32 a with
    | .nan => (canonNaN .f32, Flags.when (isSNaN .f32 a) Flags.invalid)
    | .inf true => exactly (fld b.header 95 64)
    | .inf false => exactly (fld b.header 127 96)
    | .fin neg num den =>
      let x := finQuot (.fin neg num den)
      let m := finQuot (decodeF .f32 (fld b.header 31 0))
      let w := finQuot (decodeF .f32 (fld b.header 63 32))
      let tn : Int := (x.1 * m.2 - m.1 * x.2) * w.1
      let td : Nat := x.2 * m.2 * w.2
      let i : Nat := (max 0 (min (tn / td) 255)).toNat
      let un : Int := tn - i * td
      let e := (Sparse.get 0 b.entries i).toNat
      let u : FVal := .fin (decide (un < 0)) un.natAbs td
      encodeOp .f32 (fFma rm (decodeF .f32 (bits e 32 32)) u (decodeF .f32 (bits e 0 32))) rm sat

/-- The selected buffer's number (R136). -/
def Core.selected (c : Core) : Nat := bitOf c.actSel

/-- Whether a slice has an ACTLD in progress. -/
def Slice.actBusy (x : Slice) : Bool := x.ops.any (fun o => o.kind == .actLoad)
/-- Whether a block has an ACTLD in progress. -/
def State.actBusy (s : State) (uid : Nat) : Bool := s.slices.any (fun e => keyBlock e.1 == uid && e.2.actBusy)

/-- The 16-byte pieces of an activation image (R137). -/
def actPieces (a : Nat) : List (Nat × Nat) := (List.range 129).map (fun (i : Nat) => (0, (a + 16 * i) % 2 ^ 64))

/-- ACTLD (R138): the whole image is checked at issue, its form before its alignment (log entry 137); the load is counted under EN. -/
def execActld (c : Ctl) (a : SSrc) (s : State) : Host.Outcome State Fault Refusal :=
  issue s (fun x => { illegal := !x.b.actRes }) (fun x =>
    if x.x.cnt.en = 63 then x.stay
    else if !x.x.guardScalar c.guard then x.s.finish x.k c.m
    else
      let addr := (x.src a).toNat
      match x.check { want := .read, size := 16 } (actPieces addr) with
      | .error t => x.trapX t
      | .ok r =>
        let lanes : List LaneAcc := r.map (fun p =>
          ⟨0, BitVec.ofNat 64 p.2.1, p.2.2.map (fun y => y.pa), [], [], [], false, none, false⟩)
        match lanes.find? (fun l => x.lanePoisoned l 16) with
        | some l => x.trap (faultAt .uncorrectable 0 l.addr.toNat false)
        | none =>
          ((x.s.fillTlb x.b.core (usedOf r)).modSlice x.k (fun z =>
            { z.addOp (x.newOp .actLoad lanes .core) with cnt := { z.cnt with en := z.cnt.en + 1 } })).finish x.k c.m)

/-- The buffer that an image's bytes give (R137, R138); one read from a poisoned word or line stays invalid (log entry 22). -/
def actBufOf (bs : List Byte) (poisoned : Bool) : ActBuf :=
  let h : BitVec 128 := BitVec.ofNat 128 (leNat (bs.take 16))
  { valid := actHeaderOk h && !poisoned
    header := h
    entries := (List.range 256).foldl (fun m i =>
      Sparse.set 0 m i (BitVec.ofNat 64 (leNat ((bs.drop (16 + 8 * i)).take 8)))) [] }

/-- An ACTLD is performed, a load of class LS (R138): it fills the buffer that is not selected at that moment, and EN falls. -/
def Ctx.completeAct (c : Ctx) (o : MemOp) : State :=
  let rs := o.lanes.map (fun a => c.loadSeen .core o.seq a 16)
  let buf := actBufOf (rs.flatMap (fun r => r.1)) (o.lanes.any (fun a => c.lanePoisoned a 16))
  ((c.s.noteRead (c.reader .ls .core o.seq) false (rs.flatMap (fun r => r.2))).modCore c.b.core (fun k =>
    { k with actBufs := Vector.ofFn (fun i : Fin 2 => if i.val = k.selected then k.actBufs[i] else buf) })).modSlice c.k
    (fun x => { x with
      ops := x.ops.filter (fun e => e.seq != o.seq)
      cnt := { x.cnt with en := x.cnt.en - 1 } })

/-- The first ACTLD in progress of each slice of a core that may be performed now: slice key and operation number. -/
def State.actReady (s : State) (core : Nat) : List (Nat × Nat) :=
  s.slices.flatMap (fun e =>
    match s.ctx e.1 with
    | none => []
    | some c =>
      if c.b.core = core then
        match c.x.ops.find? (fun o => o.kind == .actLoad) with
        | none => []
        | some o => if c.x.mayPerform o then [(e.1, o.seq)] else []
      else [])

/-- ACTLD_COMPLETION (R138, R141): one of the core's loads is performed; which one of several slices' is not fixed. -/
def execActldCompletion (core : Nat) (s : State) : Host.Outcome State Fault Refusal :=
  match s.actReady core with
  | [] => .next s
  | p :: ps =>
    let r := s.pickFrom 60000 p (p :: ps)
    match s.ctx r.1 with
    | none => .next s
    | some c =>
      match c.x.op? r.2 with
      | none => .next s
      | some o => .next (c.completeAct o)

/-- ACTSEL (R139): stalls while an ACTLD of the block is in progress. -/
def execActsel (c : Ctl) (n : Bool) (s : State) : Host.Outcome State Fault Refusal :=
  issue s (fun x => { illegal := !x.b.actRes }) (fun x =>
    if !x.x.guardScalar c.guard then x.s.finish x.k c.m
    else if x.s.actBusy (keyBlock x.k) then x.stay
    else (x.s.modCore x.b.core (fun k => { k with actSel := n })).finish x.k c.m)

/-- VACT (R140). -/
def execVact (c : Ctl) (r : Rnd) (sat : Bool) (d a : VReg) (s : State) : Host.Outcome State Fault Refusal :=
  issue s (fun x => { illegal := !x.b.actRes, regs := [useD .f32 d, useA .f32 a] }) (fun x =>
    let core := x.s.core x.b.core
    let buf := core.actBufs.toList.getD core.selected ⟨false, 0, []⟩
    x.done { laneFx x c.guard .f32 d.val (fun l => actElem buf (x.rm r) sat (x.elem .f32 a.val l)) with fp := true } c.m)

end Sys2Proof.Machine
end

