-- ==== Sys2Proof/Machine/Fetch.lean ====
section
/-! DEFINITION. Fetching a word (R240, R324, R345), which slices may issue (R156, R360, R362), and the schedule's turns. -/

namespace Sys2Proof.Machine

/-- Whether the words of a virtual chip may issue now: it runs, no checkpoint is being formed, and its first one has been
committed (R360, R362, R364). -/
def State.mayRun (s : State) (v : Nat) : Bool :=
  s.chipRuns v && !(s.chip v).cut && !(s.chip v).migrating && (!s.timeSliced v || (s.chip v).committed.isSome)

/-- Whether a ready slice stands at a join of its spliced grid (R315). -/
def Ctx.atJoin (c : Ctx) : Bool :=
  match c.x.splice with
  | none => false
  | some sp => c.x.priv == 0 && (sp.part == 3 || sp.part == 5)

/-- Whether a slice can no longer arrive at a join (R318): it has ended, or passed into part 7. -/
def Slice.pastJoins (x : Slice) : Bool :=
  x.ended || (match x.splice with
    | none => true
    | some sp => decide (7 ≤ sp.part))
/-- Whether every slice of a block has arrived at its current join, or can no longer arrive there (R318). -/
def State.joinMet (s : State) (uid : Nat) (sb : SpliceBlock) : Bool :=
  !sb.arrived.isEmpty && s.slices.all (fun e => keyBlock e.1 != uid || e.2.pastJoins || sb.arrived.contains e.1)
/-- Whether a slice that is held at a join may leave it: the last of the others may have passed into part 7 since (R318). -/
def Ctx.joinOpen (c : Ctx) : Bool :=
  c.x.hold == .join && c.atJoin && (match c.b.splice with
    | none => false
    | some sb => c.s.joinMet (keyBlock c.k) sb)

/-- A slice that may issue (R156): it has not ended, nothing holds it, and its block has not been killed (R358). -/
def State.ready (s : State) (k : Nat) : Bool :=
  match s.ctx k with
  | none => false
  | some c => !c.x.ended && (c.x.hold == .none || c.joinOpen) && !c.b.killed && s.mayRun c.b.vf

/-- The key of a word in an instruction cache: virtual function and address. -/
def icKey (v pc : Nat) : Nat := v * 2 ^ 64 + pc

/-- What a fetch gives: the word and the state after it, or the trap. -/
inductive Fetched where
  | word (w : Word64) (s : State)
  | trap (t : TrapInfo) (s : State)

/-- The word of a spliced grid at a user-level origin address (R316, R324). -/
def Ctx.originWord (c : Ctx) (g : Grid) (sp : Splice) : Word64 :=
  if c.inC then sp.codeC.getD ((c.x.pc.toNat - recEntry sp.recC) / 8) 0
  else sp.codeP.getD ((c.x.pc.toNat - recEntry g.lrec) / 8) 0

/-- A word that the core's instruction cache may still hold (R240). -/
def Ctx.cachedWord (c : Ctx) : Option Word64 :=
  Table.find (c.s.core c.b.core).icache (icKey c.b.vf c.x.pc.toNat)

/-- The first write that the slice's fetch at an address need not see: those before an ICINV of the address by the slice itself, or by
one whose ICINV at a scope that both share synchronisation has ordered before (R240), it must. -/
def Ctx.fetchFrom (c : Ctx) (pc : Nat) : Nat :=
  (c.s.past.filter (fun w => (match w.loc with
      | .words v a n => v == c.b.vf && inLines a n pc
      | _ => false) && c.s.shares w.site c.site w.scope
    && (w.site.key == c.k || c.x.knows.any (fun k => k.stamp == w.stamp && c.s.shares k.site c.site k.scope)))).foldl
    (fun m w => max m w.stamp) 0
/-- The words that memory held at a physical address at earlier moments and that a fetch at `pc` may still give (R240). -/
def Ctx.olderWords (c : Ctx) (pc pa : Nat) : List Word64 :=
  let ws := c.s.past.filter (fun w => w.loc.inBytes pa 8 && decide (c.fetchFrom pc ≤ w.stamp))
  if ws.isEmpty ∨ c.s.readBytes (c.s.keyTag c.b.vf) pa 8 ≠ c.s.readRaw pa 8 then []
  else
    ((ws.map (fun w => w.stamp)).eraseDups).map (fun t => BitVec.ofNat 64 (leNat ((List.range 8).map (fun i =>
      BitVec.ofNat 8 (olderOf (fun w => decide (t ≤ w.stamp)) (c.s.atLoc (.mem (pa + i)))
        (c.s.past.filter (fun w => w.loc == .mem (pa + i)))).1))))

/-- Fetches the word at the slice's PC through translation (R345); a PC in the pod range is no address that can be fetched (log entry 136).
A word may be an older one, of memory or of the core's cache, that no ICINV before it rules out (R240). -/
def Ctx.fetchMem (c : Ctx) : Fetched :=
  let pc := c.x.pc.toNat
  if pc % 8 ≠ 0 then .trap { cause := .misalignedFetch, addr := c.x.pc } c.s
  else
    match (if isVirtual pc then c.s.translate c.b.vf (c.s.tlbOf c.b.core) 50000 pc .fetch else .error (.stage1 0)) with
    | .error (.stage1 lv) => .trap { cause := .fetchFault, addr := c.x.pc, level := lv } c.s
    | .error (.stage2 ipa) => .trap { cause := .stage2Fault, addr := c.x.pc } (c.s.reportStage2 c.b.vf ipa)
    | .error (.uncorrectable a) => .trap { cause := .uncorrectable, addr := BitVec.ofNat 64 a } c.s
    | .ok x =>
      let s1 := c.s.fillTlb c.b.core x.used
      let fresh : Word64 := BitVec.ofNat 64 (leNat (c.s.readBytes (c.s.keyTag c.b.vf) x.pa 8))
      let keep (w : Word64) : Fetched :=
        .word w (s1.modCore c.b.core (fun k =>
          { k with icache := Table.put k.icache (icKey c.b.vf pc) w }))
      if c.s.linePoisoned x.pa 8 then
        match c.cachedWord with
        | some w => if c.s.flip 50100 then keep w else .trap { cause := .uncorrectable, addr := c.x.pc } s1
        | none => .trap { cause := .uncorrectable, addr := c.x.pc } s1
      else
        keep (c.s.pickFrom 50101 fresh (fresh :: (c.cachedWord.toList ++ c.olderWords pc x.pa)))

/-- Fetches the slice's next word: user-level words of a spliced grid come from its image (R316). -/
def Ctx.fetch (c : Ctx) : Fetched :=
  match c.x.splice, c.grid?.bind (fun g => g.splice.map (fun sp => (g, sp))) with
  | some _, some (g, sp) => if c.x.priv = 0 then .word (c.originWord g sp) c.s else c.fetchMem
  | _, _ => c.fetchMem

/-- The word a frame records when none could be fetched: nothing states it (log entry 18). -/
def State.noWord (s : State) : Word64 := Config.free s.fresh 50102

/-- The row of the table that a COLL word stands for: OP of its control word (R420). -/
def Ctx.resolve1 (c : Ctx) (i : Instr) : Instr :=
  match i with
  | .allreduce ctl td ts b x =>
    let op := bits (c.src b).toNat 8 2
    if op = 0 then i
    else if op = 1 then .reducescatter ctl td ts b x
    else if op = 2 then .allgather ctl td ts b x
    else .broadcast ctl td ts b x
  | _ => i

/-- The instruction that a word stands for when the slice issues it. -/
def State.issued (s : State) (k : Nat) (w : Word64) : Instr :=
  match s.ctx k with
  | none => instrOf w
  | some c => c.resolve1 (instrOf w)

/-! ### Placing a word for the next step -/

/-- Physical addresses of the tables that a placed word needs: two stages that map the first 512 MiB onto itself, and of the
word, the trap handler and the frame area. -/
def placeTables : List (Nat × Nat) :=
  [(0x10000, 0x20001), (0x20000, 0x30001), (0x30000, 31), (0x40000, 0x50001), (0x50000, 0x60001), (0x60000, 31)]
/-- Where a placed word stands. -/
def placeCode : Nat := 0x100000
/-- The launch record of a placed word: its ENTRY, TRAPVEC, a block of one squad of 256 registers and 64 KiB of scratchpad
that holds both reservations. -/
def placeRecord : BitVec 1024 :=
  BitVec.ofNat 1024
    (placeCode + 0x200000 * 2 ^ 128 + 2 ^ 256 + 2 ^ 277 + 2 ^ 298 + 2 ^ 320 + 256 * 2 ^ 337 + 2 ^ 348 + 0x10000 * 2 ^ 384)

/-- Writes 64 bits for the device itself: the line loses its key and its poison. -/
def State.placeWord64 (s : State) (a v : Nat) : State :=
  { s with
    mem := Memory.put s.mem a (leBytes 8 v)
    lineKey := Sparse.set none s.lineKey (lineOf a) none
    poison := Sparse.set false s.poison (lineOf a) false
    past := s.past.filter (fun w => !w.loc.inBytes (lineOf a * 128) 128) }

/-- A slice as its block starts (R13, R149): all lanes live, everything else zero. -/
def Slice.start (pc : Word64) (live : BitVec 4) (rm : Nat) : Slice where
  pc := pc
  last := pc
  s := Vector.replicate 64 0
  v := []
  exec := live
  live := live
  q := Vector.replicate 4 0
  smode := BitVec.ofNat 64 (rm % 4)
  cnt := Counters.zero
  ops := []
  seq := 0
  pend := []
  stale := []
  hold := .none
  ended := false
  frame := none
  enteredAt := 0
  dropped := []
  dropDue := false
  poisonDue := []
  vpoison := []
  engFail := []
  issued := 0
  forcedOk := false
  splice := none
  knows := []
  reads := []
  lastRead := (0, [])
  fences := []

/-- A block of one squad for a placed word. -/
def placeBlock : Block where
  gid := 0
  vf := 0
  linear := 0
  core := 0
  squads := [⟨0, 256, 0, .general, 0, 0, []⟩]
  scratchAt := 0
  scratchSize := 0x10000
  scratch := []
  full := []
  poison := []
  tdesc := Vector.replicate 16 0
  bars := []
  meet := []
  actRes := true
  mxRes := true
  killed := false
  splice := none

/-- The grid of a placed word. -/
def placeGrid (now : Nat) : Grid where
  home := .vf 0 0
  idx := 0
  ctx := 0
  pkt := 0
  lrec := placeRecord
  state := .draining
  waitOk := true
  undisp := []
  unitSet := []
  startedAt := now
  deadline := none
  destroyed := false
  status := 0
  fault := none
  forcedAt := none
  bzcode := 0
  splice := none
  elided := []
  producer := none

/-- Places a word so that the next step runs it (log entry 19): virtual function 0 gets cluster 0, an address space that maps
the first 512 MiB onto itself, and a grid of one block, block 0, whose slice 0 stands at the word. -/
def State.placeProgram (s : State) (w : Nat) : State :=
  let s1 := (placeTables ++ [(placeCode, w)]).foldl (fun t e => t.placeWord64 e.1 e.2) s
  let s2 := { s1 with
    turns := [⟨1, .slice 0⟩]
    slices := Table.put s1.slices 0 (Slice.start (BitVec.ofNat 64 placeCode) 0xF 0)
    blocks := Table.put s1.blocks 0 placeBlock
    grids := Table.put s1.grids 0 (placeGrid s1.now) }
  let s3 := s2.modDev (fun d =>
    { d with
      frec := Table.put d.frec 0 (BitVec.ofNat 256 (1 + 7 * 2 ^ 64 + 2 ^ 176))
      asids := Table.put d.asids 0 (BitVec.ofNat 128 (1 + 0x40000 + 0x10000 * 2 ^ 64))
      nextUid := max d.nextUid 1
      nextGid := max d.nextGid 1 })
  let s4 := s3.modChip 0 (fun c => { c with asid := 0, tfbase := 0x300000, cut := false, migrating := false })
  (s4.modCore 0 (fun c =>
    { c with tlb := [], icache := Table.del c.icache (icKey 0 placeCode), mxOwner := some 0, actOwner := some 0 })).modDie 0
    (fun d => { d with tlb := [] })

end Sys2Proof.Machine
end

