-- ==== Sys2Proof/Machine/EngineOps.lean ====
section
/-! DEFINITION. What the engines share: tile descriptors (R284, R285), modes and sparsity (R265, R268), engine accesses to
scratchpad, memory and pod memory (R274, R276, R300), the pump state word (R273), and how a command ends (R276, R277, R305). -/

namespace Sys2Proof.Machine

/-! ### Tiles -/

/-- A tile (R284). -/
structure Tile where
  fmt : Fmt
  rows : Nat
  cols : Nat
  stride : Nat
  base : Nat
  deriving DecidableEq, Repr

/-- The tile of a descriptor whose own fields obey R285. -/
def tileOf (d : BitVec 128) : Option Tile :=
  match fmt? (fld d 11 7) with
  | none => none
  | some f =>
    let t : Tile := ⟨f, fld d 25 12, fld d 39 26, fld d 63 40, fld d 127 64⟩
    let eb := if f.width < 8 then 1 else f.width / 8
    let okFmt := match f with
      | .f64 | .i64 | .n64 | .bf16x2 | .f16x2 => false
      | .kb4 => t.cols % 2 == 0
      | _ => true
    if fld d 6 0 = 0 ∧ t.rows ≠ 0 ∧ t.cols ≠ 0 ∧ okFmt = true ∧ t.base % eb = 0 ∧ t.stride % eb = 0
        ∧ (t.rows ≤ 1 ∨ t.cols * f.width / 8 ≤ t.stride) then some t
    else none

/-- RB: the bytes of a row. -/
def Tile.rb (t : Tile) : Nat := t.cols * t.fmt.width / 8
/-- The address of a row. -/
def Tile.row (t : Tile) (r : Nat) : Nat := t.base + r * t.stride
/-- The address after the tile's last byte. -/
def Tile.endAddr (t : Tile) : Nat := t.row (t.rows - 1) + t.rb
/-- The byte address of an element. -/
def Tile.addr (t : Tile) (r c : Nat) : Nat := t.row r + c * t.fmt.width / 8

/-- Where a range of an engine command lies (R8, R283, R285, R296). -/
inductive Lies where
  | scratch
  | memory
  | window
  | limit
  | badForm
  | notMember
  deriving DecidableEq, Repr

/-- The chip-table entry of a destination (R403). -/
def State.chipEntry (s : State) (v c : Nat) : BitVec 128 := Table.getD (s.chip v).chipTab c 0
/-- Whether an entry names a member of the pod. -/
def entryValid (e : BitVec 128) : Bool := fld e 0 0 == 1

/-- The region of the bytes from lo up to, but not including, hi. A range that starts in the scratchpad window and passes SCRATCH breaks a
limit (R192); `window`: it touches the register window, the well window or the reserved range (R283); a pod range whose address has no
pod form, or that names no member of the pod, fails as R8 says (log entry 120). -/
def Ctx.lies (c : Ctx) (lo hi : Nat) : Lies :=
  let w1 := windowBase + 2 ^ 32
  let last := max lo (hi - 1)
  if 2 ^ 64 < hi then .limit
  else if windowBase ≤ lo ∧ lo < w1 then if hi ≤ windowBase + c.b.scratchSize then .scratch else .limit
  else if lo < 2 ^ 63 ∧ w1 < hi ∨ (w1 ≤ lo ∧ lo < 2 ^ 63) then .window
  else if hi ≤ windowBase then .memory
  else if 2 ^ 63 ≤ lo then
    if bits lo 56 7 ≠ 0 ∨ bits last 56 7 ≠ 0 then .badForm
    else if [lo, last].all (fun a => entryValid (c.s.chipEntry c.b.vf (bits a 44 12))) then .memory else .notMember
  else .limit

/-- An engine-operand trap (R283). -/
def operandTrap : TrapInfo := { cause := .engineOperand }
/-- A check of an operand limit. -/
def limit (ok : Bool) : Except TrapInfo Unit := if ok then .ok () else .error operandTrap

/-- The trap of a range that starts at an address; a range that is no tile meets a limit in the windows too (R283, R296). -/
def Lies.check (l : Lies) (tile : Bool) (a : Nat) : Except TrapInfo Lies :=
  match l with
  | .window => .error (if tile then { cause := .dataFault, addr := BitVec.ofNat 64 a } else operandTrap)
  | .limit => .error operandTrap
  | .badForm => .error { cause := .addressForm, addr := BitVec.ofNat 64 a }
  | .notMember => .error { cause := .podMember, addr := BitVec.ofNat 64 a }
  | l => .ok l

/-- The checks of a descriptor (R285): its tile and where it lies. -/
def Ctx.tile (c : Ctx) (d : BitVec 128) : Except TrapInfo (Tile × Lies) :=
  match tileOf d with
  | none => .error operandTrap
  | some t => ((c.lies t.base t.endAddr).check true t.base).map (fun l => (t, l))

/-- A tile that an entry's limit keeps to one kind of place: the windows are a data fault, and any other place, a pod address of whatever
form among them, breaks the limit (R283). -/
def Ctx.tileIn (c : Ctx) (place : Lies) (d : BitVec 128) : Except TrapInfo Tile :=
  match tileOf d with
  | none => .error operandTrap
  | some t =>
    match c.lies t.base t.endAddr with
    | .window => .error { cause := .dataFault, addr := BitVec.ofNat 64 t.base }
    | l => if l = place then .ok t else .error operandTrap
/-- A tile that must lie in the scratchpad. -/
def Ctx.scratchTile (c : Ctx) (d : BitVec 128) : Except TrapInfo Tile := c.tileIn .scratch d

/-- A tile descriptor register of the word, perhaps as it stood before a write of another squad that the slice need not see (R154). -/
def Ctx.tdesc (c : Ctx) (t : TReg) : BitVec 128 :=
  let l := Loc.tdesc (keyBlock c.k) (c.physT t.val)
  if c.s.past.any (fun w => w.loc == l) then BitVec.ofNat 128 (c.s.view (c.reader .ls .core c.x.seq) 0 (fun p => p == l) l).1
  else c.b.tdesc.toList.getD (c.physT t.val) 0

/-! ### Modes and sparsity (R265, R268) -/

end Sys2Proof.Machine
namespace Sys2Proof

/-- Streamed formats of a mode. -/
def Mode.streamed : Mode → List Fmt
  | .i8 => [.i8, .n8]
  | .f8 => [.e5m2, .e4m3]
  | .f16 => [.f16]
  | .bf16 => [.bf16]
  | .kb8 => [.kb8]
  | .kb4 => [.kb4]
/-- Stationary formats of a mode. -/
def Mode.stationary : Mode → List Fmt
  | .kb8 => [.kb8, .kb4]
  | m => m.streamed
/-- N of a sparsity code. -/
def NC.n : NC → Nat
  | .n48 => 48
  | .n36 => 36
  | .n24 => 24

end Sys2Proof
namespace Sys2Proof.Machine

/-- Groups per pass (R268). -/
def groupsOf (m : Mode) (nc : NC) : Nat :=
  match m, nc with
  | .kb8, .n48 => 1
  | .kb8, _ => 2
  | .kb4, .n48 => 2
  | .kb4, _ => 4
  | _, .n48 => 4
  | _, .n36 => 5
  | _, .n24 => 8
end Sys2Proof.Machine
namespace Sys2Proof

/-- Columns of a plane (R265). -/
def Mode.nw (m : Mode) : Nat := if m.isBlock then 384 else 96

end Sys2Proof
namespace Sys2Proof.Machine


/-! ### Engine accesses -/

/-- Why a step cannot be performed: a failure code of R276, a stage-2 fault (R349), or an outside line that waits for its
chip's checkpoint (R366), traffic that a Windlass pause holds (R405), or a packet of a link that chip t drops (R407; log entry 139). -/
inductive EngErr where
  | code (n : Nat)
  | stage2 (v ipa : Nat)
  | wait (v : Nat)
  | held
  | dropped (t src : Nat)
  deriving DecidableEq, Repr

/-- Where a piece of an access leads: scratchpad offset; physical memory of a function, as an outside agent or not; another
module. -/
inductive Place where
  | scratch (off : Nat)
  | phys (v pa : Nat) (outside : Bool)
  | remote (site : Nat)
  deriving DecidableEq, Repr

/-- A piece of a range: address, length, and its place. -/
structure Piece where
  addr : Nat
  len : Nat
  place : Place
  used : List TlbEntry
  deriving DecidableEq, Repr

/-- Cuts a range at 64 KiB boundaries. -/
def cutPages (a n : Nat) : List (Nat × Nat) :=
  if n = 0 then []
  else
    (List.range ((a + n - 1) / 65536 + 1 - a / 65536)).map (fun i =>
      let lo := max a ((a / 65536 + i) * 65536)
      let hi := min (a + n) ((a / 65536 + i + 1) * 65536)
      (lo, hi - lo))

/-- The function of this module that an entry names. -/
def State.entryHere (s : State) (e : BitVec 128) : Option Nat :=
  if fld e 111 96 = s.dev.moduleId.toNat then some (fld e 93 88) else none

/-- Where a chip's traffic to a destination chip leads: a function of this module that holds a chip of the pod, no chip of the
pod (R440), or another module. -/
inductive Target where
  | here (v : Nat)
  | nobody
  | away
  deriving DecidableEq, Repr

/-- The die that a chip-table entry names (R403). -/
def entryDie (e : BitVec 128) : Nat := fld e 95 94
/-- The route label of a chip-table entry (R403): 0 when its index lies beyond the 256 entries. -/
def State.routeOf (s : State) (v : Nat) (e : BitVec 128) : Word64 :=
  if fld e 127 112 < 256 then Table.getD (s.chip v).labels (fld e 127 112) 0 else 0
/-- The target of a virtual chip's traffic (R403, R440): a function of this module that holds a chip of the pod on the die that the entry
names, as far as the bridges to it are open (R391; log entry 140); another module, as far as the entry's route label is in use (log entry
122). -/
def State.target (s : State) (v dst : Nat) : Target :=
  let e := s.chipEntry v dst
  if !entryValid e then .nobody
  else
    match s.entryHere e with
    | none => if fld (s.routeOf v e) 0 0 = 1 then .away else .nobody
    | some t =>
      if fld (s.frec t) 0 0 = 1 ∧ s.podOf t = s.podOf v ∧ (s.diesOf t).contains (entryDie e) = true
          ∧ s.joined ((s.diesOf v).headD (entryDie e)) (entryDie e) = true then .here t else .nobody
/-- Whether a Windlass script has paused the traffic of a virtual chip's guest (R405). -/
def State.podPaused (s : State) (v : Nat) : Bool := s.dev.paused.any (fun p => p.toNat == s.podOf v)
/-- The TLB entries that accesses at a virtual chip's interface may use. -/
def State.chipTlb (s : State) (v : Nat) : List TlbEntry := (s.die ((s.diesOf v).headD 0)).tlb

/-! ### The packets of a link (R403, R407) -/

/-- The key under which one chip seals or opens its link with another (R403 KEYSLOT, R407). -/
def State.linkKey (s : State) (v other : Nat) : Option (BitVec 256) :=
  Table.find (s.chip v).linkKeys (fld (s.chipEntry v other) 87 80)
/-- Whether chip t opens a packet from source src that was sealed under a key, or under none, with a destination VCHIP in its IV
(R407): t holds that key for the link, or none (log entry 30), and is the chip that the packet names. -/
def State.opens (s : State) (t src dst : Nat) (key : Option (BitVec 256)) : Bool := key == s.linkKey t src && s.vchipOf t == dst
/-- Whether a packet of this module's chip v to chip t is authentic. -/
def State.linkAuthentic (s : State) (v t dst : Nat) : Bool := s.opens t (s.vchipOf v) dst (s.linkKey v dst)
/-- The count of the next packet of a link (R407). -/
def State.nextCount (s : State) (v dst : Nat) : Nat := Table.getD (s.chip v).sendCount dst 0 + 1
/-- The sender's count rises with every packet. -/
def State.countSend (s : State) (v dst : Nat) : State :=
  s.modChip v (fun c => { c with sendCount := Table.put c.sendCount dst (Table.getD c.sendCount dst 0 + 1) })
/-- Whether the receiver accepts a packet (R407). -/
def State.accepts (s : State) (t src count : Nat) (authentic : Bool) : Bool :=
  authentic && decide (Table.getD (s.chip t).acceptCount src 0 < count)
/-- The last accepted count of a link. -/
def State.countAccept (s : State) (t src count : Nat) : State :=
  s.modChip t (fun c => { c with acceptCount := Table.put c.acceptCount src count })
/-- A packet that fails authentication or the count check is dropped and posts KIND 5 (R407); VCHIP names the link's source
(log entry 33). -/
def State.dropPacket (s : State) (t src : Nat) : State :=
  s.postEvent (fnOf t) { s.eventOf t 5 0 0 0 0 with vchip := BitVec.ofNat 12 src }

/-- Whether the next packet of chip v of this module to chip t, under the name dst, is accepted (R407). -/
def State.linkOpen (s : State) (v t dst : Nat) : Bool := s.accepts t (s.vchipOf v) (s.nextCount v dst) (s.linkAuthentic v t dst)
/-- A packet of chip v to chip t of this module reaches it: the counts of the link rise, or it is dropped with KIND 5 (R407). -/
def State.linkPacket (s : State) (v t dst : Nat) : State :=
  let s1 := if s.linkOpen v t dst then s.countAccept t (s.vchipOf v) (s.nextCount v dst) else s.dropPacket t (s.vchipOf v)
  s1.countSend v dst

/-- Whether a line of a time-sliced chip that its undo log holds is touched (R366). -/
def State.inUndo (s : State) (v pa n : Nat) : Bool :=
  s.timeSliced v && (linesOf pa n).any (fun l => (s.chip v).undo.any (fun e => e.line == l))

/-- Resolves one piece of an engine access of a block on a core. -/
def State.resolvePiece (s : State) (v core site : Nat) (want : Want) (p : Nat × Nat) : Except EngErr Piece :=
  match regionOf p.1 with
  | .scratch o => .ok ⟨p.1, p.2, .scratch o, []⟩
  | .virt =>
    match s.translate v (s.tlbOf core) site p.1 want with
    | .ok x => .ok ⟨p.1, p.2, .phys v x.pa false, x.used⟩
    | .error (.stage2 ipa) => .error (.stage2 v ipa)
    | .error (.uncorrectable _) => .error (.code 6)
    | .error (.stage1 _) => .error (.code 5)
  | .pod =>
    if s.podPaused v then .error .held
    else
      match s.target v (bits p.1 44 12) with
      | .nobody => .error (.code 5)
      | .away =>
        let o := s.pick site 3
        if o = 1 then .error (.code 5) else if o = 2 then .error (.code 6) else .ok ⟨p.1, p.2, .remote (site + 1), []⟩
      | .here t =>
        if !s.linkOpen v t (bits p.1 44 12) then .error (.dropped t (s.vchipOf v))
        else
        match s.translate t (s.chipTlb t) (site + 200) (p.1 % 2 ^ 44) want with
        | .ok x => if t ≠ v ∧ s.inUndo t x.pa p.2 then .error (.wait t) else .ok ⟨p.1, p.2, .phys t x.pa (decide (t ≠ v)), []⟩
        | .error (.stage2 ipa) => .error (.stage2 t ipa)
        | .error (.uncorrectable _) => .error (.code 6)
        | .error (.stage1 _) => .error (.code 5)
  | _ => .error (.code 5)

/-- Resolves every piece of a range. -/
def State.resolvePieces (s : State) (v core : Nat) (want : Want) : Nat → List (Nat × Nat) → Except EngErr (List Piece)
  | _, [] => .ok []
  | site, p :: ps =>
    match s.resolvePiece v core site want p with
    | .error e => .error e
    | .ok x =>
      match State.resolvePieces s v core want (site + 512) ps with
      | .error e => .error e
      | .ok xs => .ok (x :: xs)

/-- The packets of an access to n bytes at an address, if it goes to other chips of this module, raise the counts of their links (R407). -/
def State.rangePackets (s : State) (v a n : Nat) : State :=
  (((cutPages a n).filter (fun p => regionOf p.1 == .pod)).map (fun p => bits p.1 44 12)).eraseDups.foldl (fun u dst =>
    match u.target v dst with
    | .here t => u.linkPacket v t dst
    | _ => u) s

/-- Resolves a range. -/
def State.resolveRange (s : State) (v core site : Nat) (want : Want) (a n : Nat) : Except EngErr (List Piece) :=
  s.resolvePieces v core want site (cutPages a n)

/-- The die on which an access of a core's die to the memory of another chip is performed: its own while the bridges to the chip are open.
No access reaches a chip beyond a closed bridge (`State.target`, R391); one that the bridges have closed on since is performed on a die of
the chip. -/
def State.dieFor (s : State) (die v : Nat) : Nat :=
  let d := (s.diesOf v).headD die
  if s.joined die d then die else d
/-- An agent as it accesses a chip's memory. -/
def Site.toward (a : Site) (s : State) (v : Nat) : Site := { a with die := s.dieFor a.die v }

/-- Reads a resolved piece: code 1 for a poisoned scratchpad word, 6 for a poisoned line (R276); bytes of another module are
free values (log entry 25). Memory may be read as it stood before writes that the reader need not see (R257). -/
def State.readPiece (s : State) (r : Reader) (b : Block) (p : Piece) : Except EngErr (List Byte) :=
  match p.place with
  | .scratch o =>
    if (List.range ((o + p.len - 1) / 16 + 1 - o / 16)).any (fun i => b.isPoisoned ((o / 16 + i) * 16)) then
      .error (.code 1)
    else .ok ((List.range p.len).map (fun i => b.byte (o + i)))
  | .phys v pa _ =>
    if s.linePoisoned pa p.len then .error (.code 6)
    else
      .ok ((s.seen { r with site := r.site.toward s v } 0 (Loc.inBytes pa p.len)).readBytes (s.keyTag v) pa p.len)
  | .remote site => .ok ((List.range p.len).map (fun i => (Config.free s.fresh (2 ^ 40 + site * 65536 + i)).setWidth 8))

/-- Reads resolved pieces. -/
def State.readPieces (s : State) (r : Reader) (b : Block) : List Piece → Except EngErr (List Byte)
  | [] => .ok []
  | p :: ps =>
    match s.readPiece r b p with
    | .error e => .error e
    | .ok bs =>
      match State.readPieces s r b ps with
      | .error e => .error e
      | .ok l => .ok (bs ++ l)

/-- Reads a range for an engine command. -/
def State.engRead (s : State) (r : Reader) (v core : Nat) (b : Block) (site a n : Nat) : Except EngErr (List Byte) :=
  match s.resolveRange v core site .read a n with
  | .error e => .error e
  | .ok ps => s.readPieces r b ps

/-- Writes scratchpad bytes for an engine: each granule becomes full (R196). -/
def Block.engWrite (b : Block) (off : Nat) (bs : List Byte) : Block :=
  let gs := if bs.isEmpty then [] else
    (List.range ((off + bs.length - 1) / 16 + 1 - off / 16)).map (fun i => off / 16 + i)
  { b with
    scratch := Memory.put b.scratch off bs
    full := gs.foldl (fun f g => Sparse.set false f g true) b.full
    poison := gs.foldl (fun p g =>
      if off ≤ g * 16 ∧ g * 16 + 16 ≤ off + bs.length then Sparse.set false p g false else p) b.poison }

/-- An engine's write to a block's scratchpad. -/
def State.engStore (s : State) (w : Writer) (uid off : Nat) (bs : List Byte) : State :=
  (s.noteScratch w uid off bs.length).modBlock uid (fun b => b.engWrite off bs)

/-- The writes that a read of resolved pieces returns (R251). -/
def State.piecesSeen (s : State) (r : Reader) (ps : List Piece) : List Past :=
  ps.flatMap (fun p => match p.place with
    | .phys v pa _ => s.seenWrites { r with site := r.site.toward s v } 0 (Loc.inBytes pa p.len)
    | _ => [])
/-- Those of a range. -/
def State.rangeSeen (s : State) (r : Reader) (v core site a n : Nat) : List Past :=
  match s.resolveRange v core site .read a n with
  | .error _ => []
  | .ok ps => s.piecesSeen r ps
/-- An engine has returned writes: its die has applied them (R254, R255). -/
def State.engApply (s : State) (r : Reader) (ws : List Past) : State := ws.foldl (fun t w => t.applyAt r.site.die w) s

/-- Writes resolved pieces for the engines of a block. -/
def State.writePieces (s : State) (w : Writer) (uid core : Nat) : List Piece → List Byte → State
  | [], _ => s
  | p :: ps, bs =>
    let s1 := match p.place with
      | .scratch o => s.engStore w uid o (bs.take p.len)
      | .phys v pa outside =>
        (s.fillTlb core p.used).writeMem { w with site := w.site.toward s v } v outside pa (bs.take p.len)
      | .remote _ => s
    State.writePieces s1 w uid core ps (bs.drop p.len)

/-- A command's own agent: its slice, on the core of its block (R242). -/
def Block.agent (b : Block) (key : Nat) : Site := ⟨key, b.gid, b.core, coreDie b.core, b.vf⟩
/-- The path of a command (R264, R272, R295). -/
def CmdKind.path : CmdKind → EClass
  | .cptile _ _ | .cpcopy _ _ _ | .cptr _ _ | .cpmcast _ _ _ _ _ => .cp
  | _ => .mx
/-- A command as a reader (R257). -/
def Cmd.reader (c : Cmd) (b : Block) : Reader := ⟨b.agent c.slice, c.kind.path, .tenant, c.seq, c.knows⟩
/-- A command as a writer: its bytes are performed at TENANT scope (R305). -/
def Cmd.writer (c : Cmd) (b : Block) : Writer := ⟨b.agent c.slice, c.kind.path, c.seq, .tenant, []⟩
/-- The scratchpad of a block as a command sees it (R257). -/
def State.blockSeen (s : State) (r : Reader) (uid : Nat) (b : Block) : Block :=
  (Table.find (s.seen r 0 (fun l => match l with
    | .scratch u _ => u == uid
    | _ => false)).blocks uid).getD b
/-- What the bytes written since write n make known when an object counts them: to accesses of every class (R187). -/
def State.bytesKnown (s : State) (site : Site) (n : Nat) : List Msg :=
  [⟨.system, site, (s.past.filter (fun w => decide (n ≤ w.stamp))).flatMap (fun w => allPaths.map (fun p => w.known p 0))⟩]

/-! ### The pump state word (R273) -/

/-- Ceiling of a quotient. -/
def ceilDiv (a b : Nat) : Nat := (a + b - 1) / b

/-- Steps of a row of a CPTILE. -/
def rowSteps (t : Tile) : Nat := ceilDiv t.rb 2048

/-- The pump kind of a command; 0 for one that the pump does not expand. -/
def CmdKind.pump : CmdKind → Nat
  | .mxtile _ _ _ _ _ => 1
  | .sctile _ _ _ _ => 2
  | .cptile _ _ => 3
  | _ => 0

/-- The number of steps of a command (R272, R296–R299); 1 where the command has no steps of its own (log entry 26). -/
def CmdKind.total : CmdKind → Nat
  | .mxtile _ _ ta tb _ =>
    match tileOf ta, tileOf tb with
    | some a, some b => ceilDiv b.cols 96 * ceilDiv a.cols 192 * (1 + ceilDiv a.rows 16)
    | _, _ => 0
  | .sctile _ sc _ _ => bits sc.toNat 52 2 * bits sc.toNat 48 2 * bits sc.toNat 32 10
  | .cptile _ ts =>
    match tileOf ts with
    | some t => t.rows * rowSteps t
    | none => 0
  | .cpcopy _ _ len => ceilDiv len 2048
  | .cptr td _ =>
    match tileOf td with
    | some t => t.rows
    | none => 0
  | .cpmcast _ _ ts mask _ =>
    match tileOf ts with
    | some t => if mask = 0 then 0 else t.rows
    | none => 0
  | _ => 1

/-- The pump state word of a command. -/
def Cmd.pumpWord (c : Cmd) : Word64 :=
  if c.kind.pump = 0 then 0
  else BitVec.ofNat 64 (c.next % 2 ^ 24 + c.kind.total % 2 ^ 24 * 2 ^ 24 + c.err * 2 ^ 57 + c.kind.pump * 2 ^ 61 + 2 ^ 63)

end Sys2Proof.Machine
end

