-- ==== Sys2Proof/Machine/Engine.lean ====
section
/-! DEFINITION. Issuing engine commands (R280–R283, R287–R299), and the tile descriptor words (R286). -/

namespace Sys2Proof.Machine

/-! ### Issue -/

/-- Whether the block may issue the matrix-class words and CPTILE (R200, R283). -/
def engChk (matrix : Bool) (c : Ctx) : WordChk := { unreserved := matrix && !c.b.mxRes, engine := true }

/-- Step 2 of R283: the barrier object. -/
def Ctx.objCheck (c : Ctx) (ab : Option SSrc) : Except TrapInfo (Option Word64) :=
  match ab with
  | none => .ok none
  | some d =>
    let a := (c.src d).toNat
    if a % 16 ≠ 0 then .error (faultAt .misalignedData 0 a true)
    else if c.lies a (a + 16) = .scratch then .ok (some (BitVec.ofNat 64 a))
    else .error (faultAt .dataFault 0 a true)

/-- A command as it enters a queue. -/
def Ctx.command (c : Ctx) (kind : CmdKind) (ab : Option Word64) : Cmd where
  slice := c.k
  attached := true
  seq := c.x.seq
  block := keyBlock c.k
  pc := c.x.pc
  kind := kind
  ab := ab
  next := 0
  err := 0
  dests := []
  undelivered := 0
  knows := c.x.knows
  kidx := c.kidx
  handler := c.x.priv == 1
  at_ := c.s.now + 1
  late := []

/-- Whether a command that issues in the cycle of another enters before it, though its word came later: in ascending (squad, slice) order,
on the command queue among the words of one block (R263), on the copy queue among all words (R295; log entry 138). -/
def Cmd.enters (cmd e : Cmd) (copy : Bool) : Bool :=
  e.at_ == cmd.at_
    && (if copy then decide (cmd.slice % 256 < e.slice % 256) else e.block == cmd.block && decide (cmd.slice < e.slice))
/-- Enters a command (R263, R295). -/
def enterCmd (copy : Bool) (cmd : Cmd) : List Cmd → List Cmd
  | [] => [cmd]
  | e :: es => if cmd.enters e copy then cmd :: e :: es else e :: enterCmd copy cmd es

/-- Puts a command on a queue and counts it under EN (R114, R263, R295); it follows the slice's earlier commands of the copy queue (R30). -/
def Ctx.submit (c : Ctx) (copy : Bool) (cmd : Cmd) (m : Bool) : State :=
  ((c.s.modCore c.b.core (fun k =>
    if copy then { k with copyq := enterCmd true cmd k.copyq } else { k with cmdq := enterCmd false cmd k.cmdq })).modSlice c.k
    (fun x => { x with
      seq := x.seq + 1, cnt := { x.cnt with en := x.cnt.en + 1 }
      stale := if copy then x.stale.map (fun p => if p.en then { p with later := p.later + 1 } else p) else x.stale })).finish c.k m

/-- An engine command (R280, R283): the counter, the guard, room in the queue, the barrier object, then the operands, which
`operands` checks and reads; a command without work completes at once. -/
def engWord (s : State) (ctl : Ctl) (matrix copy : Bool) (ab : Option SSrc)
    (operands : Ctx → Except TrapInfo (Option CmdKind)) : Host.Outcome State Fault Refusal :=
  issue s (engChk matrix) (fun c =>
    let core := c.s.core c.b.core
    if c.x.cnt.en = 63 then c.stay
    else if !c.x.guardScalar ctl.guard then c.s.finish c.k ctl.m
    else if 16 ≤ (if copy then core.copyq else core.cmdq).length then c.stay
    else
      match c.objCheck ab with
      | .error t => c.trap t
      | .ok o =>
        match operands c with
        | .error t => c.trap t
        | .ok none => c.s.finish c.k ctl.m
        | .ok (some kind) => c.submit copy (c.command kind o) ctl.m)

/-- Row and column of a position word (R282). -/
def posRow (p : Word64) : Nat := fld p 8 0
/-- Column of a position word. -/
def posCol (p : Word64) : Nat := fld p 22 16

/-! ### Matrix commands -/

/-- The limits of LDSTAT (R287). -/
def ldstatOk (mode : Mode) (xf : Fmt) (nc : NC) (t : Tile) : Bool :=
  mode.stationary.contains t.fmt && mode.streamed.contains xf && decide (t.cols ≤ mode.nw)
    && (match mode with
        | .kb8 => t.rows == 48
        | .kb4 => t.rows == 96
        | _ => if nc = .n48 then decide (t.rows ≤ 192) else t.rows == groupsOf mode nc * nc.n)
    && (match mode with
        | .f16 | .bf16 => xf == t.fmt
        | _ => true)

/-- A scratchpad range that starts at an address (R283). -/
def Ctx.scratchRange (c : Ctx) (a n align : Nat) : Except TrapInfo Unit :=
  limit (c.lies a (a + n) == .scratch && a % align == 0)

/-- LDSTAT. -/
def execLdstat (c : Ctl) (ns : Bool) (mode : Mode) (nc : NC) (xf : Fmt) (tb : TReg) (sm : SSrc) (ab : Option SSrc)
    (s : State) : Host.Outcome State Fault Refusal :=
  engWord s c true false ab (fun x => do
    let t ← x.scratchTile (x.tdesc tb)
    limit (ldstatOk mode xf nc t)
    if nc = .n48 then pure () else x.scratchRange (x.src sm).toNat (8 * groupsOf mode nc * t.cols) 8
    pure (some (.ldstat mode xf nc ns (x.tdesc tb) (if nc = .n48 then 0 else x.src sm))))

/-- PSWAP. -/
def execPswap (c : Ctl) (ab : Option SSrc) (s : State) : Host.Outcome State Fault Refusal :=
  engWord s c true false ab (fun _ => .ok (some .pswap))

/-- Accumulator rows of one streamed row in a block mode (R267). -/
def rowsPerRow (mode : Mode) (nc : NC) : Nat := 12 * groupsOf mode nc

/-- The limits of R267 for M streamed rows. -/
def placeOk (mode : Mode) (nc : NC) (m : Nat) (p : Word64) : Bool :=
  if mode.isBlock then posCol p == 0 && decide (posRow p + rowsPerRow mode nc * m ≤ 512)
  else decide (posCol p ≤ 32) && decide (posRow p + m ≤ 512)

/-- A streaming command (R289). -/
def streamWord (s : State) (c : Ctl) (rnd : Rnd) (mode : Mode) (nc : NC) (ta : TReg) (sp : SSrc) (ab : Option SSrc) :
    Host.Outcome State Fault Refusal :=
  engWord s c true false ab (fun x => do
    let t ← x.scratchTile (x.tdesc ta)
    limit (mode.streamed.contains t.fmt && placeOk mode nc t.rows (x.src sp))
    pure (some (.stream mode (x.rm rnd) nc (x.tdesc ta) (x.src sp))))
/-- MX. -/
def execMx (c : Ctl) (rnd : Rnd) (mode : Mode) (ta : TReg) (sp : SSrc) (ab : Option SSrc) (s : State) :=
  streamWord s c rnd mode .n48 ta sp ab
/-- MXSP. -/
def execMxsp (c : Ctl) (rnd : Rnd) (mode : Mode) (nc : NC) (ta : TReg) (sp : SSrc) (ab : Option SSrc) (s : State) :=
  streamWord s c rnd mode nc ta sp ab
/-- MXB. -/
def execMxb (c : Ctl) (mode : Mode) (ta : TReg) (sp : SSrc) (ab : Option SSrc) (s : State) :=
  streamWord s c .rne mode .n48 ta sp ab
/-- MXBSP. -/
def execMxbsp (c : Ctl) (mode : Mode) (ta : TReg) (sp : SSrc) (ab : Option SSrc) (s : State) :=
  streamWord s c .rne mode .n24 ta sp ab

/-- SCACC (R290). -/
def execScacc (c : Ctl) (rnd : Rnd) (sr sa sb : SSrc) (ab : Option SSrc) (s : State) : Host.Outcome State Fault Refusal :=
  engWord s c true false ab (fun x => do
    let a := x.src sr
    let p := fld a 8 0
    let t := fld a 24 16
    limit (decide (p + 3 ≤ 511) && (decide (t < p) || decide (p + 3 < t)))
    x.scratchRange (x.src sa).toNat 2 2
    x.scratchRange (x.src sb).toNat 256 16
    pure (some (.scacc (x.rm rnd) a (x.src sa) (x.src sb))))

/-- ACCCLR (R292). -/
def execAccclr (c : Ctl) (sr : SSrc) (ab : Option SSrc) (s : State) : Host.Outcome State Fault Refusal :=
  engWord s c true false ab (fun x => do
    let a := x.src sr
    let n := fld a 25 16
    limit (decide (1 ≤ n) && decide (fld a 8 0 + n ≤ 512))
    pure (some (.accclr a)))

end Sys2Proof.Machine
namespace Sys2Proof

/-- Formats that ACCWR widens, and that ACCRD narrows to from FP32 cells (R292, R293). -/
def Fmt.isAccFloat : Fmt → Bool
  | .f32 | .f16 | .bf16 | .e5m2 | .e4m3 => true
  | _ => false
/-- Formats 9–14. -/
def Fmt.isAccInt : Fmt → Bool
  | .i8 | .n8 | .i16 | .n16 | .i32 | .n32 => true
  | _ => false

end Sys2Proof
namespace Sys2Proof.Machine


/-- Whether a tile placed at a position lies in the store. -/
def accFits (t : Tile) (p : Word64) : Bool := decide (posRow p + t.rows ≤ 512) && decide (posCol p + t.cols ≤ 128)

/-- ACCRD (R292, R293). -/
def execAccrd (c : Ctl) (rnd : Rnd) (sat ic : Bool) (td : TReg) (sp : SSrc) (ab : Option SSrc) (s : State) :
    Host.Outcome State Fault Refusal :=
  engWord s c true false ab (fun x => do
    let t ← x.scratchTile (x.tdesc td)
    limit (accFits t (x.src sp)
      && (if ic then t.fmt == .f32 || (t.fmt.isAccInt && rnd == .rne) else t.fmt.isAccFloat))
    pure (some (.accrd ic (x.rm rnd) sat (x.tdesc td) (x.src sp))))

/-- ACCWR (R292). -/
def execAccwr (c : Ctl) (ts : TReg) (sp : SSrc) (ab : Option SSrc) (s : State) : Host.Outcome State Fault Refusal :=
  engWord s c true false ab (fun x => do
    let t ← x.scratchTile (x.tdesc ts)
    limit (accFits t (x.src sp) && (t.fmt.isAccFloat || t.fmt.isAccInt))
    pure (some (.accwr (x.tdesc ts) (x.src sp))))

/-- ACCMV (R292); a row count of 0 breaks the limit (log entry 27). -/
def execAccmv (c : Ctl) (ss sd sz : SSrc) (ab : Option SSrc) (s : State) : Host.Outcome State Fault Refusal :=
  engWord s c true false ab (fun x => do
    let n := fld (x.src sz) 8 0
    let w := fld (x.src sz) 23 16
    let fits (p : Word64) : Bool := decide (posRow p + n ≤ 512) && decide (posCol p + w ≤ 128)
    limit (decide (1 ≤ n) && decide (1 ≤ w) && decide (w ≤ 128) && fits (x.src ss) && fits (x.src sd))
    pure (some (.accmv (x.src ss) (x.src sd) (x.src sz))))

/-- The largest number of steps of a pump command (R272). -/
def pumpLimit (k : CmdKind) : Except TrapInfo Unit := limit (decide (k.total ≤ 16777215))

/-- MXTILE (R272, R294). -/
def execMxtile (c : Ctl) (rnd : Rnd) (mode : Mode) (ta tb : TReg) (sp : SSrc) (ab : Option SSrc) (s : State) :
    Host.Outcome State Fault Refusal :=
  engWord s c true false ab (fun x => do
    let a ← x.scratchTile (x.tdesc ta)
    let b ← x.scratchTile (x.tdesc tb)
    limit (mode.streamed.contains a.fmt && mode.stationary.contains b.fmt && a.cols == b.rows
      && placeOk mode .n48 (a.rows * ceilDiv b.cols 96) (x.src sp))
    let k : CmdKind := .mxtile mode (x.rm rnd) (x.tdesc ta) (x.tdesc tb) (x.src sp)
    pumpLimit k
    pure (some k))

/-- CPTILE (R297). -/
def execCptile (c : Ctl) (td ts : TReg) (ab : Option SSrc) (s : State) : Host.Outcome State Fault Refusal :=
  engWord s c true false ab (fun x => do
    let (d, _) ← x.tile (x.tdesc td)
    let (t, _) ← x.tile (x.tdesc ts)
    limit (d.rows == t.rows && d.rb == t.rb && d.fmt.width == t.fmt.width)
    let k : CmdKind := .cptile (x.tdesc td) (x.tdesc ts)
    pumpLimit k
    pure (some k))

/-- SCTILE (R291); NB of 0 breaks the limit (log entry 27). -/
def execSctile (c : Ctl) (rnd : Rnd) (sc : SSrc) (ta tb : TReg) (ab : Option SSrc) (s : State) :
    Host.Outcome State Fault Refusal :=
  engWord s c true false ab (fun x => do
    let a := x.src sc
    let p0 := fld a 8 0
    let t0 := fld a 24 16
    let m := fld a 41 32
    let cg := fld a 49 48
    let nb := fld a 53 52
    let tA ← x.scratchTile (x.tdesc ta)
    let tB ← x.scratchTile (x.tdesc tb)
    limit (decide (1 ≤ m) && decide (m ≤ 512) && decide (1 ≤ cg) && decide (1 ≤ nb)
      && decide (p0 + 12 * nb * m ≤ 512) && decide (t0 + m * cg ≤ 512)
      && (decide (t0 + m * cg ≤ p0) || decide (p0 + 12 * nb * m ≤ t0))
      && tA.fmt == .e5m3 && decide (m ≤ tA.rows) && decide (2 * nb ≤ tA.cols)
      && tB.fmt == .e5m3 && decide (128 * cg ≤ tB.rows) && decide (2 * nb ≤ tB.cols))
    let k : CmdKind := .sctile (x.rm rnd) a (x.tdesc ta) (x.tdesc tb)
    pumpLimit k
    pure (some k))

/-! ### Copy commands -/

/-- A range of CPCOPY: scratchpad, or ordinary or pod memory (R296). -/
def Ctx.copyRange (c : Ctx) (a n : Nat) : Except TrapInfo Unit := ((c.lies a (a + n)).check false a).map (fun _ => ())

/-- CPCOPY (R296): a length of 0 completes at once. -/
def execCpcopy (c : Ctl) (sd ss sl : SSrc) (ab : Option SSrc) (s : State) : Host.Outcome State Fault Refusal :=
  engWord s c false true ab (fun x => do
    let n := (x.src sl).toNat % 2 ^ 32
    limit (decide (n ≤ 65536))
    x.copyRange (x.src sd).toNat n
    x.copyRange (x.src ss).toNat n
    pure (if n = 0 then none else some (.cpcopy (x.src sd) (x.src ss) n)))

end Sys2Proof.Machine
namespace Sys2Proof

/-- Formats of CPTR (R298). -/
def Fmt.isTr : Fmt → Bool
  | .e5m2 | .e4m3 | .i8 | .n8 | .f16 | .bf16 | .i16 | .n16 => true
  | _ => false

end Sys2Proof
namespace Sys2Proof.Machine


/-- CPTR (R298). -/
def execCptr (c : Ctl) (td ts : TReg) (ab : Option SSrc) (s : State) : Host.Outcome State Fault Refusal :=
  engWord s c false true ab (fun x => do
    let d ← x.scratchTile (x.tdesc td)
    let (t, _) ← x.tile (x.tdesc ts)
    limit (d.fmt.isTr && t.fmt.isTr && d.fmt.width == t.fmt.width && decide (t.rows ≤ 256) && decide (t.cols ≤ 256)
      && d.rows == t.cols && d.cols == t.rows)
    pure (some (.cptr (x.tdesc td) (x.tdesc ts))))

/-- CPMCAST (R299): S lies in ordinary memory; its offsets count from the SCRBASE that its word reads (R192, R316; log entry 121). -/
def execCpmcast (c : Ctl) (d : SReg) (so : SSrc) (ts : TReg) (sk : SSrc) (s : State) : Host.Outcome State Fault Refusal :=
  engWord s c false true none (fun x => do
    let t ← x.tileIn .memory (x.tdesc ts)
    let o := fld (x.src so) 63 32
    limit (decide (t.base < 2 ^ 63) && decide (t.rows * t.rb ≤ 983040)
      && (o == 0xFFFFFFFF || o % 16 == 0))
    pure (some (.cpmcast (x.physS d.val) (x.src so) (x.tdesc ts) ((x.src sk).setWidth 8)
      (x.special 0 .scrbase - windowBase))))

/-! ### Tile descriptor words (R286) -/

/-- Writes a tile descriptor of the block, an LS write of the slice (R154, R286). -/
def Ctx.putTdesc (x : Ctx) (l : Loc) (n : Nat) (v : BitVec 128) (m : Bool) : State :=
  let s1 := x.s.noteWrite (x.writer .ls x.x.seq .squad []) [(l, x.s.atLoc l)] []
  ((s1.modBlock (keyBlock x.k) (fun k =>
    { k with
      tdesc := Vector.ofFn (fun i : Fin 16 => if i.val = n then v else k.tdesc[i])
      tdAt := Table.put k.tdAt n (x.s.now, x.k) })).modSlice x.k Slice.wrote).finish x.k m

/-- TDSET: several in one cycle take effect in ascending (squad, slice) order (R154): after the write of a higher slice, a lower one's comes
in a later cycle. -/
def execTdset (c : Ctl) (t : TReg) (a b : SSrc) (s : State) : Host.Outcome State Fault Refusal :=
  issue s (engChk false) (fun x =>
    if x.x.guardScalar c.guard then
      let v : BitVec 128 := (x.src a).setWidth 128 ||| ((x.src b).setWidth 128 <<< 64)
      let n := x.physT t.val
      let l := Loc.tdesc (keyBlock x.k) n
      match Table.find x.b.tdAt n with
      | some (t, k) =>
        if t = x.s.now ∧ x.k < k then x.stay else x.putTdesc l n v c.m
      | none => x.putTdesc l n v c.m
    else x.s.finish x.k c.m)

/-- TDGET. -/
def execTdget (c : Ctl) (hi : Bool) (d : SReg) (t : TReg) (s : State) : Host.Outcome State Fault Refusal :=
  issue s (engChk false) (fun x =>
    if x.x.guardScalar c.guard then
      let v := x.tdesc t
      x.done { sShort := [(d.val, if hi then (v >>> 64).setWidth 64 else v.setWidth 64)] } c.m
    else x.s.finish x.k c.m)

end Sys2Proof.Machine
end

