-- ==== Sys2Proof/Machine/EngineRun.lean ====
section
/-! DEFINITION. Performing engine commands: planes and streaming (R51, R53, R266–R270, R287–R289), the scale unit (R52, R290,
R291), accumulator copies (R292, R293), pump and copy steps (R272, R294–R299), failures (R276, R277), signals (R305), and the
governor (R278). -/

namespace Sys2Proof.Machine

/-! ### Scratchpad and accumulator as a command reads them -/

/-- A scratchpad tile's offset of an address. -/
def scratchOff (a : Nat) : Nat := a - windowBase

/-- Whether n scratchpad bytes from an offset touch a poisoned word. -/
def Block.badRange (b : Block) (off n : Nat) : Bool :=
  (List.range ((off + n - 1) / 16 + 1 - off / 16)).any (fun i => b.isPoisoned ((off / 16 + i) * 16))

/-- An element of a scratchpad tile, as its bits. -/
def Block.tileElem (b : Block) (t : Tile) (r c : Nat) : Nat :=
  let o := scratchOff (t.addr r c)
  if t.fmt.width = 4 then bits (b.byte o).toNat (c % 2 * 4) 4
  else leNat ((List.range (t.fmt.width / 8)).map (fun i => b.byte (o + i)))

/-- Whether columns c0 to c0 + n − 1 of rows r0 to r0 + m − 1 touch a poisoned word. -/
def Block.badTile (b : Block) (t : Tile) (r0 m c0 n : Nat) : Bool :=
  decide (0 < n) && (List.range m).any (fun i =>
    let lo := t.addr (r0 + i) c0
    b.badRange (scratchOff lo) (t.addr (r0 + i) (c0 + n - 1) + (t.fmt.width + 7) / 8 - lo))

/-- An accumulator cell (R199). -/
def Core.cell (c : Core) (row col : Nat) : Word32 := Sparse.get 0 c.acc (row * 128 + col)
/-- Whether a cell is uncorrectable (R200). -/
def Core.badCell (c : Core) (row col : Nat) : Bool := Sparse.get false c.accPoison (row * 128 + col)
/-- Writes cells given by row × 128 + column. -/
def Core.setCells (c : Core) (ws : List (Nat × Nat)) : Core :=
  { c with
    acc := ws.foldl (fun m w => Sparse.set 0 m w.1 (BitVec.ofNat 32 w.2)) c.acc
    accPoison := ws.foldl (fun m w => Sparse.set false m w.1 false) c.accPoison }

/-! ### Planes -/

/-- The metadata word of column n and group g (R287). -/
def Block.meta (b : Block) (sm : Word64) (cols g n : Nat) : Nat :=
  let o := scratchOff (sm.toNat + 8 * (g * cols + n))
  leNat ((List.range 8).map (fun i => b.byte (o + i)))

/-- The kept logical indices of a mask of 48 bits, ascending. -/
def keptOf (m : Nat) : List Nat := (List.range 48).filter (fun i => testBit m i)

/-- The kept elements of a dense column: key, and bits. -/
def denseColumn (b : Block) (t : Tile) (rows : List Nat) (c n : Nat) : Table (BitVec 16) :=
  ((List.range rows.length).zip rows).map (fun p => (n * 1024 + p.1, BitVec.ofNat 16 (b.tileElem t p.2 c)))

/-- The kept elements of a sparse column (R269, R287). -/
def sparseColumn (b : Block) (t : Tile) (nc : NC) (groups : Nat) (sm : Word64) (n : Nat) : Table (BitVec 16) :=
  (List.range groups).flatMap (fun g =>
    let ks := keptOf (b.meta sm t.cols g n)
    ((List.range ks.length).zip ks).map (fun p =>
      (n * 1024 + 48 * g + p.2, BitVec.ofNat 16 (b.tileElem t (g * nc.n + p.1) n))))

/-- Loads the shadow plane, and exchanges the planes unless `ns` (R287): the core, or a failure code. The metadata is read and checked
before the tile; a malformed word leaves the shadow plane EMPTY (R269). -/
def Core.loadPlane (k : Core) (b : Block) (mode : Mode) (xf : Fmt) (nc : NC) (ns : Bool) (t : Tile) (sm : Word64) :
    Nat × Core :=
  let groups := groupsOf mode nc
  let dense := nc == .n48
  let words := (List.range groups).flatMap (fun g => (List.range t.cols).map (fun n => b.meta sm t.cols g n))
  if !dense && b.badRange (scratchOff sm.toNat) (8 * groups * t.cols) then (1, k)
  else if !dense && words.any (fun w => bits w 48 16 != 0 || (keptOf w).length != nc.n) then
    (3, { k with shadow := Plane.empty })
  else if b.badTile t 0 t.rows 0 t.cols then (1, k)
  else
    let elems : Table (BitVec 16) := (List.range t.cols).flatMap (fun n =>
      if dense then denseColumn b t (List.range t.rows) n n else sparseColumn b t nc groups sm n)
    let p : Plane := ⟨elems, some ⟨mode, xf, t.fmt, nc, if dense then t.rows else groups * 48, t.cols⟩⟩
    (0, if ns then { k with shadow := p } else { k with stationary := p, shadow := k.stationary })

/-! ### Streaming -/

/-- The integer of an element in I8 mode (R266). -/
def i8Of (f : Fmt) (x : Nat) : Int := intOf f x

/-- The exact sum of values in order (R45, R46, R53); an empty sum is +0 (log entry 28). -/
def exactSum (rm : RM) : List FVal → FVal
  | [] => .fin false 0 1
  | v :: vs => vs.foldl (fun a x => (fAdd rm a x).1) v

/-- R53 on one cell: `a` and `b` give the elements at a logical index, none for a removed one. -/
def floatPass (rm : RM) (k : Nat) (cell : Nat) (product : Nat → Option FVal) : Nat :=
  (List.range (ceilDiv k 16)).foldl (fun acc c =>
    let chunk := exactSum rm (((List.range (min 16 (k - 16 * c))).filterMap (fun i => product (16 * c + i))))
    let p := (encodeF .f32 chunk rm false).1
    (encodeF .f32 (fAdd rm (decodeF .f32 p) (decodeF .f32 acc)).1 rm false).1) cell

/-- A plane's element at a logical index of a column. -/
def Plane.at? (p : Plane) (n k : Nat) : Option Nat := (Table.find p.elems (n * 1024 + k)).map (fun x => x.toNat)

/-- The partial sum Pab of block j of a column (R51). -/
def partialSum (p : Plane) (afmt bfmt : Fmt) (row : Nat → Nat) (n j a b : Nat) : Int :=
  (List.range 48).foldl (fun s i =>
    match p.at? n (48 * j + i) with
    | none => s
    | some y =>
      let (sa, va) := kbValue afmt (row (48 * j + i))
      let (sb, vb) := kbValue bfmt y
      if sa = a ∧ sb = b then s + va * vb else s) 0

/-- The cells that one streamed row updates (R266, R267), or a failure code; `row` gives its logical elements. -/
def Core.streamRow (k : Core) (mode : Mode) (rm : RM) (t : PlaneTag) (row : Nat → Nat) (m row0 col0 : Nat) :
    Except Nat (List (Nat × Nat)) :=
  let p := k.stationary
  if mode.isBlock then
    let nb := groupsOf mode t.nc
    .ok ((List.range t.ncol).flatMap (fun n => (List.range nb).flatMap (fun j =>
      [(0, 0), (0, 1), (1, 0), (1, 1)].map (fun (ab : Nat × Nat) =>
        ((row0 + 12 * nb * m + 12 * j + 4 * (n / 128) + 2 * ab.1 + ab.2) * 128 + n % 128,
          wrap (partialSum p t.afmt t.bfmt row n j ab.1 ab.2) 32)))))
  else if (List.range t.ncol).any (fun n => k.badCell (row0 + m) (col0 + n)) then .error 2
  else
    .ok ((List.range t.ncol).map (fun n =>
      let old := (k.cell (row0 + m) (col0 + n)).toNat
      ((row0 + m) * 128 + (col0 + n),
        match mode with
        | .i8 =>
          wrap ((List.range t.k).foldl (fun s i =>
            match p.at? n i with
            | none => s
            | some y => s + i8Of t.afmt (row i) * i8Of t.bfmt y) (sext old 32)) 32
        | _ =>
          floatPass rm t.k old (fun i =>
            (p.at? n i).map (fun y => (fMul (decodeF t.afmt (row i)) (decodeF t.bfmt y)).1)))))

/-- Streams rows r0 to r0 + n − 1 of tile A from column c0 past the stationary plane (R289): the core, or a failure code. -/
def Core.streamRows (k : Core) (b : Block) (mode : Mode) (rm : RM) (nc : NC) (t : Tile) (r0 n c0 row0 col0 : Nat)
    (kk : Nat) : Nat × Core :=
  match k.stationary.tag with
  | none => (4, k)
  | some g =>
    if g.mode ≠ mode ∨ g.afmt ≠ t.fmt ∨ g.nc ≠ nc ∨ kk ≠ g.k then (4, k)
    else if b.badTile t r0 n c0 kk then (1, k)
    else
      let rs := (List.range n).map (fun i =>
        k.streamRow mode rm g (fun j => b.tileElem t (r0 + i) (c0 + j)) (r0 + i) row0 col0)
      match rs.find? (fun r => match r with
        | .error _ => true
        | .ok _ => false) with
      | some (.error e) => (e, k)
      | _ =>
        (0, k.setCells (rs.flatMap (fun r => match r with
              | .ok ws => ws
              | .error _ => [])))

/-! ### The scale unit -/

/-- SCACC on one output (R52): `sa`, `sb` the two scales of each side, `p` the partial sums by 2a + b. -/
def scaccCell (rm : RM) (acc : Nat) (sa sb : Nat → Nat) (p : Nat → Int) : Nat :=
  [(0, 0), (0, 1), (1, 0), (1, 1)].foldl (fun t (ab : Nat × Nat) =>
    let s := (fMul (decodeF .e5m3 (sa ab.1)) (decodeF .e5m3 (sb ab.2))).1
    let x := p (2 * ab.1 + ab.2)
    let v := (fMul s (.fin (decide (x < 0)) x.natAbs 1)).1
    (encodeF .f32 (fAdd rm (decodeF .f32 t) v).1 rm false).1) acc

/-- SCACC over columns (R290): the core, or a failure code. -/
def Core.scale (k : Core) (rm : RM) (p t : Nat) (sa : Nat → Nat) (sb : Nat → Nat → Nat) : Nat × Core :=
  if (List.range 128).any (fun n =>
      k.badCell t n || (List.range 4).any (fun i => k.badCell (p + i) n)) then (2, k)
  else
    (0, k.setCells ((List.range 128).map (fun n =>
      (t * 128 + n,
        scaccCell rm (k.cell t n).toNat sa (sb n) (fun i => sext (k.cell (p + i) n).toNat 32)))))

/-- SCACC with scale addresses (R290). -/
def Core.scacc (k : Core) (b : Block) (rm : RM) (a sa sb : Word64) : Nat × Core :=
  let oa := scratchOff sa.toNat
  let ob := scratchOff sb.toNat
  if b.badRange oa 2 ∨ b.badRange ob 256 then (1, k)
  else
    k.scale rm (fld a 8 0) (fld a 24 16) (fun i => (b.byte (oa + i)).toNat) (fun n j => (b.byte (ob + 2 * n + j)).toNat)

/-- Step i of SCTILE (R291). -/
def Core.sctileStep (k : Core) (b : Block) (rm : RM) (sc : Word64) (ta tb : Tile) (i : Nat) : Nat × Core :=
  let m := fld sc 41 32
  let cg := fld sc 49 48
  let nb := fld sc 53 52
  let row := i % m
  let g := i / m % cg
  let j := i / m / cg
  if b.badTile ta row 1 (2 * j) 2 ∨ b.badTile tb (128 * g) 128 (2 * j) 2 then (1, k)
  else
    k.scale rm (fld sc 8 0 + 12 * nb * row + 12 * j + 4 * g) (fld sc 24 16 + m * g + row)
      (fun a => b.tileElem ta row (2 * j + a)) (fun n a => b.tileElem tb (128 * g + n) (2 * j + a))

/-! ### Accumulator copies -/

/-- Rectangles of positions: rows × columns. -/
def rect (rows cols : Nat) : List (Nat × Nat) :=
  (List.range rows).flatMap (fun i => (List.range cols).map (fun j => (i, j)))

/-- Widen of R292. -/
def accWiden (f : Fmt) (x : Nat) : Nat :=
  if f.isAccFloat then (encodeF .f32 (decodeF f x) .rne false).1 else wrap (intOf f x) 32
/-- Narrow of R293. -/
def accNarrow (f : Fmt) (ic : Bool) (rm : RM) (sat : Bool) (x : Nat) : Nat :=
  if ic then
    let v := sext x 32
    if f = .f32 then (encodeF .f32 (.fin (decide (v < 0)) v.natAbs 1) rm false).1 else intResult f sat v
  else (encodeF f (decodeF .f32 x) rm sat).1

/-- The bytes of a tile row of elements. -/
def rowBytes (f : Fmt) (xs : List Nat) : List Byte := xs.flatMap (fun x => leBytes (f.width / 8) x)

/-- ACCRD: the rows to write, or code 2. -/
def Core.accRows (k : Core) (t : Tile) (ic : Bool) (rm : RM) (sat : Bool) (p : Word64) : Except Nat (List (Nat × List Byte)) :=
  if (rect t.rows t.cols).any (fun e => k.badCell (posRow p + e.1) (posCol p + e.2)) then .error 2
  else
    .ok ((List.range t.rows).map (fun i =>
      (scratchOff (t.row i), rowBytes t.fmt ((List.range t.cols).map (fun j =>
        accNarrow t.fmt ic rm sat (k.cell (posRow p + i) (posCol p + j)).toNat)))))

/-! ### The governor (R278, R279) -/

/-- CAP of a GOVCFG value. -/
def govCap (g : Word64) : Nat := fld g 24 16
/-- RAMP of a GOVCFG value. -/
def govRamp (g : Word64) : Nat := fld g 8 0
/-- Active cycles that the governor allows in a window after one with `active` cycles. -/
def govBudget (g : Word64) (active : Nat) : Nat :=
  if fld g 25 25 = 1 then min (govCap g) (active + govRamp g) else 256

/-- The governor's window closes, and the next one or, after windows in which nothing was streamed, a later one begins (R278). A window in
which a step was held counts `h` held cycles (log entry 29). -/
def Core.govern (k : Core) (now h : Nat) : Core :=
  let w := now / 256
  if w ≤ k.window then k
  else
    let n := if k.blocked then h else 0
    { k with
      window := w, active := 0, held := n, blocked := false, govcfg := k.govNext
      budget := govBudget k.govNext (if w = k.window + 1 then k.active else 0), govst := k.govst + BitVec.ofNat 32 n }

/-- GOVCFG is written: the value applies from the next window boundary (R279), so windows that have ended close first. -/
def State.putGovcfg (s : State) (core : Nat) (g : Word64) : State :=
  s.modCore core (fun k => { k.govern s.now (s.pick 90001 (256 - k.active + 1)) with govNext := g })

/-- The streaming command at the head leaves its core before its step is done: its held cycles of the present window are counted, and what
it had streamed is over (R276, R278). -/
def Core.endStream (k : Core) (h : Nat) : Core :=
  { k with
    streamed := 0, blocked := false
    govst := if k.blocked then k.govst + BitVec.ofNat 32 h else k.govst }

/-- Engine cycles of a streamed row (R265). -/
def rowCycles : Mode → Nat
  | .f16 | .bf16 => 2
  | _ => 1

/-- Streams rows for `cycles` active cycles under the governor's bound (R278): `go` follows once the windows have given the work all of
them; until then what the present window has left is used up and the step is held. -/
def State.streamFor (s : State) (core cycles : Nat) (go : State → State) : State :=
  let k := (s.core core).govern s.now (s.pick 90001 (256 - (s.core core).active + 1))
  let need := cycles - k.streamed
  let room := k.budget - k.active
  if need ≤ room then go (s.modCore core (fun _ => { k with active := k.active + need, streamed := 0 }))
  else s.modCore core (fun _ => { k with active := k.active + room, streamed := k.streamed + room, blocked := true })

/-! ### How a command ends -/

/-- The slice's updates of an object that must come before a command's (R304) are performed; none while one has to wait. -/
def State.ownUpdatesAt (s : State) (cmd : Cmd) (obj : Option Word64) : Option State :=
  match obj, s.ctx cmd.slice with
  | some a, some c =>
    let mine (x : Slice) : Bool := x.ops.any (fun o =>
      decide (o.seq < cmd.seq) && o.lanes.any (fun l => l.addr == a) && (match o.kind with
        | .abInit _ | .abUpdate _ _ => true
        | _ => false))
    if mine c.x then
      let s1 := s.drain cmd.slice
      match Table.find s1.slices cmd.slice with
      | some x => if mine x then none else some s1
      | none => some s1
    else some s
  | _, _ => some s
/-- Those of the command's own object. -/
def State.ownUpdates (s : State) (cmd : Cmd) : Option State := s.ownUpdatesAt cmd cmd.ab

/-- A command as the agent that updates an object (R302); `ms`: the release that an arrival is. -/
def Cmd.updater (c : Cmd) (b : Block) (ms : List Msg) : Writer := ⟨b.agent c.slice, .ls, c.seq, .core, ms⟩

/-- An update of a command's object (R305); `ms`: what it makes known. -/
def State.signal (s : State) (cmd : Cmd) (b : Block) (arrive : Bool) (n : Int) (ms : List Msg) : State :=
  match cmd.ab with
  | none => s
  | some a => s.abUpdate (cmd.updater b (if arrive then ms else [])) cmd.block (scratchOff a.toNat) arrive n ms

/-- A step has written bytes since write n; its object counts them (R305). -/
def State.counted (s : State) (cmd : Cmd) (b : Block) (n bytes : Nat) : State :=
  s.signal cmd b false (-(bytes : Nat)) (s.bytesKnown (b.agent cmd.slice) n)

/-- Changes the head of a queue of a core; `none` removes it. -/
def State.setHead (s : State) (core : Nat) (copy : Bool) (h : Option Cmd) : State :=
  s.modCore core (fun k =>
    let f (q : List Cmd) : List Cmd := match q, h with
      | _ :: t, some c => c :: t
      | _ :: t, none => t
      | [], _ => []
    if copy then { k with copyq := f k.copyq } else { k with cmdq := f k.cmdq, streamed := if h.isNone then 0 else k.streamed })

/-- The EN count of the issuing slice falls while the command is attached (R114, R275). -/
def State.enDown (s : State) (cmd : Cmd) : State :=
  if cmd.attached then s.modSlice cmd.slice (fun x => { x with cnt := { x.cnt with en := x.cnt.en - 1 } }) else s

/-- Whether a command counts bytes on its object, rather than an arrival (R282). -/
def CmdKind.byBytes : CmdKind → Bool
  | .accrd _ _ _ _ _ | .cptile _ _ | .cpcopy _ _ _ | .cptr _ _ | .cpmcast _ _ _ _ _ => true
  | _ => false

/-- The destination register of CPMCAST receives the undelivered destinations (R299). -/
def State.mcastResult (s : State) (core : Nat) (cmd : Cmd) (mask : BitVec 8) : State :=
  match cmd.kind with
  | .cpmcast d _ _ want _ =>
    let later := ((s.core core).copyq.tail.filter (fun e => e.slice == cmd.slice)).length
    s.modSlice cmd.slice (fun x => x.complete d ((mask &&& want).setWidth 64) true later)
  | _ => s

/-- The head command of a queue has completed: its arrival is a release at CORE scope (R263, R305). -/
def State.completeCmd (s : State) (core : Nat) (copy : Bool) (cmd : Cmd) : State :=
  let s1 := match Table.find s.blocks cmd.block with
    | none => s
    | some b => if cmd.kind.byBytes then s else s.signal cmd b true 0 [⟨.core, b.agent cmd.slice, cmd.knows⟩]
  (((s1.mcastResult core cmd cmd.undelivered).setHead core copy none).enDown cmd)

/-- The head command of a queue fails (R276, R277, R300). -/
def State.failCmd (s : State) (core : Nat) (copy : Bool) (cmd : Cmd) (code : Nat) : State :=
  let s1 := ((s.mcastResult core cmd 0xFF).setHead core copy none).enDown cmd
  let pump := { cmd with err := code }.pumpWord
  match s1.ctx cmd.slice with
  | none => s1
  | some c =>
    if c.x.ended then c.endGridFor cmd.pc cmd.kidx .engineFault false
    else s1.modSlice cmd.slice (fun x => { x with engFail := x.engFail ++ [(cmd.pc, code, pump, cmd.kidx)] })

/-- A step that could not be performed. -/
def State.failStep (s : State) (core : Nat) (copy : Bool) (cmd : Cmd) (e : EngErr) : State :=
  match e with
  | .code n => s.failCmd core copy cmd n
  | .wait v => s.modChip v (fun c => { c with outsideWait := true })
  | .held => s
  | .dropped t src => (s.dropPacket t src).failCmd core copy cmd 5
  | .stage2 v ipa =>
    let s1 := s.reportStage2 v ipa
    match s1.ctx cmd.slice with
    | none => s1
    | some c => c.endGridFor cmd.pc cmd.kidx .stage2Fault cmd.handler

/-- A core's change or a failure code ends a step: `next` counts it. -/
def State.coreStep (s : State) (core : Nat) (cmd : Cmd) (r : Nat × Core) (next : State → State) : State :=
  let s1 := s.modCore core (fun _ => r.2)
  if r.1 = 0 then next s1 else s1.failCmd core false cmd r.1

/-- The head command of a queue, with its block as the command sees it, unless the block has been killed, its chip does not run, or words of
the cycle of its issue may still enter before it (R263, R295). -/
def State.headCmd (s : State) (core : Nat) (copy : Bool) : Option (Cmd × Block) :=
  let q := if copy then (s.core core).copyq else (s.core core).cmdq
  match q.head? with
  | none => none
  | some cmd =>
    match Table.find s.blocks cmd.block with
    | none => none
    | some b =>
      if b.killed || !s.chipRuns b.vf || decide (s.now < cmd.at_) then none else some (cmd, s.blockSeen (cmd.reader b) cmd.block b)

/-- Streams rows for the head command: one that fails streams none (R276), and the others take their cycles (R265, R278). -/
def State.streamStep (s : State) (core : Nat) (cmd : Cmd) (mode : Mode) (rows : Nat) (f : Core → Nat × Core) (next : State → State) : State :=
  if (f (s.core core)).1 ≠ 0 then s.coreStep core cmd (f (s.core core)) next
  else s.streamFor core (rowCycles mode * rows) (fun t => t.coreStep core cmd (f (t.core core)) next)

/-- Performs the head command of the engine order when the pump does not expand it (R263). -/
def State.performCmd (s : State) (core : Nat) (cmd : Cmd) (b : Block) : State :=
  let k := s.core core
  let fin (t : State) : State := t.completeCmd core false cmd
  match cmd.kind with
  | .ldstat mode xf nc ns tb sm =>
    match tileOf tb with
    | none => s
    | some t => s.coreStep core cmd (k.loadPlane b mode xf nc ns t sm) fin
  | .pswap => fin (s.modCore core (fun k => { k with stationary := k.shadow, shadow := k.stationary }))
  | .stream mode rm nc ta sp =>
    match tileOf ta with
    | none => s
    | some t =>
      s.streamStep core cmd mode t.rows (fun k => k.streamRows b mode rm nc t 0 t.rows 0 (posRow sp) (posCol sp) t.cols) fin
  | .scacc rm a sa sb => s.coreStep core cmd (k.scacc b rm a sa sb) fin
  | .accclr a =>
    fin (s.modCore core (fun k =>
      k.setCells ((rect (fld a 25 16) 128).map (fun e => ((fld a 8 0 + e.1) * 128 + e.2, 0)))))
  | .accwr ts sp =>
    match tileOf ts with
    | none => s
    | some t =>
      if b.badTile t 0 t.rows 0 t.cols then s.failCmd core false cmd 1
      else
        fin (s.modCore core (fun k =>
          k.setCells ((rect t.rows t.cols).map (fun e =>
            ((posRow sp + e.1) * 128 + (posCol sp + e.2), accWiden t.fmt (b.tileElem t e.1 e.2))))))
  | .accrd ic rm sat td sp =>
    match tileOf td with
    | none => s
    | some t =>
      match k.accRows t ic rm sat sp with
      | .error e => s.failCmd core false cmd e
      | .ok rows =>
        fin ((rows.foldl (fun x r => x.engStore (cmd.writer b) cmd.block r.1 r.2) s).counted cmd b s.stamp (t.rows * t.rb))
  | .accmv ss sd sz =>
    let es := rect (fld sz 8 0) (fld sz 23 16)
    if es.any (fun e => k.badCell (posRow ss + e.1) (posCol ss + e.2)) then s.failCmd core false cmd 2
    else
      fin (s.modCore core (fun k => k.setCells (es.map (fun e =>
        ((posRow sd + e.1) * 128 + (posCol sd + e.2), (k.cell (posRow ss + e.1) (posCol ss + e.2)).toNat)))))
  | _ => s

/-! ### Pump steps -/

/-- Where step i of MXTILE stands: panel, pass, and position in the pass, 0 for FILL (R294). -/
def mxtileStep (a _b : Tile) (i : Nat) : Nat × Nat × Nat :=
  let per := 1 + ceilDiv a.rows 16
  let q := ceilDiv a.cols 192
  (i / per / q, i / per % q, i % per)

/-- A part of a tile. -/
def Tile.part (t : Tile) (r0 rows c0 cols : Nat) : Tile := { t with base := t.addr r0 c0, rows := rows, cols := cols }

/-- The head command has made one step. -/
def State.stepped (s : State) (core : Nat) (copy : Bool) (cmd : Cmd) : State :=
  s.setHead core copy (some { cmd with next := cmd.next + 1 })

/-- A pump step of a kind (R272): nothing happens unless the head command of the engine order stands at such a step. -/
def pumpStep (core : Nat) (s : State) (go : Cmd → Block → Core → Option State) : Host.Outcome State Fault Refusal :=
  match s.headCmd core false with
  | none => .next s
  | some (cmd, b) =>
    if cmd.next < cmd.kind.total then
      match s.ownUpdates cmd with
      | none => .next s
      | some _ => .next ((go cmd b (s.core core)).getD s)
    else .next s

/-- FILL (R272, R294): loads one plane of MXTILE and swaps it in. -/
def execFill (core : Nat) (s : State) : Host.Outcome State Fault Refusal :=
  pumpStep core s (fun cmd b k =>
    match cmd.kind with
    | .mxtile mode _ ta tb _ =>
      match tileOf ta, tileOf tb with
      | some a, some t =>
        let (p, q, j) := mxtileStep a t cmd.next
        if j = 0 then
          let u := t.part (192 * q) (min 192 (t.rows - 192 * q)) (96 * p) (min 96 (t.cols - 96 * p))
          some (s.coreStep core cmd (k.loadPlane b mode a.fmt .n48 false u 0) (fun t => t.stepped core false cmd))
        else none
      | _, _ => none
    | _ => none)

/-- STREAM (R272, R294): streams at most 16 rows of one pass of MXTILE. -/
def execStream (core : Nat) (s : State) : Host.Outcome State Fault Refusal :=
  pumpStep core s (fun cmd b _ =>
    match cmd.kind with
    | .mxtile mode rm ta tb sp =>
      match tileOf ta, tileOf tb with
      | some a, some t =>
        let (p, q, j) := mxtileStep a t cmd.next
        if j = 0 then none
        else
          let r0 := 16 * (j - 1)
          some (s.streamStep core cmd mode (min 16 (a.rows - r0))
            (fun k => k.streamRows b mode rm .n48 a r0 (min 16 (a.rows - r0)) (192 * q) (posRow sp + a.rows * p) (posCol sp)
              (min 192 (a.cols - 192 * q)))
            (fun t => t.stepped core false cmd))
      | _, _ => none
    | _ => none)

/-- SCALE (R291): one SCACC of SCTILE. -/
def execScale (core : Nat) (s : State) : Host.Outcome State Fault Refusal :=
  pumpStep core s (fun cmd b k =>
    match cmd.kind with
    | .sctile rm sc ta tb =>
      match tileOf ta, tileOf tb with
      | some a, some t => some (s.coreStep core cmd (k.sctileStep b rm sc a t cmd.next) (fun t => t.stepped core false cmd))
      | _, _ => none
    | _ => none)

/-- A step that copies n bytes from one address to another and counts them on the command's object (R296, R297, R305). -/
def State.copyBytes (s : State) (core : Nat) (copy : Bool) (cmd : Cmd) (b : Block) (dst src n : Nat) : State :=
  match s.engRead (cmd.reader b) b.vf core b 70000 src n with
  | .error e => s.failStep core copy cmd e
  | .ok bs =>
    match s.resolveRange b.vf core 80000 .write dst n with
    | .error e => s.failStep core copy cmd e
    | .ok ps =>
      match s.ownUpdates cmd with
      | none => s
      | some s1 =>
        let s2 := ((s1.engApply (cmd.reader b) (s.rangeSeen (cmd.reader b) b.vf core 70000 src n)).rangePackets b.vf src n).rangePackets
          b.vf dst n
        (((s2.writePieces (cmd.writer b) cmd.block core ps bs).counted cmd b s1.stamp n).stepped core copy cmd)

/-- COPY (R272, R297): one row of CPTILE, or 2,048 bytes of one. -/
def execCopy (core : Nat) (s : State) : Host.Outcome State Fault Refusal :=
  pumpStep core s (fun cmd b _ =>
    match cmd.kind with
    | .cptile td ts =>
      match tileOf td, tileOf ts with
      | some d, some t =>
        let per := rowSteps t
        let r := cmd.next / per
        let o := cmd.next % per * 2048
        some (s.copyBytes core false cmd b (d.row r + o) (t.row r + o) (min 2048 (t.rb - o)))
      | _, _ => none
    | _ => none)

/-! ### Copy-queue steps -/

/-- One destination row of CPTR (R298): element (r, c) of the transpose is element (c, r) of the source, as a bit pattern. -/
def State.transposeRow (s : State) (core : Nat) (cmd : Cmd) (b : Block) (d t : Tile) : State :=
  let r := cmd.next
  let w := t.fmt.width / 8
  let reads := (List.range t.rows).map (fun i => s.engRead (cmd.reader b) b.vf core b (70000 + 1024 * i) (t.addr i r) w)
  match reads.find? (fun x => match x with
    | .error _ => true
    | .ok _ => false) with
  | some (.error e) => s.failStep core true cmd e
  | _ =>
    let bs := reads.flatMap (fun x => match x with
      | .ok y => y
      | .error _ => [])
    match s.ownUpdates cmd with
    | none => s
    | some s0 =>
      let s1 := ((List.range t.rows).foldl (fun u i => u.rangePackets b.vf (t.addr i r) w) s0).engApply (cmd.reader b)
        ((List.range t.rows).flatMap (fun i => s.rangeSeen (cmd.reader b) b.vf core (70000 + 1024 * i) (t.addr i r) w))
      (((s1.engStore (cmd.writer b) cmd.block (scratchOff (d.row r)) bs).counted cmd b s1.stamp bs.length).stepped core true cmd)

/-- The destination blocks of a multicast, by core of the cluster (R207, R208), chosen when its first row is read. -/
def State.mcastDests (s : State) (core gid : Nat) (mask : BitVec 8) : Table Nat :=
  (List.range 8).filterMap (fun i =>
    if testBit mask.toNat i then
      (s.blocks.find? (fun e =>
        e.2.gid == gid && e.2.core == core / 8 * 8 + i && !e.2.killed
          && s.blocks.all (fun f => f.2.gid != gid || f.2.core != e.2.core || f.2.killed || decide (e.2.linear ≤ f.2.linear)))).map
        (fun e => (i, e.1))
    else none)

/-- Whether a destination block takes a multicast: the data range and the object lie in its scratchpad (R299). -/
def Block.takes (b : Block) (off bytes obj : Nat) : Bool :=
  decide (off + bytes ≤ b.scratchSize) && (obj == 0xFFFFFFFF || decide (obj + 16 ≤ b.scratchSize))

/-- A multicast row in one destination: its bytes, granules full, and its object (R207, R302, R305). -/
def State.mcastRow (s : State) (cmd : Cmd) (b : Block) (uid off obj : Nat) (bs : List Byte) : State :=
  let s1 := s.engStore (cmd.writer b) uid off bs
  if obj = 0xFFFFFFFF then s1
  else s1.abUpdate (cmd.updater b []) uid obj false (-(bs.length : Nat)) (s1.bytesKnown (b.agent cmd.slice) s.stamp)

/-- Where the object of a multicast lies in a destination; 0xFFFFFFFF for none. -/
def mcastObj (so : Word64) (base : Nat) : Nat := if fld so 63 32 = 0xFFFFFFFF then 0xFFFFFFFF else fld so 63 32 + base

/-- Delivers rows of a multicast that destinations have still to receive, in any order among destinations (R208): those that `now` names,
and what is left. A row whose count must come after the slice's own update of the object in its block waits for it (R304). -/
def State.deliverRows (s : State) (cmd : Cmd) (b : Block) (obj : Nat) (now : Nat → Bool) :
    List (Nat × Nat × List Byte) → State × List (Nat × Nat × List Byte)
  | [] => (s, [])
  | (i, off, bs) :: rest =>
    let r : State × List (Nat × Nat × List Byte) :=
      match Table.find cmd.dests i with
      | none => (s, [])
      | some u =>
        if !now i then (s, [(i, off, bs)])
        else
          match s.ownUpdatesAt cmd (if u = cmd.block ∧ obj ≠ 0xFFFFFFFF then some (BitVec.ofNat 64 (windowBase + obj)) else none) with
          | none => (s, [(i, off, bs)])
          | some s1 => (s1.mcastRow cmd b u off obj bs, [])
    let t := State.deliverRows r.1 cmd b obj now rest
    (t.1, r.2 ++ t.2)

/-- The rows of the head command of a copy queue that destinations have still to receive are delivered, as far as `now` names them. -/
def State.deliverLate (s : State) (core : Nat) (cmd : Cmd) (b : Block) (now : Nat → Bool) : State :=
  match cmd.kind with
  | .cpmcast _ so _ _ base =>
    let r := s.deliverRows cmd b (mcastObj so base) now cmd.late
    r.1.setHead core true (some { cmd with late := r.2 })
  | _ => s

/-- One row of CPMCAST (R299): it is read once, and each destination receives it in this step or later (R208). A row that fails leaves
the rows before it delivered everywhere (R300). -/
def State.mcastStep (s : State) (core : Nat) (cmd : Cmd) (b : Block) (so : Word64) (t : Tile) (mask : BitVec 8) (base : Nat) : State :=
  let off := fld so 31 0 + base
  let obj := mcastObj so base
  let dests := if cmd.next = 0 then s.mcastDests core b.gid mask else cmd.dests
  let ok (i : Nat) : Bool :=
    match Table.find dests i with
    | none => false
    | some u =>
      match Table.find s.blocks u with
      | none => false
      | some d => d.takes off (t.rows * t.rb) obj && !testBit cmd.undelivered.toNat i
  match s.engRead (cmd.reader b) b.vf core b 70000 (t.row cmd.next) t.rb with
  | .error e =>
    if cmd.late.isEmpty then s.failStep core true cmd e else s.deliverLate core cmd b (fun _ => true)
  | .ok bs =>
    let miss : BitVec 8 := BitVec.ofNat 8 ((List.range 8).foldl (fun m i =>
      if testBit mask.toNat i && !ok i then m + 2 ^ i else m) 0)
    let s0 := s.engApply (cmd.reader b) (s.rangeSeen (cmd.reader b) b.vf core 70000 (t.row cmd.next) t.rb)
    let rows := ((List.range 8).filter ok).map (fun i => (i, off + cmd.next * t.rb, bs))
    let cmd1 := { cmd with dests := dests, undelivered := cmd.undelivered ||| miss }
    let r := s0.deliverRows cmd1 b obj (fun i => s.flip (71000 + i)) (cmd.late ++ rows)
    r.1.stepped core true { cmd1 with late := r.2 }

/-- ENGINE_COMMAND_COMPLETION (R263, R295, R305): a command of the engine order that the pump does not expand is performed to
completion; a pump or copy command all of whose steps are done completes. -/
def execEngineCommandCompletion (core : Nat) (copy : Bool) (s : State) : Host.Outcome State Fault Refusal :=
  match s.headCmd core copy with
  | none => .next s
  | some (cmd, _) =>
    match s.ownUpdates cmd with
    | none => .next s
    | some s1 =>
      match Table.find s1.blocks cmd.block with
      | none => .next s1
      | some b =>
        if !copy && cmd.kind.pump == 0 then .next (s1.performCmd core cmd (s1.blockSeen (cmd.reader b) cmd.block b))
        else
          .next (if cmd.next ≠ cmd.kind.total then s1
            else if cmd.late.isEmpty then s1.completeCmd core copy cmd
            else s1.deliverLate core cmd b (fun i => s1.flip (71000 + i) || cmd.late.head?.any (fun e => e.1 == i)))

/-- COPY_QUEUE_STEP (R296, R298, R299): one step of the head command of the copy queue. -/
def execCopyQueueStep (core : Nat) (s : State) : Host.Outcome State Fault Refusal :=
  match s.headCmd core true with
  | none => .next s
  | some (cmd, b) =>
    if cmd.kind.total ≤ cmd.next then .next s
    else
      match cmd.kind with
      | .cpcopy dst src len =>
        let o := cmd.next * 2048
        .next (s.copyBytes core true cmd b (dst.toNat + o) (src.toNat + o) (min 2048 (len - o)))
      | .cptr td ts =>
        match tileOf td, tileOf ts with
        | some d, some t => .next (s.transposeRow core cmd b d t)
        | _, _ => .next s
      | .cpmcast _ so ts mask base =>
        match tileOf ts with
        | some t => .next (s.mcastStep core cmd b so t mask base)
        | none => .next s
      | _ => .next s

/-- GOVERNOR_WINDOW (R278): the core's governor comes to the window that has begun. -/
def execGovernorWindow (core : Nat) (s : State) : Host.Outcome State Fault Refusal :=
  .next (s.modCore core (fun k => k.govern s.now (s.pick 90001 (256 - k.active + 1))))

end Sys2Proof.Machine
end

