-- ==== Sys2Proof/Machine/Fabric.lean ====
section
/-! DEFINITION. The fabric (R403, R407, R410–R417, R440): FSEND, FRECV, fabric ingress and completions, and pod accesses.
Launch requests stand in Sys2Proof/Machine/Queues.lean. -/

namespace Sys2Proof.Machine

/-! ### Completing an operation of class FB -/

/-- Takes an operation off its slice's list; FB falls (R114). -/
def State.dropFb (s : State) (k n : Nat) : State :=
  s.modSlice k (fun x => { x with ops := x.ops.filter (fun e => e.seq != n), cnt := { x.cnt with fb := x.cnt.fb - 1 } })

/-- A fabric operation completes with a code in D (R413): a completion result (R29). -/
def State.fabricDone (s : State) (k n d code : Nat) : State :=
  (s.modSlice k (fun x => x.complete d (BitVec.ofNat 64 code) false 0)).dropFb k n

/-- Runs a change of an operation of a slice, also on the committed image if the operation is bound to it (R367). -/
def Ctx.onOp (c : Ctx) (o : MemOp) (f : Ctx → MemOp → State) : State :=
  c.s.alsoInImage c.b.vf o.outside (fun t =>
    match t.ctx c.k with
    | none => t
    | some y =>
      match y.x.op? o.seq with
      | none => t
      | some p => f y p)

/-! ### FSEND, FRECV (R412) -/

/-- A fabric word once its guard has passed and its checks: the operation enters the slice's list. -/
def Ctx.fabricIssue (c : Ctx) (kind : OpKind) (lanes : List LaneAcc) (used : List TlbEntry) (rel m : Bool) : State :=
  let act (y : Ctx) : State :=
    let op : MemOp :=
      { y.newOp kind lanes .pod with
        rel := rel, sent := y.s.podPaused y.b.vf, outside := y.x.forcedOk
        rels := y.x.carried kind (if rel then some .pod else none) }
    ((y.s.fillTlb y.b.core used).modSlice y.k (fun x =>
      { x.addOp op with cnt := { x.cnt with fb := x.cnt.fb + 1 }, forcedOk := false })).finish y.k m
  let go (y : Ctx) : State := y.orForce act
  if rel then c.releaseAll go else go c

/-- A fabric word: the counter, the guard, the scope policy, the address b if it has one, and the chip-table entry (R412).
The address of a pod-member trap is b. -/
def fabricWord (s : State) (ctl : Ctl) (a b : SSrc) (ask : Option Ask) (rel : Bool) (kind : Ctx → OpKind) :
    Host.Outcome State Fault Refusal :=
  issue s (chkRegs []) (fun x =>
    if x.x.cnt.fb = 63 then x.stay
    else if !x.x.guardScalar ctl.guard then x.s.finish x.k ctl.m
    else if x.s.scopeDenied x.b.vf .pod then x.trap { cause := .scopePolicy }
    else
      let member := entryValid (x.s.chipEntry x.b.vf ((x.src a).toNat % 4096))
      let adr := (x.src b).toNat
      match ask with
      | none => if member then x.fabricIssue (kind x) [] [] rel ctl.m else x.trap { cause := .podMember, addr := x.src b }
      | some q =>
        if badForm q adr then x.trap (faultAt .addressForm 0 adr q.want.writes)
        else if !member then x.trap (faultAt .podMember 0 adr q.want.writes)
        else
          match x.check q [(0, adr)] with
          | .error t => x.trapX t
          | .ok r =>
            x.fabricIssue (kind x)
              (r.map (fun p =>
                ⟨0, BitVec.ofNat 64 p.2.1, p.2.2.map (fun y => y.pa), [], [], [], false, none, false⟩))
              (usedOf r) rel ctl.m)

/-- FSEND (R412, R414): a release at POD scope. -/
def execFsend (c : Ctl) (d : SReg) (a b : SSrc) (s : State) : Host.Outcome State Fault Refusal :=
  fabricWord s c a b (some { want := .read, size := 64 }) true (fun x =>
    .fsend ((x.src a).setWidth 12) (x.src b) (x.physS d.val))

/-- FSEND.LAUNCH (R386, R412). -/
def execFsendLaunch (c : Ctl) (d : SReg) (a b : SSrc) (s : State) : Host.Outcome State Fault Refusal :=
  fabricWord s c a b none true (fun x =>
    .fsendLaunch ((x.src a).setWidth 12) ⟨fld (x.src a) 21 16 % 64, Nat.mod_lt _ (by decide)⟩ (x.src b) (x.physS d.val))

/-- FRECV (R412, R414). -/
def execFrecv (c : Ctl) (d : SReg) (a b : SSrc) (s : State) : Host.Outcome State Fault Refusal :=
  fabricWord s c a b (some { want := .write, size := 64 }) false (fun x =>
    .frecv ((x.src a).setWidth 12) (x.src b) (x.physS d.val))

/-! ### Sending -/

/-- The destination of a send. -/
def OpKind.sendTo : OpKind → Option Nat
  | .fsend dst _ _ | .fsendLaunch dst _ _ _ => some dst.toNat
  | _ => none
/-- The result register of a fabric operation. -/
def OpKind.result : OpKind → Nat
  | .fsend _ _ d | .fsendLaunch _ _ _ d | .frecv _ _ d => d
  | _ => 0

/-- Whether a send must let an earlier one on its link go first: of its own slice, or one that a pause held (R405). -/
def State.sendWaits (s : State) (c : Ctx) (o : MemOp) : Bool :=
  s.slices.any (fun e =>
    match s.ctx e.1 with
    | none => false
    | some y =>
      y.b.vf == c.b.vf && y.x.ops.any (fun p =>
        p.kind.sendTo == o.kind.sendTo && p.status.isNone && (if e.1 = c.k then decide (p.seq < o.seq)
          else p.sent && decide (p.at_ < o.at_))))

/-- Whether a send may leave its chip now (R405, R414). -/
def Ctx.maySend (c : Ctx) (o : MemOp) : Bool :=
  o.status.isNone && c.x.mayPerform o && !c.s.podPaused c.b.vf && !c.s.sendWaits c o

/-- The 64 source bytes of an FSEND and the writes that they come from, or the fault of their read (R414): one that completes with D = 4,
but for a stage-2 fault. -/
def Ctx.sendBytes (c : Ctx) (o : MemOp) : Except XErr (List Byte × List Past) :=
  match o.lanes with
  | [] => .ok ([], [])
  | a :: _ =>
    let read (y : LaneAcc) : Except XErr (List Byte × List Past) :=
      if c.lanePoisoned y 64 then .error (.uncorrectable y.addr.toNat) else .ok (c.loadSeen .core o.seq y 64)
    match a.pa with
    | none => read a
    | some _ =>
      match c.s.translate c.b.vf (c.s.tlbOf c.b.core) 61000 a.addr.toNat .read with
      | .ok x => read { a with pa := some x.pa }
      | .error e => .error e

/-- The send has read its bytes as one LS load, in a committed image that it is bound to as well (R251, R367, R414). -/
def Ctx.noteSend (c : Ctx) (o : MemOp) (ws : List Past) : State :=
  if o.lanes.isEmpty then c.s else c.onOp o (fun y p => y.s.noteRead (y.reader .ls .core p.seq) false ws)

/-! ### Cisterns (R410, R411) -/

/-- A cistern header is malformed. -/
def badCistern (h : BitVec 512) : Bool :=
  fld h 511 256 != 0 || fld h 127 13 != 0 || fld h 7 2 != 0 || decide (fld h 12 8 < 2) || decide (16 < fld h 12 8)
    || fld h 255 192 % 4096 != 0

/-- The address of entry i of a cistern. -/
def cisternEntry (h : BitVec 512) (i : Nat) : Nat := wrap (fld h 255 192 + 64 * (i % 2 ^ fld h 12 8)) 64
/-- The address of the cistern header of a link. -/
def State.cisternAt (s : State) (v src : Nat) : Nat := wrap ((s.chip v).ctbase.toNat + 64 * src) 64

/-- Translates an address for a chip's fabric interface; a window address does not translate. -/
def State.fabricXlat (s : State) (v site a : Nat) (want : Want) : Except XErr Xlat :=
  if isVirtual a then s.translate v (s.chipTlb v) site a want else .error (.stage1 0)

/-- A translation fault of a chip's own tables met by ingress is reported to the physical function (R411); for a stage-1 fault
nothing states the DATA field (log entry 31). -/
def State.reportWalk (s : State) (v : Nat) (e : XErr) : State :=
  match e with
  | .stage2 ipa => s.reportStage2 v ipa
  | .stage1 _ => s.reportStage2 v (Config.free s.fresh 61100).toNat
  | .uncorrectable _ => s

/-- The bytes of a 512-bit header. -/
def headerOf (bs : List Byte) : BitVec 512 := BitVec.ofNat 512 (leNat bs)

/-- What a delivered message makes known (R414): what its send released, and its own bytes to every class. Ingress passes it on as an agent
of the chip, so that an acquire load of WIDX at TENANT scope learns it. -/
def State.delivered (s : State) (site : Site) (ms : List Msg) (n : Nat) : List Msg :=
  ms.map (fun m => { m with site := site }) ++ s.bytesKnown site n
/-- What ingress has learnt from a header that it acquires at TENANT scope, and its release passes on (R247, R411): the messages of the link
that came before, and what an FRECV or a consumer's RIDX store released. -/
def State.headerKnown (s : State) (site : Site) (a : Nat) : List Msg :=
  match s.gains site .tenant 0 ((s.latest (Loc.inBytes a 64)).flatMap (fun w => w.rels)) with
  | [] => []
  | ks => [⟨.tenant, site, ks.eraseDups⟩]

/-- Ingress of one message into chip t's cistern for source src (R411), with the releases that its send carries: the state and the status, none while a line of the chip's
undo log makes it wait (R366). A header in a poisoned line gives NOLINK (log entry 32). -/
def State.ingress (s : State) (t src : Nat) (ms : List Msg) (payload : List Byte) : State × Option Nat :=
  let h0 := s.cisternAt t src
  match s.fabricXlat t 62000 h0 .read with
  | .error e => (s.reportWalk t e, some 2)
  | .ok x =>
    if s.inUndo t x.pa 64 then (s.modChip t (fun c => { c with outsideWait := true }), none)
    else
      let h := headerOf (s.readBytes (s.keyTag t) x.pa 64)
      let w := fld h 191 160
      let n := (BitVec.ofNat 32 w - BitVec.ofNat 32 (fld h 159 128)).toNat
      if s.linePoisoned x.pa 64 ∨ fld h 0 0 = 0 ∨ badCistern h = true then (s, some 2)
      else if n = 2 ^ fld h 12 8 then (s, some 1)
      else
        match s.fabricXlat t 62300 (cisternEntry h w) .write, s.fabricXlat t 62000 h0 .write with
        | .error e, _ => (s.reportWalk t e, some 2)
        | _, .error e => (s.reportWalk t e, some 2)
        | .ok y, .ok _ =>
          if s.inUndo t y.pa 64 then (s.modChip t (fun c => { c with outsideWait := true }), none)
          else
            let site := queueSite t ((s.diesOf t).headD 0)
            let old := s.headerKnown site x.pa
            let s0 := (s.applyKnown site.die ((old ++ ms).flatMap (fun m => m.knows))).writeMem ⟨site, .fb, 0, .tenant, []⟩ t true y.pa payload
            let s1 := s0.writeMem ⟨site, .fb, 0, .tenant, old ++ s0.delivered site ms s.stamp⟩ t true (x.pa + 20)
              (leBytes 4 ((w + 1) % 2 ^ 32))
            (if fld h 1 1 = 1 ∧ n = 0 then
                s1.postEvent (fnOf t) { s1.eventOf t 3 0 0 0 0 with vchip := BitVec.ofNat 12 src }
              else s1, some 0)

/-- A packet reaches chip t: authentication and the count first, then ingress. -/
def State.receive (s : State) (t src count : Nat) (authentic : Bool) (ms : List Msg) (payload : List Byte) : State × Option Nat :=
  if s.accepts t src count authentic then
    let r := s.ingress t src ms payload
    match r.2 with
    | none => r
    | some _ => (r.1.countAccept t src count, r.2)
  else (s.dropPacket t src, some 3)

/-- Writes the status that a packet returned to its sender's operation. -/
def State.sendStatus (s : State) (v k n code : Nat) (bound : Bool) : State :=
  s.alsoInImage v bound (fun t => t.modSlice k (fun x =>
    { x with ops := x.ops.map (fun o => if o.seq = n then { o with status := some code } else o) }))

/-- FABRIC_INGRESS (R411): a message reaches function f. One that a chip of this module sent carries its sender's operation,
and its bytes, source and count are that operation's. -/
def execFabricIngress (f : Fin 64) (msg : FabMsg) (s : State) : Host.Outcome State Fault Refusal :=
  let t := f.val
  match msg.sender with
  | none =>
    if fld (s.frec t) 0 0 = 1 then
      let authentic := s.podOf t == msg.podid.toNat && s.opens t msg.src.toNat msg.dst.toNat msg.key
      .next (s.receive t msg.src.toNat msg.count.toNat authentic [] ((msg.payload ++ List.replicate 64 0).take 64)).1
    else .next s
  | some w =>
    match s.ctx w.slice with
    | none => .next s
    | some c =>
      match c.x.op? w.op with
      | none => .next s
      | some o =>
        match o.kind with
        | .fsend dst _ _ =>
          if c.maySend o && s.target c.b.vf dst.toNat == .here t then
            match c.sendBytes o with
            | .error _ => .next s
            | .ok (bs, ws) =>
              let src := s.vchipOf c.b.vf
              let r := (c.noteSend o ws).receive t src (s.nextCount c.b.vf dst.toNat) (s.linkAuthentic c.b.vf t dst.toNat)
                (c.opWriter o).rels bs
              match r.2 with
              | none => .next (s.modChip t (fun h => { h with outsideWait := true }))
              | some code =>
                .next ((r.1.countSend c.b.vf dst.toNat).sendStatus c.b.vf w.slice w.op code o.outside)
          else .next s
        | _ => .next s

/-! ### Completions (R413, R414) -/

/-- A stage-2 fault of an operation ends its grid (R349). -/
def Ctx.stage2End (c : Ctx) (o : MemOp) (v ipa : Nat) : State :=
  (c.at (c.s.reportStage2 v ipa)).endGridFor o.pc o.kidx .stage2Fault o.handler

/-- Where FRECV's bytes go: scratchpad, or a physical address. -/
def Ctx.recvDest (c : Ctx) (o : MemOp) : Except XErr LaneAcc :=
  match o.lanes with
  | [] => .error (.stage1 0)
  | a :: _ =>
    match a.pa with
    | none => .ok a
    | some _ =>
      match c.s.translate c.b.vf (c.s.tlbOf c.b.core) 61000 a.addr.toNat .write with
      | .ok x => .ok { a with pa := some x.pa }
      | .error e => .error e

/-- FRECV is performed (R414): its header and entry are read with acquire, and RIDX is written as a release at TENANT scope. -/
def Ctx.performRecv (c : Ctx) (o : MemOp) (src : Nat) : State :=
  let v := c.b.vf
  let fail (e : XErr) : State :=
    match e with
    | .stage2 ipa => c.stage2End o v ipa
    | _ => c.s.fabricDone c.k o.seq o.kind.result 4
  match c.s.fabricXlat v 62000 (c.s.cisternAt v src) .read with
  | .error e => fail e
  | .ok x =>
    let h := headerOf (c.s.readBytes (c.s.keyTag v) x.pa 64)
    let r := fld h 159 128
    if c.s.linePoisoned x.pa 64 then fail (.uncorrectable x.pa)
    else if fld h 0 0 = 0 ∨ badCistern h = true then c.s.fabricDone c.k o.seq o.kind.result 2
    else if fld h 191 160 = r then c.s.fabricDone c.k o.seq o.kind.result 1
    else
      match c.s.fabricXlat v 62300 (cisternEntry h r) .read, c.recvDest o, c.s.fabricXlat v 62000 (c.s.cisternAt v src) .write with
      | .error e, _, _ => fail e
      | _, .error e, _ => fail e
      | _, _, .error e => fail e
      | .ok y, .ok a, .ok _ =>
        if c.s.linePoisoned y.pa 64 then fail (.uncorrectable y.pa)
        else
          let ws := c.s.latest (fun l => Loc.inBytes x.pa 64 l || Loc.inBytes y.pa 64 l)
          let ks := c.s.gains c.site .tenant (o.seq + 1) (ws.flatMap (fun w => w.rels))
          let s0 := (c.s.withClocks (ws.foldl (fun t w => t.applyAt c.site.die w) c.s)).applyKnown c.site.die ks
          let s1 := (c.at s0).writeLane (c.opWriter o) a a.pa (c.s.readBytes (c.s.keyTag v) y.pa 64) o.outside
          let s2 := s1.writeMem ((c.at s1).writer .fb o.seq .tenant [(.tenant, o.seq + 1)]) v o.outside (x.pa + 16)
            (leBytes 4 ((r + 1) % 2 ^ 32))
          (s2.modSlice c.k (fun z => z.learn ks)).fabricDone c.k o.seq o.kind.result 0

/-- The code that a packet to another module returned (R413): a ring may be full for a message only, and only a launch request is refused
with a code. -/
def remoteCode (launch : Bool) : RemoteResult → Option Nat
  | .delivered => some 0
  | .full => if launch then none else some 1
  | .noLink => some 2
  | .dropped => some 3
  | .refused c => if launch && c.val != 0 then some (16 + c.val) else none
  | _ => none
/-- A launch request. -/
def OpKind.isLaunch : OpKind → Bool
  | .fsendLaunch _ _ _ _ => true
  | _ => false

/-- FABRIC_COMPLETION (R413, R414, R440): an operation whose packet has returned its status, or that no packet leaves for, or a
packet to another module with the status it returned, or an FRECV, completes. -/
def execFabricCompletion (k n : Nat) (remote : Option RemoteResult) (s : State) : Host.Outcome State Fault Refusal :=
  match s.ctx k with
  | none => .next s
  | some c =>
    match c.x.op? n with
    | none => .next s
    | some o =>
      let d := o.kind.result
      let finish (t : State) (code : Nat) : State := t.alsoInImage c.b.vf o.outside (fun u => u.fabricDone k n d code)
      match o.status with
      | some code => .next (finish s code)
      | none =>
        match o.kind with
        | .frecv link _ _ => if c.x.mayPerform o then .next (c.onOp o (fun y p => y.performRecv p link.toNat)) else .next s
        | .fsend dst _ _ | .fsendLaunch dst _ _ _ =>
          if c.maySend o then
            match c.sendBytes o with
            | .error (.stage2 ipa) => .next (c.onOp o (fun y p => y.stage2End p y.b.vf ipa))
            | .error _ => .next (finish s 4)
            | .ok (_, ws) =>
              match s.target c.b.vf dst.toNat with
              | .nobody => .next (finish (c.noteSend o ws) 2)
              | .here _ => .next s
              | .away =>
                match remote.bind (remoteCode o.kind.isLaunch) with
                | none => .next s
                | some code => .next (finish ((c.noteSend o ws).countSend c.b.vf dst.toNat) code)
          else .next s
        | _ => .next s

/-! ### Pod accesses (R415–R417) -/

/-- Steps 2 and 3 of R217 for a pod word (R416). -/
def Ctx.podForm (c : Ctx) (q : Ask) (ls : List (Nat × Nat)) : Except TrapInfo Unit :=
  let form (a : Nat) : Bool := regionOf a != .pod || bits a 56 7 != 0
  let member (a : Nat) : Bool := entryValid (c.s.chipEntry c.b.vf (bits a 44 12))
  match ls.find? (fun p => form p.2 || !member p.2) with
  | some p => .error (faultAt (if form p.2 then .addressForm else .podMember) p.1 p.2 q.want.writes)
  | none =>
    match ls.find? (fun p => p.2 % q.size != 0) with
    | some p => .error (faultAt .misalignedData p.1 p.2 q.want.writes)
    | none => .ok ()

/-- The access that a pod operation makes. -/
def OpKind.podWant : OpKind → Want
  | .podLoad _ _ => .read
  | .podStore _ => .write
  | _ => .atomic
/-- The destination chip of a lane. -/
def LaneAcc.dst (a : LaneAcc) : Nat := bits a.addr.toNat 44 12
/-- The address in the destination's address space (R206). -/
def LaneAcc.offset (a : LaneAcc) : Nat := a.addr.toNat % 2 ^ 44

/-- Where a lane's address leads on this module, for the order among accesses to common bytes (R246). -/
def Ctx.podPlace (c : Ctx) (want : Want) (a : LaneAcc) : Option Nat :=
  match c.s.target c.b.vf a.dst with
  | .here t =>
    match c.s.translate t (c.s.chipTlb t) (laneSite a.lane + 128) a.offset want with
    | .ok x => some x.pa
    | .error _ => none
  | _ => none

/-- Issues a pod word (R416): the slice is held until the checks at the targets have returned. After a forced checkpoint those
checks have passed already (R367). -/
def Ctx.podIssue (c : Ctx) (w : MemWord) (ctl : Ctl) : State :=
  let ls := c.memLanes w.vec ctl.guard
  let at_ := ls.map (fun l => (l, c.address w.mem w.ask.size l))
  if w.kind.full c.x.cnt then c.stay
  else if (!ls.isEmpty || w.mem.ord != .none) && c.s.scopeDenied c.b.vf w.mem.scope then c.trap { cause := .scopePolicy }
  else if ls.isEmpty then c.fenced w.mem.scope (ordAcq w.mem.ord) (ordRel w.mem.ord) false (fun y => y.s.finish y.k ctl.m)
  else
    match c.podForm w.ask at_ with
    | .error t => c.trap t
    | .ok () =>
      let lanes : List LaneAcc := at_.map (fun p =>
        let d := w.data c p.1
        ⟨p.1, BitVec.ofNat 64 p.2, none, d.1, d.2, [], false, none, false⟩)
      let go (y : Ctx) : State :=
        let n := y.x.seq
        let placed := if y.x.forcedOk then lanes.map (fun a => { a with pa := y.podPlace w.ask.want a }) else lanes
        y.enqueue [] w placed (fun t =>
          if y.x.forcedOk then
            (t.modSlice y.k (fun x =>
              { x with ops := x.ops.map (fun o => if o.seq = n then { o with checked := true } else o) })).finish y.k ctl.m
          else t.modSlice y.k (fun x => { x with hold := .pod n y.s.ir }))
      let wait (y : Ctx) : State := if y.mustForce && w.kind.isPodWrite && y.x.unbound then y.stay else go y
      if ordRel w.mem.ord then c.releaseAll wait else wait c

/-- A pod word. -/
def podWord (s : State) (ctl : Ctl) (uses : List VUse) (w : Ctx → MemWord) : Host.Outcome State Fault Refusal :=
  issue s (chkRegs uses) (fun c => c.podIssue (w c) ctl)

/-- PODLD. -/
def execPodld (c : Ctl) (m : MemArg) (sz : Sz) (d : VReg) (s : State) : Host.Outcome State Fault Refusal :=
  podWord s c (memUses m [⟨d.val, sz.regs, false⟩]) (fun x =>
    ⟨m, true, { want := .read, size := sz.bytes }, .podLoad (x.physV d.val) sz, fun _ _ => ([], [])⟩)
/-- PODST. -/
def execPodst (c : Ctl) (m : MemArg) (sz : Sz) (d : VReg) (s : State) : Host.Outcome State Fault Refusal :=
  podWord s c (memUses m [⟨d.val, sz.regs, true⟩]) (fun _ =>
    ⟨m, true, { want := .write, size := sz.bytes }, .podStore sz,
      fun x l => ((x.regBytes d.val sz.regs l).take sz.bytes, [])⟩)
/-- The operation of a PODRED. -/
def ropAtom : Rop → AtomOp
  | .add => .add | .min => .min | .minn => .minn | .max => .max | .maxn => .maxn | .and => .and | .or => .or | .xor => .xor
  | .fadd => .fadd | .badd2 => .badd2
/-- PODRED. -/
def execPodred (c : Ctl) (m : MemArg) (sz : Sz) (rop : Rop) (d : VReg) (s : State) : Host.Outcome State Fault Refusal :=
  podWord s c (memUses m [⟨d.val, sz.regs, true⟩]) (fun _ =>
    ⟨m, true, { want := .atomic, size := sz.bytes }, .podRed (ropAtom rop) sz, fun x l => (x.regBytes d.val sz.regs l, [])⟩)

/-- The step-4 check of one lane (R416): the physical address that it gives on this module, the trap, or none while a lane of another
module has no answer. A poisoned line that is read traps (R203). -/
def Ctx.podLaneCheck (c : Ctx) (o : MemOp) (remote : Option RemoteResult) (a : LaneAcc) : Option (Except TrapInfo (Option Nat)) :=
  let want := o.kind.podWant
  let fault (cause : Cause) (level : Nat := 0) : Except TrapInfo (Option Nat) :=
    .error (faultAt cause a.lane a.addr.toNat want.writes level)
  match c.s.target c.b.vf a.dst with
  | .nobody => some (fault .podMember)
  | .away =>
    match remote with
    | some .podChecked => some (.ok none)
    | some (.podRefused ls) =>
      match Table.find ls a.lane with
      | none => some (.ok none)
      | some .member => some (fault .podMember)
      | some (.data lv) => some (fault .dataFault lv.val)
      | some .stage2 => some (.error { faultAt .stage2Fault a.lane a.addr.toNat want.writes with pump := 64 })
      | some (.uncorrectable p) => some (.error (faultAt .uncorrectable a.lane p.toNat want.writes))
    | some .noLink => some (fault .podMember)
    | _ => none
  | .here t =>
    if !c.s.linkOpen c.b.vf t a.dst then some (fault .dataFault)
    else
    match c.s.translate t (c.s.chipTlb t) (laneSite a.lane + 128) a.offset want with
    | .ok x =>
      if want != .write && c.s.linePoisoned x.pa o.kind.size then some (fault .uncorrectable) else some (.ok (some x.pa))
    | .error (.stage1 lv) => some (fault .dataFault lv)
    | .error (.stage2 ipa) =>
      some (.error { faultAt .stage2Fault a.lane a.addr.toNat want.writes with pump := BitVec.ofNat 64 t, ipa := BitVec.ofNat 64 ipa })
    | .error (.uncorrectable p) => some (.error (faultAt .uncorrectable a.lane p want.writes))

/-- The chips of this module that a pod word's lanes name, once each: one packet of the link carries all that a word asks of a chip (log
entry 139). -/
def Ctx.podLinks (c : Ctx) (o : MemOp) : List (Nat × Nat) :=
  (o.lanes.filterMap (fun a => match c.s.target c.b.vf a.dst with
    | .here t => some (t, a.dst)
    | _ => none)).eraseDups
/-- The packets of a pod word reach their chips: each raises the link's counts, or is dropped (R407). -/
def Ctx.podCounts (c : Ctx) (o : MemOp) : State :=
  (c.podLinks o).foldl (fun u l => u.linkPacket c.b.vf l.1 l.2) c.s

/-- Every lane's check: the lanes with the addresses that it gives, the trap of the lowest lane that fails, or none while an answer is
missing. -/
def Ctx.podCheck (c : Ctx) (o : MemOp) (remote : Option RemoteResult) : Option (Except TrapInfo (List LaneAcc)) :=
  o.lanes.foldr (fun a r =>
    match c.podLaneCheck o remote a, r with
    | some (.error t), some _ => some (.error t)
    | some (.ok p), some (.ok ls) => some (.ok ({ a with pa := p } :: ls))
    | some (.ok _), some (.error t) => some (.error t)
    | _, _ => none) (some (.ok []))

/-- The checks have returned: the word traps, forces its checkpoint, or lets the slice go on. -/
def Ctx.podChecked (c : Ctx) (o : MemOp) (word : Word64) (r : Except TrapInfo (List LaneAcc)) : State :=
  match r with
  | .error t =>
    let s1 := (c.s.dropFb c.k o.seq).modSlice c.k (fun x => { x with hold := .none })
    let s2 := if t.cause = .stage2Fault ∧ t.pump.toNat < 64 then s1.reportStage2 t.pump.toNat t.ipa.toNat else s1
    s2.takeTrap c.k { t with pump := 0 } word
  | .ok ls =>
    if c.mustForce && o.kind.isPodWrite then (c.at (c.s.dropFb c.k o.seq)).forceWord word
    else
      (c.s.modSlice c.k (fun x =>
        { x with hold := .none, ops := x.ops.map (fun p => if p.seq = o.seq then { p with checked := true, lanes := ls } else p) })).finish
        c.k (testBit word.toNat 63)

/-- A pod write that meets an unwritable page is dropped and reported as R241 says; in a slice that has ended it ends the grid. -/
def Ctx.podDrop (c : Ctx) (o : MemOp) (a : LaneAcc) (level : Nat) : State :=
  if c.x.ended then c.endGridAt c.x.pc .dataFault (c.x.priv == 1)
  else c.s.modSlice c.k (fun x =>
    { x with dropped := x.dropped ++ [(o.seq, a.addr, level)], dropDue := x.dropDue || (c.s.chip c.b.vf).cut })

/-- Where a checked lane acts at its target (R416): a load where its check led (R353); a write is translated again. -/
def Ctx.podXlat (c : Ctx) (o : MemOp) (a : LaneAcc) (t : Nat) : Except XErr Xlat :=
  let again := c.s.translate t (c.s.chipTlb t) (laneSite a.lane + 128) a.offset o.kind.podWant
  match o.kind.podWant, a.pa with
  | .read, some p => .ok ⟨p, false, []⟩
  | _, _ => again
/-- Performs one lane of a checked pod operation on this module (R416): the bytes a load read, and the state. -/
def Ctx.podLane (c : Ctx) (o : MemOp) (a : LaneAcc) : State × LaneAcc :=
  match c.s.target c.b.vf a.dst with
  | .here t =>
    match c.podXlat o a t with
    | .error (.stage2 ipa) => (c.stage2End o t ipa, { a with got := some [] })
    | .error e =>
      (c.podDrop o a (match e with
        | .stage1 l => l
        | _ => 0), { a with got := some [] })
    | .ok x =>
      let bound := o.outside || t != c.b.vf
      let n := o.kind.size
      let sel := Loc.inBytes x.pa n
      let r := { c.reader .fb o.scope o.seq with site := { c.site with die := entryDie (c.s.chipEntry c.b.vf a.dst) } }
      let w : Writer := { c.opWriter o with path := .fb, site := r.site }
      match o.kind with
      | .podLoad _ _ =>
        (c.s.noteRead r o.acq (c.s.seenWrites r a.lane sel),
          { a with got := some ((c.s.seen r a.lane sel).readBytes (c.s.keyTag t) x.pa n), poisoned := c.s.linePoisoned x.pa n })
      | .podStore _ => (c.s.writeMem w t bound x.pa a.data, { a with got := some [] })
      | .podRed op _ =>
        let new := op.apply (8 * n) (leNat (c.s.readBytes (c.s.keyTag t) x.pa n)) (leNat a.data) 0
        (c.s.writeMem { w with rels := w.rels ++ (c.s.latest sel).flatMap (fun (p : Past) => p.rels) } t bound x.pa (leBytes n new),
          { a with got := some [] })
      | _ => (c.s, a)
  | _ => (c.s, { a with got := some [] })

/-- Performs what a plan says of the lanes, in ascending order (R228, R416). -/
def Ctx.podLanes (c : Ctx) (o : MemOp) : List (LaneAcc × List Nat) → State × List LaneAcc
  | [] => (c.s, [])
  | (a, ps) :: as =>
    let r := if ps.isEmpty then (c.s, a) else c.podLane o a
    let t := Ctx.podLanes (c.at r.1) o as
    (t.1, r.2 :: t.2)

/-- What another module answered for its lanes. -/
def podAnswer (o : MemOp) (remote : Option RemoteResult) (a : LaneAcc) : LaneAcc :=
  if a.got.isSome then a else
  match o.kind, remote with
  | .podLoad _ _, some (.podData ds) =>
    match ds.find? (fun p => p.1 == a.lane) with
    | some p => { a with got := some ((p.2 ++ List.replicate 8 0).take o.kind.size) }
    | none => a
  | .podLoad _ _, some (.podRefused ls) =>
    match Table.find ls a.lane with
    | some (.uncorrectable _) => { a with got := some [], poisoned := true }
    | _ => a
  | .podLoad _ _, _ => a
  | _, some .delivered | _, some (.podRefused _) => { a with got := some [] }
  | _, _ => a

/-- A lane of a pod write that its target on another module refused when it was performed (R349, R416). -/
def Ctx.podLost (c : Ctx) (o : MemOp) (a : LaneAcc) (why : PodFault) : State :=
  match why with
  | .stage2 => c.endGridFor o.pc o.kidx .stage2Fault o.handler
  | .data lv => c.podDrop o a lv.val
  | _ => c.podDrop o a 0

/-- Performs the lanes of a checked pod operation that `later` does not put off; with the last of them FB falls, unless bit 7 of `later`
holds it back, and a PODLD's results are written (R31, R114, R417). A write that another module refused is dropped and reported (R416). -/
def Ctx.podPerform (c : Ctx) (o : MemOp) (remote : Option RemoteResult) (later : BitVec 8) : State :=
  let away (a : LaneAcc) : Bool := c.s.target c.b.vf a.dst == .away
  let ls := o.lanes.map (fun a => if away a then podAnswer o remote a else a)
  if ls.any (fun a => away a && a.got.isNone) then c.s
  else
    let here := { o with lanes := ls.filter (fun a => !away a) }
    let r := c.podLanes o (here.plan later)
    let all := o.lanes.map (fun a => ((r.2 ++ ls).find? (fun b => b.lane == a.lane)).getD a)
    let lost : List (LaneAcc × PodFault) := match remote with
      | some (.podRefused m) => o.lanes.filterMap (fun a =>
        if o.kind.isPodWrite && away a && a.got.isNone then (Table.find m a.lane).map (fun w => (a, w)) else none)
      | _ => []
    let s0 := lost.foldl (fun t p => (c.at t).podLost o p.1 p.2) r.1
    if all.any (fun a => a.got.isNone) || later.getLsbD 7 then s0.putOp c.k { o with lanes := all }
    else
      let s1 := s0.dropFb c.k o.seq
      match o.kind with
      | .podLoad _ _ =>
        (s1.modSlice c.k (fun x =>
          { x.deliver (MemOp.results { o with lanes := all } x.live) with
            poisonDue := x.poisonDue ++ { o with lanes := all }.poisonDue x.live })).afterLong c.k
      | _ => s1

/-- A chip of this module whose undo log holds a line that the operation touches (R366). -/
def Ctx.podBlocked (c : Ctx) (o : MemOp) : Option Nat :=
  o.lanes.findSome? (fun a =>
    match c.s.target c.b.vf a.dst with
    | .here t =>
      match c.s.translate t (c.s.chipTlb t) (laneSite a.lane + 128) a.offset o.kind.podWant with
      | .ok x => if t ≠ c.b.vf ∧ c.s.inUndo t x.pa o.kind.size = true then some t else none
      | .error _ => none
    | _ => none)

/-- POD_ACCESS (R416): a pod access is checked at its targets, and performed in later steps; `later` puts lanes off. A pause (R405) stops
new checks; it lasts until the accesses that have been checked and may be performed have been. -/
def execPodAccess (k n : Nat) (remote : Option RemoteResult) (later : BitVec 8) (s : State) : Host.Outcome State Fault Refusal :=
  match s.ctx k with
  | none => .next s
  | some c =>
    match c.x.op? n with
    | none => .next s
    | some o =>
      match o.kind with
      | .podLoad _ _ | .podStore _ | .podRed _ _ =>
        if o.checked then
          if !c.x.mayPerform o then .next s
          else
            match c.podBlocked o with
            | some t => .next (s.modChip t (fun h => { h with outsideWait := true }))
            | none => .next (c.onOp o (fun y p => y.podPerform p remote later))
        else if s.podPaused c.b.vf then .next s
        else
          match c.x.hold, c.podCheck o remote with
          | .pod _ word, some r => .next ((c.at (c.podCounts o)).podChecked o word r)
          | _, _ => .next s
      | _ => .next s

end Sys2Proof.Machine
end

