-- ==== Sys2Proof/Machine/Records.lean ====
section
/-! DEFINITION. Launch packets (R163), launch records and their levels (R158–R162), bind records (R379): fields and format
checks, and the shape of a block (R150–R152). -/

namespace Sys2Proof.Machine

/-! ### Launch packets (R163) -/

/-- TYPE of a packet: 1 LAUNCH, 2 BARRIER, 3 NOP. -/
def pktType (p : BitVec 512) : Nat := fld p 7 0
/-- ORDER. -/
def pktOrder (p : BitVec 512) : Bool := fld p 8 8 == 1
/-- IRQ. -/
def pktIrq (p : BitVec 512) : Bool := fld p 9 9 == 1
/-- NOBRAZE. -/
def pktNoBraze (p : BitVec 512) : Bool := fld p 10 10 == 1
/-- KIDX. -/
def pktKidx (p : BitVec 512) : Nat := fld p 31 16
/-- ACQSCOPE. -/
def pktAcq (p : BitVec 512) : Nat := fld p 35 32
/-- RELSCOPE. -/
def pktRel (p : BitVec 512) : Nat := fld p 39 36
/-- CTX of a steward packet (R375). -/
def pktCtx (p : BitVec 512) : Nat := fld p 47 40
/-- ARGS. -/
def pktArgs (p : BitVec 512) : Word64 := BitVec.ofNat 64 (fld p 127 64)
/-- SIGADDR. -/
def pktSig (p : BitVec 512) : Nat := fld p 191 128
/-- WAITADDR. -/
def pktWaitAddr (p : BitVec 512) : Nat := fld p 255 192
/-- WAITVAL. -/
def pktWaitVal (p : BitVec 512) : Nat := fld p 319 256
/-- ELIST. -/
def pktElist (p : BitVec 512) : Nat := fld p 383 320

/-! ### Launch records (R158–R162) -/

/-- A declared level (R159). -/
structure Level where
  kind : Nat
  domain : Nat
  scope : Nat
  extent : Nat
  deriving DecidableEq, Repr

/-- SQUADS. -/
def recSquads (r : BitVec 1024) : Nat := fld r 325 320
/-- THREADS, with 0 read as SQUADS × 32 (R150). -/
def recThreads (r : BitVec 1024) : Nat := if fld r 336 326 = 0 then recSquads r * 32 else fld r 336 326
/-- SCRATCH. -/
def recScratch (r : BitVec 1024) : Nat := fld r 403 384
/-- MXSQ ≠ 0: the block reserves the matrix engine (R200). -/
def recMx (r : BitVec 1024) : Bool := fld r 468 463 != 0
/-- ACTRES. -/
def recAct (r : BitVec 1024) : Bool := fld r 348 348 == 1
/-- SPLICE. -/
def recSplice (r : BitVec 1024) : Nat := fld r 255 192
/-- RM. -/
def recRM (r : BitVec 1024) : Nat := fld r 347 346
/-- The number of blocks of the grid. -/
def recBlocks (r : BitVec 1024) : Nat := fld r 276 256 * fld r 297 277 * fld r 318 298
/-- COLLDL. -/
def recCollDl (r : BitVec 1024) : Nat := fld r 687 672

/-- The role of a squad, its index in the role, and its register count (R151). -/
def roleOf (r : BitVec 1024) (q : Nat) : Role × Nat × Nat :=
  let cp := fld r 453 448
  let mx := fld r 468 463
  let ep := fld r 483 478
  if q < cp then (.copy, q, fld r 462 454)
  else if q < cp + mx then (.matrix, q - cp, fld r 477 469)
  else if q < cp + mx + ep then (.epilogue, q - cp - mx, fld r 492 484)
  else (.general, q - cp - mx - ep, fld r 345 337)

/-- The registers of all squads of a block. -/
def recRegs (r : BitVec 1024) : Nat := (List.range (recSquads r)).foldl (fun n q => n + (roleOf r q).2.2) 0
/-- The bytes of unified store a block needs (R152). -/
def recNeed (r : BitVec 1024) : Nat := recRegs r * 128 + recScratch r

/-- The level word k. -/
def levelWord (r : BitVec 1024) (k : Nat) : Nat := bits r.toNat (512 + 32 * k) 32
/-- The level of a word. -/
def levelOf (w : Nat) : Level := ⟨bits w 23 3, bits w 20 3, bits w 16 4, bits w 0 16⟩

/-- Whether a level keeps to R159 and R160: domain, least scope, extent. -/
def levelOk (l : Level) : Bool :=
  let dom :=
    if l.kind = 1 then decide (l.domain < 2)
    else if l.kind = 2 then l.domain == 1
    else if l.kind = 3 then l.domain == 2
    else if l.kind = 4 then l.domain == 3
    else l.kind == 5 && l.domain == 4
  let least := if l.kind = 1 then 4 + l.domain else if l.kind = 2 then 5 else if l.kind = 5 then 7 else 6
  dom && decide (least ≤ l.scope) && decide (l.scope ≤ 8) && decide (1 ≤ l.extent)

/-- The levels of a list of level words, LEVEL0 first, of kinds above `kind`; none when they break R159 or R160, or hold a reserved scope
code (R162). -/
def levelList (kind : Nat) : List Nat → Option (List Level)
  | [] => some []
  | w :: ws =>
    let l := levelOf w
    if bits w 26 6 ≠ 0 ∨ (scope? l.scope).isNone then none
    else if l.kind = 0 then if ws.all (fun x => x == 0) then some [] else none
    else if levelOk l = true ∧ kind < l.kind then (levelList l.kind ws).map (fun ls => l :: ls)
    else none

/-- The levels that a record declares, LEVEL0 first. -/
def recLevels (r : BitVec 1024) : Option (List Level) := levelList 0 ((List.range 5).map (levelWord r))
/-- Blocks of one unit of each level: the products of the extents. -/
def unitSizes : Nat → List Level → List (Level × Nat)
  | _, [] => []
  | n, l :: ls => (l, n * l.extent) :: unitSizes (n * l.extent) ls

/-- Whether the extents divide the grid (R160); a POD level's unit is the whole grid. -/
def levelsFit (r : BitVec 1024) (ls : List Level) : Bool :=
  let n := (unitSizes 1 ls).foldl (fun _ e => e.2) 1
  recBlocks r % n == 0 && (ls.all (fun l => l.kind != 5) || recBlocks r == n)

/-- Whether a register count may stand for a role with a squad (R162). -/
def countOk (squads n : Nat) : Bool := squads == 0 || (n % 4 == 0 && decide (4 ≤ n) && decide (n ≤ 256))

/-- The format check of a launch record (R162). -/
def recOk (r : BitVec 1024) : Bool :=
  let sq := recSquads r
  let cp := fld r 453 448
  let mx := fld r 468 463
  let ep := fld r 483 478
  let th := fld r 336 326
  fld r 1023 688 == 0 && fld r 511 493 == 0 && fld r 447 404 == 0 && fld r 351 349 == 0 && fld r 319 319 == 0
    && recBlocks r != 0 && decide (1 ≤ sq) && decide (sq ≤ 32) && decide (cp + mx + ep ≤ sq)
    && countOk cp (fld r 462 454) && countOk mx (fld r 477 469) && countOk ep (fld r 492 484)
    && countOk (sq - cp - mx - ep) (fld r 345 337)
    && (th == 0 || (decide ((sq - 1) * 32 + 1 ≤ th) && decide (th ≤ sq * 32)))
    && recScratch r % 16 == 0 && decide (recNeed r ≤ 983040)
    && (fld r 383 352 == 0 || fld r 127 64 != 0)
    && (match recLevels r with
      | none => false
      | some ls => levelsFit r ls)

/-- The lanes of a slice that the launch creates (R150). -/
def createdLanes (r : BitVec 1024) (q sl : Nat) : BitVec 4 :=
  BitVec.ofNat 4 ((List.range 4).foldl (fun m l =>
    m + bitOf (decide (q * 32 + sl * 4 + l < recThreads r)) * 2 ^ l) 0)

/-- Blocks of one unit that the distributors keep together (R381): the largest BLOCKGROUP or DIEGROUP unit, else 1. -/
def chunkUnit (r : BitVec 1024) : Nat :=
  (unitSizes 1 ((recLevels r).getD [])).foldl (fun u e => if e.1.kind = 1 ∨ e.1.kind = 2 then e.2 else u) 1
/-- The BLOCKGROUP level of a record: its extent and whether its domain is a die. -/
def blockGroup (r : BitVec 1024) : Option (Nat × Bool) :=
  (((recLevels r).getD []).find? (fun l => l.kind == 1)).map (fun l => (l.extent, l.domain == 1))
/-- The POD level of a record: the chips that the grid spans, and the blocks of each (R160; log entry 41). -/
def podLevel (r : BitVec 1024) : Option (Nat × Nat) :=
  ((unitSizes 1 ((recLevels r).getD [])).find? (fun e => e.1.kind == 5)).map (fun e => (e.1.extent, e.2 / max 1 e.1.extent))
/-- Blocks of one CLUSTERSET unit, if the record declares the level. -/
def setUnit (r : BitVec 1024) : Option Nat :=
  ((unitSizes 1 ((recLevels r).getD [])).find? (fun e => e.1.kind == 3)).map (fun e => e.2)

/-! ### Checks of a packet (R163, R165) -/

/-- The record that a LAUNCH packet names: in the function's kernel table, or for a steward queue in the firmware's (R375). -/
def State.recordOf (s : State) (home : QRef) (p : BitVec 512) : Option (BitVec 1024) :=
  match home with
  | .vf f _ => if pktKidx p < 4096 then Table.find (s.chip f.val).kernels (pktKidx p) else none
  | .steward _ => Table.find s.dev.firmware (pktKidx p)

/-- Whether bits [47:40] are as the queue's packets may have them (R163, R375). -/
def ctxOk (home : QRef) (p : BitVec 512) : Bool :=
  match home with
  | .vf _ _ => pktCtx p == 0
  | .steward _ => fld p 46 46 == 0

/-- The format check of a packet (R163). -/
def State.pktOk (s : State) (home : QRef) (p : BitVec 512) : Bool :=
  fld p 511 384 == 0 && fld p 63 48 == 0 && fld p 15 11 == 0 && ctxOk home p
    && (scope? (pktAcq p)).isSome && (scope? (pktRel p)).isSome
    && pktWaitAddr p % 8 == 0 && pktSig p % 32 == 0 && pktElist p % 16 == 0
    && (if pktType p = 1 then
          (match s.recordOf home p with
            | none => false
            | some r => recOk r)
        else if pktType p = 2 then pktKidx p == 0 && pktArgs p == 0 && pktElist p == 0
        else pktType p == 3 && p == 3)

/-- The scopes that a packet's scope check covers (R165): those of every level word, used or not. -/
def pktScopes (p : BitVec 512) (r : BitVec 1024) : List Scope :=
  ([pktAcq p, pktRel p] ++ (if pktType p = 1 then (List.range 5).map (fun k => (levelOf (levelWord r k)).scope) else [])).filterMap scope?
/-- Whether the scope check passes in a function's context. -/
def State.scopesOk (s : State) (v : Nat) (p : BitVec 512) (r : BitVec 1024) : Bool :=
  (pktScopes p r).all (fun c => !s.scopeDenied v c)

/-! ### Bind records (R379) -/

/-- DEVQ. -/
def bindDevq (b : BitVec 128) : Bool := fld b 30 30 == 1
/-- GANG. -/
def bindGang (b : BitVec 128) : Bool := fld b 31 31 == 1
/-- PRIO. -/
def bindPrio (b : BitVec 128) : Nat := fld b 39 37
/-- RUNLIM in core cycles. -/
def bindRunLimit (b : BitVec 128) : Nat := fld b 67 48 * 2500
/-- GRACE in core cycles; 0 stands for 2,000 µs. -/
def bindGrace (b : BitVec 128) : Nat := (if fld b 87 68 = 0 then 2000 else fld b 87 68) * 2500
/-- WEIGHT (R380); a queue without a record counts as 1. -/
def bindWeight (b : BitVec 128) : Nat := max 1 (fld b 47 40)
/-- CSMASK. -/
def bindClusters (b : BitVec 128) : List Nat := (List.range 20).filter (fun g => testBit b.toNat (100 + g))

/-- The binding in force: queues are bound in TDISP RUN only (R406). -/
def State.bound (s : State) (f q : Nat) : Option (Nat × BitVec 128) :=
  if (s.chip f).tdisp = .run then (s.bindRecord f q).map (fun e => (e.1, e.2.2)) else none

end Sys2Proof.Machine
end

