-- ==== Sys2Proof/Machine/Queues.lean ====
section
/-! DEFINITION. Queues and their queue cores (R163–R167, R355–R359, R377–R380, R384–R387, R441): doorbells, packet reads,
the WAITADDR load, completion, pre-emption and destruction, QENQ and launch requests. -/

namespace Sys2Proof.Machine

/-! ### Queues (R377, R378) -/

/-- A queue of a function. -/
def State.queue (s : State) (f q : Nat) : Queue := Table.getD (s.chip f).queues q Queue.reset
/-- Changes one queue. -/
def State.modQueue (s : State) (f q : Nat) (h : Queue → Queue) : State :=
  s.modChip f (fun c => { c with queues := Table.put c.queues q (h (Table.getD c.queues q Queue.reset)) })

/-- The packets a ring holds. -/
def Queue.held (u : Queue) : Nat := (u.widx - u.ridx).toNat
/-- BASE and SIZE are valid. -/
def Queue.ringOk (u : Queue) : Bool :=
  u.base.toNat % 4096 == 0 && decide (4 ≤ u.size.toNat) && decide (u.size.toNat ≤ 20)
/-- More packets than the ring has slots. -/
def Queue.over (u : Queue) : Bool := decide (2 ^ u.size.toNat < u.held)
/-- The address of packet i of the ring. -/
def Queue.slotAddr (u : Queue) (i : BitVec 32) : Nat := wrap (u.base.toNat + 64 * (i.toNat % 2 ^ u.size.toNat)) 64

/-- Whether a layout commit holds the doorbells of a function's queues (R394). -/
def State.quiesced (s : State) (f : Nat) : Bool := (s.diesOf f).any (fun d => (s.die d).quiesced)

/-- The state that a queue's indices and binding give it (R378). -/
def State.queueState (s : State) (f q : Nat) (u : Queue) : QState :=
  let st : QState :=
    match u.state with
    | .disabled =>
      if (s.bound f q).isSome && u.ringOk then (if u.over then .error else .idle) else .disabled
    | x => x
  match st with
  | .idle => if u.widx ≠ u.ridx ∧ s.quiesced f = false then .running else .idle
  | .running => if u.widx = u.ridx ∧ u.pkts = [] then .idle else .running
  | x => x

/-- A queue takes the state that its indices and binding give it. -/
def State.refreshQueue (s : State) (f q : Nat) : State :=
  s.modQueue f q (fun u => { u with state := s.queueState f q u })

/-- A change of a function's queues made from outside the chip: a rollback does not undo it. -/
def State.fromOutside (s : State) (f : Nat) (h : State → State) : State := s.alsoInImage f (s.timeSliced f) h

/-- A doorbell (R378): WIDX is written; too many packets put a queue that is not DISABLED in ERROR. -/
def State.ring (s : State) (f q : Nat) (w : BitVec 32) : State :=
  (s.modQueue f q (fun u =>
    let u1 := { u with widx := w }
    match u.state with
    | .idle | .running | .stopped => if u1.over then { u1 with state := .error } else u1
    | _ => u1)).refreshQueue f q

/-- Whether the last boot failed (R431, R432). -/
def State.bootFailed (s : State) : Bool := fld s.dev.devstat 23 16 != 0
/-- Whether the host reaches a function (R430, R432): a virtual function among the NumVFs that are open, of a module that has booted; after
a failed boot the physical function alone. -/
def State.exposed (s : State) : Fn → Bool
  | .pf => true
  | .vf f => decide (f.val < s.dev.numVfs.toNat) && !s.bootFailed

/-- A write of WIDX by the host, which a device-fed queue ignores (R379). -/
def State.doorbell (s : State) (f q : Nat) (w : BitVec 32) : State :=
  match s.bindRecord f q with
  | some (_, _, b) => if bindDevq b then s else s.fromOutside f (fun t => t.ring f q w)
  | none => s.fromOutside f (fun t => t.ring f q w)

/-- DOORBELL (R377, R378). -/
def execDoorbell (f q : Fin 64) (w : BitVec 32) (s : State) : Host.Outcome State Fault Refusal :=
  .next (if s.exposed (.vf f) then s.doorbell f.val q.val w else s)

/-! ### Accesses of the queue core (R441) -/

/-- The pieces of a range in a function's address space, by physical address. An address that is not translated, a pod address among them,
fails as at stage 1 (log entry 125). -/
def State.qcPieces (s : State) (v die site : Nat) (want : Want) : List (Nat × Nat) → Except XErr (List (Nat × Nat × List TlbEntry))
  | [] => .ok []
  | (a, n) :: ps =>
    match (if isVirtual a then s.translate v (s.die die).tlb site a want else .error (.stage1 0)) with
    | .error e => .error e
    | .ok x =>
      match State.qcPieces s v die (site + 512) want ps with
      | .error e => .error e
      | .ok r => .ok ((x.pa, n, x.used) :: r)

/-- Writes pieces as a write of the queue core that carries releases. -/
def State.qcRelease (s : State) (w : Writer) (v die : Nat) (bound : Bool) : List (Nat × Nat × List TlbEntry) → List Byte → State
  | [], _ => s
  | (pa, n, used) :: ps, bs =>
    State.qcRelease ((s.fillDieTlb die used).writeMem w v bound pa (bs.take n)) w v die bound ps (bs.drop n)

/-- Writes pieces. -/
def State.qcPut (s : State) (v die : Nat) (bound : Bool) : List (Nat × Nat × List TlbEntry) → List Byte → State
  | [], _ => s
  | (pa, n, used) :: ps, bs =>
    State.qcPut ((s.fillDieTlb die used).writePhys (some v) bound pa (bs.take n)) v die bound ps (bs.drop n)

/-- A write of the queue core in a function's address space: all of it, or none when a page faults. -/
def State.qcWrite (s : State) (v die site : Nat) (bound : Bool) (a : Nat) (bs : List Byte) : Except XErr State :=
  match s.qcPieces v die site .write (cutPages a bs.length) with
  | .error e => .error e
  | .ok ps => .ok (s.qcPut v die bound ps bs)

/-- A read of the queue core within one page. -/
def State.qcRead (s : State) (v die site a n : Nat) : Except XErr (List Byte × State) :=
  match s.qcPieces v die site .read [(a, n)] with
  | .ok ((pa, _, used) :: _) =>
    if s.linePoisoned pa n then .error (.uncorrectable pa) else .ok (s.readBytes (s.keyTag v) pa n, s.fillDieTlb die used)
  | .ok [] => .error (.stage1 0)
  | .error e => .error e

/-- The cause code of a queue core's fault (R332). -/
def xerrCode : XErr → Nat
  | .stage1 _ => Cause.dataFault.code
  | .stage2 _ => Cause.stage2Fault.code
  | .uncorrectable _ => Cause.uncorrectable.code

/-- A queue-core fault is posted as KIND 7 (R441), and a stage-2 fault also to the physical function (R349). -/
def State.postQueueFault (s : State) (f q : Nat) (e : XErr) (data : Nat) : State :=
  (s.noteXErr f e).postEvent (fnOf f) (s.eventOf f 7 (xerrCode e) q 0 data)

/-! ### Reading packets (R163, R165, R167) -/

/-- The die whose queue core serves a queue. -/
def State.queueDie (s : State) : QRef → Nat
  | .vf f q => ((s.bindRecord f.val q.val).map (fun e => e.1)).getD 0
  | .steward d => d.val
/-- The function whose queue it is; a steward queue belongs to none. -/
def homeFn : QRef → Nat
  | .vf f _ => f.val
  | .steward _ => 64

/-- The packets of a queue that are not DONE, in ring order. -/
def State.packetsOf (s : State) : QRef → List Nat
  | .vf f q => (s.queue f.val q.val).pkts
  | .steward d => (s.die d.val).stewardPkts
/-- Changes the list of packets that are not DONE. -/
def State.modPackets (s : State) (home : QRef) (h : List Nat → List Nat) : State :=
  match home with
  | .vf f q => s.modQueue f.val q.val (fun u => { u with pkts := h u.pkts })
  | .steward d => s.modDie d.val (fun x => { x with stewardPkts := h x.stewardPkts })

/-- Whether a chip's own progress is stopped for a checkpoint or a migration; a chip outside its time slice stands as its
committed image, and queue cores go on for it (R361, R378, R380). -/
def State.queuesHeld (s : State) (f : Nat) : Bool :=
  (s.chip f).migrating || (s.chipRuns f && !s.mayRun f)

/-- Whether the queue core acts for a queue now: it reads and starts packets while STATE is RUNNING and no pre-emption request
is in progress (R355, R378, R394); a module whose boot failed runs no steward packet (R432). -/
def State.coreActs (s : State) : QRef → Bool
  | .vf f q =>
    let u := s.queue f.val q.val
    u.state == .running && !u.preempt && (s.bound f.val q.val).isSome && !s.queuesHeld f.val && !s.quiesced f.val && !s.dev.shutdown
  | .steward _ => !s.dev.shutdown && !s.bootFailed

/-- A step of a queue core: for a chip outside its time slice it acts on the committed image too. -/
def State.queueStep (s : State) (home : QRef) (h : State → State) : State :=
  match home with
  | .vf f _ => s.alsoInImage f.val (s.timeSliced f.val && !s.chipRuns f.val) h
  | .steward _ => h s

/-- The function in whose context a packet's blocks run (R375). -/
def packetCtx (home : QRef) (p : BitVec 512) : Nat :=
  match home with
  | .vf f _ => f.val
  | .steward _ => if fld p 47 47 = 1 then fld p 45 40 else 64

/-- A packet as it leaves READ (R167): format, then scopes. -/
def State.readGrid (s : State) (home : QRef) (idx : Nat) (p : BitVec 512) : Grid :=
  let r := (s.recordOf home p).getD 0
  let v := packetCtx home p
  let bad := !s.pktOk home p
  let denied := !s.scopesOk v p r
  { home := home, idx := idx, ctx := v, pkt := p, lrec := r
    state := if bad || denied then .killing else .waiting
    waitOk := false, undisp := [], unitSet := [], startedAt := s.now, deadline := none, destroyed := false
    status := if bad then 5 else if denied then 6 else 0
    msgs := match home with
      | .vf f q => Table.getD (s.queue f.val q.val).posts idx []
      | .steward _ => []
    fault := none, forcedAt := none, bzcode := 0, splice := none, elided := [], producer := none }

/-- A packet that fails in READ or WAITING puts its queue in ERROR (R167, R378): no further packet starts. A steward queue has no states. -/
def State.failQueue (s : State) : QRef → State
  | .steward _ => s
  | .vf f q =>
    s.modQueue f.val q.val (fun u =>
      { u with
        state := match u.state with
          | .idle | .running => .error
          | x => x })

/-- A packet enters its queue's list; a well-formed NOP completes at once (R163), and one that fails in READ is DONE but for its record
(R167). -/
def State.enlist (s : State) (home : QRef) (idx : Nat) (p : BitVec 512) : State :=
  if p = 3 then s
  else
    let g := s.dev.nextGid
    let x := s.readGrid home idx p
    let s1 := (({ s with grids := Table.put s.grids g x }).modDev (fun d => { d with nextGid := g + 1 })).modPackets
      home (fun l => l ++ [g])
    if x.state = .killing then s1.failQueue home else s1

/-- Reads the next packet of a tenant queue's ring (R441). -/
def State.readRing (s : State) (f q : Fin 64) : Except (XErr × Nat) State :=
  let u := s.queue f.val q.val
  let a := u.slotAddr u.ridx
  match s.qcRead f.val (s.queueDie (.vf f q)) 90000 a 64 with
  | .error e => .error (e, a)
  | .ok (bs, s1) =>
    .ok (((s1.modQueue f.val q.val (fun u => { u with ridx := u.ridx + 1 })).enlist (.vf f q) u.ridx.toNat
      (BitVec.ofNat 512 (leNat bs))).refreshQueue f.val q.val)

/-- The queue core reads the next packet of a tenant queue, if there is one (R378, R441). -/
def State.readNext (s : State) (f q : Fin 64) : State :=
  let u := s.queue f.val q.val
  if u.widx = u.ridx then s
  else
    match s.readRing f q with
    | .ok t => t
    | .error (e, a) =>
      (s.modQueue f.val q.val (fun u => { u with state := .error })).postQueueFault f.val q.val e a

/-- PACKET_READ (R163, R167, R378, R441): the queue core reads the next packet of a RUNNING queue, or the next packet of a
steward queue (R375). -/
def execPacketRead (home : QRef) (s : State) : Host.Outcome State Fault Refusal :=
  if !s.coreActs home then .next s
  else
    match home with
    | .vf f q => .next (s.queueStep home (fun t => t.readNext f q))
    | .steward d =>
      match (s.die d.val).steward with
      | [] => .next s
      | p :: ps =>
        .next (((s.modDie d.val (fun x => { x with steward := ps })).enlist (.steward d) s.dev.nextGid p).modDev (fun v =>
          { v with steward := { v.steward with gid := if v.steward.busy then some s.dev.nextGid else none } }))

/-! ### Waiting (R164, R165, R441) -/

/-- A packet in WAITING that no other runs. -/
def Grid.waits (g : Grid) : Bool := g.state == .waiting && g.producer.isNone

/-- A packet ends before it has any block (R167). -/
def Grid.endWith (g : Grid) (status : Nat) (f : Option GridFault) : Grid :=
  { g with state := .killing, status := status, fault := f, undisp := [] }

/-- A packet ends from WAITING with a status (R167). -/
def State.failPacket (s : State) (gid : Nat) (home : QRef) (status : Nat) (f : Option GridFault) : State :=
  (s.modGrid gid (fun g => g.endWith status f)).failQueue home

/-- The releases that a packet's WAITADDR load reads. -/
def State.waitReleases (s : State) (g : Grid) : List Msg :=
  match s.qcPieces g.ctx (s.queueDie g.home) 91000 .read [(pktWaitAddr g.pkt, 8)] with
  | .ok ((pa, _, _) :: _) => (s.latest (Loc.inBytes pa 8)).flatMap (fun w => w.rels)
  | _ => []

/-- The acquire load of a packet's WAITADDR, after the scope check (R164, R165, R441). -/
def State.loadWait (s : State) (gid : Nat) (g : Grid) : State :=
  if s.scopesOk g.ctx g.pkt g.lrec then
    match s.qcRead g.ctx (s.queueDie g.home) 91000 (pktWaitAddr g.pkt) 8 with
    | .error e =>
      (s.noteXErr g.ctx e).failPacket gid g.home 4 (some ⟨0, pktKidx g.pkt, BitVec.ofNat 8 Cause.dataFault.code⟩)
    | .ok (bs, s1) =>
      if pktWaitVal g.pkt ≤ leNat bs then
        s1.modGrid gid (fun g => { g with waitOk := true, msgs := g.msgs ++ s.waitReleases g })
      else s1
  else s.failPacket gid g.home 6 none

/-- WAITADDR_LOAD (R164, R165, R441). -/
def execWaitaddrLoad (gid : Nat) (s : State) : Host.Outcome State Fault Refusal :=
  match Table.find s.grids gid with
  | none => .next s
  | some g =>
    .next (if g.waits && s.coreActs g.home && pktWaitAddr g.pkt != 0 then s.queueStep g.home (fun t => t.loadWait gid g)
      else s)

/-! ### Pre-emption and destruction (R355–R359) -/

/-- The grace period of a queue's packets. -/
def State.graceOf (s : State) (home : QRef) : Nat :=
  match home with
  | .vf f q => bindGrace (((s.bindRecord f.val q.val).map (fun e => e.2.2)).getD 0)
  | .steward _ => bindGrace 0

/-- Arms the kernel watchdog of a packet (R356): in DISPATCHING or DRAINING, by the first event only. -/
def Grid.arm (g : Grid) (at_ : Nat) : Grid :=
  if (g.state = .dispatching ∨ g.state = .draining) ∧ g.deadline = none then { g with deadline := some at_ } else g

/-- Arms the watchdog of every packet of a queue. -/
def State.armQueue (s : State) (home : QRef) : State :=
  (s.packetsOf home).foldl (fun t g => t.modGrid g (fun x => x.arm (s.now + s.graceOf home))) s

/-- Whether a packet of a queue is in progress: read, not DONE, and not in WAITING (R355). -/
def State.inProgress (s : State) (home : QRef) : Bool :=
  (s.packetsOf home).any (fun g => match Table.find s.grids g with
    | none => false
    | some x => !x.waits)

/-- A pre-emption request completes when no packet is in progress (R355): the queue stops, and packets in WAITING wait
again from there. -/
def State.stopQueue (s : State) (f q : Fin 64) : State :=
  let u := s.queue f.val q.val
  if u.preempt && !s.inProgress (.vf f q) then
    (u.pkts.foldl (fun t g => t.modGrid g (fun x => { x with waitOk := false })) s).modQueue f.val q.val (fun u =>
      { u with
        preempt := false
        state := match u.state with
          | .idle | .running => .stopped
          | x => x })
  else s

/-- A pre-emption request for a queue (R355, R356); in ERROR it arms the watchdogs of packets that still run. -/
def State.preemptQueue (s : State) (f q : Fin 64) : State :=
  match (s.queue f.val q.val).state with
  | .idle | .running =>
    ((s.modQueue f.val q.val (fun u => { u with preempt := true })).armQueue (.vf f q)).stopQueue f q
  | .error => s.armQueue (.vf f q)
  | _ => s

/-- What queue destruction does to one packet (R359): one in WAITING ends with STATUS 2; of one that runs the undispatched
blocks are dropped, and the dispatched ones drain until the watchdog. -/
def Grid.destroy (g : Grid) (deadline : Nat) : Grid :=
  if g.state = .waiting then if g.producer = none then g.endWith 2 none else g
  else if g.state = .dispatching ∨ g.state = .draining then
    { g.arm deadline with state := .killing, status := 2, undisp := [], destroyed := true }
  else g

/-- A queue is destroyed, or its bind record invalidated: it is DISABLED (R359, R378). -/
def State.destroyQueue (s : State) (f q : Fin 64) : State :=
  ((s.packetsOf (.vf f q)).foldl (fun t g => t.modGrid g (fun x => x.destroy (s.now + s.graceOf (.vf f q)))) s).modQueue
    f.val q.val (fun u => { u with state := .disabled, preempt := false })

/-- Removes the bind record of a queue, and any that waits for it. -/
def State.unbind (s : State) (f q : Nat) : State :=
  (List.range 4).foldl (fun t d => t.modDie d (fun x =>
    { x with
      slots := x.slots.map (fun e =>
        if bindValid e.2 && bindVf e.2 == f && bindQueue e.2 == q then (e.1, 0) else e)
      slotsNext := x.slotsNext.filter (fun e => !(bindVf e.2 == f && bindQueue e.2 == q)) })) s

/-- QUEUE_DESTRUCTION (R359, R378): the queue is no longer bound. -/
def execQueueDestruction (f q : Fin 64) (s : State) : Host.Outcome State Fault Refusal :=
  .next ((s.fromOutside f.val (fun t => t.destroyQueue f q)).unbind f.val q.val)

/-- QUEUE_RESET (R378): RESET leaves the error state; packets not started are dropped and write no record. -/
def State.resetQueue (s : State) (f q : Fin 64) : State :=
  let u := s.queue f.val q.val
  if u.state = .error then
    let gone := u.pkts.filter (fun g => match Table.find s.grids g with
      | none => true
      | some x => x.waits)
    (({ s with grids := s.grids.filter (fun e => !(gone.contains e.1)) }).modQueue f.val q.val (fun u =>
      { u with state := .idle, ridx := u.widx, pkts := u.pkts.filter (fun g => !(gone.contains g)) })).refreshQueue f.val q.val
  else s


/-! ### Watchdogs of a packet (R354, R356, R357) -/

/-- RUN_LIMIT (R356): the run time of a packet reaches its queue's run limit. -/
def execRunLimit (gid : Nat) (s : State) : Host.Outcome State Fault Refusal :=
  match Table.find s.grids gid with
  | none => .next s
  | some g =>
    match g.home with
    | .steward _ => .next s
    | .vf f q =>
      let lim := bindRunLimit (((s.bindRecord f.val q.val).map (fun e => e.2.2)).getD 0)
      if lim ≠ 0 ∧ g.startedAt + lim ≤ s.now then
        .next (s.fromOutside f.val (fun t => t.modGrid gid (fun x => x.arm (s.now + s.graceOf g.home))))
      else .next s

/-- A packet whose watchdog has fired (R357): STATUS 3, or 2 after destruction. -/
def Grid.fired (g : Grid) : Grid :=
  if g.destroyed then { g with deadline := none }
  else
    { g with
      state := .killing, status := 3, undisp := [], deadline := none
      fault := some ⟨0, 0, BitVec.ofNat 8 Cause.watchdog.code⟩ }
/-- The watchdog of a packet has fired (R357): every block is killed. -/
def State.fireWatchdog (s : State) (gid : Nat) : State :=
  ((s.endInImages gid Grid.fired).modGrid gid Grid.fired).killBlocks gid

/-- KERNEL_WATCHDOG (R354, R357): the grace period has run out. -/
def execKernelWatchdog (gid : Nat) (s : State) : Host.Outcome State Fault Refusal :=
  match Table.find s.grids gid with
  | none => .next s
  | some g =>
    match g.deadline with
    | none => .next s
    | some d =>
      if d ≤ s.now ∧ (g.state = .dispatching ∨ g.state = .draining ∨ g.destroyed = true) then
        .next (s.fromOutside (homeFn g.home) (fun t => t.fireWatchdog gid))
      else .next s

/-! ### Bind records that waited (R380) -/

/-- The queue that a bind record change concerns: that of the record in force, or of the new one. -/
def bindTarget (old new : BitVec 128) : Fin 64 × Fin 64 :=
  let b := if bindValid old then old else new
  (⟨bindVf b % 64, Nat.mod_lt _ (by decide)⟩, ⟨bindQueue b % 64, Nat.mod_lt _ (by decide)⟩)

/-- A bind record takes effect (R378–R380): an invalidated queue is DISABLED, a stopped one is bound again. -/
def State.applyBind (s : State) (d i : Nat) (r : BitVec 128) : State :=
  let old := Table.getD (s.die d).slots i 0
  let w := bindTarget old r
  let s1 := s.modDie d (fun x => { x with slots := Table.put x.slots i r, slotsNext := Table.del x.slotsNext i })
  if bindValid old && !(bindValid r && bindVf r == bindVf old && bindQueue r == bindQueue old) then
    let s2 := s1.fromOutside w.1.val (fun t => t.destroyQueue w.1 w.2)
    if bindValid r then
      let n := bindTarget 0 r
      s2.fromOutside n.1.val (fun t => t.refreshQueue n.1.val n.2.val)
    else s2
  else if bindValid r then
    s1.fromOutside w.1.val (fun t =>
      (t.modQueue w.1.val w.2.val (fun u => match u.state with
        | .stopped => { u with state := if u.pkts.isEmpty then .idle else .running }
        | _ => u)).refreshQueue w.1.val w.2.val)
  else s1

/-- Whether a change of a queue's bind record takes effect now (R380): no packet of it is in progress; one that waits in a STOPPED queue
waits for the next binding (R355). -/
def State.bindFree (s : State) (f q : Fin 64) : Bool :=
  (s.queue f.val q.val).pkts.isEmpty || (s.queue f.val q.val).state == .stopped
/-- Whether a change r does: an invalidation also where the queue is in ERROR and no packet of it is in progress, and then ends those that
wait (R359, R378). -/
def State.bindGoes (s : State) (f q : Fin 64) (r : BitVec 128) : Bool :=
  s.bindFree f q || (!bindValid r && (s.queue f.val q.val).state == .error && !s.inProgress (.vf f q))

/-- The bind records that wait for a queue take effect once its packets let them. -/
def State.applyPending (s : State) (f q : Fin 64) : State :=
  (List.range 4).foldl (fun t d =>
    (s.die d).slotsNext.foldl (fun t e =>
      if bindTarget (Table.getD (s.die d).slots e.1 0) e.2 = (f, q) ∧ s.bindGoes f q e.2 = true then t.applyBind d e.1 e.2 else t) t) s

/-- PREEMPTION_REQUEST (R355, R356). -/
def execPreemptionRequest (f q : Fin 64) (s : State) : Host.Outcome State Fault Refusal :=
  .next ((s.fromOutside f.val (fun t => t.preemptQueue f q)).applyPending f q)

/-- A host's write of RESET (R378). -/
def State.hostReset (s : State) (f q : Fin 64) : State :=
  (s.fromOutside f.val (fun t => t.resetQueue f q)).applyPending f q
/-- QUEUE_RESET. -/
def execQueueReset (f q : Fin 64) (s : State) : Host.Outcome State Fault Refusal :=
  .next (if s.exposed (.vf f) then s.hostReset f q else s)

/-! ### Completion (R165–R167, R323, R367, R376, R441) -/

/-- The elided range of each tag, in ascending order (R323). -/
def elidedRanges (l : List (Nat × Nat × Nat)) : List (Nat × Nat × Nat) :=
  (List.range 16).filterMap (fun t =>
    match l.filter (fun e => e.1 == t) with
    | [] => none
    | e :: es => some (t, es.foldl (fun m x => min m x.2.1) e.2.1, es.foldl (fun m x => max m x.2.2) e.2.2))

/-- An entry of the elided-range list (R323). -/
def elideEntry (e : Nat × Nat × Nat) : List Byte :=
  leBytes 16 (e.1 + (e.2.2 + 1 - e.2.1) % 2 ^ 56 * 2 ^ 8 + e.2.1 * 2 ^ 64)

/-- Writes the entries of an elided-range list up to the first that faults; the result says whether one did. -/
def State.writeElided (s : State) (v die a : Nat) : List (Nat × Nat × Nat) → State × Bool
  | [] => (s, false)
  | e :: es =>
    match s.qcWrite v die 92000 (s.timeSliced v) a (elideEntry e) with
    | .error x => (s.noteXErr v x, true)
    | .ok t => State.writeElided t v die (wrap (a + 16) 64) es

/-- A completion record (R166). -/
def recordBytes (status bz nelide : Nat) (f : Option GridFault) : List Byte :=
  let x := f.getD ⟨0, 0, 0⟩
  leBytes 32
    (status + bz % 256 * 2 ^ 24 + nelide % 256 * 2 ^ 32 + x.code.toNat * 2 ^ 40 + x.kidx % 2 ^ 16 * 2 ^ 48
      + x.pc.toNat * 2 ^ 64)

/-- What the completion release of a grid makes known (R165, R248): its writes of every class, and what its slices knew. -/
def State.gridRelease (s : State) (gid : Nat) (g : Grid) (scope : Scope) : Msg :=
  ⟨scope, queueSite g.ctx (s.queueDie g.home),
    (s.past.filter (fun w => w.site.gid == gid)).flatMap (fun w => allPaths.map (fun p => w.known p 0)) ++ g.knows ++ g.learned⟩

/-- A grid's writes are performed at a scope. -/
def State.widenGrid (s : State) (gid : Nat) (scope : Scope) : State :=
  { s with past := s.past.map (fun w => if w.site.gid = gid then { w with scope := widerScope w.scope scope } else w) }
/-- The completion release of a packet (R165): the grid's writes are performed at RELSCOPE, the queue core's die has applied them (R254), and
later packets may acquire them. -/
def State.releaseGrid (s : State) (gid : Nat) (g : Grid) (p : BitVec 512) : State :=
  let scope := (scope? (fld p 39 36)).getD .slice
  let s1 := (s.widenGrid gid scope).applyKnown (s.queueDie g.home) (s.gridRelease gid g scope).knows
  if g.ctx < 64 then s1.modChip g.ctx (fun c => { c with released := c.released ++ [s.gridRelease gid g scope] }) else s1

/-- Record and event of one packet (R165, R441): the record is a release at RELSCOPE, and the second result says that it could not be
written. -/
def State.writeRecord (s : State) (v : Nat) (home : QRef) (p : BitVec 512) (m : Msg) (bs : List Byte) (status : Nat) : State × Bool :=
  let q := match home with
    | .vf _ q => q.val
    | .steward _ => 0
  let r :=
    if pktSig p = 0 then (s, false)
    else
      match s.qcPieces v (s.queueDie home) 93000 .write (cutPages (pktSig p) bs.length) with
      | .error e => (s.postQueueFault v q e (pktSig p), true)
      | .ok ps => (s.qcRelease ⟨m.site, .ls, 0, m.scope, [m]⟩ v (s.queueDie home) (s.timeSliced v) ps bs, false)
  (if pktIrq p then r.1.postEvent (fnOf v) (r.1.eventOf v 1 status q (pktSig p) 0) else r.1, r.2)

/-- The packet is DONE: it leaves its queue's list, and the queue goes on, stops, or enters ERROR (R167, R355, R378). -/
def State.leaveQueue (s : State) (home : QRef) (gids : List Nat) (failed : Bool) : State :=
  let s1 := ({ s with grids := s.grids.filter (fun e => !(gids.contains e.1)) }).modPackets home (fun l =>
    l.filter (fun g => !(gids.contains g)))
  match home with
  | .steward _ => s1
  | .vf f q =>
    if failed then
      s1.modQueue f.val q.val (fun u =>
        { u with
          preempt := false
          state := match u.state with
            | .disabled => .disabled
            | _ => .error })
    else (s1.stopQueue f q).refreshQueue f.val q.val

/-- The result of a steward request (R376): written at a host address, untagged, as a release at SYSTEM scope of the grid's writes. -/
def State.stewardResult (s : State) (gid : Nat) (g : Grid) (status cause : Nat) : State :=
  if s.dev.steward.gid = some gid then
    let m := s.gridRelease gid g .system
    (((s.widenGrid gid .system).applyKnown (s.queueDie g.home) m.knows).writeMem ⟨m.site, .ls, 0, .system, [m]⟩ 64 true s.dev.steward.result.toNat
      (leBytes 16 (status + cause * 256))).modDev (fun d => { d with steward := { d.steward with busy := false, gid := none } })
  else s

/-- The steps of R165 for a packet that ends, with those of R323 for a brazed pair. -/
def State.finishPacket (s : State) (gid : Nat) : State :=
  match Table.find s.grids gid with
  | none => s
  | some g =>
    let status := if g.state = .draining then 1 else g.status
    let v := g.ctx
    let ranges := elidedRanges g.elided
    let w := if g.splice.isSome && pktElist g.pkt != 0 then
        s.writeElided v (s.queueDie g.home) (pktElist g.pkt) ranges
      else (s, false)
    let lost := w.2 && status == 1
    let st := if lost then 4 else status
    let fault := if lost then some ⟨0, 0, BitVec.ofNat 8 Cause.dataFault.code⟩ else g.fault
    let cgid := (s.grids.find? (fun e => e.2.producer == some gid)).map (fun e => e.1)
    let rel (x : State) (p : BitVec 512) : Msg := x.gridRelease gid g ((scope? (fld p 39 36)).getD .slice)
    let r1 := if pktType g.pkt = 3 then (w.1, false)
      else (w.1.releaseGrid gid g g.pkt).writeRecord v g.home g.pkt (rel w.1 g.pkt)
        (recordBytes st g.bzcode (if g.splice.isSome then ranges.length else 0) fault) st
    let r2 := match g.splice with
      | none => (r1.1, false)
      | some sp =>
        (r1.1.releaseGrid gid g sp.pktC).writeRecord v g.home sp.pktC (rel r1.1 sp.pktC) (recordBytes st 1 0 fault) st
    ((r2.1.stewardResult gid g st (fault.getD ⟨0, 0, 0⟩).code.toNat).leaveQueue g.home (gid :: cgid.toList)
      (decide (2 ≤ st) || r1.2 || r2.2))

/-- Whether every block of a packet has ended and none is left to dispatch. -/
def State.drained (s : State) (gid : Nat) (g : Grid) : Bool :=
  (g.state == .draining || g.state == .killing) && g.undisp.all (fun e => e.2.isEmpty) && s.blocks.all (fun e => e.2.gid != gid)

/-- The time-sliced chips, other than that of its queue, whose committed images hold blocks of a grid: a rollback would run them again, so
their chips commit first (R160; log entry 41). -/
def State.stillHeld (s : State) (gid : Nat) (home : QRef) : List Nat :=
  (List.range 64).filter (fun v => v != homeFn home && (match (s.chip v).committed with
    | none => false
    | some i => i.blocks.any (fun e => e.2.gid == gid)))

/-- PACKET_COMPLETION (R165–R167): in a time slice the completion release forces a checkpoint first (R367); outside one the chip
stands as its committed image. After a shutdown no checkpoint can form (R435). -/
def execPacketCompletion (gid : Nat) (s : State) : Host.Outcome State Fault Refusal :=
  match Table.find s.grids gid with
  | none => .next s
  | some g =>
    if !(s.drained gid g && g.producer.isNone) then .next s
    else if !s.dev.shutdown && !(s.stillHeld gid g.home).isEmpty then
      .next ((s.stillHeld gid g.home).foldl (fun t v => t.modChip v (fun c => { c with outsideWait := true })) s)
    else
      match g.home with
      | .steward _ => .next (s.finishPacket gid)
      | .vf f q =>
        if s.dev.shutdown then .next (s.fromOutside f.val (fun t => t.finishPacket gid))
        else if s.timeSliced f.val && s.chipRuns f.val && pktType g.pkt != 3 then
          match g.forcedAt with
          | none =>
            if s.mayRun f.val then
              .next ((s.modGrid gid (fun g => { g with forcedAt := some (s.chip f.val).ckseq })).modChip f.val (fun c =>
                { c with outsideWait := true }))
            else .next s
          | some n =>
            if n = (s.chip f.val).ckseq then .next s
            else .next ((s.fromOutside f.val (fun t => t.finishPacket gid)).applyPending f q)
        else if (s.chip f.val).migrating then .next s
        else .next ((s.queueStep g.home (fun t => t.finishPacket gid)).applyPending f q)

/-! ### Device-side enqueue (R384, R386) -/

/-- What enqueueing a packet answers: it entered, or the ring is full, the queue is not bound as device-fed or in ERROR, a line
waits for a checkpoint (R366), or the ring cannot be written (log entry 42). -/
inductive Enq where
  | done (s : State)
  | full
  | notBound
  | error
  | wait
  | fault (e : XErr)

/-- Enqueues a packet on a device-fed queue (R384), with the releases of the enqueue. `inside`: by a slice of the chip itself. -/
def State.enqueue (s : State) (f q : Nat) (bs : List Byte) (inside : Bool) (ms : List Msg) : Enq :=
  match s.bound f q with
  | none => .notBound
  | some (die, b) =>
    let u := s.queue f q
    if !bindDevq b then .notBound
    else if u.state = .error then .error
    else if u.held = 2 ^ u.size.toNat then .full
    else
      match s.qcPieces f die 94000 .write [(u.slotAddr u.widx, 64)] with
      | .error e => .fault e
      | .ok ps =>
        if !inside && ps.any (fun p => s.inUndo f p.1 p.2.1) then .wait
        else .done ((s.qcPut f die true ps bs).fromOutside f (fun t =>
          (t.modQueue f q (fun x => { x with posts := Table.put x.posts u.widx.toNat ms })).ring f q (u.widx + 1)))

/-- A forcing word has taken effect. -/
def State.clearForced (s : State) (k : Nat) : State := s.modSlice k (fun x => { x with forcedOk := false })

/-- QENQ once its release is done (R384): the packet is loaded at TENANT scope. -/
def Ctx.qenq (c : Ctx) (d : Nat) (a b : Word64) (m : Bool) : State :=
  let answer (y : Ctx) (code : Nat) : State := (y.done { sShort := [(d, BitVec.ofNat 64 code)] } m).clearForced y.k
  match c.check { want := .read, size := 64 } [(0, b.toNat)] with
  | .error t => c.trapX t
  | .ok _ =>
    if 64 ≤ a.toNat then answer c 2
    else
      match c.s.enqueue c.b.vf a.toNat [] true [] with
      | .notBound | .wait => answer c 2
      | .error => answer c 3
      | .full => answer c 1
      | .fault e => c.trapX (trapOfXErr e 0 ((c.s.queue c.b.vf a.toNat).slotAddr (c.s.queue c.b.vf a.toNat).widx) true)
      | .done _ =>
        match c.readNow .tenant b.toNat 64 with
        | .error t => c.trapX t
        | .ok (bs, y) =>
          match y.s.enqueue c.b.vf a.toNat bs true [c.s.message c.site c.x .tenant c.x.seq] with
          | .done t => answer (y.at t) 0
          | _ => answer y 2

/-- QENQ (R384): permitted at user level only. -/
def execQenq (c : Ctl) (d : SReg) (a b : SSrc) (s : State) : Host.Outcome State Fault Refusal :=
  issue s (fun _ => { handler := false, steward := false }) (fun x =>
    if !x.x.guardScalar c.guard then x.s.finish x.k c.m
    else if x.s.scopeDenied x.b.vf .tenant then x.trap { cause := .scopePolicy }
    else x.fenced .tenant false true false (fun y => if y.mustForce then y.force else y.qenq d.val (y.src a) (y.src b) c.m))

/-- A slice's event goes to its function's log (R401, R402); the entry that is written carries the slice's release at a scope. -/
def Ctx.postOwn (c : Ctx) (e : Event) (scope : Scope) : State × Bool :=
  let l := (c.s.chip c.b.vf).log
  let t := c.s.appendEvent (fnOf c.b.vf) e
  match t.2, c.s.logAddr (fnOf c.b.vf) (l.base.toNat + 32 * (l.widx.toNat % 2 ^ l.size.toNat)) with
  | true, some pa =>
    let cells := (List.range 32).map (fun i => (Loc.mem (pa + i), t.1.atLoc (.mem (pa + i))))
    (t.1.noteWrite (c.writer .ls c.x.seq scope [(scope, c.x.seq)]) cells [t.1.homeDie (lineOf pa)], true)
  | _, _ => t

/-- EVPOST (R402): permitted at user and handler level; QUEUE is that of the slice's packet. The release at SCOPE comes first. -/
def execEvpost (c : Ctl) (scope : Scope) (d : SReg) (a b : SSrc) (s : State) : Host.Outcome State Fault Refusal :=
  issue s (fun _ => { steward := false }) (fun x =>
    if !x.x.guardScalar c.guard then x.s.finish x.k c.m
    else if x.s.scopeDenied x.b.vf scope then x.trap { cause := .scopePolicy }
    else
      x.fenced scope false true false (fun y =>
        if y.mustForce then y.force
        else
        let q := match y.grid?.map (fun g => g.home) with
          | some (.vf _ q) => q.val
          | _ => 0
        let log := (y.s.chip y.b.vf).log
        let r : State × Nat :=
          if !log.en then (y.s, 2)
          else
            let t := y.postOwn (y.s.eventOf y.b.vf 2 (fld (y.src a) 15 0) q 0 (y.src b).toNat) scope
            (t.1, if t.2 then 0 else 1)
        ((y.at r.1).done { sShort := [(d.val, BitVec.ofNat 64 r.2)] } c.m).clearForced y.k))

/-! ### Launch requests (R385, R386) -/

/-- The packet that a launch-table entry builds (R386). -/
def launchPacket (e : BitVec 128) (args : Word64) : List Byte :=
  leBytes 64 (1 + 2 ^ 10 + fld e 22 7 * 2 ^ 16 + fld e 26 23 * 2 ^ 32 + fld e 30 27 * 2 ^ 36 + args.toNat * 2 ^ 64)

/-- Ingress of a launch request (R386): the state and the code, none while it must wait (R366). -/
def State.launchIngress (s : State) (t src index : Nat) (args : Word64) (ms : List Msg) : State × Option Nat :=
  let e := Table.getD (s.chip t).launchTab index 0
  if fld e 0 0 = 0 then (s, some 1)
  else if fld e 31 31 = 0 ∧ fld e 43 32 ≠ src then (s, some 2)
  else
    match s.enqueue t (fld e 6 1) (launchPacket e args) false ms with
    | .done s1 => (s1, some 0)
    | .full => (s, some 3)
    | .wait => (s.modChip t (fun c => { c with outsideWait := true }), none)
    | .fault x => (s.noteXErr t x, some 4)
    | _ => (s, some 4)

/-- A launch request reaches chip t: authentication and the count first. The status is 0, or 0x10 and the code (R413). -/
def State.receiveLaunch (s : State) (t src count : Nat) (authentic : Bool) (index : Nat) (args : Word64)
    (ms : List Msg) : State × Option Nat :=
  if s.accepts t src count authentic then
    let r := s.launchIngress t src index args ms
    match r.2 with
    | none => r
    | some 0 => (r.1.countAccept t src count, some 0)
    | some c => (r.1.countAccept t src count, some (16 + c))
  else (s.dropPacket t src, some 3)

/-- LAUNCH_REQUEST (R386): a request reaches function f; one that a chip of this module sent carries its sender's operation. -/
def execLaunchRequest (f : Fin 64) (req : LaunchReq) (s : State) : Host.Outcome State Fault Refusal :=
  let t := f.val
  match req.sender with
  | none =>
    if fld (s.frec t) 0 0 = 1 then
      let authentic := s.podOf t == req.podid.toNat && s.opens t req.src.toNat req.dst.toNat req.key
      .next (s.receiveLaunch t req.src.toNat req.count.toNat authentic req.index.val req.args []).1
    else .next s
  | some w =>
    match s.ctx w.slice with
    | none => .next s
    | some c =>
      match c.x.op? w.op with
      | none => .next s
      | some o =>
        match o.kind with
        | .fsendLaunch dst index args _ =>
          if c.maySend o && s.target c.b.vf dst.toNat == .here t then
            let r := s.receiveLaunch t (s.vchipOf c.b.vf) (s.nextCount c.b.vf dst.toNat)
              (s.linkAuthentic c.b.vf t dst.toNat) index.val args (c.opWriter o).rels
            match r.2 with
            | none => .next r.1
            | some code => .next ((r.1.countSend c.b.vf dst.toNat).sendStatus c.b.vf w.slice w.op code o.outside)
          else .next s
        | _ => .next s

end Sys2Proof.Machine
end

