-- ==== Sys2Proof/Machine/Braze.lean ====
section
/-! DEFINITION. The Braze unit: evaluation of a pair of packets (R311–R314, R327). -/

namespace Sys2Proof.Machine

/-! ### Splice tables (R311) -/

/-- SUSE of a splice table. -/
def tableSuse (t : BitVec 1536) : Nat := fld t 383 320
/-- TUSE. -/
def tableTuse (t : BitVec 1536) : Nat := fld t 319 304
/-- MAPID. -/
def tableMap (t : BitVec 1536) : Nat := fld t 511 448
/-- The tags that a table declares with a direction: LOAD or STORE. -/
def tableTags (t : BitVec 1536) (load : Bool) : List Nat := (List.range 16).filter (fun g => (tableTag t load g).isSome)

/-- Whether a table is well formed (R311). -/
def tableOk (t : BitVec 1536) : Bool :=
  let fgran := fld t 303 288
  fld t 31 0 == 0x4C5A5242 && fld t 63 32 == 1 && fld t 255 64 == 0
    && (List.range 16).all (fun g =>
      let e := bits t.toNat (512 + 64 * g) 64
      bits e 8 56 == 0 && bits e 4 2 == 0)
    && (if (tableTags t false).isEmpty then fgran == 0 else decide (1 ≤ fgran) && decide (fgran ≤ 4096))
    && decide (tableBegin t ≤ tableEnd t) && decide (tableEnd t < tableLast t)
    && tableBegin t % 8 == 0 && tableEnd t % 8 == 0 && tableLast t % 8 == 0

/-- Reads a 192-byte table at a 64-byte-aligned address; none when it cannot be read (log entry 43). -/
def State.readTable (s : State) (v die a : Nat) : Option (BitVec 1536) :=
  if a % 64 ≠ 0 then none
  else
    match s.qcPieces v die 95000 .splice (cutPages a 192) with
    | .error _ => none
    | .ok ps =>
      if ps.any (fun p => s.linePoisoned p.1 p.2.1) then none
      else some (BitVec.ofNat 1536 (leNat (ps.flatMap (fun p => s.readBytes (s.keyTag v) p.1 p.2.1))))

/-! ### Code (R313) -/

/-- Reads n 64-bit words with a permission; none when one cannot be read (log entry 43). -/
def State.readWords (s : State) (v die : Nat) (want : Want) : Nat → Nat → Option (List Word64)
  | _, 0 => some []
  | a, n + 1 =>
    match s.qcPieces v die 96000 want [(a, 8)] with
    | .ok ((pa, _, _) :: _) =>
      if s.linePoisoned pa 8 then none
      else
        (State.readWords s v die want (wrap (a + 8) 64) n).map (fun ws =>
          BitVec.ofNat 64 (leNat (s.readBytes (s.keyTag v) pa 8)) :: ws)
    | _ => none

/-- The displacement of a direct branch, and whether it is a CALL. -/
def directBranch : Instr → Option (BitVec 32 × Bool)
  | .bra _ _ disp | .bexz _ _ disp | .bexnz _ _ disp => some (disp, false)
  | .call _ _ disp => some (disp, true)
  | _ => none

/-- Words that may not stand in a splice section (R313): jumps through registers, calls, and emulation-defined opcodes. -/
def barredInSection : Instr → Bool
  | .ret _ _ | .brs _ _ | .brix _ _ | .brixl _ _ _ | .call _ _ _ => true
  | .vdivI32 _ _ _ _ | .vdivN32 _ _ _ _ | .vremI32 _ _ _ _ | .vremN32 _ _ _ _ => true
  | _ => false

/-- An EXIT, and whether it has no guard. -/
def exitWord : Instr → Option Bool
  | .exit c => some (c.guard == .always)
  | _ => none

/-- Whether the word at byte offset o of a kernel fits the section shape (R313). -/
def wordShape (tb : BitVec 1536) (o : Nat) (i : Instr) : Bool :=
  let b := (tableBegin tb : Int)
  let e := (tableEnd tb : Int)
  let l := (tableLast tb : Int)
  let inside := decide (b ≤ (o : Int)) && decide ((o : Int) ≤ e)
  (match exitWord i with
    | some bare => o == tableLast tb && bare
    | none => o != tableLast tb)
  && !(inside && barredInSection i)
  && (match directBranch i with
    | none => o != tableEnd tb
    | some (disp, _) =>
      let t := (o : Int) + 8 * disp.toInt
      if o = tableEnd tb then decide (t = b)
      else if inside then decide (b ≤ t) && decide (t ≤ e)
      else if (o : Int) < b then decide (t ≤ b)
      else decide (e < t) && decide (t ≤ l))

/-- Whether a kernel's words pass the section-shape check. -/
def codeShape (tb : BitVec 1536) (ws : List Word64) : Bool :=
  ((List.range ws.length).zip ws).all (fun p => wordShape tb (8 * p.1) (instrOf p.2))

/-- Whether no entry of a kernel's dispatch table targets a word beyond LAST. -/
def dispatchShape (tb : BitVec 1536) (r : BitVec 1024) (ds : List Word64) : Bool :=
  ds.all (fun d => decide ((recEntry r + d.toNat) % 2 ^ 64 ≤ recEntry r + tableLast tb))

/-- The words of a kernel that passes the section-shape check (R313). -/
def State.shapedCode (s : State) (v die : Nat) (r : BitVec 1024) (tb : BitVec 1536) : Option (List Word64) :=
  match s.readWords v die .fetch (recEntry r) (tableLast tb / 8 + 1),
      s.readWords v die .read (fld r 127 64) (fld r 383 352) with
  | some ws, some ds => if codeShape tb ws && dispatchShape tb r ds then some ws else none
  | _, _ => none

/-! ### Renumbering and resources (R314, R312) -/

/-- The numbers below n whose bit in a mask is as asked. -/
def bitsAs (mask n : Nat) (v : Bool) : List Nat := (List.range n).filter (fun i => testBit mask i == v)
/-- The register map of C (R314): the numbers it names go to those that P leaves clear, in ascending order; every other
number goes to what remains. -/
def regMap (useC useP n : Nat) : List Nat :=
  let named := bitsAs useC n true
  let homes := (bitsAs useP n false).take named.length
  let rest := (List.range n).filter (fun i => !(homes.contains i))
  (List.range n).map (fun i =>
    match indexFrom i 0 named with
    | some j => homes.getD j 0
    | none => rest.getD ((bitsAs useC n false).filter (fun x => decide (x < i))).length 0)

/-- The register counts of the squads of a record. -/
def squadCounts (r : BitVec 1024) : List Nat := (List.range (recSquads r)).map (fun q => (roleOf r q).2.2)

/-- Whether renumbering fits (R314). -/
def pressureOk (p c : BitVec 1024) (tp tc : BitVec 1536) (codeC : List Word64) : Bool :=
  ((squadCounts p).zip (squadCounts c)).all (fun e => decide (e.1 + e.2 ≤ 256))
    && decide ((bitsAs (tableSuse tc) 64 true).length ≤ (bitsAs (tableSuse tp) 64 false).length)
    && decide ((bitsAs (tableTuse tc) 16 true).length ≤ (bitsAs (tableTuse tp) 16 false).length)
    && codeC.all (fun w =>
      match instrOf w with
      | .pairedWord _ h1 h2 =>
        (halfUses h1 ++ halfUses h2).all (fun u => (squadCounts p).all (fun n => decide (u.n + n < 128)))
      | _ => true)

/-- The bytes of unified store that a spliced block needs, its forwarding windows included (R312). -/
def splicedNeed (p c : BitVec 1024) (tp : BitVec 1536) : Nat :=
  recNeed p + recNeed c + (tableTags tp false).length * tableWindow tp

/-- Whether the records and tables of a pair agree (R312, code 5). -/
def pairAgrees (p c : BitVec 1024) (tp tc : BitVec 1536) : Bool :=
  fld p 318 256 == fld c 318 256 && recSquads p == recSquads c && fld p 336 326 == fld c 336 326
    && fld p 453 448 == fld c 453 448 && fld p 468 463 == fld c 468 463 && fld p 483 478 == fld c 483 478
    && fld p 671 512 == fld c 671 512 && tableMap tp == tableMap tc

/-- The recipe of a pair's image (R327). -/
def recipeOf (p c : BitVec 1024) (tp tc : BitVec 1536) (mp mc : BitVec 384) : BitVec 384 :=
  Sha.digest (leBytes 4 Config.unitVersion.toNat ++ Sha.sha384 (leBytes 128 p.toNat) ++ Sha.sha384 (leBytes 128 c.toNat)
    ++ Sha.sha384 (leBytes 192 tp.toNat) ++ Sha.sha384 (leBytes 192 tc.toNat)
    ++ Sha.digestBytes mp ++ Sha.digestBytes mc)

/-- The attestation record after an extension (R88, R327). -/
def Chip.extend (c : Chip) (d : BitVec 384) : Chip :=
  { c with att := Sha.digest (Sha.digestBytes c.att ++ Sha.digestBytes d) }

/-! ### Evaluation (R312) -/

/-- How an evaluation ends: a refusal code, or the image and its recipe. -/
inductive Brazed where
  | code (n : Nat)
  | image (sp : Splice) (recipe : BitVec 384)
  deriving DecidableEq, Repr

/-- The MEAS of the CODE segment of a kernel (R327). -/
def State.kernelMeas (s : State) (v : Nat) (p : BitVec 512) : BitVec 384 := Table.getD (s.chip v).kmeas (pktKidx p) 0

/-- Evaluates a pair in the order of R312. -/
def State.evaluate (s : State) (v die : Nat) (pp pc : BitVec 512) (rp rc : BitVec 1024) : Brazed :=
  if pktNoBraze pc = true ∨ recSplice rp = 0 ∨ recSplice rc = 0 then .code 0
  else if !(pktOrder pc && pktWaitAddr pc == 0 && !pktNoBraze pp) then .code 2
  else
    match s.readTable v die (recSplice rp), s.readTable v die (recSplice rc) with
    | some tp, some tc =>
      if !(tableOk tp && tableOk tc) then .code 3
      else if (tableTags tc true).isEmpty || !(tableTags tc true).all (fun g => (tableTags tp false).contains g) then .code 4
      else if !pairAgrees rp rc tp tc then .code 5
      else
        match s.shapedCode v die rp tp, s.shapedCode v die rc tc with
        | some cp, some cc =>
          if !pressureOk rp rc tp tc cc then .code 7
          else if 983040 < splicedNeed rp rc tp ∨ (recAct rp = true ∧ recAct rc = true) then .code 8
          else
            let recipe := recipeOf rp rc tp tc (s.kernelMeas v pp) (s.kernelMeas v pc)
            let images := (s.chip v).images
            if !images.contains recipe && decide (64 ≤ images.length) then .code 9
            else .image ⟨pc, rc, tp, tc, cp, cc⟩ recipe
        | _, _ => .code 6
    | _, _ => .code 3

/-- The packet after a packet of a queue, read first if its doorbell has been seen (R312). -/
def State.nextPacket (s : State) (f q : Fin 64) (idx : Nat) : State × Option Nat :=
  let next (t : State) : Option Nat :=
    (t.packetsOf (.vf f q)).find? (fun g => match Table.find t.grids g with
      | none => false
      | some x => x.idx == (idx + 1) % 2 ^ 32)
  let u := s.queue f.val q.val
  if u.ridx.toNat = (idx + 1) % 2 ^ 32 ∧ u.widx ≠ u.ridx then
    match s.readRing f q with
    | .ok t => (t, next t)
    | .error _ => (s, none)
  else (s, next s)

/-- The image that a pair brazes into: the state holds it, and the attestation record is extended for a new recipe (R327). -/
def State.storeImage (s : State) (v : Nat) (recipe : BitVec 384) : State :=
  s.modChip v (fun c =>
    if c.images.contains recipe then c else { c.extend recipe with images := c.images ++ [recipe] })

/-- Braze evaluation of a LAUNCH packet whose start conditions hold (R312): the state, and whether a scope of the pair is
denied. -/
def State.braze (s : State) (gid : Nat) (g : Grid) : State × Bool :=
  match g.home with
  | .steward _ => (s, false)
  | .vf f q =>
    if pktType g.pkt ≠ 1 ∨ recSplice g.lrec = 0 then (s, false)
    else
      match s.nextPacket f q g.idx with
      | (t, none) => (t, false)
      | (t, some c) =>
        match Table.find t.grids c with
        | none => (t, false)
        | some h =>
          if !h.waits || pktType h.pkt != 1 then (t, false)
          else
            match t.evaluate f.val (t.queueDie g.home) g.pkt h.pkt g.lrec h.lrec with
            | .code n => (t.modGrid c (fun x => { x with bzcode := n }), false)
            | .image sp recipe =>
              let t1 := (t.modGrid gid (fun x => { x with bzcode := 1, splice := some sp })).modGrid c (fun x =>
                { x with bzcode := 1, producer := some gid })
              if t.scopesOk f.val g.pkt g.lrec && t.scopesOk f.val h.pkt h.lrec then (t1.storeImage f.val recipe, false)
              else (t1, true)

end Sys2Proof.Machine
end

