-- ==== Sys2Proof/Machine/Collective.lean ====
section
/-! DEFINITION. Collective groups and collectives (R418–R426): CGRP, the COLL words, their meeting, and how an instance completes. -/

namespace Sys2Proof.Machine

/-! ### CGRP (R418) -/

/-- Reads the 16-bit members of a list in memory at CORE scope (R418). -/
def Ctx.readMembers (c : Ctx) (a : Nat) : Nat → Except TrapInfo (List Nat × Ctx)
  | 0 => .ok ([], c)
  | n + 1 =>
    match c.readNow .core (wrap a 64) 2 with
    | .error t => .error t
    | .ok (bs, y) =>
      match Ctx.readMembers y (a + 2) n with
      | .error t => .error t
      | .ok (ms, z) => .ok (leNat bs :: ms, z)

/-- Whether a COLL of a slot is incomplete. -/
def Chip.collOpen (c : Chip) (slot : Nat) : Bool := c.colls.any (fun k => k.slot == slot)

/-- CGRP (R418): installing a group starts the count of its instances anew (log entry 37). -/
def execCgrp (c : Ctl) (d : SReg) (a b : SSrc) (s : State) : Host.Outcome State Fault Refusal :=
  issue s (chkRegs []) (fun x =>
    if !x.x.guardScalar c.guard then x.s.finish x.k c.m
    else
      let adr := (x.src b).toNat
      x.afterOwn false adr 32 (fun y =>
        match y.readNow .core adr 32 with
        | .error t => y.trapX t
        | .ok (bs, y1) =>
          let g : BitVec 256 := BitVec.ofNat 256 (leNat bs)
          let n := fld g 12 0
          let answer (z : Ctx) (code : Nat) : State := z.done { sShort := [(d.val, BitVec.ofNat 64 code)] } c.m
          if fld g 63 48 ≠ 0 ∨ fld g 31 13 ≠ 0 ∨ n = 0 ∨ 4096 < n then answer y1 1
          else
            y1.afterOwn false (fld g 127 64) (2 * n) (fun z =>
              match z.readMembers (fld g 127 64) n with
              | .error t => z.trapX t
              | .ok (ms, z1) =>
                let slot := (z.src a).toNat % 64
                let own := z.s.vchipOf z.b.vf
                if ms.any (fun m => decide (4096 ≤ m) || !entryValid (z.s.chipEntry z.b.vf m))
                    ∨ ms.eraseDups.length ≠ n then answer z1 1
                else
                  match indexFrom own 0 ms with
                  | none => answer z1 2
                  | some r =>
                    if (z.s.chip z.b.vf).collOpen slot then answer z1 3
                    else
                      answer (z1.at (z1.s.modChip z.b.vf (fun h =>
                        { h with
                          groups := Table.put h.groups slot
                            ⟨BitVec.ofNat 128 (fld g 255 128), BitVec.ofNat 16 (fld g 47 32), ms, r, []⟩
                          collCount := Table.put h.collCount slot 0 }))) 0)))

/-! ### The COLL words (R420, R421) -/

/-- Fields of a control word. -/
def collSlot (w : Word64) : Nat := fld w 5 0
/-- ROP of a control word. -/
def collRop (w : Word64) : Nat := fld w 14 12
/-- Whether a reduction runs on an FP32 wire. -/
def collWide (w : Word64) : Bool := fld w 17 16 == 1
/-- ROOT of a control word. -/
def collRoot (w : Word64) : Nat := fld w 31 20

/-- Whether reserved bits and codes of a control word are clear. -/
def collControlOk (w : Word64) : Bool :=
  fld w 63 32 == 0 && fld w 19 18 == 0 && fld w 15 15 == 0 && fld w 11 10 == 0 && fld w 7 6 == 0
    && decide (fld w 17 16 < 2) && decide (collRop w < 6)

/-- Whether a reduction's format, operation and wire agree (R421). -/
def collFmtOk (op : Nat) (w : Word64) (f : Fmt) : Bool :=
  decide (2 ≤ op) || (match f with
    | .f32 => decide (collRop w < 3) && !collWide w
    | .bf16 => decide (collRop w < 3)
    | .i32 | .n32 => !collWide w
    | _ => false)

/-- Whether the two tiles' shapes agree (R421); their formats are equal (log entry 36). -/
def collShapeOk (op n : Nat) (d t : Tile) : Bool :=
  d.fmt == t.fmt && d.cols == t.cols
    && (if op = 1 then t.rows % n == 0 && d.rows == t.rows / n
        else if op = 2 then d.rows == n * t.rows
        else d.rows == t.rows)

/-- A tile that lies in the scratchpad or in ordinary memory (R421). -/
def Ctx.collTile (c : Ctx) (d : BitVec 128) : Except TrapInfo Tile :=
  match c.tile d with
  | .error e => .error e
  | .ok (t, l) =>
    match l with
    | .scratch => .ok t
    | _ => if t.base < 2 ^ 63 then .ok t else .error operandTrap

/-- The checks of a COLL word (R421). -/
def Ctx.collCheck (c : Ctx) (op : Nat) (td ts : BitVec 128) (w : Word64) (ob : SSrc) : Except TrapInfo Unit := do
  let _ ← c.objCheck (some ob)
  limit (decide ((c.src ob).toNat + 32 ≤ windowBase + c.b.scratchSize) && collControlOk w)
  match Table.find (c.s.chip c.b.vf).groups (collSlot w) with
  | none => .error operandTrap
  | some g =>
    limit (decide (collRoot w < g.members.length))
    let d ← c.collTile td
    let t ← c.collTile ts
    limit (collFmtOk op w t.fmt && collShapeOk op g.members.length d t)

/-- The die of a command's block. -/
def State.collDie (s : State) (k : CollCmd) : Nat :=
  match Table.find s.blocks k.block with
  | none => 0
  | some b => coreDie b.core
/-- Whether a command stands at the head of its die's queue of its function (R425). -/
def State.collHead (s : State) (v : Nat) (k : CollCmd) : Bool :=
  match (s.chip v).colls.find? (fun x => s.collDie x == s.collDie k) with
  | none => false
  | some x => x.slot == k.slot && x.index == k.index
/-- From now on the engines may grant a slot to the commands at the heads of a function's queues (R425, R426; log entry 124). -/
def State.collHeads (s : State) (v : Nat) : State :=
  s.modChip v (fun c =>
    { c with colls := c.colls.map (fun k => if k.headAt.isNone && s.collHead v k then { k with headAt := some s.now } else k) })

/-- One command enters the collective engine (R420); every arrived slice goes on and counts it under EN (R114). -/
def State.enterColl (s : State) (uid : Nat) (b : Block) (as : List CollArrival) : State :=
  match as with
  | [] => s
  | a :: _ =>
    let slot := collSlot a.control
    let s1 := (s.modBlock uid (fun b => { b with meet := [] })).modChip b.vf (fun c =>
      let n := Table.getD c.collCount slot 0
      { c with
        colls := c.colls ++ [⟨slot, n, a.op, a.td, a.ts, a.control, a.obj, uid, s.now, as.map (fun x => x.slice), none⟩]
        collCount := Table.put c.collCount slot (n + 1) })
    as.foldl (fun t x =>
      (t.modSlice x.slice (fun y =>
        { y with hold := .none, forcedOk := false, cnt := { y.cnt with en := y.cnt.en + 1 } })).finish x.slice x.m)
      (s1.collHeads b.vf)

/-- Whether all arrivals hold the same operand values. -/
def sameOperands : List CollArrival → Bool
  | [] => true
  | a :: as => as.all (fun b => b.op == a.op && b.td == a.td && b.ts == a.ts && b.control == a.control && b.obj == a.obj)

/-- Completes the meeting of a block's COLL word if it can complete (R420): a trap when the operands differ; on a time-sliced
chip a checkpoint comes first (R367). -/
def State.checkMeet (s : State) (uid : Nat) : State :=
  match Table.find s.blocks uid with
  | none => s
  | some b =>
    if !b.meet.isEmpty && s.slices.all (fun e =>
        keyBlock e.1 != uid || e.2.ended || b.meet.any (fun a => a.slice == e.1)) then
      if sameOperands b.meet then
        match b.meet with
        | [] => s
        | a :: _ =>
          let ok := match Table.find s.slices a.slice with
            | none => false
            | some x => x.forcedOk
          if s.timeSliced b.vf && !ok then
            s.modChip b.vf (fun c =>
              if c.forcing.any (fun f => f.1 == a.slice) then c
              else { c with forcing := c.forcing ++ [(a.slice, a.word)] })
          else s.enterColl uid b b.meet
      else
        b.meet.foldl (fun t a => (t.modSlice a.slice (fun x => { x with hold := .none })).takeTrap a.slice
          { cause := .groupSync } a.word) (s.modBlock uid (fun b => { b with meet := [] }))
    else s

/-- A COLL word (R420–R422): the implied XFENCE from LS is a release point; then the slice joins the meeting. The implied fence
is at POD scope and its scope is checked (log entry 39). -/
def collWord (op : Nat) (s : State) (c : Ctl) (td ts : TReg) (b ob : SSrc) : Host.Outcome State Fault Refusal :=
  issue s (chkRegs []) (fun x =>
    if x.x.cnt.en = 63 then x.stay
    else if !x.x.guardScalar c.guard then x.s.finish x.k c.m
    else if x.s.scopeDenied x.b.vf .pod then x.trap { cause := .scopePolicy }
    else
      match x.collCheck op (x.tdesc td) (x.tdesc ts) (x.src b) ob with
      | .error t => x.trap t
      | .ok () =>
        x.releaseAll (fun y =>
          ((y.s.modSlice y.k (fun z => { z with hold := .coll })).modBlock (keyBlock y.k) (fun k =>
            { k with meet := k.meet ++ [⟨y.k, op, y.tdesc td, y.tdesc ts, y.src b, y.src ob, c.m, y.s.ir⟩] })).checkMeet
            (keyBlock y.k)))

/-- COLL with OP 0. -/
def execAllreduce (c : Ctl) (td ts : TReg) (b x : SSrc) (s : State) := collWord 0 s c td ts b x
/-- COLL with OP 1. -/
def execReducescatter (c : Ctl) (td ts : TReg) (b x : SSrc) (s : State) := collWord 1 s c td ts b x
/-- COLL with OP 2. -/
def execAllgather (c : Ctl) (td ts : TReg) (b x : SSrc) (s : State) := collWord 2 s c td ts b x
/-- COLL with OP 3. -/
def execBroadcast (c : Ctl) (td ts : TReg) (b x : SSrc) (s : State) := collWord 3 s c td ts b x

/-! ### Reductions (R423, R426) -/

/-- A node of a reduction on a wire format. -/
def collNode (rop : Nat) (f : Fmt) (a b : Nat) : Nat :=
  match f with
  | .f32 | .bf16 =>
    if rop = 0 then (addF f .rne a b).1 else if rop = 1 then (minMax f false false a b).1 else (minMax f true false a b).1
  | _ => (redNode (wellRed rop) f (a, Flags.none) (b, Flags.none)).1

/-- The levels of a tree over at most 2^n leaves. -/
def treeDepth {α : Type} (f : α → α → α) : Nat → List (Option α) → List (Option α)
  | 0, l => l
  | n + 1, l => treeDepth f n (treeLevel f l)

/-- The reduction of one element over the ranks: the tree of R423, or left to right in the fallback (R426). -/
def collReduce (fallback : Bool) (rop : Nat) (f : Fmt) (xs : List Nat) : Nat :=
  if fallback then
    match xs with
    | [] => 0
    | x :: l => l.foldl (collNode rop f) x
  else ((treeDepth (collNode rop f) 12 (xs.map some)).head?.join).getD 0

/-- One element of a reduction: leaves go on the wire, the root comes back (R423). -/
def collElem (fallback wide : Bool) (rop : Nat) (f : Fmt) (xs : List Nat) : Nat :=
  if wide then
    (encodeF .bf16 (decodeF .f32 (collReduce fallback rop .f32
      (xs.map (fun x => (encodeF .f32 (decodeF .bf16 x) .rne false).1)))) .rne false).1
  else collReduce fallback rop f xs

/-- One row of a reduction, from the same row of every source. -/
def collRow (fallback wide : Bool) (rop : Nat) (f : Fmt) (cols : Nat) (rows : List (List Byte)) : List Byte :=
  let w := f.width / 8
  (List.range cols).flatMap (fun c =>
    leBytes w (collElem fallback wide rop f (rows.map (fun r => leNat ((r.drop (c * w)).take w)))))

/-! ### Instances (R422, R424) -/

/-- What a member brings to an instance: its shape, operation and source rows; `lost` when it has none to give. -/
structure CollPart where
  lost : Bool
  op : Nat
  control : Word64
  fmt : Nat
  rows : Nat
  cols : Nat
  dstRows : Nat
  dstCols : Nat
  source : List (List Byte)
  deriving DecidableEq, Repr

/-- A member of an instance: not there yet; lost; a command of this module; or of another. -/
inductive CollMember where
  | waiting
  | lost
  | here (v : Nat) (cmd : CollCmd) (part : CollPart)
  | away (part : CollPart)
  deriving DecidableEq, Repr

/-- The parts of a result that could not be read, or the rows. -/
def okRows : List (Except EngErr (List Byte)) → Option (List (List Byte))
  | [] => some []
  | .ok r :: rs => (okRows rs).map (fun l => r :: l)
  | .error _ :: _ => none

/-- The collective engine as an agent of a command's block, on path CL. -/
def CollCmd.agent (k : CollCmd) (b : Block) : Site := b.agent (k.slices.headD 0)
/-- The collective engine as a reader of its sources: what the block's slices know on path LS counts on path CL, by the fence that their
meeting implies (R422). -/
def State.collReader (s : State) (k : CollCmd) (b : Block) : Reader :=
  ⟨k.agent b, .cl, .tenant, 0, k.slices.flatMap (fun i =>
    match s.ctx i with
    | none => []
    | some c =>
      (s.message c.site c.x .pod c.x.seq).knows.filterMap (fun p =>
        if p.path = .ls ∨ p.path = .cl then some { p with path := .cl, since := 0 } else none))⟩

/-- What a command of this module brings; one whose source cannot be read is lost (log entry 38). -/
def State.collPart (s : State) (v : Nat) (k : CollCmd) : CollPart :=
  match tileOf k.ts, tileOf k.td, Table.find s.blocks k.block with
  | some t, some d, some b =>
    let who := s.collReader k b
    let seen := s.blockSeen who k.block b
    match okRows ((List.range t.rows).map (fun r => s.engRead who v b.core seen (70000 + 4096 * r) (t.row r) t.rb)) with
    | some rows => ⟨false, k.op, k.control, fld k.ts 11 7, t.rows, t.cols, d.rows, d.cols, rows⟩
    | none => ⟨true, k.op, k.control, fld k.ts 11 7, t.rows, t.cols, d.rows, d.cols, []⟩
  | _, _, _ => ⟨true, k.op, k.control, 0, 0, 0, 0, 0, []⟩

/-- The bytes of a row of a part. -/
def CollPart.rowBytes (p : CollPart) : Nat := p.cols * ((fmt? p.fmt).map Fmt.width).getD 8 / 8
/-- What a member of another module brings: rows of its own format (R422). -/
def awayPart (r : RemoteMember) : CollPart :=
  let p : CollPart := ⟨r.lost, r.op, r.control.setWidth 64, r.fmt, r.rows, r.cols, r.dstRows, r.dstCols, []⟩
  { p with source := (List.range r.rows).map (fun i =>
      (((r.source.getD i []) ++ List.replicate p.rowBytes 0).take p.rowBytes)) }

/-- The member of a rank, as chip v sees its group: `other` is its VCHIP. One that has been reset before its command is lost (R424); in the
fallback a command needs no slot of its engine (R426). -/
def State.collMember (s : State) (v : Nat) (g : Group) (index rank other : Nat) (remote : List RemoteMember) (fallback : Bool) :
    CollMember :=
  match s.target v other with
  | .nobody => .lost
  | .away =>
    match remote.find? (fun r => r.rank == rank) with
    | none => .waiting
    | some r => if r.lost then .lost else .away (awayPart r)
  | .here t =>
    let absent : CollMember := if g.lost.contains rank then .lost else .waiting
    match (s.chip t).groups.find? (fun e => e.2.gid == g.gid && e.2.epoch == g.epoch && e.2.rank == rank) with
    | none => absent
    | some (slot, _) =>
      match (s.chip t).colls.find? (fun k => k.slot == slot && k.index == index) with
      | some k => if fallback || s.collHead t k then .here t k (s.collPart t k) else .waiting
      | none => if index < Table.getD (s.chip t).collCount slot 0 then .lost else absent

/-- The part of a member. -/
def CollMember.part : CollMember → Option CollPart
  | .here _ _ p | .away p => some p
  | _ => none

/-- What an instance ends with for its members (R424). -/
inductive CollEnd where
  | ok
  | lost
  | mismatch
  deriving DecidableEq, Repr

/-- The links between the chips of this module that take part: from a chip, to another, under the name that the group gives it. -/
def State.collLinks (s : State) (ms : List CollMember) : List (Nat × Nat × Nat) :=
  let vs := ms.filterMap (fun m => match m with
    | .here v _ _ => some v
    | _ => none)
  vs.flatMap (fun v => (vs.filter (fun t => t != v)).map (fun t => (v, t, s.vchipOf t)))
/-- The members with the contributions that arrive: one whose packet another chip does not accept is unreachable (R407, R424; log entry
139). -/
def State.collReached (s : State) (ms : List CollMember) : List CollMember :=
  ms.map (fun m => match m with
    | .here v k p =>
      .here v k { p with lost := p.lost || (s.collLinks ms).any (fun l => l.1 == v && !s.linkOpen l.1 l.2.1 l.2.2) }
    | m => m)
/-- The packets of an instance raise the counts of its links, or are dropped (R407). -/
def State.collPackets (s : State) (ms : List CollMember) : State :=
  (s.collLinks ms).foldl (fun t l => t.linkPacket l.1 l.2.1 l.2.2) s

/-- How an instance of these members ends. -/
def collEnd (ms : List CollMember) : CollEnd :=
  let ps := ms.filterMap CollMember.part
  match ps with
  | [] => .lost
  | p :: _ =>
    if ps.any (fun q => q.op != p.op || q.fmt != p.fmt || q.rows != p.rows || q.cols != p.cols || q.dstRows != p.dstRows
        || q.dstCols != p.dstCols) then .mismatch
    else if ms.length ≠ ps.length ∨ ps.any (fun q => q.lost) = true then .lost
    else .ok

/-- The destination rows of a member of rank i (R422). -/
def collResult (fallback : Bool) (ps : List CollPart) (p : CollPart) (f : Fmt) (i : Nat) : List (List Byte) :=
  let n := ps.length
  let reduced (r : Nat) : List Byte :=
    collRow fallback (collWide p.control) (collRop p.control) f p.cols (ps.map (fun q => q.source.getD r []))
  if p.op = 0 then (List.range p.rows).map reduced
  else if p.op = 1 then (List.range (p.rows / n)).map (fun r => reduced (i * (p.rows / n) + r))
  else if p.op = 2 then ps.flatMap (fun q => q.source)
  else (ps[collRoot p.control]?.map (fun q => q.source)).getD []

/-- Writes rows at a tile for the collective engine; a row that cannot be written is left out. -/
def State.collWrite (s : State) (v : Nat) (k : CollCmd) (t : Tile) (rows : List (List Byte)) : State :=
  match Table.find s.blocks k.block with
  | none => s
  | some b =>
    ((List.range rows.length).zip rows).foldl (fun x r =>
      match x.resolveRange v b.core (80000 + 4096 * r.1) .write (t.row r.1) r.2.length with
      | .error _ => x
      | .ok ps =>
        x.writePieces ⟨k.agent b, .cl, 0, .tenant, []⟩ k.block b.core
          (ps.map (fun p => match p.place with
            | .phys v pa _ => { p with place := .phys v pa (s.timeSliced v) }
            | _ => p)) r.2) s

/-- Whether every destination row can be written (log entry 38). -/
def State.collWritable (s : State) (v : Nat) (k : CollCmd) (t : Tile) : Bool :=
  match Table.find s.blocks k.block with
  | none => false
  | some b => (List.range t.rows).all (fun r =>
      match s.resolveRange v b.core (80000 + 4096 * r) .write (t.row r) t.rb with
      | .ok _ => true
      | .error _ => false)

/-- Rows of free bytes: what a lost member's source may have held. -/
def State.freeRows (s : State) (rank rows n : Nat) : List (List Byte) :=
  (List.range rows).map (fun r =>
    (List.range n).map (fun i => (Config.free s.fresh (2 ^ 47 + rank * 2 ^ 31 + r * 65536 + i)).setWidth 8))
/-- The parts of an instance by rank, with free bytes for the sources of its lost members; they have the shape of part p. -/
def State.collFilled (s : State) (ms : List CollMember) (p : CollPart) : List CollPart :=
  ((List.range ms.length).zip ms).map (fun e =>
    match e.2.part with
    | some q => if q.lost then { q with source := s.freeRows e.1 q.rows q.rowBytes } else q
    | none => { p with source := s.freeRows e.1 p.rows p.rowBytes })

/-- A destination of a lost instance: each byte holds its old value or the one that the instance may have written (R424). -/
def State.collLost (s : State) (v rank : Nat) (k : CollCmd) (t : Tile) (new : List (List Byte)) : State :=
  match Table.find s.blocks k.block with
  | none => s
  | some b =>
    let rows := (List.range t.rows).map (fun r =>
      match s.engRead (s.collReader k b) v b.core b (70000 + 4096 * r) (t.row r) t.rb with
      | .ok old =>
        ((List.range old.length).zip old).map (fun p =>
          if s.flip (2 ^ 46 + rank * 2 ^ 31 + r * 65536 + p.1) then p.2 else ((new.getD r []).getD p.1 p.2))
      | .error _ => [])
    s.collWrite v k t rows

/-- A member's command ends (R424): the status word, then the arrival, which makes known what was written since write n; EN falls in every
slice that counts it. -/
def State.collDone (s : State) (v : Nat) (k : CollCmd) (status count : Nat) (fallback : Bool) (n : Nat) : State :=
  let off := scratchOff k.obj.toNat
  let site := match Table.find s.blocks k.block with
    | none => queueSite v 0
    | some b => k.agent b
  let s0 := s.engStore ⟨site, .cl, 0, .tenant, []⟩ k.block (off + 16)
    (leBytes 16 (status + bitOf fallback * 2 ^ 8 + count % 2 ^ 12 * 2 ^ 16))
  let s1 := ((s0.abUpdate ⟨site, .cl, 0, .core, []⟩ k.block off true 0 (s0.bytesKnown site n)).modChip
    v (fun c => { c with colls := c.colls.filter (fun x => !(x.slot == k.slot && x.index == k.index)) })).collHeads v
  k.slices.foldl (fun t i => t.modSlice i (fun x => { x with cnt := { x.cnt with en := x.cnt.en - 1 } })) s1

/-- An instance ends in one member of this module. -/
def State.collFinish (s : State) (ms : List CollMember) (e : CollEnd) (fallback : Bool) (v : Nat) (k : CollCmd) (p : CollPart)
    (rank : Nat) : State :=
  s.alsoInImage v (s.timeSliced v) (fun x =>
    let ps := ms.filterMap CollMember.part
    match tileOf k.td with
    | none => x.collDone v k 2 ps.length fallback x.stamp
    | some t =>
      let rows := collResult fallback (s.collFilled ms p) p t.fmt rank
      match e with
      | .mismatch => x.collDone v k 4 ms.length fallback x.stamp
      | .lost => (x.collLost v rank k t rows).collDone v k 2 (ps.filter (fun q => !q.lost)).length fallback x.stamp
      | .ok =>
        if x.collWritable v k t then (x.collWrite v k t rows).collDone v k 0 ms.length fallback x.stamp
        else (x.collLost v rank k t rows).collDone v k 2 ms.length fallback x.stamp)

/-- The deadline of a command, if its block's COLLDL gives one (R158, R426). -/
def State.collDeadline (s : State) (k : CollCmd) : Option Nat :=
  match (Table.find s.blocks k.block).bind (fun b => Table.find s.grids b.gid) with
  | none => none
  | some g => if recCollDl g.lrec = 0 then none else some (k.issuedAt + recCollDl g.lrec * 2500)

/-- The commands of this module among an instance's members. -/
def hereCmds (ms : List CollMember) : List CollCmd := ms.filterMap (fun m => match m with
  | .here _ c _ => some c
  | _ => none)

/-- Whether an instance cannot have been granted a slot on every member by a deadline (R426): a member's engine could grant none before
then, or a member of another module says that it is late. -/
def State.collMissed (s : State) (ms : List CollMember) (remote : List RemoteMember) : Bool :=
  remote.any (fun r => r.late) || (hereCmds ms).any (fun c =>
    match s.collDeadline c with
    | none => false
    | some d => (hereCmds ms).any (fun e => match e.headAt with
      | none => true
      | some h => decide (d < h)))
/-- Whether a deadline of an instance has passed. -/
def State.collLate (s : State) (ms : List CollMember) (remote : List RemoteMember) : Bool :=
  s.collMissed ms remote || (hereCmds ms).any (fun c => match s.collDeadline c with
    | none => false
    | some d => decide (d ≤ s.now))

/-- The time-sliced chips of this module whose undo logs hold a line of a source that the engines read for other chips (R366). -/
def State.collBlocked (s : State) (ms : List CollMember) : List Nat :=
  if ms.length ≤ 1 then []
  else
    ms.filterMap (fun m =>
      match m with
      | .here t k _ =>
        match tileOf k.ts, Table.find s.blocks k.block with
        | some d, some b =>
          if (List.range d.rows).any (fun r =>
              match s.resolveRange t b.core (70000 + 4096 * r) .read (d.row r) d.rb with
              | .error _ => false
              | .ok ps => ps.any (fun p => match p.place with
                | .phys w pa _ => s.inUndo w pa p.len
                | _ => false)) then some t else none
        | _, _ => none
      | _ => none)

/-- An instance completes in every member of this module, once every member has issued its command or is lost. Past a deadline that it has
missed it runs by the fallback only (R426; log entry 124). -/
def State.collComplete (s : State) (f slot : Nat) (remote : List RemoteMember) (fallback : Bool) : State :=
  match Table.find (s.chip f).groups slot, (s.chip f).colls.find? (fun k => k.slot == slot) with
  | some g, some k =>
    if s.podPaused f then s
    else
      let ms := ((List.range g.members.length).zip g.members).map (fun e => s.collMember f g k.index e.1 e.2 remote fallback)
      let may := if fallback then s.collLate ms remote else !s.collMissed ms remote
      let blocked := s.collBlocked ms
      if ms.any (fun m => m == .waiting) || !may then s
      else if !blocked.isEmpty then blocked.foldl (fun t v => t.modChip v (fun h => { h with outsideWait := true })) s
      else
        let got := s.collReached ms
        let e := collEnd got
        ((List.range got.length).zip got).foldl (fun x p =>
          match p.2 with
          | .here v c q => x.collFinish got e fallback v c q p.1
          | _ => x) (s.collPackets ms)
  | _, _ => s

/-- COLLECTIVE_COMPLETION (R422–R424). -/
def execCollectiveCompletion (f slot : Fin 64) (remote : List RemoteMember) (s : State) : Host.Outcome State Fault Refusal :=
  .next (s.collComplete f.val slot.val remote false)

/-- COLLECTIVE_FALLBACK (R426): after the deadline the instance runs by the fallback kernel, in ascending rank order. -/
def execCollectiveFallback (f slot : Fin 64) (remote : List RemoteMember) (s : State) : Host.Outcome State Fault Refusal :=
  .next (s.collComplete f.val slot.val remote true)

end Sys2Proof.Machine
end

