-- ==== Sys2Proof/Machine/Join.lean ====
section
/-! DEFINITION. The joins of a spliced grid (R315, R318, R319, R324). -/

namespace Sys2Proof.Machine

/-- The forwarding windows as join A leaves them (R319): every byte unwritten, each range fixed by P's descriptor. -/
def Block.freshWindows (b : Block) (sp : Splice) (old : List Window) : List Window :=
  (List.range 16).filterMap (fun t =>
    (tableTag sp.tableP false t).map (fun n =>
      { tag := t, base := BitVec.ofNat 64 (fld (b.tdesc.toList.getD n 0) 127 64), len := tableWindow sp.tableP, written := []
        elided := (old.find? (fun w => w.tag == t)).bind (fun w => w.elided) }))

/-- Completes the current join of a block if it can complete: the arrived slices enter the next part, with memory ordered as
by a barrier (R184). -/
def State.checkJoin (s : State) (uid : Nat) : State :=
  match Table.find s.blocks uid with
  | none => s
  | some b =>
    match b.splice, (Table.find s.grids b.gid).bind (fun g => g.splice) with
    | some sb, some sp =>
      if s.joinMet uid sb then
        let atA := sb.arrived.any (fun k => match (Table.find s.slices k).bind (fun x => x.splice) with
          | some ss => ss.part == 3
          | none => false)
        let s1 := s.modBlock uid (fun b =>
          { b with splice := some { sb with
              arrived := [], windows := if atA then b.freshWindows sp sb.windows else sb.windows } })
        let ks := s.meetKnows sb.arrived
        sb.arrived.foldl (fun t k => t.modSlice k (fun x =>
          match x.splice with
          | none => x
          | some ss => { (x.meet ks).enterPart ss (if atA then 4 else 6) x.pc.toNat with hold := .none })) s1
      else s
    | _, _ => s

/-- JOIN (R318): a release point (R324), then the slice arrives and is held; one that is held already leaves a join that is complete. A
write dropped there is reported by the slice's next word. -/
def execJoin (k : Nat) (s : State) : Host.Outcome State Fault Refusal :=
  match s.ctx k with
  | none => .next s
  | some c =>
    if !(c.atJoin && s.ready k) then .next s
    else if c.x.hold = .join then .next (s.checkJoin (keyBlock k))
    else
      let c1 := c.at (s.drain k)
      if c1.x.ops.any (fun o => o.kind.isSt) then .next c1.s
      else
        .next (((c1.s.modSlice k (fun x => { x with hold := .join, dropDue := !x.dropped.isEmpty })).modBlock (keyBlock k)
          (fun b => { b with splice := b.splice.map (fun sb => { sb with arrived := sb.arrived ++ [k] }) })).checkJoin
          (keyBlock k))

end Sys2Proof.Machine
end

