-- ==== Sys2Proof/Machine/Leave.lean ====
section
/-! DEFINITION. Lanes and slices end (R19, R20, R112, R113, R168, R183, R277, R318). -/

namespace Sys2Proof.Machine

/-- Lanes end: LIVE and EXEC lose their bits, for either origin. -/
def Slice.endLanes (x : Slice) (m : BitVec 4) : Slice :=
  { x with
    live := x.live &&& ~~~m
    exec := x.exec &&& ~~~m
    splice := x.splice.map (fun sp => { sp with other := { sp.other with exec := sp.other.exec &&& ~~~m } }) }

/-- A slice has ended: what it was awaited at may now complete (R168, R183, R318, R420). A failure still to be reported ends the
grid (R277). -/
def Ctx.endSlice (c : Ctx) : State :=
  let s1 := c.s.modSlice c.k (fun x => { (c.s.settleLanes 0xF x).endLanes 0xF with ended := true, hold := .none, pend := [], stale := [] })
  let s2 := match c.x.engFail with
    | [] => s1
    | f :: _ => ({ c with s := s1 }).endGridFor f.1 f.2.2.2 .engineFault false
  (((s2.checkInsts (keyBlock c.k) (keySquad c.k)).checkBars (keyBlock c.k)).checkMeet (keyBlock c.k)).checkJoin (keyBlock c.k)

/-- EXIT (R112, R113): the EXIT that ends the slice is a release point, and a write dropped there ends the grid (R241). -/
def execExit (c : Ctl) (s : State) : Host.Outcome State Fault Refusal :=
  issue s (fun _ => { handler := false, engine := true }) (fun x =>
    let m := laneMask (fun l => x.x.active c.guard l)
    if m = 0 then x.s.finish x.k c.m
    else if x.x.live &&& ~~~m ≠ 0 then (x.s.modSlice x.k (fun y => (x.s.settleLanes m y).endLanes m)).finish x.k c.m
    else
      let y := x.at (x.s.drain x.k)
      if y.x.dropped.isEmpty then y.endSlice else y.endGridAt y.x.pc .dataFault false)

end Sys2Proof.Machine
end

