-- ==== Sys2Proof/Machine/Launch.lean ====
section
/-! DEFINITION. A packet starts (R164, R165), its blocks are dispatched, shared and stolen (R149–R152, R160, R200, R380–R383),
blocks end (R153, R358), and the handler watchdog (R340). -/

namespace Sys2Proof.Machine

/-! ### Where a packet's blocks may run -/

/-- The clusters on which a grid's blocks run in the context of a function: CSMASK of its queue, in the dies that an open bridge path joins
with the queue's (R391); every cluster of another chip of a POD level (R160); and for a steward grid those of its die and of the function,
from which its policy core chooses (R375; log entry 85). -/
def State.chipClusters (s : State) (g : Grid) (v : Nat) : List Nat :=
  match g.home with
  | .vf f q =>
    if f.val = v then
      (bindClusters (((s.bindRecord f.val q.val).map (fun e => e.2.2)).getD 0)).filter (fun c => s.joined (s.queueDie g.home) (c / 5))
    else s.clusters v
  | .steward d => ((List.range 5).map (fun c => d.val * 5 + c))
      ++ (s.clusters v).filter (fun c => c / 5 != d.val && s.joined d.val (c / 5))

/-- The virtual chips of a chip's pod, by VCHIP: its own, then the others that its chip table holds, in cyclic order (R160, R403; log
entry 41). -/
def State.podMembers (s : State) (v : Nat) : List Nat :=
  let own := s.vchipOf v
  let ms := ((s.chip v).chipTab.filter (fun e => entryValid e.2 && e.1 != own)).map (fun e => e.1)
  own :: (ms.filter (fun m => decide (own < m)) ++ ms.filter (fun m => decide (m < own)))
/-- The function that runs the blocks of each index of a grid's POD level (R160): none for a chip of another module (log entry 41); empty for
a grid without that level. -/
def State.podChipsFor (s : State) (g : Grid) : List (Option Nat) :=
  match podLevel g.lrec with
  | none => []
  | some (n, _) => ((s.podMembers g.ctx).take n).map (fun m =>
      if m = s.vchipOf g.ctx then some g.ctx
      else match s.target g.ctx m with
        | .here t => some t
        | _ => none)

/-- The parts of a grid that run on this module's chips: function, first block, end. A grid without a POD level is one part. -/
def Grid.parts (g : Grid) : List (Nat × Nat × Nat) :=
  match podLevel g.lrec with
  | none => [(g.ctx, 0, recBlocks g.lrec)]
  | some (_, k) => ((List.range g.podChips.length).zip g.podChips).filterMap (fun e =>
      e.2.map (fun v => (v, e.1 * k, (e.1 + 1) * k)))
/-- The function in whose context a block of a grid runs (R160, R375). -/
def Grid.chipOf (g : Grid) (linear : Nat) : Nat :=
  ((g.parts.find? (fun p => decide (p.2.1 ≤ linear) && decide (linear < p.2.2))).map (fun p => p.1)).getD g.ctx

/-- The clusters of a grid. -/
def State.gridClusters (s : State) (g : Grid) : List Nat := (g.parts.flatMap (fun p => s.chipClusters g p.1)).eraseDups
/-- The dies of some clusters, ascending. -/
def diesWith (cs : List Nat) : List Nat := (List.range 4).filter (fun d => cs.any (fun c => c / 5 == d))
/-- The participating dies (R381). -/
def State.diesFor (s : State) (g : Grid) : List Nat := diesWith (s.gridClusters g)
/-- The cores of a packet's clusters on a die. -/
def State.coresFor (s : State) (g : Grid) (die : Nat) : List Nat :=
  ((s.gridClusters g).filter (fun c => c / 5 == die)).flatMap (fun c => (List.range 8).map (fun k => c * 8 + k))
/-- Whether every packet of the queue is a gang launch (R379 GANG). -/
def State.isGang (s : State) (home : QRef) : Bool :=
  match home with
  | .vf f q => bindGang (((s.bindRecord f.val q.val).map (fun e => e.2.2)).getD 0)
  | .steward _ => false
/-- The priority of a packet (R380); a steward grid goes ahead of every tenant queue (R375). -/
def State.prioOf (s : State) (home : QRef) : Nat :=
  match home with
  | .vf f q => bindPrio (((s.bindRecord f.val q.val).map (fun e => e.2.2)).getD 0)
  | .steward _ => 8

/-! ### What a block needs (R152, R200, R312) -/

/-- The bytes of unified store of a block of a grid. -/
def Grid.need (g : Grid) : Nat :=
  match g.splice with
  | none => recNeed g.lrec
  | some sp => splicedNeed g.lrec sp.recC sp.tableP
/-- Whether its blocks reserve the activation table. -/
def Grid.act (g : Grid) : Bool := recAct g.lrec || (match g.splice with
  | none => false
  | some sp => recAct sp.recC)
/-- The scratchpad bytes of its blocks (R316). -/
def Grid.scratchSize (g : Grid) : Nat := recScratch g.lrec + (match g.splice with
  | none => 0
  | some sp => recScratch sp.recC)
/-- The registers of squad q: those of the squad, and of P when spliced (R314). -/
def Grid.squadRegs (g : Grid) (q : Nat) : Nat × Nat :=
  match g.splice with
  | none => ((roleOf g.lrec q).2.2, 0)
  | some sp => ((roleOf g.lrec q).2.2 + (roleOf sp.recC q).2.2, (roleOf g.lrec q).2.2)

/-- The blocks that a core holds now: those of a chip that is not in a time slice stand in its home region (R360). -/
def State.onCore (s : State) (c : Nat) : List Block := (s.blocks.filter (fun e => e.2.core == c && s.chipRuns e.2.vf)).map (fun e => e.2)
/-- The bytes of unified store that a resident block holds. -/
def State.heldBy (s : State) (b : Block) : Nat :=
  match Table.find s.grids b.gid with
  | none => 0
  | some g => g.need
/-- Whether a core may take a block of a grid at all (R200, R435, R436). -/
def State.coreOpen (s : State) (g : Grid) (c : Nat) : Bool :=
  !(s.core c).retired && !s.dev.shutdown && !(recMx g.lrec && (s.core c).noMatrix)
/-- How many blocks of a grid a core with so many bytes and squads taken still accepts. -/
def Grid.fits (g : Grid) (bytes squads : Nat) : Nat :=
  let n := min ((983040 - bytes) / max 1 g.need) ((64 - squads) / max 1 (recSquads g.lrec))
  if recMx g.lrec || g.act then min n 1 else n
/-- How many blocks of a grid a core accepts now (R152). -/
def State.roomOn (s : State) (g : Grid) (c : Nat) : Nat :=
  if !s.coreOpen g c || (recMx g.lrec && (s.core c).mxOwner.isSome) || (g.act && (s.core c).actOwner.isSome) then 0
  else
    g.fits (((s.onCore c).map s.heldBy).foldl (fun a b => a + b) 0)
      (((s.onCore c).map (fun b => b.squads.length)).foldl (fun a b => a + b) 0)
/-- How many blocks of a grid an idle core accepts. -/
def State.idleRoom (s : State) (g : Grid) (c : Nat) : Nat := if s.coreOpen g c then g.fits 0 0 else 0

/-- The domain instances of a packet on a die, as lists of cores: clusters, or the die (R160). -/
def State.instances (s : State) (g : Grid) (die : Nat) (wide : Bool) : List (List Nat) :=
  if wide then [s.coresFor g die]
  else ((s.gridClusters g).filter (fun c => c / 5 == die)).map (fun c => (List.range 8).map (fun k => c * 8 + k))
/-- The room of several cores together. -/
def sumRoom (room : Nat → Nat) (cs : List Nat) : Nat := cs.foldl (fun n c => n + room c) 0
/-- How many level units of a grid that the distributors place at once a die can hold: single blocks, or BLOCKGROUP units. -/
def State.unitsOn (s : State) (g : Grid) (room : Nat → Nat) (die : Nat) : Nat :=
  match blockGroup g.lrec with
  | none => sumRoom room (s.coresFor g die)
  | some (e, wide) => (s.instances g die wide).foldl (fun n cs => n + sumRoom room cs / max 1 e) 0
/-- Blocks that are dispatched together. -/
def Grid.together (g : Grid) : Nat :=
  match blockGroup g.lrec with
  | none => 1
  | some (e, _) => e

/-! ### Shares (R381, R382) -/

/-- Blocks of a chunk. -/
def Grid.chunk (g : Grid) : Nat :=
  let u := max 1 (chunkUnit g.lrec)
  (64 + u - 1) / u * u
/-- The chunks of the blocks from lo to hi that a die owns when they are dealt out over some dies in turn. -/
def Grid.dealt (g : Grid) (lo hi : Nat) (dies : List Nat) (die : Nat) : List (Nat × Nat) :=
  let k := max 1 g.chunk
  ((List.range ((hi - lo + k - 1) / k)).filter (fun c => dies.getD (c % max 1 dies.length) 0 == die)).map (fun c =>
    (lo + c * k, min hi (lo + (c + 1) * k)))
/-- The blocks of a grid that each die owns at the start, as ranges (R381): each chip's blocks are dealt out over its dies. -/
def State.sharesOf (s : State) (g : Grid) : Table (List (Nat × Nat)) :=
  (s.diesFor g).map (fun d => (d, g.parts.flatMap (fun p => g.dealt p.2.1 p.2.2 (diesWith (s.chipClusters g p.1)) d)))
/-- Whether some ranges hold a block. -/
def holdsBlock (l : List (Nat × Nat)) (b : Nat) : Bool := l.any (fun r => decide (r.1 ≤ b) && decide (b < r.2))

/-- The blocks in a list of ranges. -/
def rangeCount (l : List (Nat × Nat)) : Nat := l.foldl (fun n r => n + (r.2 - r.1)) 0
/-- The lowest n blocks of ascending ranges, and what remains. -/
def takeLow : Nat → List (Nat × Nat) → List Nat × List (Nat × Nat)
  | _, [] => ([], [])
  | n, (lo, hi) :: rs =>
    if n = 0 then ([], (lo, hi) :: rs)
    else
      let k := min n (hi - lo)
      let r := takeLow (n - k) rs
      ((List.range k).map (fun i => lo + i) ++ r.1, if lo + k < hi then (lo + k, hi) :: rs else r.2)
/-- The highest n blocks of descending ranges, as ranges, and what remains, both descending. -/
def takeHigh : Nat → List (Nat × Nat) → List (Nat × Nat) × List (Nat × Nat)
  | _, [] => ([], [])
  | n, (lo, hi) :: rs =>
    if n = 0 then ([], (lo, hi) :: rs)
    else if hi - lo ≤ n then
      let r := takeHigh (n - (hi - lo)) rs
      ((lo, hi) :: r.1, r.2)
    else ([(hi - n, hi)], (lo, hi - n) :: rs)

/-- Ranges without the blocks from lo up to, but not including, hi. -/
def outside (l : List (Nat × Nat)) (lo hi : Nat) : List (Nat × Nat) :=
  l.flatMap (fun r => [(r.1, min r.2 lo), (max r.1 hi, r.2)].filter (fun p => decide (p.1 < p.2)))

/-- A grid without undispatched blocks drains (R167, R382). -/
def Grid.settle (g : Grid) : Grid :=
  if g.state = .dispatching ∧ g.undisp.all (fun e => e.2.isEmpty) = true then { g with state := .draining } else g

/-! ### Starting (R164, R165) -/

/-- Whether the start conditions of a packet hold (R164). -/
def State.mayStart (s : State) (gid : Nat) (g : Grid) : Bool :=
  let ps := s.packetsOf g.home
  g.waits && s.coreActs g.home && (pktWaitAddr g.pkt == 0 || g.waitOk)
    && (ps.takeWhile (fun x => x != gid)).all (fun x => match Table.find s.grids x with
      | none => true
      | some y => !y.waits)
    && (!pktOrder g.pkt || ps.all (fun x => match Table.find s.grids x with
      | none => true
      | some y => y.idx != (g.idx + 2 ^ 32 - 1) % 2 ^ 32))

/-- The cluster set of a function that holds a cluster (R395). -/
def State.setOf (s : State) (v g : Nat) : Nat :=
  ((List.range 4).find? (fun i => testBit (s.frec v).toNat (176 + 20 * i + g))).getD 4

/-- Blocks of a list of ranges that lie in another range. -/
def rangesIn (l : List (Nat × Nat)) (lo hi : Nat) : Nat := l.foldl (fun n r => n + (min hi r.2 - max lo r.1)) 0

/-- Whether units of blocks, each given as the blocks that each die owns of it, can all stand at once, each unit on one cluster set (R160,
R383); `cap` is the room left, by die and set. -/
def fitUnits : List (List (Nat × Nat)) → Table Nat → Bool
  | [], _ => true
  | u :: us, cap => (List.range 4).any (fun i =>
      u.all (fun e => decide (e.2 ≤ Table.getD cap (e.1 * 4 + i) 0))
        && fitUnits us (u.foldl (fun (c : Table Nat) e => Table.put c (e.1 * 4 + i) (Table.getD c (e.1 * 4 + i) 0 - e.2)) cap))

/-- Blocks of one chip's part of a grid that a die can hold at once, on cores that some clusters give. -/
def State.partRoom (s : State) (g : Grid) (room : Nat → Nat) (die : Nat) (ok : Nat → Bool) : Nat :=
  s.unitsOn g (fun c => if ok (coreCluster c) then room c else 0) die * g.together

/-- Whether all the blocks of a gang launch fit at once, each die holding its share (R381, R383), each CLUSTERSET unit on one cluster set. -/
def State.gangFits (s : State) (g : Grid) (room : Nat → Nat) : Bool :=
  let shares := s.sharesOf g
  g.parts.all (fun p =>
    let mine := s.chipClusters g p.1
    match setUnit g.lrec with
    | none => shares.all (fun e => decide (rangesIn e.2 p.2.1 p.2.2 ≤ s.partRoom g room e.1 (fun c => mine.contains c)))
    | some u =>
      let n := max 1 u
      fitUnits
        ((List.range ((p.2.2 - p.2.1) / n)).map (fun i =>
          shares.map (fun e => (e.1, rangesIn e.2 (p.2.1 + i * n) (p.2.1 + (i + 1) * n)))))
        (shares.flatMap (fun e => (List.range 4).map (fun i =>
          (e.1 * 4 + i, s.partRoom g room e.1 (fun c => mine.contains c && s.setOf p.1 c == i))))))

/-- Whether a grid's level units, or all blocks of a gang launch, fit somewhere in its clusters when they are idle (R166,
R383); a grid with a POD level needs as many chips as it spans (R160). -/
def State.placeable (s : State) (g : Grid) : Bool :=
  (match podLevel g.lrec with
    | none => true
    | some (n, _) => g.podChips.length == n)
    && (if s.isGang g.home then s.gangFits g (s.idleRoom g)
        else g.parts.all (fun p =>
          let mine := s.chipClusters g p.1
          (diesWith mine).any (fun d => decide (1 ≤ s.partRoom g (s.idleRoom g) d (fun c => mine.contains c)))))

/-- What the start acquire of a packet learns (R164, R248): from the releases that the packet has read, and from completed packets, at
ACQSCOPE. -/
def State.startAcquire (s : State) (g : Grid) : List Known :=
  s.gains (queueSite g.ctx (s.queueDie g.home)) ((scope? (fld g.pkt 35 32)).getD .slice) 0
    (g.msgs ++ s.chips.flatMap (fun e => e.2.released))

/-- A gang launch takes the next ticket of its line (R383). -/
def State.takeTicket (s : State) (gid : Nat) : State :=
  (s.modGrid gid (fun g => { g with ticket := some s.dev.nextTicket })).modDev (fun d => { d with nextTicket := d.nextTicket + 1 })

/-- A packet starts with the acquire at ACQSCOPE (R164): a BARRIER completes, and a LAUNCH packet's blocks become eligible for dispatch. -/
def State.startGrid (s : State) (gid : Nat) (g : Grid) : State :=
  if pktType g.pkt = 1 then
    let pods := s.podChipsFor g
    if s.placeable { g with podChips := pods } then
      let t := (s.modGrid gid (fun g =>
        let h := { g with podChips := pods }
        { h with state := .dispatching, startedAt := s.now, undisp := s.sharesOf h, knows := s.startAcquire h })).applyKnown
          (s.queueDie g.home) (s.startAcquire g)
      if s.isGang g.home then t.takeTicket gid else t
    else s.failPacket gid g.home 6 none
  else s.modGrid gid (fun g => { g with state := .draining, startedAt := s.now, knows := s.startAcquire g })

/-- PACKET_START (R164, R165, R312). -/
def execPacketStart (gid : Nat) (s : State) : Host.Outcome State Fault Refusal :=
  match Table.find s.grids gid with
  | none => .next s
  | some g =>
    .next (if s.mayStart gid g then
        s.queueStep g.home (fun t =>
          let r := t.braze gid g
          if r.2 || !t.scopesOk g.ctx g.pkt g.lrec then r.1.failPacket gid g.home 6 none
          else r.1.startGrid gid ((Table.find r.1.grids gid).getD g))
      else s)

/-! ### Placing a block (R149–R155) -/

/-- Whether ranges of a core's unified store lie apart and inside it. -/
def apart (l : List (Nat × Nat)) : Bool :=
  l.all (fun r => decide (r.1 + r.2 ≤ 1048576)) && (l.Pairwise (fun a b => a.1 + a.2 ≤ b.1 ∨ b.1 + b.2 ≤ a.1) : Prop)

/-- The ranges of the unified store that a block's squads and scratchpad take. -/
def Block.ranges (b : Block) : List (Nat × Nat) :=
  b.squads.map (fun q => (q.vbase, q.vcount * 128)) ++ (if b.scratchSize = 0 then [] else [(b.scratchAt, b.scratchSize)])

/-- A block of a grid at a place. -/
def Grid.block (g : Grid) (gid linear : Nat) (p : Placement) : Block where
  gid := gid
  vf := g.chipOf linear
  linear := linear
  core := p.core
  squads := (List.range (recSquads g.lrec)).map (fun q =>
    let r := roleOf g.lrec q
    { vbase := p.vbases.getD q 0, vcount := (g.squadRegs q).1, pcount := (g.squadRegs q).2, role := r.1, roleIdx := r.2.1
      slot := p.slots.getD q 0, insts := [] })
  scratchAt := p.scratchAt
  scratchSize := g.scratchSize
  scratch := []
  full := []
  poison := []
  tdesc := Vector.replicate 16 0
  bars := []
  meet := []
  actRes := g.act
  mxRes := recMx g.lrec
  killed := false
  splice := g.splice.map (fun sp =>
    { pScratch := recScratch g.lrec
      smap := regMap (tableSuse sp.tableC) (tableSuse sp.tableP) 64
      tmap := regMap (tableTuse sp.tableC) (tableTuse sp.tableP) 16
      windows := [], arrived := [] })

/-- Whether a core can take a block at a place (R15, R152, R155, R200). -/
def State.placeOk (s : State) (g : Grid) (b : Block) (p : Placement) : Bool :=
  let old := s.onCore p.core
  let n := recSquads g.lrec
  decide (1 ≤ s.roomOn g p.core) && p.slots.length == n && p.vbases.length == n
    && p.slots.all (fun t => decide (t < 64)) && p.slots.eraseDups.length == n
    && old.all (fun o => o.squads.all (fun q => !p.slots.contains q.slot))
    && p.vbases.all (fun v => v % 512 == 0) && p.scratchAt % 16 == 0
    && apart (b.ranges ++ old.flatMap (fun o => o.ranges))

/-- A slice of a grid as its block starts (R13, R149, R150, R316, R375). -/
def Grid.slice (g : Grid) (q sl : Nat) : Slice :=
  let live := createdLanes g.lrec q sl
  let x0 := { (Slice.start (BitVec.ofNat 64 (alignedPc (recEntry g.lrec))) live (recRM g.lrec)).setS 0 (pktArgs g.pkt) with knows := g.knows }
  let x := match g.home with
    | .steward _ => { x0 with smode := smodeSetPriv x0.smode 2 }
    | .vf _ _ => x0
  match g.splice with
  | none => x
  | some sp =>
    let y := if testBit (tableSuse sp.tableC) 0 then
        x.setS ((regMap (tableSuse sp.tableC) (tableSuse sp.tableP) 64).getD 0 0) (pktArgs sp.pktC)
      else x
    let ss : SpliceSlice :=
      ⟨1, ⟨live, Vector.replicate 4 0, BitVec.ofNat 64 (recRM sp.recC % 4)⟩, false⟩
    let st := startPart1 g sp
    { y with splice := some ss }.enterPart ss st.1 st.2

/-- The slices of a block, with their keys. A position that is not launched (R150) stands as a slice that has ended: it holds
only the register storage that the window reaches (R194). -/
def Grid.slices (g : Grid) (uid : Nat) : Table Slice :=
  (List.range (recSquads g.lrec)).flatMap (fun q =>
    (List.range 8).map (fun sl =>
      (keyOf uid q sl, { g.slice q sl with ended := createdLanes g.lrec q sl == 0 })))

/-- A core takes a block that reserves its matrix engine or its activation table (R136, R200, R262). -/
def Core.take (c : Core) (uid : Nat) (b : Block) : Core :=
  let c1 := if b.mxRes then
      { c with
        mxOwner := some uid, acc := [], accPoison := [], stationary := Plane.empty, shadow := Plane.empty, govst := 0
        streamed := 0, blocked := false }
    else c
  if b.actRes then
    { c1 with actOwner := some uid, actBufs := Vector.replicate 2 ⟨false, 0, []⟩, actSel := false }
  else c1

/-- Whether a block's CLUSTERSET unit, if it has one, may run on a core (R160). -/
def State.setOk (s : State) (g : Grid) (linear core : Nat) : Bool :=
  match setUnit g.lrec with
  | none => true
  | some u =>
    match Table.find g.unitSet (linear / max 1 u) with
    | none => true
    | some i => s.setOf (g.chipOf linear) (coreCluster core) == i

/-- Dispatches one block to a place, or not at all: its die has applied what the packet's start acquired (R254, R255). -/
def State.place (s : State) (gid linear : Nat) (p : Placement) : Option State :=
  match Table.find s.grids gid with
  | none => none
  | some g =>
    let b := g.block gid linear p
    if (s.chipClusters g b.vf).contains (coreCluster p.core) && s.placeOk g b p && s.setOk g linear p.core then
      let uid := s.dev.nextUid
      let s1 := { s with
        blocks := Table.put s.blocks uid b
        slices := (g.slices uid).foldl (fun (t : Table Slice) (e : Nat × Slice) => Table.put t e.1 e.2) s.slices }
      let s2 := ((s1.applyKnown (coreDie p.core) g.knows).modCore p.core (fun c => c.take uid b)).modDev (fun d => { d with nextUid := uid + 1 })
      some (match setUnit g.lrec with
        | none => s2
        | some u => s2.modGrid gid (fun x =>
            { x with unitSet := Table.put x.unitSet (linear / max 1 u) (s.setOf b.vf (coreCluster p.core)) }))
    else none

/-- Dispatches blocks to their places, all or none. -/
def State.placeAll (s : State) (gid : Nat) : List (Nat × Placement) → Option State
  | [] => some s
  | (n, p) :: ps =>
    match s.place gid n p with
    | none => none
    | some t => State.placeAll t gid ps

/-- Whether the blocks of a BLOCKGROUP unit go to one domain instance (R160). -/
def oneInstance (r : BitVec 1024) (ps : List Placement) : Bool :=
  match blockGroup r, ps with
  | some (_, wide), p :: qs =>
    qs.all (fun q => if wide then coreDie q.core == coreDie p.core else coreCluster q.core == coreCluster p.core)
  | _, _ => true

/-- Whether a packet's blocks may be dispatched now: a time-sliced chip's only in its time slice (R380). -/
def State.mayDispatch (s : State) (g : Grid) : Bool :=
  g.state == .dispatching && (match g.home with
    | .vf f _ => s.mayRun f.val
    | .steward _ => !s.dev.shutdown)
/-- Whether the chips on which some blocks of a grid would run are in their time slices, the blocks of a gang launch all together. -/
def State.chipsRun (s : State) (g : Grid) (ns : List Nat) : Bool :=
  if s.isGang g.home then g.parts.all (fun p => p.1 == g.ctx || s.mayRun p.1)
  else ns.all (fun n => g.chipOf n == g.ctx || s.mayRun (g.chipOf n))

/-- Whether a gang launch is at the head of the line of its partition (R383): no other that waits there has a lower ticket. One whose
reservations were rolled back has no ticket until a block of its clusters ends. -/
def State.gangTurn (s : State) (g : Grid) : Bool :=
  match g.ticket with
  | none => false
  | some t => s.grids.all (fun e =>
      match e.2.ticket with
      | none => true
      | some u => decide (t ≤ u) || !(s.isGang e.2.home && s.mayDispatch e.2) || !s.joined (s.queueDie g.home) (s.queueDie e.2.home))

/-- Whether a packet is ready at a die (R380): it has undispatched blocks there, and its clusters have room, for a gang launch at the head of
its line room for all of them. -/
def State.readyAt (s : State) (die : Nat) (h : Grid) : Bool :=
  s.mayDispatch h && decide (0 < rangeCount (Table.getD h.undisp die []))
    && s.chipsRun h (takeLow h.together (Table.getD h.undisp die [])).1
    && (if s.isGang h.home then s.gangTurn h && s.gangFits h (s.roomOn h) else decide (1 ≤ s.unitsOn h (s.roomOn h) die))

/-- Whether no packet of higher priority is ready at a die (R380). -/
def State.prioOk (s : State) (g : Grid) (die : Nat) : Bool :=
  s.grids.all (fun e => !(decide (s.prioOf g.home < s.prioOf e.2.home) && s.readyAt die e.2))

/-! ### Deficit round robin (R380) -/

/-- WEIGHT of a packet's queue. -/
def State.weightOf (s : State) (home : QRef) : Nat :=
  match home with
  | .vf f q => bindWeight (((s.bindRecord f.val q.val).map (fun e => e.2.2)).getD 0)
  | .steward _ => 1
/-- Whether a packet shares a die's distributor with a packet by weight: another of its priority, ready there, that is no steward grid. -/
def State.rivals (s : State) (g h : Grid) (die : Nat) : Bool :=
  s.readyAt die h && s.prioOf h.home == s.prioOf g.home && s.prioOf h.home != 8
/-- The blocks that a packet dispatches at once at a die: a block, a BLOCKGROUP unit, or a gang launch's share. -/
def State.unitAt (s : State) (g : Grid) (die : Nat) : Nat :=
  if s.isGang g.home then rangeCount (Table.getD g.undisp die []) else g.together
/-- Rounds after which a packet has earned its next unit of blocks at a die. -/
def State.roundsTo (s : State) (g : Grid) (die : Nat) : Nat :=
  (s.unitAt g die - Table.getD g.credit die 0 + s.weightOf g.home - 1) / s.weightOf g.home
/-- Rounds that begin before one of the packets that share a die with a packet can dispatch again. -/
def State.rounds (s : State) (g : Grid) (die : Nat) : Nat :=
  (s.grids.filter (fun e => s.rivals g e.2 die)).foldl (fun n e => min n (s.roundsTo e.2 die)) (s.roundsTo g die)
/-- A packet earns its weight for each of some rounds at a die. -/
def State.earn (s : State) (die n : Nat) (h : Grid) : Grid :=
  { h with credit := Table.put h.credit die (Table.getD h.credit die 0 + n * s.weightOf h.home) }
/-- Whether a packet's turn has come at a die: it has earned a unit of blocks once the rounds that must begin have begun. The packets of one
round go in any order (log entry 75). -/
def State.turnOk (s : State) (g : Grid) (die : Nat) : Bool :=
  match g.home with
  | .vf _ _ => decide (s.unitAt g die ≤ Table.getD (s.earn die (s.rounds g die) g).credit die 0)
  | .steward _ => true
/-- The rounds begin, and a packet spends one for each block that it dispatches; a packet without a block there keeps nothing. -/
def State.spend (s : State) (gid die n : Nat) (g : Grid) : State :=
  let r := s.rounds g die
  { s with grids := s.grids.map (fun e =>
      let h := if s.rivals g e.2 die || e.1 == gid then s.earn die r e.2 else e.2
      (e.1, if e.1 = gid then
          { h with credit := Table.put h.credit die (if (takeLow n (Table.getD h.undisp die [])).2.isEmpty then 0
              else Table.getD h.credit die 0 - n) }
        else h)) }

/-- The slices of a block. -/
def State.slicesOf (s : State) (uid : Nat) : List (Nat × Slice) := s.slices.filter (fun e => keyBlock e.1 == uid)
/-- Whether the committed image of a time-sliced chip already holds a grid of its queues that it dispatches to several chips: its dispatch
is then never undone (log entry 41). -/
def State.startKept (s : State) (gid : Nat) (g : Grid) : Bool :=
  let v := homeFn g.home
  !(g.spansChips && s.timeSliced v) || (match (s.chip v).committed with
    | none => false
    | some i => (Table.find i.grids gid).any (fun h => h.state == .dispatching))
/-- The blocks numbered from `first` on, which a grid on several chips has just dispatched, stand in the committed images of their chips as
well, and the image of its queue's chip no longer holds them as undispatched (log entry 41). -/
def State.keepDispatch (s : State) (gid first : Nat) : State :=
  match Table.find s.grids gid with
  | none => s
  | some g =>
    if g.spansChips then
      { s with chips := s.chips.map (fun e => (e.1, { e.2 with committed := e.2.committed.map (fun i =>
          let mine := s.blocks.filter (fun b => decide (first ≤ b.1) && b.2.vf == e.1)
          { i with
            blocks := mine.foldl (fun (t : Table Block) (b : Nat × Block) => Table.put t b.1 b.2) i.blocks
            slices := (mine.flatMap (fun b => s.slicesOf b.1)).foldl (fun (t : Table Slice) (x : Nat × Slice) => Table.put t x.1 x.2) i.slices
            grids := i.grids.map (fun p => if p.1 = gid then
                (p.1, { p.2 with undisp := g.undisp, state := g.state, unitSet := g.unitSet, ticket := g.ticket })
              else p) }) })) }
    else s
/-- A grid on several chips waits until its queue's chip has committed a checkpoint after its start (log entry 41). -/
def State.keepStart (s : State) (g : Grid) : State := s.modChip (homeFn g.home) (fun c => { c with outsideWait := true })

/-- BLOCK_DISPATCH (R380, R381): a die's distributor dispatches its lowest undispatched block, or BLOCKGROUP unit, to places that
the hardware chose; nothing happens when the places cannot take them. -/
def execBlockDispatch (gid : Nat) (die : Fin 4) (places : List Placement) (s : State) : Host.Outcome State Fault Refusal :=
  match Table.find s.grids gid with
  | none => .next s
  | some g =>
    let low := takeLow g.together (Table.getD g.undisp die.val [])
    if s.mayDispatch g && s.chipsRun g low.1 && !s.isGang g.home && s.prioOk g die.val && s.turnOk g die.val && !low.1.isEmpty
        && low.1.length == places.length
        && places.all (fun p => coreDie p.core == die.val) && oneInstance g.lrec places then
      if !s.startKept gid g then .next (s.keepStart g)
      else
        match (s.spend gid die.val low.1.length g).placeAll gid (low.1.zip places) with
        | none => .next s
        | some t =>
          .next ((t.modGrid gid (fun x => { x with undisp := Table.put x.undisp die.val low.2 }.settle)).keepDispatch gid s.dev.nextUid)
    else .next s

/-- STEAL_REQUEST (R382): a distributor with no undispatched block asks the other participating dies in turn; it takes no block of a chip
that has no cluster on its die. -/
def execStealRequest (gid : Nat) (die : Fin 4) (s : State) : Host.Outcome State Fault Refusal :=
  match Table.find s.grids gid with
  | none => .next s
  | some g =>
    let dies := s.diesFor g
    let order := dies.filter (fun d => decide (die.val < d)) ++ dies.filter (fun d => decide (d < die.val))
    if s.mayDispatch g && !s.isGang g.home && dies.contains die.val
        && rangeCount (Table.getD g.undisp die.val []) == 0 then
      match order.find? (fun d => decide (0 < rangeCount (Table.getD g.undisp d []))) with
      | none => .next s
      | some d =>
        let l := Table.getD g.undisp d []
        let u := max 1 (chunkUnit g.lrec)
        let n := rangeCount l
        let r := takeHigh (n / 2 / u * u) l.reverse
        let able := g.parts.all (fun p => rangesIn r.1 p.2.1 p.2.2 == 0 || (diesWith (s.chipClusters g p.1)).contains die.val)
        if n < 2 * u || !able then .next s
        else
          .next (s.modGrid gid (fun x =>
            { x with undisp := Table.put (Table.put x.undisp d r.2.reverse) die.val r.1.reverse }))
    else .next s

/-- The BLOCKGROUP units of a list of placements each go to one domain instance. -/
def unitsTogether (r : BitVec 1024) : Nat → Nat → List Placement → Bool
  | 0, _, _ => true
  | n + 1, k, ps => ps.isEmpty || (oneInstance r (ps.take k) && unitsTogether r n k (ps.drop k))

/-- The blocks of a grid that run on this module's chips, ascending. -/
def Grid.locals (g : Grid) : List Nat := g.parts.flatMap (fun p => (List.range (p.2.2 - p.2.1)).map (fun i => p.2.1 + i))

/-- GANG_LAUNCH (R383): at its turn, which it earns at every die by weight (R380), every block is placed on its die's share at once; when they do not all fit now, the reservations are
rolled back, and the launch waits until a block of its clusters ends. -/
def execGangLaunch (gid : Nat) (places : List Placement) (s : State) : Host.Outcome State Fault Refusal :=
  match Table.find s.grids gid with
  | none => .next s
  | some g =>
    let shares := s.sharesOf g
    let ns := g.locals.filter (fun b => g.undisp.any (fun e => holdsBlock e.2 b))
    if s.mayDispatch g && s.chipsRun g [] && s.isGang g.home && s.gangTurn g && (s.diesFor g).all (fun d => s.prioOk g d) then
      if !s.gangFits g (s.roomOn g) then .next (s.modGrid gid (fun x => { x with ticket := none }))
      else if places.length == ns.length
          && (ns.zip places).all (fun e => holdsBlock (Table.getD shares (coreDie e.2.core) []) e.1)
          && unitsTogether g.lrec places.length g.together places && (s.diesFor g).all (fun d => s.turnOk g d) then
        if !s.startKept gid g then .next (s.keepStart g)
        else
          match ((s.diesFor g).foldl (fun t d => t.spend gid d (rangeCount (Table.getD g.undisp d [])) g) s).placeAll gid (ns.zip places) with
          | none => .next s
          | some t => .next ((t.modGrid gid (fun x => { x with undisp := [], ticket := none }.settle)).keepDispatch gid s.dev.nextUid)
      else .next s
    else .next s

/-! ### Blocks end (R153, R358) -/

/-- Writes of a killed block still in flight or held are performed or discarded, each on its own (R358). -/
def State.settleKilled (s : State) (k : Nat) : List MemOp → State
  | [] => s
  | o :: os =>
    match s.ctx k with
    | none => s
    | some c =>
      State.settleKilled (if o.kind.isSt && s.flip (2 ^ 50 + k * 2 ^ 10 + o.seq) then c.performStore o 0 else s) k os

/-- Whether a block that was not killed has ended (R153): slices, operations, engine commands, copies, collectives. -/
def State.blockDone (s : State) (uid : Nat) (b : Block) : Bool :=
  (s.slicesOf uid).all (fun e => e.2.ended && e.2.ops.isEmpty)
    && (s.core b.core).cmdq.all (fun c => c.block != uid) && (s.core b.core).copyq.all (fun c => c.block != uid)
    && (s.chip b.vf).colls.all (fun c => c.block != uid)

/-- A core without a block: its commands are gone, and what it had reserved is scrubbed (R136, R153, R200). -/
def Core.leave (c : Core) (uid : Nat) (b : Block) : Core :=
  let c1 := { c with
    cmdq := c.cmdq.filter (fun k => k.block != uid)
    copyq := c.copyq.filter (fun k => k.block != uid) }
  let c2 := if b.mxRes && c.mxOwner == some uid then
      { c1 with
        mxOwner := none, acc := [], accPoison := [], stationary := Plane.empty, shadow := Plane.empty, govst := 0
        streamed := 0, blocked := false }
    else c1
  if b.actRes && c.actOwner == some uid then { c2 with actOwner := none, actBufs := Vector.replicate 2 ⟨false, 0, []⟩, actSel := false } else c2

/-- Whether a place lies in a block. -/
def Loc.inBlock (uid : Nat) : Loc → Bool
  | .scratch u _ | .reg u _ | .tdesc u _ => u == uid
  | _ => false

/-- The gang launches that wait for a block of a cluster to end take tickets again (R383). -/
def State.retryGangs (s : State) (cl : Nat) : State :=
  (s.grids.filter (fun e => e.2.state == .dispatching && s.isGang e.2.home && e.2.ticket.isNone && (s.gridClusters e.2).contains cl)).foldl
    (fun t e => t.takeTicket e.1) s

/-- Removes a block, its slices and its reservations; elided ranges go to its grid (R323), and so does what its slices knew (R165). -/
def State.removeBlock (s : State) (uid : Nat) (b : Block) : State :=
  let el := match b.splice with
    | none => []
    | some sb => sb.windows.filterMap (fun w => w.elided.map (fun e => (w.tag, e.1, e.2)))
  let s1 := { s with
    blocks := Table.del s.blocks uid
    slices := s.slices.filter (fun e => keyBlock e.1 != uid)
    past := s.past.filter (fun w => !w.loc.inBlock uid) }
  let ks := (s.slices.filter (fun e => keyBlock e.1 == uid)).flatMap (fun e => e.2.knows ++ e.2.reads)
  (((s1.modCore b.core (fun c => c.leave uid b)).modChip b.vf (fun c =>
    { c with
      colls := c.colls.filter (fun k => k.block != uid)
      forcing := c.forcing.filter (fun f => keyBlock f.1 != uid) })).modGrid b.gid (fun g => { g with elided := g.elided ++ el, learned := g.learned ++ ks })).retryGangs
    (coreCluster b.core)

/-- A killed block ends: what it left in flight is settled, and it is gone (R358). -/
def State.endKilled (s : State) (uid : Nat) (b : Block) : State :=
  let t := (s.slicesOf uid).foldl (fun t e => t.settleKilled e.1 e.2.ops) s
  t.removeBlock uid ((Table.find t.blocks uid).getD b)
/-- Whether the committed image of a time-sliced chip holds a block as a killed one (R358, R361). -/
def State.killedInImage (s : State) (v uid : Nat) : Bool :=
  s.timeSliced v && (match (s.chip v).committed with
    | none => false
    | some i => match Table.find i.blocks uid with
      | none => false
      | some x => x.killed)

/-- BLOCK_END (R153, R358). A block that was killed in the committed image of its chip too is gone from there. -/
def execBlockEnd (uid : Nat) (s : State) : Host.Outcome State Fault Refusal :=
  match Table.find s.blocks uid with
  | none => .next s
  | some b =>
    if b.killed then .next (s.alsoInImage b.vf (s.killedInImage b.vf uid) (fun t => t.endKilled uid b))
    else if s.blockDone uid b then .next (s.removeBlock uid b)
    else .next s

/-- HANDLER_WATCHDOG (R340, R354): a handler that has not issued a completing TRET within HWDOG ends the grid. -/
def execHandlerWatchdog (k : Nat) (s : State) : Host.Outcome State Fault Refusal :=
  match s.ctx k with
  | none => .next s
  | some c =>
    if !c.x.ended && !c.b.killed && c.x.priv == 1
        && s.chipRuns c.b.vf
        && decide (c.x.enteredAt + (s.chip c.b.vf).hwdog.toNat * 2500 ≤ s.now) then
      .next (c.endGridAt c.x.last .watchdog true)
    else .next s

end Sys2Proof.Machine
end

