-- ==== Sys2Proof/Machine/Preempt.lean ====
section
/-! DEFINITION. Time-sliced virtual chips (R360–R368): cuts, commits, rollback, time slices; and migration images (R369, R370). -/

namespace Sys2Proof.Machine

/-! ### Cuts (R362, R364) -/

/-- The slices of a virtual chip. -/
def State.slicesIn (s : State) (v : Nat) : List (Nat × Slice) :=
  s.slices.filter (fun e => match Table.find s.blocks (keyBlock e.1) with
    | none => false
    | some b => b.vf == v)

/-- Whether a checkpoint is due (R364, R366, R367): the interval has elapsed, the undo log is full, an outside access waits, or
a word forces one. -/
def State.checkpointDue (s : State) (v : Nat) : Bool :=
  let c := s.chip v
  decide (c.lastCommit + c.interval * 2500 ≤ s.now) || decide (Config.undoCapacity ≤ c.undo.length) || c.outsideWait
    || !c.forcing.isEmpty

/-- A slice at the cut waits as though a WAIT with every threshold 0 stood before its next word (R362): its held writes are
performed, and one that was dropped is reported at its next word. -/
def State.cutSlice (s : State) (k : Nat) : State :=
  (s.drain k).modSlice k (fun x => { x with dropDue := x.dropDue || !x.dropped.isEmpty })

/-- CHECKPOINT (R362, R364): the cut of a running time-sliced chip begins to form. -/
def execCheckpoint (f : Fin 64) (s : State) : Host.Outcome State Fault Refusal :=
  if s.timeSliced f.val && s.mayRun f.val && s.checkpointDue f.val then
    .next ((s.slicesIn f.val).foldl (fun t e => t.cutSlice e.1) (s.modChip f.val (fun c => { c with cut := true })))
  else .next s

/-- A full-empty load with a lane that waits on an empty granule, which is detached at a cut (R362). -/
def MemOp.detached (o : MemOp) : Bool := feWaits o.kind.fe && o.lanes.any (fun a => a.waited && a.got.isNone)
/-- The commands of a slice that stand in the queues of its core (R275). -/
def State.commandsOf (s : State) (k core : Nat) : Nat :=
  (((s.core core).cmdq ++ (s.core core).copyq).filter (fun c => c.attached && c.slice == k)).length
/-- A slice's counters as its commands and waiting full-empty loads are detached (R275, R362), with results waited for. -/
def Slice.detach (x : Slice) (commands : Nat) : Slice :=
  { x with
    cnt := { x.cnt with
      en := x.cnt.en - BitVec.ofNat 6 commands, ld := x.cnt.ld - BitVec.ofNat 6 (x.ops.filter (fun o => o.detached)).length }
    stale := [] }

/-- Whether a command of the copy queue stands at a command boundary, where it may be detached (R275): the pump alone saves a command
between its steps. -/
def Cmd.atBoundary (c : Cmd) : Bool := c.next == 0 && c.late.isEmpty
/-- Whether the cut of a chip is complete (R115, R362): every counter of every slice is zero, its commands, which stand at their boundaries,
and waiting full-empty loads detached. -/
def State.cutFormed (s : State) (v : Nat) : Bool :=
  (s.slicesIn v).all (fun e =>
    let core := ((Table.find s.blocks (keyBlock e.1)).map (fun b => b.core)).getD 160
    e.2.ops.all (fun o => o.detached) && (e.2.detach (s.commandsOf e.1 core)).cnt == Counters.zero
      && (s.core core).copyq.all (fun c => c.slice != e.1 || c.atBoundary))
/-- A slice of a formed cut has waited as at a WAIT with every threshold 0 (R362): it knows what has completed, and reads no older value of a
completion result. -/
def State.waitedAll (s : State) (k : Nat) : State := (s.waited k 0 0).modSlice k (fun x => { x with stale := [] })

/-! ### Commits (R361, R363, R367) -/

/-- The words that force a checkpoint, executed for their slice after the cut (R367). -/
def runForcing (i : Instr) (s : State) : State :=
  let r : Host.Outcome State Fault Refusal :=
    match i with
    | .fsend c d a b => execFsend c d a b s
    | .fsendLaunch c d a b => execFsendLaunch c d a b s
    | .frecv c d a b => execFrecv c d a b s
    | .podst c m sz d => execPodst c m sz d s
    | .podred c m sz rop d => execPodred c m sz rop d s
    | .evpost c scope d a b => execEvpost c scope d a b s
    | .qenq c d a b => execQenq c d a b s
    | .vst c m fe sz el d => execVst c m fe sz el d s
    | .sst c m fe sz el d => execSst c m fe sz el d s
    | .atadd c m sz rv d => execAtadd c m sz rv d s
    | .atmin c m sz rv d => execAtmin c m sz rv d s
    | .atminn c m sz rv d => execAtminn c m sz rv d s
    | .atmax c m sz rv d => execAtmax c m sz rv d s
    | .atmaxn c m sz rv d => execAtmaxn c m sz rv d s
    | .atand c m sz rv d => execAtand c m sz rv d s
    | .ator c m sz rv d => execAtor c m sz rv d s
    | .atxor c m sz rv d => execAtxor c m sz rv d s
    | .atxchg c m sz rv d => execAtxchg c m sz rv d s
    | .atcas c m sz d => execAtcas c m sz d s
    | .atfadd c m rv d => execAtfadd c m rv d s
    | .atbadd2 c m rv d => execAtbadd2 c m rv d s
    | .wdget c a b => execWdget c a b s
    | _ => .next s
  match r with
  | .next t => t
  | _ => s

/-- A slice held at a forcing word goes on (R367): its word becomes an operation bound to the checkpoint, with the slice behind
it; a COLL meeting completes. A word that traps instead has used the checkpoint up. -/
def State.passForcing (s : State) (k : Nat) (word : Word64) : State :=
  match Table.find s.slices k with
  | none => s
  | some x =>
    let s1 := s.modSlice k (fun x => { x with forcedOk := true })
    let used (t : State) : State := t.modSlice k (fun x => { x with forcedOk := false })
    match x.hold with
    | .coll => used (s1.checkMeet (keyBlock k))
    | .forced =>
      used (runForcing (instrOf word) { s1.modSlice k (fun x => { x with hold := .none, last := x.pc }) with cur := k, ir := word })
    | _ => s

/-- The context image of a chip as it stands (R361): its commands and waiting full-empty loads are detached (R275, R362). What its slices'
counters then hold is the outside operations bound to it (R367). -/
def State.image (s : State) (v : Nat) : Image :=
  let c := s.chip v
  let cs := (s.coresOf v).filter (fun k => s.blocks.any (fun e => e.2.vf == v && e.2.core == k))
  { slices := (s.slicesIn v).map (fun e =>
      (e.1, e.2.detach (s.commandsOf e.1 (((Table.find s.blocks (keyBlock e.1)).map (fun b => b.core)).getD 160))))
    blocks := s.blocks.filter (fun e => e.2.vf == v)
    cores := cs.map (fun k =>
      let x := (s.core k).endStream (s.pick 90001 (256 - (s.core k).active + 1))
      (k, { acc := x.acc, accPoison := x.accPoison, stationary := x.stationary, shadow := x.shadow
            cmdq := x.cmdq.map (fun c => { c with attached := false }), copyq := x.copyq.map (fun c => { c with attached := false })
            govst := x.govst, actBufs := x.actBufs, actSel := x.actSel, mxOwner := x.mxOwner
            actOwner := x.actOwner }))
    grids := s.grids.filter (fun e => match e.2.home with
      | .vf f _ => f.val == v
      | .steward _ => false)
    queues := c.queues
    wells := c.wells
    groups := c.groups
    colls := c.colls
    collCount := c.collCount
    tfbase := c.tfbase
    hwdog := c.hwdog
    ctbase := c.ctbase }

/-- The commit of a checkpoint (R363): CKSEQ rises, the undo log is emptied, a new interval begins. -/
def State.commitNow (s : State) (v : Nat) : State :=
  let i := s.image v
  s.modChip v (fun c =>
    { c with
      committed := some i, ckseq := c.ckseq + 1, undo := [], lastCommit := s.now, outsideWait := false, cut := false
      forcing := [] })

/-- CHECKPOINT_COMMIT (R363, R367): once the cut is complete. -/
def execCheckpointCommit (f : Fin 64) (s : State) : Host.Outcome State Fault Refusal :=
  if s.timeSliced f.val && s.chipRuns f.val && (s.chip f.val).cut && s.cutFormed f.val then
    let s0 := (s.slicesIn f.val).foldl (fun t e => t.waitedAll e.1) s
    let t := (s.chip f.val).forcing.foldl (fun t e => t.passForcing e.1 e.2) s0
    .next (t.commitNow f.val)
  else .next s

/-! ### Rollback (R365) -/

/-- Undoes one captured line. -/
def State.undoOne (s : State) (u : UndoLine) : State :=
  { s with
    mem := Memory.put s.mem (u.line * 128) u.old
    lineKey := Sparse.set none s.lineKey u.line u.key
    poison := Sparse.set false s.poison u.line u.poison
    past := s.past.filter (fun w => !w.loc.inBytes (u.line * 128) 128) }

/-- A place on a chip that is not in memory. -/
def State.onChip (s : State) (v : Nat) : Loc → Bool
  | .mem _ => false
  | .scratch u _ | .reg u _ | .tdesc u _ => match Table.find s.blocks u with
    | none => false
    | some b => b.vf == v
  | .well f _ | .words f _ _ => f == v
/-- Takes a chip's blocks off its cores: commands and reservations go, and every other on-chip state with them, what its cores had fetched
and translated and the older values that its places might still show (R365). -/
def State.clearCores (s : State) (v : Nat) : State :=
  let t := (s.blocks.filter (fun e => e.2.vf == v)).foldl (fun t e => t.modCore e.2.core (fun c => c.leave e.1 e.2)) s
  let u := (s.coresOf v).foldl (fun t n => t.modCore n (fun c => { c with icache := [], tlb := [] })) t
  (s.diesOf v).foldl (fun t d => t.modDie d (fun x => { x with tlb := x.tlb.filter (fun e => e.vmid != v) }))
    { u with past := u.past.filter (fun w => !s.onChip v w.loc) }

/-- Replaces a chip's slices, blocks and grids. -/
def State.putContext (s : State) (v : Nat) (i : Image) : State :=
  let mine (e : Nat × Grid) : Bool := match e.2.home with
    | .vf f _ => f.val == v
    | .steward _ => false
  let keep := s.slices.filter (fun e => match Table.find s.blocks (keyBlock e.1) with
    | none => true
    | some b => b.vf != v)
  { s with
    slices := i.slices.foldl (fun (t : Table Slice) (e : Nat × Slice) => Table.put t e.1 e.2) keep
    blocks := i.blocks.foldl (fun (t : Table Block) (e : Nat × Block) => Table.put t e.1 e.2)
      (s.blocks.filter (fun e => e.2.vf != v))
    grids := i.grids.foldl (fun (t : Table Grid) (e : Nat × Grid) => Table.put t e.1 e.2)
      (s.grids.filter (fun e => !mine e)) }

/-- The chip as its committed image holds it (R365). -/
def Chip.restore (c : Chip) (i : Image) : Chip :=
  { c with
    queues := i.queues, wells := i.wells, groups := i.groups, colls := i.colls, collCount := i.collCount
    tfbase := i.tfbase, hwdog := i.hwdog, ctbase := i.ctbase
    running := false, cut := false, forcing := [], undo := [], outsideWait := false }

/-- ROLLBACK (R365): the time slice ends. The chip's state is its committed image and its memory; operations bound to the image
go on. After a thermal shutdown no time slice ends: the grids that it has stopped stay ended (R435). -/
def execRollback (f : Fin 64) (s : State) : Host.Outcome State Fault Refusal :=
  if s.timeSliced f.val && s.chipRuns f.val && !s.dev.shutdown then
    let s1 := (s.chip f.val).undo.foldl (fun t u => t.undoOne u) (s.clearCores f.val)
    match (s.chip f.val).committed with
    | none => .next (s1.modChip f.val (fun c => { c with running := false, cut := false, forcing := [], undo := [] }))
    | some i => .next ((s1.putContext f.val i).modChip f.val (fun c => c.restore i))
  else .next s

/-! ### Time slices (R341, R360, R365, R401) -/

/-- Whether every result bound to the committed image has been written (R367). -/
def State.outsideDone (s : State) (v : Nat) : Bool :=
  (s.slicesIn v).all (fun e => e.2.ops.all (fun o => !o.outside)) && (s.chip v).colls.isEmpty
    && s.grids.all (fun e => match e.2.home with
      | .vf f _ => f.val != v || e.2.forcedAt.isNone
      | .steward _ => true)

/-- A block with the placement of its resumption. -/
def Block.move (b : Block) (p : Placement) : Block :=
  { b with
    core := p.core
    scratchAt := p.scratchAt
    squads := ((List.range b.squads.length).zip b.squads).map (fun e =>
      { e.2 with vbase := p.vbases.getD e.1 0, slot := p.slots.getD e.1 0 }) }

/-- Whether a block holds a slice at handler level. -/
def State.inHandler (s : State) (uid : Nat) : Bool := (s.slicesOf uid).any (fun e => !e.2.ended && e.2.priv == 1)

/-- A detached command as it is attached again (R275); it may be performed at once. -/
def Cmd.again (c : Cmd) : Cmd := { c with attached := true, at_ := 0 }
/-- What a core holds for a block again: its reservations, and its commands in their order, attached to their slices (R275, R361); a block
that the core held nothing for yet takes its reservations as at its start. -/
def Core.resume (c : Core) (uid : Nat) (b : Block) (x : CoreCtx) : Core :=
  let c1 := { c with
    cmdq := c.cmdq ++ (x.cmdq.filter (fun k : Cmd => k.block == uid)).map Cmd.again
    copyq := c.copyq ++ (x.copyq.filter (fun k : Cmd => k.block == uid)).map Cmd.again }
  let c2 := if b.mxRes && x.mxOwner == some uid then
      { c1 with
        mxOwner := some uid, acc := x.acc, accPoison := x.accPoison, stationary := x.stationary, shadow := x.shadow
        govst := x.govst, streamed := 0, blocked := false }
    else c1.take uid { b with actRes := false }
  if b.actRes then
    if x.actOwner == some uid then { c2 with actOwner := some uid, actBufs := x.actBufs, actSel := x.actSel }
    else c2.take uid { b with mxRes := false }
  else c2

/-- Resumes one block at a place, or not at all (R341, R361): a block with a slice at handler level needs a core with its
COREID, and its own slots. -/
def State.resumeBlock (s : State) (v : Nat) (i : Image) (e : Nat × Placement) : Option State :=
  match Table.find s.blocks e.1, Table.find i.blocks e.1 with
  | some b, some b0 =>
    match Table.find s.grids b.gid with
    | none => none
    | some g =>
      let n := b.move e.2
      let same := s.coreId v e.2.core == s.coreId v b0.core && n.squads.map (fun q => q.slot) == b0.squads.map (fun q => q.slot)
      let rest := { s with blocks := Table.del s.blocks e.1 }
      if (s.chipClusters g v).contains (coreCluster e.2.core) && rest.placeOk g n e.2 && (same || !s.inHandler e.1) then
        some (({ s with blocks := Table.put s.blocks e.1 n }).modCore e.2.core (fun c =>
          match Table.find i.cores b0.core with
          | none => c.take e.1 n
          | some x => c.resume e.1 n x))
      else none
  | _, _ => none

/-- Resumes every block, or none. -/
def State.resumeAll (s : State) (v : Nat) (i : Image) : List (Nat × Placement) → Option State
  | [] => some s
  | e :: es =>
    match s.resumeBlock v i e with
    | none => none
    | some t => State.resumeAll t v i es

/-- A slice as its chip resumes: its detached commands and full-empty loads count again (R275, R362), and its handler's time goes on from
where the commit left it (R340; log entry 88). -/
def State.attach (s : State) (commit k : Nat) (x : Slice) : Slice :=
  let n := match Table.find s.blocks (keyBlock k) with
    | none => 0
    | some b => s.commandsOf k b.core
  { x with
    cnt := { Counters.zero with en := BitVec.ofNat 6 n, ld := BitVec.ofNat 6 (x.ops.filter (fun o => o.detached)).length }
    stale := [], enteredAt := x.enteredAt + (s.now - commit) }
/-- Every slice of a chip as it resumes. -/
def State.attachAll (s : State) (v : Nat) : State :=
  (s.slicesIn v).foldl (fun t e => t.modSlice e.1 (fun x => s.attach (s.chip v).lastCommit e.1 x)) s

/-- Blocks stand nowhere while their chip is off its cores. -/
def State.unplace (s : State) (v : Nat) : State :=
  { s with blocks := s.blocks.map (fun e => if e.2.vf = v then (e.1, { e.2 with core := 160 }) else e) }

/-- The virtual chips of a function's pod, as its chip table holds them (R370, R403). -/
def State.podSize (s : State) (v : Nat) : Nat := (s.podMembers v).length

/-- TIME_SLICE_START (R360, R364, R365, R401): the chip resumes from its committed image, with its blocks placed afresh, and its
pending events are appended; a migrated image only where the pod has as many chips as on the machine it was saved on (R370). A chip's first
slice commits its first checkpoint. -/
def execTimeSliceStart (f : Fin 64) (places : List (Nat × Placement)) (s : State) : Host.Outcome State Fault Refusal :=
  let v := f.val
  if s.timeSliced v && fld (s.frec v) 0 0 == 1 && !s.chipRuns v && !(s.chip v).migrating && !s.dev.shutdown
      && !s.quiesced v && s.outsideDone v && (s.chip v).shape.all (fun n => n == s.podSize v) then
    let s1 := s.modChip v (fun c => { c with running := true })
    match (s.chip v).committed with
    | none => .next ((s1.commitNow v).flushPending f)
    | some i =>
      let mine := s.blocks.filter (fun e => e.2.vf == v)
      if mine.all (fun e => (places.filter (fun p => p.1 == e.1)).length == 1) && places.length == mine.length then
        match (s1.unplace v).resumeAll v i places with
        | none => .next s
        | some t => .next ((t.attachAll v).flushPending f)
      else .next s
  else .next s

/-! ### Migration (R369, R370) -/

/-- The pages that a function's stage-2 tables map: intermediate address, physical address, size. Words that hold no byte but 0 map none. -/
def State.leaves (s : State) : List Nat → Nat → Nat → List (Nat × Nat × Nat)
  | [], _, _ => []
  | l :: ls, base, ipa =>
    (((s.mem.filter (fun c => decide (base ≤ c.1) && decide (c.1 < base + 8 * 2 ^ levelBits l))).map (fun c => (c.1 - base) / 8)).eraseDups).flatMap (fun i =>
      let a := ipa + i * 2 ^ levelShift l
      match parsePte l (leNat (s.readRaw (base + 8 * i) 8)) with
      | some (.table oa) => State.leaves s ls oa a
      | some (.leaf oa _ _ _ _) => [(a, oa, 2 ^ levelShift l)]
      | none => [])

/-- Whether an ASID table entry is live: a malformed one is as if it were not there (R11, R350). -/
def asidValid (e : BitVec 128) : Bool := (parseAsid e).isSome
/-- VMID. -/
def asidVmid (e : BitVec 128) : Nat := fld e 11 6
/-- The stage-2 root of a function: that of the live entries of its VMID. -/
def State.rootOf (s : State) (v : Nat) : Option Nat :=
  (s.dev.asids.find? (fun e => asidValid e.2 && asidVmid e.2 == v)).map (fun e => fld e.2 127 64)
/-- The memory share of a function (R396): its stage-2 pages outside host memory. -/
def State.share (s : State) (v : Nat) : List (Nat × Nat × Nat) :=
  match s.rootOf v with
  | none => []
  | some root2 => (s.leaves [0, 1, 2, 3] root2 0).filter (fun e => !Config.isHostMemory (lineOf e.2.1))

/-- The bytes of a function's memory by intermediate address. -/
def State.shareBytes (s : State) (v : Nat) : List (Nat × Byte) :=
  (s.share v).flatMap (fun e =>
    (s.mem.filter (fun c => decide (e.2.1 ≤ c.1) && decide (c.1 < e.2.1 + e.2.2))).map (fun c =>
      (e.1 + (c.1 - e.2.1), s.readByte (s.keyTag v) c.1)))

/-- Zero-fills the physical bytes that a test of an address and a length gives: their lines lose their key and poison. -/
def State.zeroFill (s : State) (inside : Nat → Nat → Bool) : State :=
  { s with
    mem := s.mem.filter (fun c => !inside c.1 1)
    poison := s.poison.filter (fun p => !inside (p.1 * 128) 128)
    lineKey := s.lineKey.filter (fun p => !inside (p.1 * 128) 128)
    past := s.past.filter (fun w => match w.loc with
      | .mem a => !inside (a / 128 * 128) 128
      | _ => true) }

/-- Zero-fills a function's memory share (R396, R398). -/
def State.scrubShare (s : State) (v : Nat) : State :=
  s.zeroFill (fun a n => (s.share v).any (fun e => decide (e.2.1 < a + n) && decide (a < e.2.1 + e.2.2)))

/-- Writes bytes by intermediate address into a function's memory. -/
def State.loadShare (s : State) (v : Nat) (bs : List (Nat × Byte)) : State :=
  let pages := s.share v
  bs.foldl (fun t b =>
    match pages.find? (fun e => decide (e.1 ≤ b.1) && decide (b.1 < e.1 + e.2.2)) with
    | none => t
    | some e => t.writePhys (some v) true (e.2.1 + (b.1 - e.1)) [b.2]) s

/-- The compatibility key of the module (R369, R434; log entry 44). -/
def State.compat (s : State) : BitVec 384 :=
  Sha.digest (leBytes 1 0xA1 ++ Sha.digestBytes s.dev.fwMeas ++ leBytes 4 Config.unitVersion.toNat)

/-- The number of cluster sets of a function. -/
def State.setCount (s : State) (v : Nat) : Nat :=
  ((List.range 4).filter (fun i => bits (s.frec v).toNat (176 + 20 * i) 20 != 0)).length
/-- The layout byte of the module (R389, R390). -/
def State.layout (s : State) : Nat := fld (s.die 0).partcfg 39 32

/-- Whether a chip's state is wholly in memory (R369): rolled back, or every queue pre-empted. -/
def State.atRest (s : State) (v : Nat) : Bool :=
  if s.timeSliced v then !s.chipRuns v && (s.chip v).committed.isSome && s.outsideDone v
  else
    s.blocks.all (fun e => e.2.vf != v)
      && (s.chip v).queues.all (fun e => match e.2.state with
        | .idle | .running => false
        | _ => true)
      && s.grids.all (fun e => match e.2.home with
        | .vf f _ => f.val != v || e.2.waits
        | .steward _ => true)

/-- MIGRATION_IMAGE (R369): the management complex builds an image, in which LENGTH is a free value. -/
def execMigrationImage (f : Fin 64) (s : State) : Host.Outcome State Fault Refusal :=
  let v := f.val
  let c := s.chip v
  if s.atRest v && fld (s.frec v) 0 0 == 1 && !c.migrating && !s.quiesced v then
    let body := c.committed.getD (s.image v)
    let len := 128 + (Config.free s.fresh 97000).toNat % 2 ^ 56
    let header := BitVec.ofNat 1024
      (0x47494D4B + 2 ^ 32 + len * 2 ^ 64 + s.compat.toNat * 2 ^ 128 + (if s.timeSliced v then c.ckseq.toNat else 0) * 2 ^ 512)
    let m : MigImage :=
      { header := header, intact := true, src := v, layout := s.layout, sets := s.setCount v, chips := s.podSize v, commitAt := c.lastCommit
        body := body
        mem := s.shareBytes v, gen := c.log.gen, pending := c.pending, recipes := c.images, linkKeys := c.linkKeys
        signKeys := c.signKeys, acceptCount := c.acceptCount, sendCount := c.sendCount, kernels := c.kernels, kmeas := c.kmeas }
    .next ((s.modChip v (fun c => { c with migrating := true })).modDev (fun d => { d with images := d.images ++ [m] }))
  else .next s

/-- A migration image's header is well formed (R369). -/
def migHeaderOk (h : BitVec 1024) : Bool :=
  fld h 31 0 == 0x47494D4B && fld h 63 32 == 1 && fld h 1023 576 == 0 && decide (128 ≤ fld h 127 64)

/-- The image with its blocks and grids under new running numbers, and its blocks at the cores of the destination with the
same COREID. -/
def Image.renumber (i : Image) (u g : Nat) (core : Nat → Nat) (home : QRef → QRef) : Image :=
  let key (k : Nat) : Nat := k + u * 256
  let cmd (c : Cmd) : Cmd := { c with slice := key c.slice, block := c.block + u }
  { i with
    slices := i.slices.map (fun e => (key e.1, e.2))
    blocks := i.blocks.map (fun e => (e.1 + u, { e.2 with
      gid := e.2.gid + g, core := core e.2.core
      squads := e.2.squads.map (fun q => { q with insts := q.insts.map (fun n => { n with
        members := n.members.map (fun m => { m with slice := key m.slice }) }) })
      bars := e.2.bars.map (fun x => (x.1, x.2.map (fun a => { a with slice := key a.slice })))
      meet := e.2.meet.map (fun a => { a with slice := key a.slice })
      splice := e.2.splice.map (fun sb => { sb with arrived := sb.arrived.map key }) }))
    cores := i.cores.map (fun e => (core e.1, { e.2 with
      cmdq := e.2.cmdq.map cmd, copyq := e.2.copyq.map cmd
      mxOwner := e.2.mxOwner.map (fun x => x + u), actOwner := e.2.actOwner.map (fun x => x + u) }))
    grids := i.grids.map (fun e => (e.1 + g, { e.2 with
      home := home e.2.home, producer := e.2.producer.map (fun x => x + g) }))
    queues := i.queues.map (fun e => (e.1, { e.2 with pkts := e.2.pkts.map (fun x => x + g) }))
    colls := i.colls.map (fun k => { k with block := k.block + u, slices := k.slices.map key }) }

/-- The image as a function of this module takes it. -/
def State.adopt (s : State) (f : Fin 64) (m : MigImage) : Image :=
  let home (h : QRef) : QRef := match h with
    | .vf _ q => .vf f q
    | h => h
  let i := m.body.renumber s.dev.nextUid s.dev.nextGid
    (fun c => (s.coresOf f.val).getD (s.coreId m.src c) 160) home
  { i with
    slices := i.slices.map (fun e => (e.1, { e.2 with enteredAt := s.now - (m.commitAt - e.2.enteredAt) }))
    blocks := i.blocks.map (fun e => (e.1, { e.2 with vf := f.val }))
    grids := i.grids.map (fun e => (e.1, { e.2 with ctx := f.val })) }

/-- Whether the blocks of an image may stand on an exclusive function's cores at once: no core that takes no block (R435, R436). -/
def State.coresTake (s : State) (i : Image) : Bool :=
  i.blocks.all (fun e => match Table.find i.grids e.2.gid with
    | none => false
    | some g => s.coreOpen g e.2.core)

/-- Whether a function can take an image (R370): a valid function without packets or blocks, on a machine of the same shape, and in RUN where
the image holds keys (R406). A function whose chip table is still to be written may take a time-sliced chip, which then waits for a pod of its
shape (R428; log entry 89). After a thermal shutdown no chip is taken (R435). -/
def State.canAccept (s : State) (f : Fin 64) (m : MigImage) : Bool :=
  let v := f.val
  fld (s.frec v) 0 0 == 1 && s.blocks.all (fun e => e.2.vf != v) && !(s.timeSliced v && s.chipRuns v)
    && m.layout == s.layout && m.sets == s.setCount v && (m.chips == s.podSize v || (s.timeSliced v && s.podSize v == 1))
    && !s.quiesced v && ((m.linkKeys.isEmpty && m.signKeys.isEmpty) || (s.chip v).tdisp == .run)
    && !s.dev.shutdown && (s.timeSliced v || s.coresTake (s.adopt f m))

/-- The cores of an exclusive function hold what an accepted image holds for its blocks, and the chip goes on as after a rollback (R365,
R370). -/
def State.resumeHere (s : State) (f : Fin 64) (i : Image) : State :=
  ((i.blocks.foldl (fun (t : State) (e : Nat × Block) => t.modCore e.2.core (fun c =>
    match Table.find i.cores e.2.core with
    | none => c.take e.1 e.2
    | some x => c.resume e.1 e.2 x)) s).attachAll f.val).flushPending f

/-- MIGRATION_ACCEPT (R370, R399): the destination compares COMPAT first, then rejects a malformed or corrupt image whole; an
accepted image resumes as from a rollback. -/
def execMigrationAccept (f : Fin 64) (image : Nat) (s : State) : Host.Outcome State Fault Refusal :=
  match s.dev.images[image]? with
  | none => .next s
  | some m =>
    let v := f.val
    if fld m.header 511 128 ≠ s.compat.toNat then
      .next (s.modChip m.src (fun c => { c with migrating := false }))
    else if !(migHeaderOk m.header && m.intact && s.canAccept f m) then .next s
    else
      let i := s.adopt f m
      let maxKey (l : List Nat) : Nat := l.foldl max 0
      let s1 := ((s.scrubShare v).loadShare v m.mem).putContext v i
      let s2 := s1.modChip v (fun c =>
        { (c.restore i) with
          committed := if s.timeSliced v then some i else none, lastCommit := s.now
          ckseq := BitVec.ofNat 64 (fld m.header 575 512)
          log := { c.log with gen := m.gen }, pending := m.pending, images := m.recipes, linkKeys := m.linkKeys
          signKeys := m.signKeys, acceptCount := m.acceptCount, sendCount := m.sendCount, kernels := m.kernels
          kmeas := m.kmeas, migrating := false, shape := if s.timeSliced v then some m.chips else none })
      let s3 := if s.timeSliced v then s2 else s2.resumeHere f i
      .next (s3.modDev (fun d =>
        { d with
          nextUid := maxKey (i.blocks.map (fun e => e.1 + 1) ++ [d.nextUid])
          nextGid := maxKey (i.grids.map (fun e => e.1 + 1) ++ [d.nextGid]) }))

end Sys2Proof.Machine
end

