-- ==== Sys2Proof/Machine/Partition.lean ====
section
/-! DEFINITION. What the management complexes write (R350, R379, R380, R385, R395, R396), layout commits (R389–R394),
function-level reset (R398), and the Windlass (R403–R405). -/

namespace Sys2Proof.Machine

/-! ### Layouts (R389, R390) -/

/-- The partition number that a layout byte gives a die. -/
def layoutPart (l : BitVec 8) (d : Nat) : Nat := bits l.toNat (2 * d) 2
/-- The dies of a partition of a layout. -/
def layoutDies (l : BitVec 8) (p : Nat) : List Nat := (List.range 4).filter (fun d => layoutPart l d == p)
/-- The dies that the bridges 0–3 join. -/
def bridgeEnds : List (Nat × Nat) := [(0, 1), (1, 3), (3, 2), (2, 0)]
/-- A set of dies that may be a partition: one die, two joined by a bridge, or all four. -/
def partitionOk (ds : List Nat) : Bool :=
  ds.length == 1 || ds.length == 4
    || (ds.length == 2 && bridgeEnds.any (fun b => ds.contains b.1 && ds.contains b.2))
/-- A valid layout byte: a partition's number is its lowest die. -/
def layoutOk (l : BitVec 8) : Bool :=
  (List.range 4).all (fun d =>
    let ds := layoutDies l (layoutPart l d)
    ds.headD 4 == layoutPart l d && partitionOk ds)
/-- PARTCFG of a die under a layout (R390). -/
def partcfgOf (l : BitVec 8) (d : Nat) : Word64 :=
  let pd := (layoutDies l (layoutPart l d)).foldl (fun n x => n + 2 ^ x) 0
  let br := (List.range 4).foldl (fun n i =>
    let b := bridgeEnds.getD i (0, 0)
    n + bitOf (layoutPart l b.1 == layoutPart l b.2) * 2 ^ i) 0
  BitVec.ofNat 64 (l.toNat * 2 ^ 32 + pd * 2 ^ 12 + br * 2 ^ 8)
/-- The dies of a die's partition, from its PARTCFG. -/
def State.partDies (s : State) (d : Nat) : List Nat := (List.range 4).filter (fun x => testBit (s.die d).partcfg.toNat (12 + x))
/-- The partition number of a die in the layout in force. -/
def State.partOf (s : State) (d : Nat) : Nat := bits (s.die d).partcfg.toNat (32 + 2 * d) 2

/-! ### TDISP ERROR (R406) -/

/-- Whether a function's configuration is frozen. -/
def State.frozen (s : State) (f : Nat) : Bool :=
  match (s.chip f).tdisp with
  | .locked | .run => true
  | _ => false
/-- A change to frozen configuration: the interface enters ERROR and its queues become DISABLED. -/
def State.enterError (s : State) (f : Fin 64) : State :=
  ((s.chip f.val).queues.foldl (fun t e =>
    t.fromOutside f.val (fun u => u.destroyQueue f ⟨e.1 % 64, Nat.mod_lt _ (by decide)⟩)) s).modChip f.val (fun c =>
      { c with tdisp := .error })

/-! ### Bind records (R379, R380) -/

/-- Whether another valid record in the partition, in force or waiting, names the same VF and QUEUE. -/
def State.boundElsewhere (s : State) (die i : Nat) (r : BitVec 128) : Bool :=
  (s.partDies die).any (fun d => ((s.die d).slots ++ (s.die d).slotsNext).any (fun e =>
    !(d == die && e.1 == i) && bindValid e.2 && bindVf e.2 == bindVf r && bindQueue e.2 == bindQueue r))
/-- Whether the slot table refuses a record. -/
def State.bindRefused (s : State) (die i : Nat) (r : BitVec 128) : Bool :=
  let grace := fld r 87 68
  bindValid r
    && (fld r 127 120 != 0 || fld r 36 33 != 0 || fld r 29 18 != 0 || fld r 5 1 != 0
      || (bindClusters r).isEmpty || (bindClusters r).any (fun g => !(s.clusters (bindVf r)).contains g)
      || fld r 47 40 == 0 || (grace != 0 && (decide (grace < 100) || decide (1000000 < grace)))
      || decide (1000000 < fld r 67 48)
      || s.boundElsewhere die i r)

/-- BIND_RECORD_WRITE (R379, R380): a change for a queue with a packet not DONE waits for it, and an invalidation acts as a
pre-emption request until then; it takes effect as soon as that request has completed (R355). -/
def execBindRecordWrite (die : Fin 4) (i : Fin 256) (r : BitVec 128) (s : State) : Host.Outcome State Fault Refusal :=
  let old := Table.getD (s.die die.val).slots i.val 0
  let w := bindTarget old r
  if s.bindRefused die.val i.val r then .next s
  else if s.bindFree w.1 w.2 || !(bindValid old || bindValid r) then .next (s.applyBind die.val i.val r)
  else
    let s1 := s.modDie die.val (fun x => { x with slotsNext := Table.put x.slotsNext i.val r })
    .next (if bindValid old && !bindValid r then
        (s1.fromOutside w.1.val (fun t => t.preemptQueue w.1 w.2)).applyPending w.1 w.2
      else s1)

/-! ### Function records (R395, R396) -/

/-- The bits of a function record that are not reserved. -/
def frecMask : Nat := (2 ^ 80 - 1) * 2 ^ 176 + (2 ^ 32 - 1) * 2 ^ 112 + 7 * 2 ^ 64 + 3
/-- Cluster set i of a record, as a mask. -/
def recSet (r : BitVec 256) (i : Nat) : Nat := bits r.toNat (176 + 20 * i) 20
/-- The clusters of a record. -/
def recClusters (r : BitVec 256) : List Nat := (List.range 20).filter (fun g => (List.range 4).any (fun i => testBit (recSet r i) g))
/-- Whether a record with VALID = 1 keeps to R396: sets from CSET0 upwards, disjoint, in its partition; clusters of its own,
or shared among time-sliced functions. -/
def State.frecKeeps (s : State) (f : Nat) (r : BitVec 256) : Bool :=
  let sets := (List.range 4).map (recSet r)
  let part := fld r 115 112
  sets.headD 0 != 0
    && (List.range 3).all (fun i => sets.getD i 0 != 0 || sets.getD (i + 1) 0 == 0)
    && (List.range 20).all (fun g => decide ((sets.filter (fun m => testBit m g)).length ≤ 1))
    && decide (part < 4) && s.partOf part == part
    && (recClusters r).all (fun g => s.partOf (g / 5) == part)
    && (List.range 64).all (fun v => v == f || fld (s.frec v) 0 0 == 0
      || (fld r 1 1 == 1 && fld (s.frec v) 1 1 == 1) || (s.clusters v).all (fun g => !(recClusters r).contains g))

/-- A core is scrubbed when its cluster passes to another function (R396); faults found in it stay. -/
def Core.scrub (c : Core) : Core :=
  { c with
    acc := [], accPoison := [], stationary := Plane.empty, shadow := Plane.empty
    actBufs := Vector.replicate 2 ⟨false, 0, []⟩, actSel := false }

/-- FUNCTION_RECORD_WRITE (R395, R396, R406): die 0's policy core writes no record that breaks R396 (log entry 46). -/
def execFunctionRecordWrite (f : Fin 64) (r : BitVec 256) (s : State) : Host.Outcome State Fault Refusal :=
  let new := BitVec.ofNat 256 (r.toNat &&& frecMask)
  if fld new 0 0 = 1 ∧ s.frecKeeps f.val new = false then .next s
  else if s.frozen f.val = true ∧ new ≠ s.frec f.val then .next (s.enterError f)
  else
    let fresh := (recClusters new).filter (fun g => !(s.clusters f.val).contains g)
    let cores := (fresh.flatMap (fun g => (List.range 8).map (fun c => g * 8 + c))).filter (fun c => (s.onCore c).isEmpty)
    .next ((cores.foldl (fun t c => t.modCore c Core.scrub) s).modDev (fun d => { d with frec := Table.put d.frec f.val new }))

/-! ### Launch and ASID tables (R385, R350) -/

/-- LAUNCH_TABLE_WRITE (R385). -/
def execLaunchTableWrite (f : Fin 64) (i : Fin 64) (r : BitVec 128) (s : State) : Host.Outcome State Fault Refusal :=
  .next (s.modChip f.val (fun c =>
    { c with launchTab := Table.put c.launchTab i.val (BitVec.ofNat 128 (r.toNat % 2 ^ 44)) }))

/-- Whether writing an entry changes the stage-2 roots of a function. -/
def State.rootChange (s : State) (old new : BitVec 128) (v : Nat) : Bool :=
  let names (e : BitVec 128) : Bool := asidValid e && asidVmid e == v
  (names old && !(names new && fld new 127 64 == fld old 127 64))
    || (names new && !names old && (match s.rootOf v with
      | none => false
      | some x => x != fld new 127 64))

/-- The pages outside host memory that an entry's stage-2 tables map: physical address and size (R396). -/
def State.entryPages (s : State) (e : BitVec 128) : List (Nat × Nat) :=
  match parseAsid e with
  | none => []
  | some (root2, _, _) =>
    ((s.leaves [0, 1, 2, 3] root2 0).filter (fun x => !Config.isHostMemory (lineOf x.2.1))).map (fun x => (x.2.1, x.2.2))
/-- Whether two physical ranges, base and size, meet. -/
def rangesMeet (x y : Nat × Nat) : Bool := decide (x.1 < y.1 + y.2) && decide (y.1 < x.1 + x.2)
/-- Whether an entry may map its pages for a function (R396, R436): no page of another function's share, and none that has been taken out of
use, unless the function holds it already. -/
def State.pagesFree (s : State) (v : Nat) (ps : List (Nat × Nat)) : Bool :=
  let mine := (s.share v).map (fun x => x.2)
  (List.range 64).all (fun w => w == v || (s.share w).all (fun x => ps.all (fun p => !rangesMeet p x.2)))
    && s.dev.badPages.all (fun b => ps.all (fun p => !rangesMeet p (b * 65536, 65536) || mine.any (fun q => rangesMeet q (b * 65536, 65536))))
/-- The function whose share an address joined last, if any did. -/
def State.lastOwner (s : State) (a : Nat) : Option Nat :=
  (s.dev.owners.find? (fun o => decide (o.1 ≤ a) && decide (a < o.1 + o.2.1))).map (fun o => o.2.2)
/-- Pages pass to a function: what was another's last is zero-filled first (R396; log entry 134). -/
def State.takePages (s : State) (v : Nat) (ps : List (Nat × Nat)) : State :=
  (s.zeroFill (fun a _ => ps.any (fun p => rangesMeet p (a, 1)) && (match s.lastOwner a with
    | none => false
    | some w => w != v))).modDev (fun d => { d with
      owners := ps.map (fun p => (p.1, p.2, v))
        ++ d.owners.filter (fun o => !ps.any (fun p => decide (p.1 ≤ o.1) && decide (o.1 + o.2.1 ≤ p.1 + p.2))) })

/-- ASID_TABLE_WRITE (R350, R396, R406): a change of a locked function's stage-2 roots puts its interface in ERROR. The policy core writes no
entry whose pages another function holds (log entry 134). A live entry gives its function's chip an ASID when it has none that is live (log
entry 47). -/
def execAsidTableWrite (i : Fin 4096) (r : BitVec 128) (s : State) : Host.Outcome State Fault Refusal :=
  let old := Table.getD s.dev.asids i.val 0
  let v := asidVmid r
  match (List.finRange 64).find? (fun f => s.frozen f.val && s.rootChange old r f.val) with
  | some f => .next (s.enterError f)
  | none =>
    let ps := s.entryPages r
    if !s.pagesFree v ps then .next s
    else
    let s1 := (s.takePages v ps).modDev (fun d => { d with asids := Table.put d.asids i.val r })
    let live := match s1.asidEntry (s.chip v).asid.toNat with
      | some (_, _, m) => m == v
      | none => false
    .next (if asidValid r && !live then s1.modChip v (fun c => { c with asid := BitVec.ofNat 12 i.val }) else s1)

/-! ### The Windlass (R403–R405) -/

/-- OPC of a command. -/
def cmdOpc (c : BitVec 256) : Nat := fld c 7 0
/-- TABLE. -/
def cmdTable (c : BitVec 256) : Nat := fld c 71 68
/-- PODID. -/
def cmdPod (c : BitVec 256) : Nat := fld c 95 80
/-- The owning chip's VCHIP. -/
def cmdSrc (c : BitVec 256) : Nat := fld c 79 72 + fld c 127 124 * 256
/-- HALF. -/
def cmdHalf (c : BitVec 256) : Bool := fld c 123 123 == 1
/-- The entry number. -/
def cmdEntry (c : BitVec 256) : Nat := fld c 107 96
/-- VALUE. -/
def cmdValue (c : BitVec 256) : BitVec 128 := BitVec.ofNat 128 (fld c 255 128)

/-- Whether a command keeps to R404 by itself. -/
def cmdOk (c : BitVec 256) : Bool :=
  let t := cmdTable c
  fld c 67 8 == 0 && fld c 122 108 == 0
    && (if cmdOpc c = 2 then
          decide (t < 3) && decide (cmdEntry c < (if t = 0 then 4096 else if t = 1 then 256 else 64))
            && (!cmdHalf c || t == 2)
            && (if t = 0 then fld c 207 129 == 0
                else if t = 1 then fld c 191 149 == 0
                else !cmdHalf c || fld c 255 208 == 0)
        else fld c 79 72 == 0 && !cmdHalf c)

/-- Whether the halves of multicast-set entries come in pairs, low half first; `open_`: entries whose high half is due. -/
def halvesOk : List (Nat × Nat) → List (BitVec 256) → Bool
  | open_, [] => open_.isEmpty
  | open_, c :: cs =>
    let e := (cmdSrc c, cmdEntry c)
    if cmdOpc c = 2 ∧ cmdTable c = 2 then
      if cmdHalf c then open_.contains e && halvesOk (open_.erase e) cs
      else !open_.contains e && halvesOk (e :: open_) cs
    else halvesOk open_ cs

/-- Reads the commands of a script up to its END, with that command's address. -/
def State.readScript (s : State) : Nat → Nat → Option (List (BitVec 256) × Nat)
  | 0, _ => none
  | n + 1, a =>
    if s.linePoisoned a 32 then none
    else
      let c := BitVec.ofNat 256 (leNat (s.readBytes none a 32))
      if cmdOpc c = 4 then some ([c], a)
      else (State.readScript s n (a + 32)).map (fun r => (c :: r.1, r.2))

/-- A well-formed script (R404): PAUSE, any number of WRITE, RESUME, END, for one guest. -/
def scriptOk (cs : List (BitVec 256)) : Bool :=
  let ops := cs.map cmdOpc
  let mid := (ops.drop 1).take (ops.length - 3)
  decide (3 ≤ ops.length) && ops.headD 0 == 1 && mid.all (fun o => o == 2) && ops.drop (ops.length - 2) == [3, 4]
    && cs.all (fun c => cmdOk c && cmdPod c == cmdPod (cs.headD 0)) && halvesOk [] cs

/-- What a WRITE stages. -/
def stagedOf (c : BitVec 256) : Staged :=
  ⟨BitVec.ofNat 12 (cmdSrc c), cmdTable c, cmdEntry c, cmdHalf c, cmdValue c⟩

/-- Whether a function of a guest pod is quiesced for a layout commit (R394). -/
def State.podQuiesced (s : State) (pod : Nat) : Bool :=
  (List.range 64).any (fun v => fld (s.frec v) 0 0 == 1 && s.podOf v == pod && s.quiesced v)

/-- The Windlass starts the next script that can run: one at a time (R404), and none for a pod whose functions must stay idle (R394). A
malformed one ends with 0x81 and nothing applied. -/
def State.nextScript (s : State) : List Word64 → State
  | [] => s.modDev (fun d => { d with windlassQueue := [] })
  | a :: as =>
    match s.readScript 65536 a.toNat with
    | none => State.nextScript s as
    | some (cs, e) =>
      if scriptOk cs then
        let pod : BitVec 16 := BitVec.ofNat 16 (cmdPod (cs.headD 0))
        if s.podQuiesced pod.toNat then s.modDev (fun d => { d with windlassQueue := a :: as })
        else s.modDev (fun d =>
          { d with
            windlassQueue := as, paused := [pod]
            windlass := some ⟨pod, (cs.filter (fun c => cmdOpc c == 2)).map stagedOf, e⟩ })
      else State.nextScript (s.writePhys none true e [0x81]) as

/-- WLDOOR (R404, R405): the script is validated, its guest paused and its entries staged, or it waits for the one in
progress. After a boot that failed it does nothing (R432). -/
def execWldoor (addr : BitVec 64) (s : State) : Host.Outcome State Fault Refusal :=
  if s.bootFailed then .next s else
  match s.dev.windlass with
  | some _ => .next (s.modDev (fun d => { d with windlassQueue := d.windlassQueue ++ [addr] }))
  | none => .next (s.nextScript (s.dev.windlassQueue ++ [addr]))

/-- A staged entry takes effect. -/
def Chip.applyStaged (c : Chip) (e : Staged) : Chip :=
  let old := Table.getD c.mcast e.index 0
  let set : BitVec 256 := BitVec.ofNat 256 (setBits old.toNat (if e.half then 128 else 0) 128 e.value.toNat)
  if e.table = 0 then { c with chipTab := Table.put c.chipTab e.index e.value }
  else if e.table = 1 then { c with labels := Table.put c.labels e.index (e.value.setWidth 64) }
  else { c with mcast := Table.put c.mcast e.index set }
/-- The function of this module that carries a chip of a pod. -/
def State.carrier (s : State) (pod vchip : Nat) : Option Nat :=
  (List.range 64).find? (fun v => fld (s.frec v) 0 0 == 1 && s.podOf v == pod && s.vchipOf v == vchip)

/-- Whether a slice belongs to a guest: its block's function carries a chip of the pod. -/
def State.ofPod (s : State) (pod key : Nat) : Bool :=
  match Table.find s.blocks (keyBlock key) with
  | none => false
  | some b => s.podOf b.vf == pod
/-- An operation that a pause held, at RESUME: a send keeps its order ahead of later ones; a pod load that could not be performed under the
old tables is led by the new ones (R405; log entry 94). -/
def MemOp.unheld (o : MemOp) : MemOp :=
  if o.kind.sendTo.isSome && o.status.isNone then { o with sent := true }
  else if o.kind.isPod then { o with lanes := o.lanes.map (fun a => { a with pa := none }) } else o
/-- What the pause of a guest held goes on (R405). -/
def State.holdSends (s : State) (pod : Nat) : State :=
  { s with slices := s.slices.map (fun e =>
      if s.ofPod pod e.1 then (e.1, { e.2 with ops := e.2.ops.map MemOp.unheld }) else e) }
/-- Whether a pod access of a guest has left its module, checked at its targets, and may now be performed there: PAUSE completes after it
(R405, R416). -/
def State.podUnderway (s : State) (pod : Nat) : Bool :=
  s.slices.any (fun e => s.ofPod pod e.1 && e.2.ops.any (fun o => o.kind.isPod && o.checked && e.2.mayPerform o))

/-- RESUME (R405): all staged entries take effect at once, and held sends are released; the script ends. It waits for PAUSE to complete. -/
def execResume (s : State) : Host.Outcome State Fault Refusal :=
  match s.dev.windlass with
  | none => .next s
  | some w =>
    if s.podUnderway w.podid.toNat then .next s else
    let s1 := w.staged.foldl (fun t e =>
      match s.carrier w.podid.toNat e.src.toNat with
      | none => t
      | some v => t.modChip v (fun c => c.applyStaged e)) s
    let s2 := ((s1.holdSends w.podid.toNat).writePhys none true w.endAt [0x80]).modDev (fun d =>
      { d with windlass := none, paused := [] })
    .next (s2.nextScript s2.dev.windlassQueue)

/-! ### Layout commits (R392–R394) -/

/-- Whether a layout commit is in progress. -/
def State.layoutBusy (s : State) : Bool :=
  match s.dev.journal with
  | some j => j.step != .done
  | none => false
/-- The dies whose PARTCFG a layout changes. -/
def State.affected (s : State) (l : BitVec 8) : List Nat := (List.range 4).filter (fun d => (s.die d).partcfg != partcfgOf l d)
/-- The dies that take part in the commit in progress. -/
def State.taking (s : State) : List Nat := (List.range 4).filter (fun d => (s.die d).shadow.isSome)
/-- Whether a function is idle (R394). -/
def State.fnIdle (s : State) (v : Nat) : Bool :=
  (s.chip v).queues.all (fun e => e.2.state != .running && e.2.pkts.isEmpty)
    && !(s.timeSliced v && s.chipRuns v) && !(s.chip v).migrating
    && (match s.dev.windlass with
      | none => true
      | some w => w.podid.toNat != s.podOf v)
/-- Whether the partitions that hold some dies are idle. -/
def State.partsIdle (s : State) (ds : List Nat) : Bool :=
  let all := ds.flatMap s.partDies
  (List.range 64).all (fun v => fld (s.frec v) 0 0 == 0 || s.fnIdle v || (s.diesOf v).all (fun d => !all.contains d))

/-- Step 1 on a die: it quiesces, loads the shadow and acknowledges. -/
def Die.prepare (x : Die) (d : Nat) (l : BitVec 8) : Die :=
  { x with quiesced := true, shadow := some (partcfgOf l d), acked := true }
/-- LAYOUT_REQUEST (R389, R392, R394): the code of a refusal, or step 1 on every affected die. -/
def execLayoutRequest (layout : BitVec 8) (s : State) : Host.Outcome State Fault Refusal :=
  let answer (n : Nat) : State := s.modDev (fun d => { d with layoutResult := some n })
  let ds := s.affected layout
  if !layoutOk layout then .next (answer 1)
  else if s.layoutBusy then .next (answer 4)
  else if !s.partsIdle ds then .next (answer 2)
  else
    let n := s.dev.jseq + 1
    let s1 := s.modDev (fun d => { d with jseq := n, journal := some ⟨n, layout, .prepare⟩, layoutResult := none })
    .next (ds.foldl (fun t d => t.modDie d (fun x => x.prepare d layout)) s1)

/-- The memory of a die becomes zero: KSM stacks, L2 lines and unified stores (R394). -/
def State.scrubDie (s : State) (d : Nat) : State :=
  let here (a : Nat) : Bool := !Config.isHostMemory (lineOf a) && s.homeDie (lineOf a) == d
  let local_ (k : Nat) : Bool := match Table.find s.blocks (keyBlock k) with
    | none => false
    | some b => coreDie b.core == d
  { s with
    mem := s.mem.filter (fun c => !here c.1)
    poison := s.poison.filter (fun p => !here (p.1 * 128))
    lineKey := s.lineKey.filter (fun p => !here (p.1 * 128))
    past := s.past.filter (fun w => w.site.die != d && (match w.loc with
      | .mem a => !here a
      | _ => true))
    blocks := s.blocks.map (fun e => if coreDie e.2.core = d then (e.1, { e.2 with scratch := [], poison := [] }) else e)
    slices := s.slices.map (fun e => if local_ e.1 then (e.1, { e.2 with v := [], vpoison := [] }) else e) }

/-- The contexts and pending events that the home regions of a die's chips held are gone with its memory (R360, R394, R401). -/
def State.scrubHomes (s : State) (d : Nat) : State :=
  (List.range 64).foldl (fun t v =>
    if (s.diesOf v).contains d then
      t.modChip v (fun c =>
        { c with committed := none, shape := none, undo := [], pending := [], ckseq := if s.timeSliced v then 0 else c.ckseq })
    else t) s

/-- A die's TLBs, its chips' home regions and its memory are scrubbed (R392, R394). -/
def State.clearDie (s : State) (d : Nat) : State :=
  ((List.range 40).foldl (fun t c => t.modCore (d * 40 + c) (fun k => { k with tlb := [] })) (s.scrubHomes d)).scrubDie d
/-- A die's shadow becomes PARTCFG, and its vector clock is reset (R392). -/
def Die.load (x : Die) : Die :=
  { x with partcfg := x.shadow.getD x.partcfg, clock := Vector.replicate 4 0, tlb := [], acked := true }

/-- A function whose record breaks R396 under the new layout is in use no more: its queues are destroyed, and a frozen interface enters ERROR
(log entry 133). -/
def State.retireFn (s : State) (f : Fin 64) : State :=
  let s1 := (s.chip f.val).queues.foldl (fun t e =>
    (t.fromOutside f.val (fun u => u.destroyQueue f ⟨e.1 % 64, Nat.mod_lt _ (by decide)⟩)).unbind f.val (e.1 % 64)) s
  let s2 := if s.frozen f.val then s1.enterError f else s1
  s2.modDev (fun d => { d with frec := Table.put d.frec f.val (s.frec f.val &&& ~~~1) })
/-- Every function in use keeps to R396 after a layout commit. -/
def State.retireBroken (s : State) : State :=
  (List.finRange 64).foldl (fun t f => if fld (t.frec f.val) 0 0 = 1 ∧ t.frecKeeps f.val (t.frec f.val) = false then t.retireFn f else t) s

/-- Step 2 on some dies (R392): all are scrubbed under the layout in force, then every shadow becomes PARTCFG. -/
def State.commitDies (s : State) (ds : List Nat) : State :=
  (ds.foldl (fun t d => t.modDie d Die.load) (ds.foldl (fun t d => t.clearDie d) s)).retireBroken

/-- COMMIT (R392): after every acknowledgement the new layout takes effect. -/
def State.layoutCommit (s : State) : State :=
  match s.dev.journal with
  | none => s
  | some j =>
    (s.commitDies s.taking).modDev (fun d => { d with journal := some { j with step := .commit } })

/-- COMMIT. -/
def execCommit (s : State) : Host.Outcome State Fault Refusal :=
  match s.dev.journal with
  | some ⟨_, _, .prepare⟩ => if s.taking.all (fun d => (s.die d).acked) then .next s.layoutCommit else .next s
  | _ => .next s

/-- Quiescing ends: held doorbells act, and so does a script that waited. -/
def State.endQuiesce (s : State) : State :=
  let ds := s.taking
  let s1 := ds.foldl (fun t d => t.modDie d (fun x => { x with quiesced := false, shadow := none, acked := false })) s
  let s2 := (List.range 64).foldl (fun t v =>
    if (s.diesOf v).any (fun d => ds.contains d) then
      (s.chip v).queues.foldl (fun u e => u.fromOutside v (fun w => w.refreshQueue v e.1)) t
    else t) s1
  if s2.dev.windlass.isNone then s2.nextScript s2.dev.windlassQueue else s2

/-- DONE (R392). -/
def State.layoutDone (s : State) : State :=
  match s.dev.journal with
  | none => s
  | some j => s.endQuiesce.modDev (fun d => { d with journal := some { j with step := .done }, layoutResult := some 0 })

/-- DONE: after every acknowledgement of the commit. -/
def execDone (s : State) : Host.Outcome State Fault Refusal :=
  match s.dev.journal with
  | some ⟨_, _, .commit⟩ => if s.taking.all (fun d => (s.die d).acked) then .next s.layoutDone else .next s
  | _ => .next s

/-- POLICY_CORE_RESTART (R393): die 0 rolls the commit back or forward; to another die it repeats the step that the journal
names. -/
def execPolicyCoreRestart (die : Fin 4) (s : State) : Host.Outcome State Fault Refusal :=
  match s.dev.journal with
  | none => .next s
  | some j =>
    let mine := (s.die die.val).shadow.isSome
    match j.step with
    | .done => .next s
    | .prepare =>
      if die = 0 then .next (s.endQuiesce.modDev (fun d => { d with journal := none, layoutResult := some 3 }))
      else .next (if mine then s.modDie die.val (fun x => x.prepare die.val j.layout) else s)
    | .commit =>
      if die = 0 then .next s.layoutCommit.layoutDone
      else .next (if mine then s.commitDies [die.val] else s)

/-! ### Function-level reset (R398) -/

/-- The undispatched blocks of a grid that would run in the context of a function are dropped. -/
def Grid.dropChip (g : Grid) (v : Nat) : Grid :=
  if g.state = .dispatching then
    Grid.settle { g with undisp := g.undisp.map (fun e =>
      (e.1, (g.parts.filter (fun p => p.1 == v)).foldl (fun l p => outside l p.2.1 p.2.2) e.2)) }
  else g
/-- Every packet of a function that is not DONE is killed without a record or an event, and every memory request tagged with the function, a
steward grid's or another chip's grid's in its context too, is performed or discarded, and none is issued afterwards (R358, R398). -/
def State.dropPackets (s : State) (v : Nat) : State :=
  let mine := s.blocks.filter (fun e => e.2.vf == v || (match Table.find s.grids e.2.gid with
    | none => false
    | some g => homeFn g.home == v))
  let s1 := mine.foldl (fun t e =>
    let u := (t.slicesOf e.1).foldl (fun w x => w.settleKilled x.1 x.2.ops) t
    u.removeBlock e.1 ((Table.find u.blocks e.1).getD e.2)) s
  { s1 with grids := (s1.grids.filter (fun e => homeFn e.2.home != v)).map (fun e => (e.1, e.2.dropChip v)) }

/-- What a function-level reset scrubs and returns to reset values (R398): GEN stays. -/
def Chip.scrubbed (c : Chip) : Chip :=
  { c with
    queues := [], wells := [], images := [], undo := [], colls := [], committed := none, shape := none, tfbase := 0, hwdog := 1000
    running := false, cut := false, forcing := [], outsideWait := false, released := [], fenceOrder := []
    log := { EventLog.reset with gen := c.log.gen }
    loader := ⟨0, 0, 0, none⟩ }

/-- Bind records that waited for a function's packets take effect (R380). -/
def State.applyWaiting (s : State) (v : Nat) : State :=
  (List.range 4).foldl (fun t d =>
    (s.die d).slotsNext.foldl (fun u e =>
      if (bindTarget (Table.getD (s.die d).slots e.1 0) e.2).1.val = v then u.applyBind d e.1 e.2 else u) t) s

/-- A group in which a member that has been reset stands as lost (R424). -/
def State.loseMember (s : State) (v t : Nat) (g : Group) : Group :=
  let ranks := ((List.range g.members.length).zip g.members).filterMap (fun e =>
    if s.target t e.2 = .here v ∧ v ≠ t then some e.1 else none)
  { g with lost := g.lost ++ ranks }
/-- The groups of the other chips, in a committed image too, learn that a chip has been reset (R424). -/
def State.loseIn (s : State) (v : Nat) : State :=
  (List.range 64).foldl (fun t w =>
    let mark (gs : Table Group) : Table Group := gs.map (fun e => (e.1, s.loseMember v w e.2))
    t.modChip w (fun c => { c with groups := mark c.groups, committed := c.committed.map (fun i => { i with groups := mark i.groups }) })) s

/-- Steps 1 to 3 of a function-level reset. -/
def State.resetFn (s : State) (v : Nat) : State := (((s.dropPackets v).loseIn v).modChip v Chip.scrubbed).applyWaiting v

/-- A TDISP interface returns to CONFIG_UNLOCKED (R406): its keys are erased, its memory share is scrubbed, and the attestation
record is zero. -/
def State.unlock (s : State) (v : Nat) : State :=
  (s.scrubShare v).modChip v (fun c =>
    { c with
      tdisp := .unlocked, keyId := 0, signKeys := [], linkKeys := [], sendCount := [], acceptCount := [], att := 0 })

/-- FUNCTION_LEVEL_RESET (R398); a module that has not booted exposes no function (R432). -/
def execFunctionLevelReset (f : Fin 64) (s : State) : Host.Outcome State Fault Refusal :=
  let v := f.val
  if s.bootFailed then .next s
  else
  let s1 := s.resetFn v
  let s2 := if s.frozen v then s1.unlock v else s1
  let s3 := s2.modChip v (fun c => { c with log := { c.log with gen := c.log.gen + 1 } })
  .next (s3.postEvent (.vf f) (s3.eventOf v 4 0 0 0 0))

end Sys2Proof.Machine
end

