-- ==== Sys2Proof/Machine/System.lean ====
section
/-! DEFINITION. Trap and system instructions: TRAP, BRK, TRET, SYSRD, SYSWR, TLBINV (R342–R344, R351–R353). -/

namespace Sys2Proof.Machine

/-! ### TRAP, BRK (R343) -/

/-- TRAP. -/
def execTrap (c : Ctl) (n : BitVec 8) (s : State) : Host.Outcome State Fault Refusal :=
  issue s (fun _ => { handler := false, steward := false }) (fun x =>
    if x.x.guardScalar c.guard then x.trap { cause := .software, aux := n.setWidth 32 } else x.s.finish x.k c.m)

/-- BRK. -/
def execBrk (_c : Ctl) (n : BitVec 8) (s : State) : Host.Outcome State Fault Refusal :=
  issue s (fun _ => { handler := false, steward := false }) (fun x =>
    x.trap { cause := .breakpoint, aux := n.setWidth 32 })

/-! ### TRET (R342) -/

/-- A trap frame as read back, in bits. -/
structure Frame where
  pc : Word64
  info : Nat
  smode : Word64
  q : Nat
  s : List Word64
  deriving DecidableEq, Repr

/-- The frame in 1,024 bytes (R336). -/
def frameOf (bs : List Byte) : Frame :=
  let at_ (o n : Nat) : Nat := leNat ((bs.drop o).take n)
  { pc := BitVec.ofNat 64 (at_ 0 8), info := at_ 24 8, smode := BitVec.ofNat 64 (at_ 32 8), q := at_ 40 4
    s := (List.range 64).map (fun n => BitVec.ofNat 64 (at_ (512 + 8 * n) 8)) }

/-- Reads the slice's frame at the address it took when it trapped (R341), as an LS load at CORE scope. -/
def Ctx.readFrame (c : Ctx) : Except TrapInfo (Frame × Ctx) :=
  match c.readNow .core (c.x.frame.getD 0).toNat 1024 with
  | .error t => .error t
  | .ok (bs, y) => .ok (frameOf bs, y)

/-- The slice with its registers as the frame gives them. -/
def Ctx.restore (c : Ctx) (f : Frame) (x : Slice) : Slice :=
  let y := (List.range 64).foldl (fun z n => z.setS (c.physS n) (f.s.getD n 0)) x
  { y with
    q := Vector.ofFn (fun l : Fin 4 => BitVec.ofNat 8 (f.q / 2 ^ (8 * l.val)))
    smode := smodeSetPriv (smodeWrite y.smode f.smode) 0
    exec := BitVec.ofNat 4 (f.info / 2 ^ 16) &&& y.live
    stale := [], frame := none }

/-- Whether a slice of a spliced grid cannot resume at an origin address (R325): its part holds no such word. -/
def Ctx.cannotResume (c : Ctx) (pc : Nat) : Bool :=
  match c.x.splice, c.grid?.bind (fun g => g.splice.map (fun sp => (g, sp))) with
  | some ss, some (g, sp) =>
    match splicedTarget g sp ss.part pc false with
    | none => true
    | some (p, _) => p != ss.part
  | _, _ => false

/-- TRET once the frame has been read. -/
def Ctx.tret (c : Ctx) (f : Frame) : State :=
  if f.pc.toNat % 8 ≠ 0 then c.endGridAt c.x.pc .misalignedFetch true
  else
    let kill : BitVec 4 := BitVec.ofNat 4 (f.info / 2 ^ 28)
    let s1 := c.s.modSlice c.k (fun x => c.restore f (x.endLanes kill))
    let y := c.at s1
    if y.x.live = 0 then y.endSlice
    else if c.cannotResume f.pc.toNat then c.endGridAt c.x.pc .spliceResume true
    else s1.goto c.k f.pc false true

/-- TRET: the handler's long results are written, then its held writes are performed. -/
def execTret (_c : Ctl) (s : State) : Host.Outcome State Fault Refusal :=
  issue s (fun _ => { user := false, steward := false }) (fun x =>
    if x.x.longOut then x.stay
    else
      (x.at (x.s.modSlice x.k x.s.settle)).releaseAll (fun y =>
        match y.readFrame with
        | .error t => y.trapX t
        | .ok (f, z) => z.tret f))

/-! ### System registers (R344) -/

/-- The virtual function of the slice's block as VMID shows it; nothing states it for a grid in the management complex's own
address space. -/
def Ctx.vmid (c : Ctx) : Nat := if c.b.vf < 64 then c.b.vf else (Config.free c.s.fresh 63000).toNat % 64

/-- The value of a system register. -/
def Ctx.sysread (c : Ctx) : SysReg → Word64
  | .tfbase => (c.s.chip c.b.vf).tfbase
  | .hwdog => (c.s.chip c.b.vf).hwdog
  | .asid => (c.s.chip c.b.vf).asid.setWidth 64
  | .vmid => BitVec.ofNat 64 c.vmid
  | .ctbase => (c.s.chip c.b.vf).ctbase
  | .govcfg => (c.s.core c.b.core).govNext
  | .partcfg => (c.s.die (coreDie c.b.core)).partcfg
  | .scopepol => BitVec.ofNat 64 (fld (c.s.frec c.b.vf) 66 64)

end Sys2Proof.Machine
namespace Sys2Proof

/-- Registers that handler level reads. -/
def SysReg.forHandler : SysReg → Bool
  | .govcfg | .partcfg => false
  | _ => true
/-- Registers that steward level writes. -/
def SysReg.writable : SysReg → Bool
  | .asid | .vmid | .partcfg => false
  | _ => true
/-- Registers of a virtual function: a steward grid of no function traps on writing them (R375). -/
def SysReg.ofFunction : SysReg → Bool
  | .tfbase | .hwdog | .ctbase | .scopepol => true
  | _ => false

end Sys2Proof
namespace Sys2Proof.Machine

/-- Writes a system register; a value that breaks its alignment or range is ignored. -/
def Ctx.syswrite (c : Ctx) (r : SysReg) (v : Word64) : State :=
  let v16 := v.toNat % 65536 == 0
  match r with
  | .tfbase => if v16 then c.s.modChip c.b.vf (fun h => { h with tfbase := v }) else c.s
  | .hwdog =>
    if 1 ≤ v.toNat ∧ v.toNat ≤ 1000000 then c.s.modChip c.b.vf (fun h => { h with hwdog := v }) else c.s
  | .ctbase => if v16 then c.s.modChip c.b.vf (fun h => { h with ctbase := v }) else c.s
  | .govcfg =>
    let cap := govCap v
    let ramp := govRamp v
    if 16 ≤ cap ∧ cap ≤ 256 ∧ 8 ≤ ramp ∧ ramp ≤ 256 then
      c.s.putGovcfg c.b.core (v &&& 0x3FF01FF)
    else c.s
  | .scopepol =>
    c.s.modDev (fun d => { d with
      frec := Table.put d.frec c.b.vf
        (BitVec.ofNat 256 (setBits (c.s.frec c.b.vf).toNat 64 3 v.toNat)) })
  | _ => c.s

/-- SYSRD: no register is readable at user level. -/
def execSysrd (c : Ctl) (reg : SysReg) (d : SReg) (s : State) : Host.Outcome State Fault Refusal :=
  issue s (fun _ => { user := false, handler := reg.forHandler }) (fun x =>
    if x.x.guardScalar c.guard then x.done { sShort := [(d.val, x.sysread reg)] } c.m else x.s.finish x.k c.m)

/-- SYSWR: registers are written at steward level. -/
def execSyswr (c : Ctl) (reg : SysReg) (a : SReg) (s : State) : Host.Outcome State Fault Refusal :=
  issue s (fun x => { user := false, handler := false, steward := reg.writable && (!reg.ofFunction || decide (x.b.vf < 64)) })
    (fun x =>
      if x.x.guardScalar c.guard then (x.syswrite reg (x.rdS a.val)).finish x.k c.m else x.s.finish x.k c.m)

/-! ### TLBINV (R352) -/

/-- The cores and the dies whose TLBs lie within a scope (R352): TENANT takes every die on which the VMID has cluster sets. -/
def State.tlbReach (s : State) (core vmid : Nat) : Scope → List Nat × List Nat
  | .core => ([core], [])
  | .cluster => ((List.range 160).filter (fun c => coreCluster c == coreCluster core), [])
  | .die => ((List.range 160).filter (fun c => coreDie c == coreDie core), [coreDie core])
  | _ => ((List.range 160).filter (fun c => (s.diesOf vmid).contains (coreDie c)), s.diesOf vmid)

/-- Removes TLB entries from cores and dies. -/
def State.dropTlb (s : State) (reach : List Nat × List Nat) (hit : TlbEntry → Bool) : State :=
  let keep (l : List TlbEntry) : List TlbEntry := l.filter (fun e => !hit e)
  reach.2.foldl (fun t d => t.modDie d (fun x => { x with tlb := keep x.tlb }))
    (reach.1.foldl (fun t c => t.modCore c (fun k => { k with tlb := keep k.tlb })) s)

/-- Entries that a die's cores share are held, from now on, by those of its cores only that lie outside some cores: an invalidation narrower
than the die reaches what the latter could use, and leaves the others what they hold (R353). -/
def State.unshareTlb (s : State) (cores : List Nat) (die : Nat) (hit : TlbEntry → Bool) : State :=
  let gone := (s.die die).tlb.filter hit
  (((List.range 40).map (fun i => die * 40 + i)).filter (fun c => !cores.contains c && !gone.isEmpty)).foldl
    (fun t c => t.modCore c (fun k => { k with tlb := addTlb k.tlb gone }))
    (s.modDie die (fun x => { x with tlb := x.tlb.filter (fun e => !hit e) }))

/-- What a TLBINV removes (R352, R353). -/
def State.invalidate (s : State) (core vmid : Nat) (scope : Scope) (hit : TlbEntry → Bool) : State :=
  let reach := s.tlbReach core vmid scope
  (if reach.2.isEmpty then s.unshareTlb reach.1 (coreDie core) hit else s).dropTlb reach hit

/-- A TLBINV word: the slice's earlier stores are performed at SCOPE, then `hit` entries go. -/
def tlbWord (s : State) (ctl : Ctl) (scope : Scope) (a : SSrc) (bad : Ctx → Option TrapInfo) (hit : Ctx → TlbEntry → Bool) :
    Host.Outcome State Fault Refusal :=
  issue s (fun _ => { user := false, handler := false }) (fun x =>
    if x.s.scopeDenied x.b.vf scope then x.trap { cause := .scopePolicy }
    else
      match bad x with
      | some t => x.trap t
      | none =>
        x.releaseAll (fun y =>
          ((y.s.widen y.k y.x.seq scope).invalidate y.b.core (fld (y.src a) 17 12) scope (hit y)).finish y.k ctl.m))

/-- TLBINV.S1: translations of an ASID, at an address or all. -/
def execTlbinv (c : Ctl) (scope : Scope) (all : Bool) (a b : SSrc) (s : State) : Host.Outcome State Fault Refusal :=
  tlbWord s c scope a
    (fun x => if !all && (x.src b).toNat % 65536 != 0 then some { cause := .misalignedData, addr := x.src b } else none)
    (fun x e => !e.stage2 && e.tag == fld (x.src a) 11 0
      && (all || e.level == 4 || e.page == (x.src b).toNat / 2 ^ levelShift e.level))

/-- TLBINV.S2: every translation of a VMID, of both stages. -/
def execTlbinvS2 (c : Ctl) (scope : Scope) (a : SSrc) (s : State) : Host.Outcome State Fault Refusal :=
  tlbWord s c scope a (fun _ => none) (fun x e => e.vmid == fld (x.src a) 17 12)

end Sys2Proof.Machine
end

