-- ==== Sys2Proof/Machine/Device.lean ====
section
/-! DEFINITION. The registers of BAR0 (R376, R377, R387, R399, R401, R430, R437), host accesses to memory (R366), storage errors,
self-tests and lifetime counters (R191, R200, R202, R203, R436, R437), power (R435). -/

namespace Sys2Proof.Machine

/-! ### Requests (R376, R387) -/

/-- The loader request block of a function. -/
def State.loaderOf (s : State) : Fn → Loader
  | .pf => s.dev.pfLoader
  | .vf f => (s.chip f.val).loader
/-- Changes the loader request block of a function. -/
def State.modLoader (s : State) (fn : Fn) (h : Loader → Loader) : State :=
  match fn with
  | .pf => s.modDev (fun d => { d with pfLoader := h d.pfLoader })
  | .vf f => s.modChip f.val (fun c => { c with loader := h c.loader })

/-- GO of a loader request: ignored while BUSY. -/
def Loader.start (l : Loader) : Loader :=
  match l.job with
  | some _ => l
  | none => { l with job := some (l.addr, l.len, l.resaddr) }

/-- LOADER_REQUEST (R387, R432): the physical function's takes a recovery image only after a failed boot. -/
def execLoaderRequest (fn : Fn) (s : State) : Host.Outcome State Fault Refusal :=
  match fn with
  | .pf => .next (if s.bootFailed then s.modLoader fn Loader.start else s)
  | .vf _ => .next (if s.exposed fn then s.modLoader fn Loader.start else s)

/-- The packet of a steward request: its scopes are DIE, which no policy denies (log entry 48). -/
def stewardPacket (d : Steward) : BitVec 512 :=
  BitVec.ofNat 512 (1 + d.fkidx.toNat * 2 ^ 16 + 5 * 2 ^ 32 + 5 * 2 ^ 36 + d.ctx.toNat * 2 ^ 40 + d.args.toNat * 2 ^ 64)

/-- Whether die 0's policy core turns a steward request away (R376). -/
def State.stewardRefused (s : State) : Bool :=
  let d := s.dev.steward
  !d.reserved.isEmpty || fld d.ctx 6 6 != 0 || (Table.find s.dev.firmware d.fkidx.toNat).isNone
    || (fld d.ctx 7 7 == 1 && fld (s.frec (fld d.ctx 5 0)) 0 0 == 0)

/-- GO of the steward request: ignored while BUSY, and after a boot that failed (R432). -/
def State.stewardGo (s : State) : State :=
  let d := s.dev.steward
  if d.busy || s.bootFailed then s
  else if s.stewardRefused then s.writePhys none true d.resaddr.toNat (leBytes 16 5)
  else
    let die := if fld d.ctx 7 7 = 1 then (s.diesOf (fld d.ctx 5 0)).headD 0 else 0
    (s.modDie die (fun x => { x with steward := x.steward ++ [stewardPacket d] })).modDev (fun v =>
      { v with steward := { v.steward with busy := true, result := v.steward.resaddr } })

/-- STEWARD_REQUEST (R376). -/
def execStewardRequest (s : State) : Host.Outcome State Fault Refusal := .next s.stewardGo

/-! ### Event logs (R399, R401) -/

/-- A 64-bit write at an offset of an event log control block. -/
def EventLog.write (l : EventLog) (off : Nat) (v : BitVec 64) : EventLog :=
  if off = 0 then
    let l1 := if l.en then l else { l with size := BitVec.ofNat 5 (fld v 12 8) }
    if fld v 0 0 = 0 then { l1 with en := false }
    else if 4 ≤ l1.size.toNat ∧ l1.size.toNat ≤ 16 then { l1 with en := true } else l1
  else if off = 16 then if l.en then l else { l with base := v }
  else if off = 24 then { l with ridx := BitVec.ofNat 32 (fld v 63 32) }
  else l

/-- Pending events go to a log that is now on. -/
def State.flushFn (s : State) : Fn → State
  | .pf => s
  | .vf f => s.flushPending f

/-- EVENT_LOG_CONTROL_WRITE (R399, R401). -/
def execEventLogControlWrite (fn : Fn) (off : Nat) (v : BitVec 64) (s : State) : Host.Outcome State Fault Refusal :=
  .next (if s.exposed fn then (s.modLog fn (fun l => l.write off v)).flushFn fn else s)

/-! ### Registers (R10, R430) -/

/-- A write of word 0 of a queue register block: SIZE, then RESET (R377, R378). -/
def State.writeQueueCtl (s : State) (f q : Fin 64) (v : BitVec 64) : State :=
  let n := fld v 12 8
  let open_ (u : Queue) : Bool := u.state == .disabled || (u.state == .idle && u.ridx == u.widx)
  let s1 := s.fromOutside f.val (fun t =>
    (t.modQueue f.val q.val (fun u =>
      if open_ u && decide (4 ≤ n) && decide (n ≤ 20) then { u with size := BitVec.ofNat 5 n } else u)).refreshQueue f.val q.val)
  if fld v 3 3 = 1 then s1.hostReset f q else s1
/-- A write of BASE (R377, R378). -/
def State.writeQueueBase (s : State) (f q : Fin 64) (v : BitVec 64) : State :=
  s.fromOutside f.val (fun t =>
    (t.modQueue f.val q.val (fun u =>
      if u.state == .disabled || (u.state == .idle && u.ridx == u.widx) then { u with base := v } else u)).refreshQueue f.val q.val)

/-- A 64-bit write in the queue register blocks of a function. -/
def State.writeQueueReg (s : State) (f : Fin 64) (off : Nat) (v : BitVec 64) : State :=
  let q : Fin 64 := ⟨off / 32 % 64, Nat.mod_lt _ (by decide)⟩
  let w := off % 32
  if w = 0 then s.writeQueueCtl f q v
  else if w = 16 then s.writeQueueBase f q v
  else if w = 24 then s.doorbell f.val q.val (BitVec.ofNat 32 v.toNat)
  else s

/-- Whether a function's BAR0 has a loader request block: a virtual function's (R430), and the physical function's after a failed boot
(R432). -/
def State.hasLoader (s : State) : Fn → Bool
  | .pf => s.bootFailed
  | .vf _ => true

/-- A 64-bit write in a loader request block (R387). -/
def State.writeLoader (s : State) (fn : Fn) (off : Nat) (v : BitVec 64) : State :=
  if !s.hasLoader fn then s
  else if off = 8 then s.modLoader fn (fun l => { l with addr := v })
  else if off = 16 then s.modLoader fn (fun l => { l with len := v })
  else if off = 24 then s.modLoader fn (fun l => { l with resaddr := v })
  else if off = 32 ∧ fld v 0 0 = 1 then s.modLoader fn Loader.start
  else s

/-- A word of the steward request block notes whether it has a reserved bit. -/
def Steward.note (d : Steward) (w : Nat) (bad : Bool) : Steward :=
  { d with reserved := d.reserved.filter (fun x => x != w) ++ (if bad then [w] else []) }

/-- A 64-bit write in the steward request block (R376). -/
def State.writeSteward (s : State) (off : Nat) (v : BitVec 64) : State :=
  let put (h : Steward → Steward) : State := s.modDev (fun d => { d with steward := h d.steward })
  let w := off / 8
  if w = 0 then put (fun d => d.note 0 (fld v 63 1 != 0))
  else if w = 2 then
    put (fun d => { d.note 2 (fld v 39 0 != 0) with ctx := BitVec.ofNat 8 (fld v 47 40), fkidx := BitVec.ofNat 16 (fld v 63 48) })
  else if w = 3 then put (fun d => { d with args := v })
  else if w = 4 then put (fun d => { d with resaddr := v })
  else
    let s1 := put (fun d => d.note w (if w = 5 then fld v 63 1 != 0 else v != 0))
    if w = 5 ∧ fld v 0 0 = 1 then s1.stewardGo else s1

/-- A 64-bit write of the MSI-X table (R401, R430): a pending message is sent when the vector is unmasked. -/
def EventLog.writeMsix (l : EventLog) (off : Nat) (v : BitVec 64) : EventLog :=
  if off = 0 then { l with msixAddr := v }
  else
    let l1 := { l with msixData := BitVec.ofNat 32 v.toNat, msixMask := fld v 32 32 == 1 }
    if !l1.msixMask && l.msixPending then { l1 with msixPending := false }.raise else l1

/-- The number that stands for NumVFs, which lies in configuration space and not in BAR0 (log entry 49). -/
def numVfsReg : Nat := 65536
/-- The number that stands for the policy core's setting of a chip's checkpoint interval in µs (R364; log entry 49). -/
def intervalReg (f : Nat) : Nat := 131072 + 8 * f

/-- A 64-bit write at an aligned offset (R430): what the table does not name ignores it. No other access size reaches BAR0 (R10; log entry
126). -/
def State.writeReg (s : State) (fn : Fn) (off : Nat) (v : BitVec 64) : State :=
  if off % 8 ≠ 0 then s
  else if 0x8000 ≤ off ∧ off < 0x8010 then s.modLog fn (fun l => l.writeMsix (off - 0x8000) v)
  else if 0xC00 ≤ off ∧ off < 0xC20 then (s.modLog fn (fun l => l.write (off - 0xC00) v)).flushFn fn
  else if 0x800 ≤ off ∧ off < 0x840 then s.writeLoader fn (off - 0x800) v
  else
    match fn with
    | .vf f =>
      if 0x1000 ≤ off ∧ off < 0x1800 then s.writeQueueReg f (off - 0x1000) v
      else if off = intervalReg f.val ∧ 20 ≤ v.toNat ∧ v.toNat ≤ 10000 then
        s.modChip f.val (fun c => { c with interval := v.toNat })
      else s
    | .pf =>
      if s.bootFailed then s
      else if off = 0x2000 then
        match s.dev.windlass with
        | some _ => s.modDev (fun d => { d with windlassQueue := d.windlassQueue ++ [v] })
        | none => s.nextScript (s.dev.windlassQueue ++ [v])
      else if 0x2800 ≤ off ∧ off < 0x2840 then s.writeSteward (off - 0x2800) v
      else if off = 0x3000 then s.modDev (fun d => { d with hsel := v })
      else if off = numVfsReg then
        if fld s.dev.devstat 0 0 = 1 then s.modDev (fun d => { d with numVfs := BitVec.ofNat 16 v.toNat }) else s
      else s

/-- REGISTER_WRITE (R10, R430). -/
def execRegisterWrite (fn : Fn) (off : Nat) (v : BitVec 64) (s : State) : Host.Outcome State Fault Refusal :=
  .next (if s.exposed fn then s.writeReg fn off v else s)

/-- Core cycles in an hour. -/
def hourCycles : Nat := 9000000000000
/-- A lifetime counter rises by one, up to all ones (R437). -/
def State.bump (s : State) (i : Nat) : State :=
  s.modDev (fun d =>
    let x := Table.getD d.counters i 0
    { d with counters := Table.put d.counters i (if x.toNat = 2 ^ 64 - 1 then x else x + 1) })
/-- Hours of power-on pass (R437): each counts, and falls into one bucket of junction temperature and one of module power, which no rule
ties to the state (log entry 50). -/
def State.accrue (s : State) : Nat → State
  | 0 => s
  | n + 1 => State.accrue (((s.bump 0x1C0).bump (0x180 + (s.pick (98000 + 2 * n) 32))).bump (0x1A0 + (s.pick (98001 + 2 * n) 32))) n

/-- A lifetime counter (R437). -/
def State.counter (s : State) (i : Nat) : Word64 :=
  if i = 0x1C1 then BitVec.ofNat 64 s.dev.commitsLeft
  else if (0x158 ≤ i ∧ i < 0x160) ∨ (0x172 ≤ i ∧ i < 0x180) ∨ 0x1C2 ≤ i then 0
  else Table.getD s.dev.counters i 0

/-- What a 64-bit read of BAR0 returns (R430); write-only fields and unnamed offsets read as zero. -/
def State.readReg (s : State) (fn : Fn) (off : Nat) : Word64 :=
  let l := s.logOf fn
  let r := s.loaderOf fn
  if !s.exposed fn || off % 8 != 0 then 0
  else if off = 0 then s.dev.devstat
  else if off = 0xC00 then BitVec.ofNat 64 (bitOf l.en + l.size.toNat * 2 ^ 8)
  else if off = 0xC08 then BitVec.ofNat 64 (l.lost.toNat + l.gen.toNat * 2 ^ 32)
  else if off = 0xC10 then l.base
  else if off = 0xC18 then BitVec.ofNat 64 (l.widx.toNat + l.ridx.toNat * 2 ^ 32)
  else if off = 0x8000 then l.msixAddr
  else if off = 0x8008 then BitVec.ofNat 64 (l.msixData.toNat + bitOf l.msixMask * 2 ^ 32)
  else if off = 0x9000 then BitVec.ofNat 64 (bitOf l.msixPending)
  else if off = 0x800 then BitVec.ofNat 64 (bitOf r.job.isSome)
  else if 0x808 ≤ off ∧ off ≤ 0x818 then
    if !s.hasLoader fn then 0 else if off = 0x808 then r.addr else if off = 0x810 then r.len else r.resaddr
  else
    match fn with
    | .vf f =>
      if 0x1000 ≤ off ∧ off < 0x1800 then
        let u := s.queue f.val ((off - 0x1000) / 32)
        let w := off % 32
        if w = 0 then
          BitVec.ofNat 64 (u.size.toNat * 2 ^ 8 + (match u.state with
            | .disabled => 0
            | .idle => 1
            | .running => 2
            | .error => 3
            | .stopped => 4))
        else if w = 16 then u.base
        else if w = 24 then BitVec.ofNat 64 (u.widx.toNat + u.ridx.toNat * 2 ^ 32)
        else 0
      else 0
    | .pf =>
      let d := s.dev.steward
      if off = 0x2800 then BitVec.ofNat 64 (bitOf d.busy)
      else if off = 0x2810 then BitVec.ofNat 64 (d.ctx.toNat * 2 ^ 40 + d.fkidx.toNat * 2 ^ 48)
      else if off = 0x2818 then d.args
      else if off = 0x2820 then d.resaddr
      else if off = 0x3000 then s.dev.hsel
      else if off = 0x3008 then s.counter s.dev.hsel.toNat
      else if off = numVfsReg then s.dev.numVfs.setWidth 64
      else 0

/-! ### Host accesses to memory (R366) -/

/-- The time-sliced chips whose undo logs hold a line of a range. -/
def State.undoHolders (s : State) (a n : Nat) : List Nat := (List.range 64).filter (fun v => s.inUndo v a n)

/-- The pages that a function's stage-2 tables map: intermediate address, physical address and size. -/
def State.mapping (s : State) (v : Nat) : List (Nat × Nat × Nat) :=
  match s.rootOf v with
  | none => []
  | some root => s.leaves [0, 1, 2, 3] root 0
/-- What a host write makes of the stage-2 tables (R396): pages that it maps into a function's pass to the function, and a write that would map
a page of another function, or one out of use, does not happen (log entry 134). -/
def State.hostWrite (s : State) (a : Nat) (bs : List Byte) : State :=
  let t := s.writePhys none true a bs
  let new := ((List.range 64).map (fun v => (v, (t.mapping v).filter (fun x => !(s.mapping v).contains x)))).filter (fun e => !e.2.isEmpty)
  let pages (l : List (Nat × Nat × Nat)) : List (Nat × Nat) := (l.map (fun x => x.2)).filter (fun p => !Config.isHostMemory (lineOf p.1))
  if new.all (fun e => s.pagesFree e.1 (pages e.2)) then new.foldl (fun u e => u.takePages e.1 (pages e.2)) t else s

/-- HOST_ACCESS (R366): it waits while a line stands in a chip's undo log, and forces that chip's checkpoint. A read that meets
poison gets no data (R203). -/
def execHostAccess (op : HostOp) (s : State) : Host.Outcome State Fault Refusal :=
  let r : Nat × Nat := match op with
    | .read a n => (a, n)
    | .write a bs => (a, bs.length)
  let hs := if r.2 = 0 then [] else s.undoHolders r.1 r.2
  if !hs.isEmpty then .next (hs.foldl (fun t v => t.modChip v (fun c => { c with outsideWait := true })) s)
  else
    match op with
    | .read a n =>
      .next (if n = 0 ∨ s.linePoisoned a n = true then s
        else s.modDev (fun d => { d with hostReads := d.hostReads ++ [(a, s.readBytes none a n)] }))
    | .write a bs => .next (s.hostWrite a bs)

/-! ### Lifetime counters (R437) -/

/-- COUNTER_COMMIT (R437): at most 4,096 commits in the module's life. -/
def execCounterCommit (s : State) : Host.Outcome State Fault Refusal :=
  if s.dev.commitsLeft = 0 then .next s
  else
    .next (s.modDev (fun d =>
      { d with commitsLeft := d.commitsLeft - 1, savedCounters := d.counters }))

/-! ### Storage errors (R191, R200, R203, R345, R436) -/

/-- Whether two errors lie in one structure (R436): a KSM row is one, whichever of its pages they strike. -/
def sameStructure (x y : Structure) : Bool :=
  match x, y with
  | .ksmRow k r _, .ksmRow l t _ => k == l && r == t
  | x, y => x == y
/-- A detected error: the structure that holds it is to be tested. -/
def State.noteError (s : State) (x : Structure) : State :=
  s.modDev (fun d =>
    { d with
      errors := d.errors ++ [(x, d.epoch + s.now)]
      tests := if d.tests.any (fun y => sameStructure y x) then d.tests else d.tests ++ [x] })

/-- The bank row of a unified-store offset (R16, R188). -/
def bankRowOf (core off : Nat) : Structure := .bankRow core (off / 16 % 32) (off / 512)

/-- Whether an error strikes a place: the 16-byte word of a register or of a scratchpad, or the line of an address. -/
def strikes : ErrorSite → Loc → Bool
  | .register k n, .reg u off =>
    u == keyBlock k && decide (keySquad k * 2 ^ 15 + n * 2 ^ 7 + keySlice k * 16 ≤ off)
      && decide (off < keySquad k * 2 ^ 15 + n * 2 ^ 7 + keySlice k * 16 + 16)
  | .scratch u w, .scratch v off => u == v && off / 16 == w
  | .line a _ _, .mem p | .l2 a _ _ _, .mem p => lineOf a == lineOf p
  | _, _ => false
/-- Whether an error strikes a byte of a lane. -/
def struck (site : ErrorSite) (c : Ctx) (a : LaneAcc) (n : Nat) : Bool :=
  (List.range n).any (fun i => ((c.placeOf a i).map (strikes site)).getD false)
/-- The state that an uncorrectable error strikes: loads issued before it have read what it strikes, as far as they could (log entry 58). -/
def State.beforeError (s : State) (site : ErrorSite) (corrected : Bool) : State :=
  if corrected then s else s.bindBefore (struck site)

/-- MEMORY_ERROR: a corrected error is counted; an uncorrectable one poisons what it strikes, and drops an instruction-cache
line. None strikes what an issued load has still to read (log entry 58). -/
def execMemoryError (site : ErrorSite) (corrected : Bool) (s0 : State) : Host.Outcome State Fault Refusal :=
  let s := s0.beforeError site corrected
  if !corrected && s.awaited (struck site) then .next s0 else
  let perCore (t : State) (c : Nat) : State := if c < 160 then t.bump (if corrected then c else 0xA0 + c) else t
  let perStack (t : State) (k : Fin 12) : State := t.bump (if corrected then 0x140 + k.val else 0x14C + k.val)
  match site with
  | .register k n =>
    match s.ctx k with
    | none => .next s
    | some c =>
      if c.squad.vcount ≤ n then .next s
      else
        let s1 := if corrected then s else s.modSlice k (fun x => { x with vpoison := Sparse.set false x.vpoison n true })
        .next ((perCore s1 c.b.core).noteError (bankRowOf c.b.core (c.squad.vbase + n * 128 + keySlice k * 16)))
  | .scratch u w =>
    match Table.find s.blocks u with
    | none => .next s
    | some b =>
      if b.scratchSize ≤ w * 16 then .next s
      else
        let s1 := if corrected then s else s.modBlock u (fun b => { b with poison := Sparse.set false b.poison w true })
        .next ((perCore s1 b.core).noteError (bankRowOf b.core (b.scratchAt + w * 16)))
  | .cell core row col =>
    if 160 ≤ core ∨ 512 ≤ row ∨ 128 ≤ col then .next s
    else
      let s1 := if corrected then s
        else s.modCore core (fun c => { c with accPoison := Sparse.set false c.accPoison (row * 128 + col) true })
      .next ((perCore s1 core).noteError (.accRow core row))
  | .line a k row =>
    let s1 := if corrected then s else { s with poison := Sparse.set false s.poison (lineOf a) true }
    .next ((perStack s1 k).noteError (.ksmRow k row (a / 65536)))
  | .l2 a d sl set =>
    let s1 := if corrected then s else { s with poison := Sparse.set false s.poison (lineOf a) true }
    .next (s1.noteError (.l2Set d.val sl.val set))
  | .icache core key =>
    .next (perCore (if corrected then s
      else s.modCore core (fun c => { c with icache := c.icache.filter (fun e => e.1 / 128 != key / 128) })) core)
  | .lanes core sched => .next ((perCore s core).noteError (.laneGroup core sched))

/-- LANE_RETRAIN (R436, R437): a retrain of a Melsan link is counted. -/
def execLaneRetrain (link : Fin 16) (bridge : Bool) (lane : Nat) (s : State) : Host.Outcome State Fault Refusal :=
  if bridge then .next (s.noteError (.bridgeLane ⟨link.val % 4, Nat.mod_lt _ (by decide)⟩ lane))
  else .next ((s.bump (0x160 + link.val)).noteError (.melsanLane link lane))

/-- PATROL_SCRUB (R202): the line is read, corrected and rewritten; an error it meets is a MEMORY_ERROR. -/
def execPatrolScrub (_line : Nat) (_stack : Fin 12) (s : State) : Host.Outcome State Fault Refusal := .next s

/-! ### The targeted self-test (R436) -/

/-- The structures that share spares. -/
def spareGroup : Structure → Structure
  | .bankRow c b _ => .bankRow c b 0
  | .accRow c _ => .accRow c 0
  | .laneGroup c s => .laneGroup c s
  | .l2Set d sl set => .l2Set d sl set
  | .ksmRow k _ _ => .ksmRow k 0 0
  | .melsanLane l _ => .melsanLane l 0
  | .bridgeLane b _ => .bridgeLane b 0
/-- The spares of a group. -/
def spares (x : Structure) : Nat :=
  match x with
  | .bankRow _ _ _ => 8
  | .accRow _ _ => 4
  | .laneGroup _ _ => 0
  | .l2Set _ _ _ | .ksmRow _ _ _ => Config.spareUnits x
  | .melsanLane _ _ | .bridgeLane _ _ => 1
/-- How often a key stands in a list of counts. -/
def countOf (x : Structure) (l : List (Structure × Nat)) : Nat := ((l.find? (fun e => e.1 == x)).map (fun e => e.2)).getD 0

/-- A core is retired: from then on it takes no new block (R436). -/
def State.retire (s : State) (c : Nat) : State :=
  if (s.core c).retired then s else (s.modCore c (fun k => { k with retired := true })).bump 0x171
/-- What happens when no spare remains. The pages of a KSM row are those of its errors. -/
def State.worn (s : State) : Structure → State
  | .bankRow c _ _ | .laneGroup c _ => s.retire c
  | .accRow c _ => s.modCore c (fun k => { k with noMatrix := true })
  | .l2Set _ _ _ => s
  | .ksmRow k row page => s.modDev (fun d =>
      { d with badPages := d.badPages ++ (page :: (d.errors.filterMap (fun e => match e.1 with
          | .ksmRow l r p => if l = k ∧ r = row then some p else none
          | _ => none))).eraseDups })
  | .melsanLane l _ => s.modDev (fun d => { d with halfWidth := d.halfWidth ++ [l.val] })
  | .bridgeLane b _ => s.modDev (fun d => { d with halfWidth := d.halfWidth ++ [16 + b.val] })
/-- A lasting fault is spared, or the structure is given up. -/
def State.spare (s : State) (x : Structure) : State :=
  let g := spareGroup x
  let n := countOf g s.dev.spared
  if n < spares g then
    (s.modDev (fun d => { d with spared := (g, n + 1) :: d.spared.filter (fun e => e.1 != g) })).bump 0x170
  else s.worn x

/-- SELF_TEST (R436): a structure in which an error was detected is tested; the fault is lasting when the test fails, or when
two errors lie within 24 hours. -/
def execSelfTest (x : Structure) (fails : Bool) (s : State) : Host.Outcome State Fault Refusal :=
  if s.dev.tests.any (fun y => sameStructure y x) then
    let ts := (s.dev.errors.filter (fun e => sameStructure e.1 x)).map (fun e => e.2)
    let last := ts.getLast?.getD 0
    let again := decide (2 ≤ (ts.filter (fun t => decide (last ≤ t + 24 * hourCycles))).length)
    let s1 := s.modDev (fun d => { d with tests := d.tests.filter (fun y => !sameStructure y x) })
    if fails || again then .next ((s1.spare x).modDev (fun d => { d with errors := d.errors.filter (fun e => !sameStructure e.1 x) }))
    else .next s1
  else .next s

/-! ### Power and cooling (R435) -/

/-- THERMAL_THROTTLE (R435): the management complex lowers GOVCFG.CAP of a core. -/
def execThermalThrottle (core : Nat) (cap : BitVec 9) (s : State) : Host.Outcome State Fault Refusal :=
  if core < 160 ∧ 16 ≤ cap.toNat ∧ cap.toNat < govCap (s.core core).govNext then
    .next (s.putGovcfg core (BitVec.ofNat 64 (setBits (s.core core).govNext.toNat 16 9 cap.toNat)))
  else .next s

/-- Running grids end with STATUS 3, and blocks are killed (R435). -/
def stopGrids (gs : Table Grid) : Table Grid :=
  gs.map (fun e =>
    if e.2.state = .dispatching ∨ e.2.state = .draining then (e.1, { e.2 with state := .killing, status := 3, undisp := [] }) else e)
/-- Every block is killed. -/
def stopBlocks (bs : Table Block) : Table Block := bs.map (fun e => (e.1, { e.2 with killed := true }))

/-- THERMAL_SHUTDOWN (R435): every core stops, and every running grid ends with STATUS 3; those of a committed image with it, so that a
rollback brings none back. -/
def execThermalShutdown (s : State) : Host.Outcome State Fault Refusal :=
  let s1 := s.modDev (fun d => { d with shutdown := true })
  .next { s1 with
    grids := stopGrids s.grids
    blocks := stopBlocks s.blocks
    chips := s.chips.map (fun e => (e.1, { e.2 with committed := e.2.committed.map (fun i =>
      { i with grids := stopGrids i.grids, blocks := stopBlocks i.blocks }) })) }

end Sys2Proof.Machine
end

