-- ==== Sys2Proof/Machine/Ecdsa.lean ====
section
/-! DEFINITION. ECDSA verification on the P-384 curve with SHA-384, which the manual names for container and firmware
signatures (R84, R86, R432): the algorithm of FIPS 186. -/

namespace Sys2Proof.Ecdsa

/-- The field's prime. -/
def p : Nat := 2 ^ 384 - 2 ^ 128 - 2 ^ 96 + 2 ^ 32 - 1
/-- The curve's constant term; its linear coefficient is −3. -/
def b : Nat := 0xb3312fa7e23ee7e4988e056be3f82d19181d9c6efe8141120314088f5013875ac656398d8a2ed19d2a85c8edd3ec2aef
/-- The order of the base point. -/
def n : Nat := 0xffffffffffffffffffffffffffffffffffffffffffffffffc7634d81f4372ddf581a0db248b0a77aecec196accc52973
/-- The base point. -/
def base : Nat × Nat :=
  (0xaa87ca22be8b05378eb1c71ef320ad746e1d3b628ba79b9859f741e082542a385502f25dbf55296c3a545e3872760ab7,
   0x3617de4a96262c6f5d9e98bf9292dc29f8f41dbd289a147ce9da3113b5f0b8c00a60b1ce1d7e819d7a431d7c90ea0e5f)

/-- x^e modulo m over the low k bits of e. -/
def powMod (m : Nat) : Nat → Nat → Nat → Nat
  | 0, _, _ => 1 % m
  | k + 1, x, e =>
    let r := powMod m k (x * x % m) (e / 2)
    if e % 2 = 1 then r * x % m else r
/-- The inverse modulo a prime. -/
def inv (m x : Nat) : Nat := powMod m 384 (x % m) (m - 2)

/-- Whether a point lies on the curve. -/
def onCurve (q : Nat × Nat) : Bool :=
  decide (q.1 < p) && decide (q.2 < p) && q.2 * q.2 % p == (q.1 * q.1 % p * q.1 + (p - 3) * q.1 + b) % p

/-- The sum of two points; `none` is the point at infinity. -/
def add : Option (Nat × Nat) → Option (Nat × Nat) → Option (Nat × Nat)
  | none, y => y
  | x, none => x
  | some (x1, y1), some (x2, y2) =>
    if x1 = x2 ∧ (y1 + y2) % p = 0 then none
    else
      let l := if x1 = x2 then (3 * x1 * x1 + (p - 3)) % p * inv p (2 * y1) % p
        else (y2 + (p - y1)) % p * inv p (x2 + (p - x1)) % p
      let x3 := (l * l + (p - x1) + (p - x2)) % p
      some (x3, (l * (x1 + (p - x3)) + (p - y1)) % p)

/-- k times a point, over the low bits of k. -/
def mul : Nat → Nat → Option (Nat × Nat) → Option (Nat × Nat)
  | 0, _, _ => none
  | i + 1, k, q =>
    let r := mul i (k / 2) (add q q)
    if k % 2 = 1 then add r q else r

/-- A public key in uncompressed SEC 1 form as a point. -/
def pubKey (key : List Byte) : Option (Nat × Nat) :=
  let q := (Sha.beNat ((key.drop 1).take 48), Sha.beNat (key.drop 49))
  if key.length = 97 ∧ key.headD 0 = 4 ∧ onCurve q = true then some q else none

/-- Whether a signature, r then s in 48 bytes each with the highest byte first, verifies over a message. -/
def verify (key msg sig : List Byte) : Bool :=
  match pubKey key with
  | none => false
  | some q =>
    let r := Sha.beNat (sig.take 48)
    let s := Sha.beNat (sig.drop 48)
    if sig.length ≠ 96 ∨ r = 0 ∨ n ≤ r ∨ s = 0 ∨ n ≤ s then false
    else
      let w := inv n s
      let z := Sha.beNat (Sha.sha384 msg)
      match add (mul 384 (z * w % n) (some base)) (mul 384 (r * w % n) (some q)) with
      | none => false
      | some (x, _) => x % n == r

end Sys2Proof.Ecdsa
end

