-- ==== Sys2Proof/Machine/Container.lean ====
section
/-! DEFINITION. The loader engine: containers, their checks, and their installation (R83–R88, R161, R387). -/

namespace Sys2Proof.Machine

/-! ### Format (R83–R85) -/

/-- A field of n bytes of a byte string. -/
def le (m : List Byte) (off n : Nat) : Nat := leNat ((m.drop off).take n)

/-- A segment entry (R84), with its 192 bytes. -/
structure SegEntry where
  raw : List Byte
  kind : Nat
  align : Nat
  foff : Nat
  fsize : Nat
  vsize : Nat
  deriving DecidableEq, Repr

/-- Reads a segment entry. -/
def segEntry (e : List Byte) : SegEntry := ⟨e, le e 0 2, le e 4 1, le e 8 8, le e 16 8, le e 24 8⟩
/-- MEAS of an entry. -/
def SegEntry.meas (e : SegEntry) : BitVec 384 := BitVec.ofNat 384 (le e.raw 32 48)
/-- The contents of a segment. -/
def SegEntry.content (e : SegEntry) (c : List Byte) : List Byte := (c.drop e.foff).take e.fsize
/-- Whether a segment is mapped in the address space: launch records go to the kernel table, and notes nowhere (R85). -/
def SegEntry.mapped (e : SegEntry) : Bool := e.kind != 4 && e.kind != 7

/-- NSEG of a container. -/
def nseg (c : List Byte) : Nat := le c 6 2
/-- The header's format (R83). -/
def headerOk (c : List Byte) : Bool :=
  decide (128 ≤ c.length) && le c 0 4 == 0x4D535254 && le c 4 2 == 1 && decide (1 ≤ nseg c) && decide (nseg c ≤ 64)
    && le c 64 64 == 0 && le c 8 8 == c.length
/-- The segment entries. -/
def entriesOf (c : List Byte) : List SegEntry := (List.range (nseg c)).map (fun i => segEntry ((c.drop (128 + 192 * i)).take 192))

/-- Whether two content ranges lie apart. -/
def rangesApart (a b : Nat × Nat) : Bool := a.2 == 0 || b.2 == 0 || decide (a.1 + a.2 ≤ b.1) || decide (b.1 + b.2 ≤ a.1)
/-- Whether no two ranges of a list overlap. -/
def allApart : List (Nat × Nat) → Bool
  | [] => true
  | a :: as => as.all (rangesApart a) && allApart as

/-- The format of one entry of a container (R84, R85, R87). -/
def SegEntry.ok (e : SegEntry) (total : Nat) : Bool :=
  decide (1 ≤ e.kind) && decide (e.kind ≤ 7) && decide (16 ≤ e.align) && decide (e.align ≤ 29)
    && le e.raw 2 2 == 0 && le e.raw 5 3 == 0 && le e.raw 176 16 == 0
    && e.foff % 8 == 0 && decide (e.foff + e.fsize ≤ total) && decide (e.fsize ≤ e.vsize)
    && (e.kind != 1 || e.fsize % 8 == 0)
/-- The format of all entries. -/
def entriesOk (c : List Byte) : Bool :=
  let es := entriesOf c
  decide (128 + 192 * nseg c ≤ c.length) && es.all (fun e => e.ok c.length) && es.any (fun e => e.kind == 1)
    && allApart ((0, 128 + 192 * nseg c) :: es.map (fun e => (e.foff, e.fsize)))

/-! ### Key, measurements and signatures (R86) -/

/-- The measurement that a segment's bytes give. -/
def SegEntry.measure (e : SegEntry) (c : List Byte) : BitVec 384 := Sha.digest (e.raw.take 32 ++ e.content c)
/-- Whether a segment's signature verifies. -/
def SegEntry.signed (e : SegEntry) (key : List Byte) : Bool := Ecdsa.verify key (e.raw.take 80) ((e.raw.drop 80).take 96)

/-- The first failure of steps 1 to 4 of R87; 0 when there is none. -/
def checkSegments (c key : List Byte) : List SegEntry → Nat
  | [] => 0
  | e :: es =>
    if e.measure c ≠ e.meas then 3 else if e.signed key then checkSegments c key es else 4
/-- Steps 1 to 4 of R87. -/
def checkContainer (keys : List (List Byte)) (c : List Byte) : Nat :=
  if !headerOk c || !entriesOk c then 1
  else
    match keys.find? (fun k => Sha.sha384 k == (c.drop 16).take 48) with
    | none => 2
    | some k => checkSegments c k (entriesOf c)

/-! ### Reservation (R87) -/

/-- The pages of a segment, 64 KiB each. -/
def SegEntry.pages (e : SegEntry) : Nat := (e.vsize + 65535) / 65536

/-- The level-3 stage-1 entry of a page, as a physical address, when its tables exist (log entry 51). -/
def State.leafSlot (s : State) (v a : Nat) : Option Nat :=
  match s.asidEntry (s.chip v).asid.toNat with
  | none => none
  | some (root2, root1, vmid) =>
    let read (t l : Nat) : Option Nat :=
      match s.stage2 [] 99000 vmid root2 (t + pteOffset l a) .read with
      | .ok x => some x.pa
      | .error _ => none
    let next (t l : Nat) : Option Nat :=
      match read t l with
      | none => none
      | some pa =>
        match parsePte l (leNat (s.readBytes (s.keyTag v) pa 8)) with
        | some (.table oa) => some oa
        | _ => none
    ((next root1 0).bind (fun t => next t 1)).bind (fun t => (next t 2).bind (fun u => read u 3))

/-- Whether a page of the address space is free: its tables exist and its entry is invalid. -/
def State.pageFree (s : State) (v a : Nat) : Bool :=
  match s.leafSlot v a with
  | none => false
  | some pa => !testBit (leNat (s.readBytes (s.keyTag v) pa 8)) 0

/-- Whether a table of a function's stage 1, of level l, is in page q of the function's memory, or leads to that page: a table below it is
there, or it is mapped. Only the entries with a listed byte are looked at: the others are invalid. -/
def State.leadsTo (s : State) (v vmid root2 : Nat) : Nat → Nat → Nat → Nat → Bool
  | 0, _, _, _ => false
  | fuel + 1, l, t, q =>
    t / 65536 == q ||
      match s.stage2 [] 99000 vmid root2 t .read with
      | .error _ => false
      | .ok x =>
        ((s.mem.filter (fun c => decide (x.pa ≤ c.1) && decide (c.1 < x.pa + 8 * 2 ^ levelBits l))).map
          (fun c => (c.1 - x.pa) / 8)).eraseDups.any (fun i =>
            match parsePte l (leNat (s.readBytes (s.keyTag v) (x.pa + 8 * i) 8)) with
            | none => false
            | some (.table oa) => State.leadsTo s v vmid root2 fuel (l + 1) oa q
            | some (.leaf oa _ _ _ _) => decide (oa / 65536 ≤ q) && decide (q < oa / 65536 + if l = 2 then 8192 else 1))
/-- Whether a page of a function's memory is in use: one of its ASID entries leads to it, from what an earlier container or the guest has
mapped, or as a table of stage 1. -/
def State.pageUsed (s : State) (v ipa : Nat) : Bool :=
  s.dev.asids.any (fun e =>
    match parseAsid e.2 with
    | none => false
    | some (root2, root1, vmid) => vmid == v && s.leadsTo v vmid root2 4 0 root1 (ipa / 65536))

/-- Whether a page of memory may stand behind a range: the function's own, in device memory, not in use, and not taken out of use (R87,
R436). -/
def State.pageOwned (s : State) (v ipa : Nat) : Bool :=
  !s.pageUsed v ipa && (s.share v).any (fun e => decide (e.1 ≤ ipa) && decide (ipa + 65536 ≤ e.1 + e.2.2)
    && !s.dev.badPages.contains ((e.2.1 + (ipa - e.1)) / 65536))

/-- The ranges that the loader reserves for the mapped segments: virtual base, IPA, entry. -/
def placed (es : List SegEntry) (places : List (Nat × Nat)) : List (Nat × Nat × SegEntry) :=
  ((es.filter SegEntry.mapped).zip places).map (fun x => (x.2.1, x.2.2, x.1))

/-- Whether every reservation holds: ranges, the memory behind them, kernel-table entries. -/
def State.reserveOk (s : State) (v : Nat) (es : List SegEntry) (places : List (Nat × Nat)) (records : Nat) : Bool :=
  let ps := placed es places
  (es.filter SegEntry.mapped).length == places.length
    && ps.all (fun x => x.1 % 2 ^ x.2.2.align == 0 && x.2.1 % 65536 == 0
      && decide (x.1 + x.2.2.pages * 65536 ≤ 0x7FFFFF0000000000)
      && (List.range x.2.2.pages).all (fun i => s.pageFree v (x.1 + i * 65536) && s.pageOwned v (x.2.1 + i * 65536)))
    && allApart (ps.map (fun x => (x.1, x.2.2.pages * 65536)))
    && allApart (ps.map (fun x => (x.2.1, x.2.2.pages * 65536)))
    && decide ((s.chip v).kernels.length + records ≤ 4096)

/-! ### Installation (R85, R88, R161) -/

/-- R, W and X of a segment's pages (R85): a SPLICE page is open to the Braze unit only. -/
def segPerms (kind : Nat) : Nat := if kind = 1 then 20 else if kind = 3 then 12 else if kind = 6 then 0 else 4
/-- The level-3 stage-1 entry of a segment's page. -/
def segPte (kind ipa : Nat) : Nat := 3 + segPerms kind + ipa / 65536 * 65536

/-- Writes bytes at an IPA of a function. -/
def State.writeIpa (s : State) (v ipa : Nat) (bs : List Byte) : State :=
  match (s.share v).find? (fun e => decide (e.1 ≤ ipa) && decide (ipa < e.1 + e.2.2)) with
  | none => s
  | some e => s.writePhys (some v) true (e.2.1 + (ipa - e.1)) bs

/-- Maps one page of a segment with its bytes. -/
def State.mapPage (s : State) (v kind a ipa : Nat) (bs : List Byte) : State :=
  let s1 := s.writeIpa v ipa ((bs ++ List.replicate 65536 0).take 65536)
  match s1.leafSlot v a with
  | none => s1
  | some pa => s1.writePhys (some v) true pa (leBytes 8 (segPte kind ipa))

/-- Maps a segment; the instruction caches lose every line of the pages that it maps (R88). -/
def State.mapSegment (s : State) (v : Nat) (c : List Byte) (x : Nat × Nat × SegEntry) : State :=
  let e := x.2.2
  let s1 := (List.range e.pages).foldl (fun t i =>
    t.mapPage v e.kind (x.1 + i * 65536) (x.2.1 + i * 65536) ((e.content c).drop (i * 65536))) s
  { s1 with cores := s1.cores.map (fun k =>
      (k.1, { k.2 with icache := k.2.icache.filter (fun w =>
        !(decide (icKey v x.1 ≤ w.1) && decide (w.1 < icKey v x.1 + e.pages * 65536))) })) }

/-- Replaces a 64-bit field of a launch record. -/
def setRec (r : BitVec 1024) (lo x : Nat) : BitVec 1024 := BitVec.ofNat 1024 (setBits r.toNat lo 64 x)
/-- A launch record as installed (R85, R161). -/
def relocate (r : BitVec 1024) (code dtab spl : Nat) : BitVec 1024 :=
  let r1 := setRec r 0 (fld r 63 0 + code)
  let r2 := if fld r 191 128 = 0 then r1 else setRec r1 128 (fld r 191 128 + code)
  let r3 := if fld r 383 352 = 0 then r2 else setRec r2 64 (fld r 127 64 + dtab)
  if fld r 255 192 = 0 then r3 else setRec r3 192 (fld r 255 192 + spl)

/-- The launch records of a container in its order: those of its LREC segments. -/
def recordsOf (es : List SegEntry) (c : List Byte) : List (BitVec 1024) :=
  (es.filter (fun e => e.kind == 4)).flatMap (fun e =>
    let m := e.content c
    (List.range (e.fsize / 128)).map (fun i => BitVec.ofNat 1024 (le m (128 * i) 128)))

/-- The load address of the first segment of a kind. -/
def firstAt (ps : List (Nat × Nat × SegEntry)) (kind : Nat) : Nat :=
  ((ps.find? (fun x => x.2.2.kind == kind)).map (fun x => x.1)).getD 0

/-- Puts records at consecutive indices. -/
def putFrom {α : Type} (t : Table α) (i : Nat) : List α → Table α
  | [] => t
  | x :: xs => putFrom (Table.put t i x) (i + 1) xs

/-- Installs a container (R88, R161): the attestation record first, then the segments and the launch records. -/
def State.install (s : State) (v : Nat) (c : List Byte) (es : List SegEntry) (places : List (Nat × Nat)) : State :=
  let ps := placed es places
  let rs := (recordsOf es c).map (fun r => relocate r (firstAt ps 1) (firstAt ps 5) (firstAt ps 6))
  let m := ((es.find? (fun e => e.kind == 1)).map SegEntry.meas).getD 0
  let s1 := s.modChip v (fun h =>
    es.foldl (fun g e => g.extend e.meas) (h.extend (BitVec.ofNat 384 (le c 16 48))))
  (ps.foldl (fun t x => t.mapSegment v c x) s1).modChip v (fun h =>
    { h with
      kernels := putFrom h.kernels h.kernels.length rs
      kmeas := putFrom h.kmeas h.kernels.length (rs.map (fun _ => m)) })

/-- Reads a container in a function's address space; none when a page of it cannot be read. -/
def State.readContainer (s : State) (v a n : Nat) : Option (List Byte) :=
  match s.qcPieces v ((s.diesOf v).headD 0) 99100 .read (cutPages a n) with
  | .error _ => none
  | .ok ps =>
    if ps.any (fun p => s.linePoisoned p.1 p.2.1) then none
    else some (ps.flatMap (fun p => s.readBytes (s.keyTag v) p.1 p.2.1))

/-- The result of a load (R387); one that cannot be written is lost (log entry 52). -/
def State.loadResult (s : State) (v : Nat) (resaddr : Word64) (code index : Nat) : State :=
  match s.qcWrite v ((s.diesOf v).headD 0) 99200 true resaddr.toNat (leBytes 16 (code + index * 2 ^ 32)) with
  | .error _ => s
  | .ok t => t

/-- CONTAINER_LOAD (R87, R387): the load in progress ends, with the ranges and memory that the loader found. The manual gives no
code for a container that cannot be read (log entry 52). -/
def execContainerLoad (f : Fin 64) (places : List (Nat × Nat)) (s : State) : Host.Outcome State Fault Refusal :=
  let v := f.val
  match (s.chip v).loader.job with
  | none => .next s
  | some (addr, len, res) =>
    let s0 := s.modChip v (fun c => { c with loader := { c.loader with job := none } })
    match s.readContainer v addr.toNat len.toNat with
    | none => .next (s0.loadResult v res (1 + s.pick 99300 5) 0)
    | some c =>
      let code := checkContainer (s.chip v).signKeys c
      let es := entriesOf c
      if code ≠ 0 then .next (s0.loadResult v res code 0)
      else if s.reserveOk v es places (recordsOf es c).length then
        .next ((s0.install v c es places).loadResult v res 0 (if (recordsOf es c).isEmpty then 0 else (s.chip v).kernels.length))
      else .next (s0.loadResult v res 5 0)

end Sys2Proof.Machine
end

