-- ==== Sys2Proof/Machine/Boot.lean ====
section
/-! DEFINITION. Module reset and signed boot (R431, R432, R437). -/

namespace Sys2Proof.Machine

/-! ### What a module reset leaves -/

/-- A core after a module reset: a retired core or a worn accumulator stays so (R436). -/
def Core.restart (c : Core) : Core := { Core.reset with retired := c.retired, noMatrix := c.noMatrix }

/-- The device after a module reset: fused values, committed counters, and what the spares have replaced stay (R432, R436,
R437; log entry 53). -/
def Dev.restart (d : Dev) (now : Nat) : Dev :=
  { Dev.reset with
    moduleId := d.moduleId, minSecurity := d.minSecurity, counters := d.savedCounters, savedCounters := d.savedCounters
    commitsLeft := d.commitsLeft, epoch := d.epoch + now, errors := d.errors, tests := d.tests, spared := d.spared
    badPages := d.badPages, halfWidth := d.halfWidth, nextKey := d.nextKey, nextUid := d.nextUid, nextGid := d.nextGid }

/-- The module right after a module reset, before boot: host memory is not the module's. -/
def State.restart (s : State) : State :=
  { State.reset with
    turns := s.turns, fresh := s.fresh
    cores := s.cores.map (fun e => (e.1, e.2.restart))
    chips := s.chips.map (fun e => (e.1, { Chip.reset with log := { EventLog.reset with gen := e.2.log.gen } }))
    dev := s.dev.restart s.now
    mem := s.mem.filter (fun c => Config.isHostMemory (lineOf c.1))
    poison := s.poison.filter (fun e => Config.isHostMemory e.1)
    lineKey := s.lineKey.filter (fun e => Config.isHostMemory e.1) }

/-! ### Boot (R432) -/

/-- DEVSTAT: firmware level, boot error, last step completed, ready (R431). -/
def devstatOf (fwLevel err stage ready : Nat) : Word64 :=
  BitVec.ofNat 64 (fwLevel % 2 ^ 16 * 2 ^ 32 + 0xA1000000 + err % 256 * 2 ^ 16 + stage % 8 * 2 + ready % 2)

/-- Boot stops at a failure: BOOTERR and the last step completed. -/
def State.bootFails (s : State) (fwLevel err stage : Nat) : State :=
  s.modDev (fun d => { d with devstat := devstatOf fwLevel err stage 0 })

/-- The signed configuration that a boot is given: one whose signature does not verify under the root key is none (log entry 123). -/
def signedConfig (img : BootImage) : List Byte := if Ecdsa.verify img.key img.config img.configSig then img.config else []

/-- Step 3: every component is measured into the log; what an image holds is Config's to say (log entry 123). -/
def State.measureBoot (s : State) (img : BootImage) : State :=
  let fallback := Config.imageFallback img.image
  s.modDev (fun d =>
    { d with
      measLog := (Config.imageComponents img.image ++ [fallback]).map Sha.digest
      fwMeas := Sha.digest img.image, fallbackMeas := Sha.digest fallback, configMeas := Sha.digest (signedConfig img)
      firmware := (Config.imageKernels img.image).foldl (fun (t : Table (BitVec 1024)) (e : Nat × BitVec 1024) => Table.put t e.1 e.2) [] })

/-- Step 5: the boot layout, 0x00 when none is given, or none that is valid (log entry 54). -/
def State.bootLayout (s : State) (layout : Option (BitVec 8)) : State :=
  let l := match layout with
    | none => 0
    | some x => if layoutOk x then x else 0
  (List.range 4).foldl (fun t d => t.modDie d (fun x => { x with partcfg := partcfgOf l d })) s

/-- Step 6: the fused minimum is raised, and READY is set. -/
def State.bootReady (s : State) (img : BootImage) : State :=
  s.modDev (fun d =>
    { d with minSecurity := max d.minSecurity (Config.imageSecurity img.image), devstat := devstatOf (Config.imageLevel img.image).toNat 0 6 1 })

/-- The steps of boot. -/
def State.boot (s : State) (img : BootImage) : State :=
  if Sha.digest img.key ≠ Config.rootKeyHash ∨ Ecdsa.verify img.key img.image img.sig = false then s.bootFails 0 1 0
  else if Config.imageSecurity img.image < s.dev.minSecurity then s.bootFails 0 2 1
  else
    let s1 := s.measureBoot img
    let lv := (Config.imageLevel img.image).toNat
    if !img.diesStart then s1.bootFails lv 4 2
    else if !img.ksmTrains then s1.bootFails lv 3 3
    else (s1.bootLayout (Config.configLayout (signedConfig img))).bootReady img

/-- MODULE_RESET (R432). While a recovery image waits at the physical function's loader request, the image that boots is the
one in memory there, and it passes through the same steps. -/
def execModuleReset (img : BootImage) (s : State) : Host.Outcome State Fault Refusal :=
  match s.dev.pfLoader.job with
  | some (a, n, _) =>
    if img.image = s.readBytes none a.toNat n.toNat then .next (s.restart.boot img) else .next s
  | none => .next (s.restart.boot img)

end Sys2Proof.Machine
end

