-- ==== Sys2Proof/Machine/Spdm.lean ====
section
/-! DEFINITION. The SPDM responder and attestation (R433, R434), keys (R407), and the TDISP interface (R406). -/

namespace Sys2Proof.Machine

/-- The connection of a function: virtual function n at n, the physical function at 64. -/
def fnIndex : Fn → Nat
  | .pf => 64
  | .vf n => n.val

/-- A connection before its first request. -/
def Spdm.start : Spdm := ⟨none, false, false, false, false, []⟩
/-- A function's connection. -/
def State.spdm (s : State) (fn : Fn) : Spdm := Table.getD s.dev.spdm (fnIndex fn) Spdm.start
/-- Changes a connection and appends a response. -/
def State.respond (s : State) (fn : Fn) (h : Spdm → Spdm) (r : Response) : State :=
  s.modDev (fun d =>
    let x := h (Table.getD d.spdm (fnIndex fn) Spdm.start)
    { d with spdm := Table.put d.spdm (fnIndex fn) { x with out := x.out ++ [r] } })
/-- A response that the connection's state permits, else the error response (log entry 55). -/
def State.answer (s : State) (fn : Fn) (ok : Bool) (h : Spdm → Spdm) (r : Response) : State :=
  if s.exposed fn then (if ok then s.respond fn h r else s.respond fn (fun x => x) .error) else s

/-- The certificate chain (R433). -/
def State.certChain (s : State) : List Byte := Config.deviceCertificates ++ Config.aliasCertificate s.dev.fwMeas

/-- GET_VERSION (R434): versions 1.2 and 1.3; a new connection begins. -/
def execGetVersion (fn : Fn) (s : State) : Host.Outcome State Fault Refusal :=
  .next (s.answer fn true (fun x => { Spdm.start with version := some 0, out := x.out }) (.version [0x12, 0x13]))

/-- GET_CAPABILITIES, which names the version used from then on. -/
def execGetCapabilities (fn : Fn) (v : BitVec 8) (s : State) : Host.Outcome State Fault Refusal :=
  .next (s.answer fn ((s.spdm fn).version.isSome && (v == 0x12 || v == 0x13))
    (fun x => { x with version := some v, caps := true }) (.capabilities Config.spdmCapabilities))

/-- NEGOTIATE_ALGORITHMS (R434). -/
def execNegotiateAlgorithms (fn : Fn) (s : State) : Host.Outcome State Fault Refusal :=
  .next (s.answer fn (s.spdm fn).caps (fun x => { x with algs := true })
    (.algorithms ["ECDSA P-384", "SHA-384", "ECDHE P-384", "AES-256-GCM"]))

/-- GET_DIGESTS. -/
def execGetDigests (fn : Fn) (s : State) : Host.Outcome State Fault Refusal :=
  .next (s.answer fn (s.spdm fn).algs (fun x => x) (.digests (Sha.digest s.certChain)))

/-- GET_CERTIFICATE: a portion of the chain, and how much remains after it. -/
def execGetCertificate (fn : Fn) (off len : Nat) (s : State) : Host.Outcome State Fault Refusal :=
  let part := (s.certChain.drop off).take len
  .next (s.answer fn ((s.spdm fn).algs && decide (off < s.certChain.length)) (fun x => x)
    (.certificate part (s.certChain.length - off - part.length)))

/-- CHALLENGE: signed by the alias key. -/
def execChallenge (fn : Fn) (nonce : List Byte) (s : State) : Host.Outcome State Fault Refusal :=
  .next (s.answer fn (s.spdm fn).algs (fun x => x)
    (.challengeAuth (Sha.digest s.certChain) (Config.aliasSign s.dev.fwMeas nonce)))

/-- The attestation record of a function; on the physical function, zero (R434). -/
def State.attOf (s : State) : Fn → BitVec 384
  | .pf => 0
  | .vf f => (s.chip f.val).att
/-- A measurement block (R434); the configuration's covers its boot layout, which is part of its bytes (log entry 123). A virtual function's index 0x10 only inside its own secure session. -/
def State.measBlock (s : State) (fn : Fn) (secured : Bool) (i : Nat) : Option (List Byte) :=
  if i = 1 then some Config.bootRomVersion
  else if i = 2 then some (Sha.digestBytes s.dev.fwMeas)
  else if i = 3 then some (Sha.digestBytes s.dev.fallbackMeas)
  else if i = 4 then some (leBytes 4 Config.unitVersion.toNat)
  else if i = 5 then some (Sha.digestBytes s.dev.configMeas)
  else if i = 0x10 ∧ (fn = .pf ∨ secured = true ∧ (s.spdm fn).session = true) then some (Sha.digestBytes (s.attOf fn))
  else none

/-- GET_MEASUREMENTS (R434): one block by its index, or with index 0xFF all that may be returned (log entry 55). -/
def execGetMeasurements (fn : Fn) (index : BitVec 8) (secured : Bool) (s : State) : Host.Outcome State Fault Refusal :=
  let all := if index = 0xFF then [1, 2, 3, 4, 5, 0x10] else [index.toNat]
  let bs := all.filterMap (fun i => (s.measBlock fn secured i).map (fun b => (i, b)))
  .next (s.answer fn ((s.spdm fn).algs && !bs.isEmpty) (fun x => x) (.measurements bs))

/-- KEY_EXCHANGE: the responder's ECDHE share, signed by the alias key. -/
def execKeyExchange (fn : Fn) (share : List Byte) (s : State) : Host.Outcome State Fault Refusal :=
  let mine := Config.responderShare s.fresh
  .next (s.answer fn (s.spdm fn).algs (fun x => { x with keyed := true, session := false })
    (.keyExchange mine (Config.aliasSign s.dev.fwMeas (share ++ mine))))

/-- FINISH: the secure session begins when the requester's proof verifies. -/
def execFinish (fn : Fn) (verified : Bool) (s : State) : Host.Outcome State Fault Refusal :=
  .next (s.answer fn ((s.spdm fn).keyed && verified) (fun x => { x with keyed := false, session := true }) .finish)

/-- END_SESSION. -/
def execEndSession (fn : Fn) (s : State) : Host.Outcome State Fault Refusal :=
  .next (s.answer fn (s.spdm fn).session (fun x => { x with session := false }) .endSession)

/-! ### Keys (R407) -/

/-- Installs a guest's key, in RUN only: at most 16 signing keys. -/
def State.installKey (s : State) (v : Nat) (m : VendorMsg) : Option State :=
  if (s.chip v).tdisp ≠ .run then none
  else
    match m with
    | .signingKey k =>
      if (s.chip v).signKeys.contains k then some s
      else if 16 ≤ (s.chip v).signKeys.length then none
      else some (s.modChip v (fun c => { c with signKeys := c.signKeys ++ [k] }))
    | .linkKey i k => some (s.modChip v (fun c => { c with linkKeys := Table.put c.linkKeys i.val k }))
    | .other _ => none

/-- VENDOR_DEFINED_REQUEST (R407, R434): keys travel in messages of the secure session only. -/
def execVendorDefinedRequest (fn : Fn) (secured : Bool) (msg : VendorMsg) (s : State) : Host.Outcome State Fault Refusal :=
  let t : Option State :=
    match fn with
    | .pf => none
    | .vf f => if secured && (s.spdm fn).session then s.installKey f.val msg else none
  .next (match t with
    | some u => u.answer fn true (fun x => x) .vendor
    | none => s.answer fn false (fun x => x) .vendor)

/-! ### TDISP (R406) -/

/-- A TDISP request, inside the function's secure session, in the states that permit it. -/
def State.tdispRequest (s : State) (f : Fin 64) (ok : Bool) (act : State → State) (r : Response) : State :=
  if ok && (s.spdm (.vf f)).session then (act s).answer (.vf f) true (fun x => x) r
  else s.answer (.vf f) false (fun x => x) r

/-- LOCK_INTERFACE: the device generates the function's memory key. -/
def execLockInterface (f : Fin 64) (s : State) : Host.Outcome State Fault Refusal :=
  .next (s.tdispRequest f ((s.chip f.val).tdisp == .unlocked)
    (fun t => (t.modChip f.val (fun c => { c with tdisp := .locked, keyId := t.dev.nextKey })).modDev (fun d =>
      { d with nextKey := d.nextKey + 1 })) .tdispAck)

/-- START_INTERFACE: queues may be bound from now on. -/
def execStartInterface (f : Fin 64) (s : State) : Host.Outcome State Fault Refusal :=
  .next (s.tdispRequest f ((s.chip f.val).tdisp == .locked)
    (fun t =>
      (List.range 64).foldl (fun u q => if (u.bound f.val q).isSome then u.refreshQueue f.val q else u)
        (t.modChip f.val (fun c => { c with tdisp := .run }))) .tdispAck)

/-- STOP_INTERFACE: the function returns to CONFIG_UNLOCKED, with its keys, memory share and state scrubbed. -/
def execStopInterface (f : Fin 64) (s : State) : Host.Outcome State Fault Refusal :=
  .next (s.tdispRequest f true
    (fun t => if (t.chip f.val).tdisp = .unlocked then t else (t.resetFn f.val).unlock f.val) .tdispAck)

/-- GET_DEVICE_INTERFACE_REPORT: attestation record, function record, and the module's PARTCFG values. -/
def execGetDeviceInterfaceReport (f : Fin 64) (s : State) : Host.Outcome State Fault Refusal :=
  .next (s.tdispRequest f true (fun t => t)
    (.report (s.chip f.val).att (s.frec f.val) ((List.range 4).map (fun d => (s.die d).partcfg))))

/-- GET_DEVICE_INTERFACE_STATE. -/
def execGetDeviceInterfaceState (f : Fin 64) (s : State) : Host.Outcome State Fault Refusal :=
  .next (s.tdispRequest f true (fun t => t) (.state (s.chip f.val).tdisp))

end Sys2Proof.Machine
end

