-- ==== Sys2Proof/Machine/Dispatch.lean ====
section
/-! DEFINITION. One arm per row of spec/opcode_table.json: the meaning of each instruction and of each step of another
agent. -/

namespace Sys2Proof.Machine

/-- What an instruction, or a step of another agent, does. -/
def exec (i : Instr) (s : State) : Host.Outcome State Fault Refusal :=
  match i with
  | .nop c => Sys2Proof.Machine.execNop c s
  | .pairedWord m h1 h2 => Sys2Proof.Machine.execPairedWord m h1 h2 s
  | .illegalInstruction w => Sys2Proof.Machine.execIllegalInstruction w s
  | .sadd c sat d a b => Sys2Proof.Machine.execSadd c sat d a b s
  | .ssub c sat d a b => Sys2Proof.Machine.execSsub c sat d a b s
  | .smul c sat d a b => Sys2Proof.Machine.execSmul c sat d a b s
  | .smulh c d a b => Sys2Proof.Machine.execSmulh c d a b s
  | .smulhn c d a b => Sys2Proof.Machine.execSmulhn c d a b s
  | .smin c d a b => Sys2Proof.Machine.execSmin c d a b s
  | .smax c d a b => Sys2Proof.Machine.execSmax c d a b s
  | .sminn c d a b => Sys2Proof.Machine.execSminn c d a b s
  | .smaxn c d a b => Sys2Proof.Machine.execSmaxn c d a b s
  | .sand c d a b => Sys2Proof.Machine.execSand c d a b s
  | .sor c d a b => Sys2Proof.Machine.execSor c d a b s
  | .sxor c d a b => Sys2Proof.Machine.execSxor c d a b s
  | .sandn c d a b => Sys2Proof.Machine.execSandn c d a b s
  | .sshl c d a b => Sys2Proof.Machine.execSshl c d a b s
  | .sshr c d a b => Sys2Proof.Machine.execSshr c d a b s
  | .ssra c d a b => Sys2Proof.Machine.execSsra c d a b s
  | .srot c d a b => Sys2Proof.Machine.execSrot c d a b s
  | .sclz c d a => Sys2Proof.Machine.execSclz c d a s
  | .sctz c d a => Sys2Proof.Machine.execSctz c d a s
  | .spopc c d a => Sys2Proof.Machine.execSpopc c d a s
  | .sbrev c d a => Sys2Proof.Machine.execSbrev c d a s
  | .sbfx c signed d a b x => Sys2Proof.Machine.execSbfx c signed d a b x s
  | .sbfi c d a b x => Sys2Proof.Machine.execSbfi c d a b x s
  | .ssext c z n d a => Sys2Proof.Machine.execSsext c z n d a s
  | .slea c pod k d a b => Sys2Proof.Machine.execSlea c pod k d a b s
  | .sselz c d a b x => Sys2Proof.Machine.execSselz c d a b x s
  | .smov c d a => Sys2Proof.Machine.execSmov c d a s
  | .scmp c cond a b => Sys2Proof.Machine.execScmp c cond a b s
  | .sabs c sat d a => Sys2Proof.Machine.execSabs c sat d a s
  | .sclamp c n d a b x => Sys2Proof.Machine.execSclamp c n d a b x s
  | .saddi c sat d a k => Sys2Proof.Machine.execSaddi c sat d a k s
  | .smuli c sat d a k => Sys2Proof.Machine.execSmuli c sat d a k s
  | .sandi c d a k => Sys2Proof.Machine.execSandi c d a k s
  | .sori c d a k => Sys2Proof.Machine.execSori c d a k s
  | .sxori c d a k => Sys2Proof.Machine.execSxori c d a k s
  | .sshli c d a k => Sys2Proof.Machine.execSshli c d a k s
  | .sshri c d a k => Sys2Proof.Machine.execSshri c d a k s
  | .ssrai c d a k => Sys2Proof.Machine.execSsrai c d a k s
  | .sroti c d a k => Sys2Proof.Machine.execSroti c d a k s
  | .scmpi c cond a k => Sys2Proof.Machine.execScmpi c cond a k s
  | .smini c d a k => Sys2Proof.Machine.execSmini c d a k s
  | .smaxi c d a k => Sys2Proof.Machine.execSmaxi c d a k s
  | .smovk c d k => Sys2Proof.Machine.execSmovk c d k s
  | .smovkh c d k => Sys2Proof.Machine.execSmovkh c d k s
  | .saddk c d k => Sys2Proof.Machine.execSaddk c d k s
  | .sleapc c d k => Sys2Proof.Machine.execSleapc c d k s
  | .exsave c d => Sys2Proof.Machine.execExsave c d s
  | .exload c a => Sys2Proof.Machine.execExload c a s
  | .exand c d a => Sys2Proof.Machine.execExand c d a s
  | .exandn c d a => Sys2Proof.Machine.execExandn c d a s
  | .exfromq c neg depth d => Sys2Proof.Machine.execExfromq c neg depth d s
  | .qsave c d => Sys2Proof.Machine.execQsave c d s
  | .qload c a => Sys2Proof.Machine.execQload c a s
  | .moderd c d => Sys2Proof.Machine.execModerd c d s
  | .modewr c a => Sys2Proof.Machine.execModewr c a s
  | .moderm c rm => Sys2Proof.Machine.execModerm c rm s
  | .bra c pack disp => Sys2Proof.Machine.execBra c pack disp s
  | .bexz c pack disp => Sys2Proof.Machine.execBexz c pack disp s
  | .bexnz c pack disp => Sys2Proof.Machine.execBexnz c pack disp s
  | .call c d disp => Sys2Proof.Machine.execCall c d disp s
  | .ret c a => Sys2Proof.Machine.execRet c a s
  | .brs c a => Sys2Proof.Machine.execBrs c a s
  | .brix c a => Sys2Proof.Machine.execBrix c a s
  | .brixl c d va => Sys2Proof.Machine.execBrixl c d va s
  | .exit c => Sys2Proof.Machine.execExit c s
  | .wait c ld st en wl fb => Sys2Proof.Machine.execWait c ld st en wl fb s
  | .regang c xsm => Sys2Proof.Machine.execRegang c xsm s
  | .vadd c f rnd sat d a b => Sys2Proof.Machine.execVadd c f rnd sat d a b s
  | .vsub c f rnd sat d a b => Sys2Proof.Machine.execVsub c f rnd sat d a b s
  | .vmul c f rnd sat d a b => Sys2Proof.Machine.execVmul c f rnd sat d a b s
  | .vfma c f rnd sat d a b x => Sys2Proof.Machine.execVfma c f rnd sat d a b x s
  | .vfms c f rnd sat d a b x => Sys2Proof.Machine.execVfms c f rnd sat d a b x s
  | .vfnma c f rnd sat d a b x => Sys2Proof.Machine.execVfnma c f rnd sat d a b x s
  | .vmin c f prop d a b => Sys2Proof.Machine.execVmin c f prop d a b s
  | .vmax c f prop d a b => Sys2Proof.Machine.execVmax c f prop d a b s
  | .vabs c f sat d a => Sys2Proof.Machine.execVabs c f sat d a s
  | .vneg c f sat d a => Sys2Proof.Machine.execVneg c f sat d a s
  | .vcpsgn c f xor d a b => Sys2Proof.Machine.execVcpsgn c f xor d a b s
  | .vcmp c f cond a b => Sys2Proof.Machine.execVcmp c f cond a b s
  | .vsel c f neg depth d a b => Sys2Proof.Machine.execVsel c f neg depth d a b s
  | .vmov c f d b => Sys2Proof.Machine.execVmov c f d b s
  | .vcvt c f src rnd sat d a => Sys2Proof.Machine.execVcvt c f src rnd sat d a s
  | .vrnd c f rnd d a => Sys2Proof.Machine.execVrnd c f rnd d a s
  | .vfdiv c f rnd sat d a b => Sys2Proof.Machine.execVfdiv c f rnd sat d a b s
  | .vclass c f d a => Sys2Proof.Machine.execVclass c f d a s
  | .vscalb c f rnd sat d a b => Sys2Proof.Machine.execVscalb c f rnd sat d a b s
  | .vabsd c f d a b => Sys2Proof.Machine.execVabsd c f d a b s
  | .vmad c f sat d a b x => Sys2Proof.Machine.execVmad c f sat d a b x s
  | .vmulh c f d a b => Sys2Proof.Machine.execVmulh c f d a b s
  | .vand c f d a b => Sys2Proof.Machine.execVand c f d a b s
  | .vor c f d a b => Sys2Proof.Machine.execVor c f d a b s
  | .vxor c f d a b => Sys2Proof.Machine.execVxor c f d a b s
  | .vandn c f d a b => Sys2Proof.Machine.execVandn c f d a b s
  | .vnot c f d a => Sys2Proof.Machine.execVnot c f d a s
  | .vshl c f d a b => Sys2Proof.Machine.execVshl c f d a b s
  | .vshr c f d a b => Sys2Proof.Machine.execVshr c f d a b s
  | .vsra c f d a b => Sys2Proof.Machine.execVsra c f d a b s
  | .vclz c f d a => Sys2Proof.Machine.execVclz c f d a s
  | .vpopc c f d a => Sys2Proof.Machine.execVpopc c f d a s
  | .vbrev c f d a => Sys2Proof.Machine.execVbrev c f d a s
  | .vbfx c f signed d a b x => Sys2Proof.Machine.execVbfx c f signed d a b x s
  | .vbfi c f d a b x => Sys2Proof.Machine.execVbfi c f d a b x s
  | .vdot2 c f rnd sat d a b x => Sys2Proof.Machine.execVdot2 c f rnd sat d a b x s
  | .vpack c f rnd sat d a b => Sys2Proof.Machine.execVpack c f rnd sat d a b s
  | .vunpkl c f d a => Sys2Proof.Machine.execVunpkl c f d a s
  | .vunpkh c f d a => Sys2Proof.Machine.execVunpkh c f d a s
  | .vkbenc c f d a b => Sys2Proof.Machine.execVkbenc c f d a b s
  | .vkbdec c f q d a => Sys2Proof.Machine.execVkbdec c f q d a s
  | .vmovk c d k => Sys2Proof.Machine.execVmovk c d k s
  | .vclamp c f prop d a b x => Sys2Proof.Machine.execVclamp c f prop d a b x s
  | .vmovq c d => Sys2Proof.Machine.execVmovq c d s
  | .vrcp c f rnd sat d a => Sys2Proof.Machine.execVrcp c f rnd sat d a s
  | .vrsq c f rnd sat d a => Sys2Proof.Machine.execVrsq c f rnd sat d a s
  | .vsqrt c f rnd sat d a => Sys2Proof.Machine.execVsqrt c f rnd sat d a s
  | .vexp2 c f rnd sat d a => Sys2Proof.Machine.execVexp2 c f rnd sat d a s
  | .vlog2 c f rnd sat d a => Sys2Proof.Machine.execVlog2 c f rnd sat d a s
  | .vsin c f rnd sat d a => Sys2Proof.Machine.execVsin c f rnd sat d a s
  | .vcos c f rnd sat d a => Sys2Proof.Machine.execVcos c f rnd sat d a s
  | .vtanh c f rnd sat d a => Sys2Proof.Machine.execVtanh c f rnd sat d a s
  | .actld c a => Sys2Proof.Machine.execActld c a s
  | .actsel c n => Sys2Proof.Machine.execActsel c n s
  | .vact c rnd sat d a => Sys2Proof.Machine.execVact c rnd sat d a s
  | .vdivI32 c d a b => Sys2Proof.Machine.execVdivI32 c d a b s
  | .vdivN32 c d a b => Sys2Proof.Machine.execVdivN32 c d a b s
  | .vremI32 c d a b => Sys2Proof.Machine.execVremI32 c d a b s
  | .vremN32 c d a b => Sys2Proof.Machine.execVremN32 c d a b s
  | .vshfl c f keep mask d a b => Sys2Proof.Machine.execVshfl c f keep mask d a b s
  | .vshflup c f keep mask d a b => Sys2Proof.Machine.execVshflup c f keep mask d a b s
  | .vshfldn c f keep mask d a b => Sys2Proof.Machine.execVshfldn c f keep mask d a b s
  | .vshflx c f keep mask d a b => Sys2Proof.Machine.execVshflx c f keep mask d a b s
  | .vbcast c f mask d a => Sys2Proof.Machine.execVbcast c f mask d a s
  | .voteany c f mask a => Sys2Proof.Machine.execVoteany c f mask a s
  | .voteall c f mask a => Sys2Proof.Machine.execVoteall c f mask a s
  | .voteuni c f mask a => Sys2Proof.Machine.execVoteuni c f mask a s
  | .vballot c f mask d a => Sys2Proof.Machine.execVballot c f mask d a s
  | .vmatchany c f mask d a => Sys2Proof.Machine.execVmatchany c f mask d a s
  | .vmatchall c f mask d a => Sys2Proof.Machine.execVmatchall c f mask d a s
  | .vredadd c f mask d a => Sys2Proof.Machine.execVredadd c f mask d a s
  | .vredmin c f mask d a => Sys2Proof.Machine.execVredmin c f mask d a s
  | .vredmax c f mask d a => Sys2Proof.Machine.execVredmax c f mask d a s
  | .vredand c f mask d a => Sys2Proof.Machine.execVredand c f mask d a s
  | .vredor c f mask d a => Sys2Proof.Machine.execVredor c f mask d a s
  | .vredxor c f mask d a => Sys2Proof.Machine.execVredxor c f mask d a s
  | .vscanadd c f mask d a => Sys2Proof.Machine.execVscanadd c f mask d a s
  | .vld c mem fe sz d => Sys2Proof.Machine.execVld c mem fe sz d s
  | .vst c mem fe sz el d => Sys2Proof.Machine.execVst c mem fe sz el d s
  | .sld c mem fe sz d => Sys2Proof.Machine.execSld c mem fe sz d s
  | .sst c mem fe sz el d => Sys2Proof.Machine.execSst c mem fe sz el d s
  | .vldtr c mem fe sz d => Sys2Proof.Machine.execVldtr c mem fe sz d s
  | .pref c mem => Sys2Proof.Machine.execPref c mem s
  | .feset c mem => Sys2Proof.Machine.execFeset c mem s
  | .feclr c mem => Sys2Proof.Machine.execFeclr c mem s
  | .atadd c mem sz rv d => Sys2Proof.Machine.execAtadd c mem sz rv d s
  | .atmin c mem sz rv d => Sys2Proof.Machine.execAtmin c mem sz rv d s
  | .atminn c mem sz rv d => Sys2Proof.Machine.execAtminn c mem sz rv d s
  | .atmax c mem sz rv d => Sys2Proof.Machine.execAtmax c mem sz rv d s
  | .atmaxn c mem sz rv d => Sys2Proof.Machine.execAtmaxn c mem sz rv d s
  | .atand c mem sz rv d => Sys2Proof.Machine.execAtand c mem sz rv d s
  | .ator c mem sz rv d => Sys2Proof.Machine.execAtor c mem sz rv d s
  | .atxor c mem sz rv d => Sys2Proof.Machine.execAtxor c mem sz rv d s
  | .atxchg c mem sz rv d => Sys2Proof.Machine.execAtxchg c mem sz rv d s
  | .atcas c mem sz d => Sys2Proof.Machine.execAtcas c mem sz d s
  | .atfadd c mem rv d => Sys2Proof.Machine.execAtfadd c mem rv d s
  | .atbadd2 c mem rv d => Sys2Proof.Machine.execAtbadd2 c mem rv d s
  | .wld c mem sz pr d => Sys2Proof.Machine.execWld c mem sz pr d s
  | .wdset c a b => Sys2Proof.Machine.execWdset c a b s
  | .wdget c a b => Sys2Proof.Machine.execWdget c a b s
  | .fence c scope ord => Sys2Proof.Machine.execFence c scope ord s
  | .fenceSc c => Sys2Proof.Machine.execFenceSc c s
  | .xfence c scope frm too => Sys2Proof.Machine.execXfence c scope frm too s
  | .icinv c scope all a b => Sys2Proof.Machine.execIcinv c scope all a b s
  | .podld c mem sz d => Sys2Proof.Machine.execPodld c mem sz d s
  | .podst c mem sz d => Sys2Proof.Machine.execPodst c mem sz d s
  | .podred c mem sz rop d => Sys2Proof.Machine.execPodred c mem sz rop d s
  | .bar c id mask => Sys2Proof.Machine.execBar c id mask s
  | .abwait c a b => Sys2Proof.Machine.execAbwait c a b s
  | .abtest c a b => Sys2Proof.Machine.execAbtest c a b s
  | .abinit c a b => Sys2Proof.Machine.execAbinit c a b s
  | .abarr c scope rel a bytes => Sys2Proof.Machine.execAbarr c scope rel a bytes s
  | .abexp c a b => Sys2Proof.Machine.execAbexp c a b s
  | .ldstat c ns mode nc xf tb sm ab => Sys2Proof.Machine.execLdstat c ns mode nc xf tb sm ab s
  | .pswap c ab => Sys2Proof.Machine.execPswap c ab s
  | .mx c rnd mode ta sp ab => Sys2Proof.Machine.execMx c rnd mode ta sp ab s
  | .mxsp c rnd mode nc ta sp ab => Sys2Proof.Machine.execMxsp c rnd mode nc ta sp ab s
  | .mxb c mode ta sp ab => Sys2Proof.Machine.execMxb c mode ta sp ab s
  | .mxbsp c mode ta sp ab => Sys2Proof.Machine.execMxbsp c mode ta sp ab s
  | .scacc c rnd sr sa sb ab => Sys2Proof.Machine.execScacc c rnd sr sa sb ab s
  | .accclr c sr ab => Sys2Proof.Machine.execAccclr c sr ab s
  | .accrd c rnd sat ic td sp ab => Sys2Proof.Machine.execAccrd c rnd sat ic td sp ab s
  | .accwr c ts sp ab => Sys2Proof.Machine.execAccwr c ts sp ab s
  | .accmv c ss sd sz ab => Sys2Proof.Machine.execAccmv c ss sd sz ab s
  | .mxtile c rnd mode ta tb sp ab => Sys2Proof.Machine.execMxtile c rnd mode ta tb sp ab s
  | .cptile c td ts ab => Sys2Proof.Machine.execCptile c td ts ab s
  | .sctile c rnd sc ta tb ab => Sys2Proof.Machine.execSctile c rnd sc ta tb ab s
  | .cpcopy c sd ss sl ab => Sys2Proof.Machine.execCpcopy c sd ss sl ab s
  | .cptr c td ts ab => Sys2Proof.Machine.execCptr c td ts ab s
  | .cpmcast c d so ts sk => Sys2Proof.Machine.execCpmcast c d so ts sk s
  | .tdset c t a b => Sys2Proof.Machine.execTdset c t a b s
  | .tdget c hi d t => Sys2Proof.Machine.execTdget c hi d t s
  | .trap c n => Sys2Proof.Machine.execTrap c n s
  | .tret c => Sys2Proof.Machine.execTret c s
  | .sysrd c reg d => Sys2Proof.Machine.execSysrd c reg d s
  | .syswr c reg a => Sys2Proof.Machine.execSyswr c reg a s
  | .tlbinv c scope all a b => Sys2Proof.Machine.execTlbinv c scope all a b s
  | .tlbinvS2 c scope a => Sys2Proof.Machine.execTlbinvS2 c scope a s
  | .brk c n => Sys2Proof.Machine.execBrk c n s
  | .fsend c d a b => Sys2Proof.Machine.execFsend c d a b s
  | .fsendLaunch c d a b => Sys2Proof.Machine.execFsendLaunch c d a b s
  | .frecv c d a b => Sys2Proof.Machine.execFrecv c d a b s
  | .allreduce c td ts b x => Sys2Proof.Machine.execAllreduce c td ts b x s
  | .reducescatter c td ts b x => Sys2Proof.Machine.execReducescatter c td ts b x s
  | .allgather c td ts b x => Sys2Proof.Machine.execAllgather c td ts b x s
  | .broadcast c td ts b x => Sys2Proof.Machine.execBroadcast c td ts b x s
  | .cgrp c d a b => Sys2Proof.Machine.execCgrp c d a b s
  | .qenq c d a b => Sys2Proof.Machine.execQenq c d a b s
  | .evpost c scope d a b => Sys2Proof.Machine.execEvpost c scope d a b s
  | .join k => Sys2Proof.Machine.execJoin k s
  | .loadCompletion k op later => Sys2Proof.Machine.execLoadCompletion k op later s
  | .storePerformed k op later => Sys2Proof.Machine.execStorePerformed k op later s
  | .engineCommandCompletion core copyQueue => Sys2Proof.Machine.execEngineCommandCompletion core copyQueue s
  | .fill core => Sys2Proof.Machine.execFill core s
  | .stream core => Sys2Proof.Machine.execStream core s
  | .scale core => Sys2Proof.Machine.execScale core s
  | .copy core => Sys2Proof.Machine.execCopy core s
  | .copyQueueStep core => Sys2Proof.Machine.execCopyQueueStep core s
  | .governorWindow core => Sys2Proof.Machine.execGovernorWindow core s
  | .fabricCompletion k op remote => Sys2Proof.Machine.execFabricCompletion k op remote s
  | .fabricIngress f msg => Sys2Proof.Machine.execFabricIngress f msg s
  | .podAccess k op remote later => Sys2Proof.Machine.execPodAccess k op remote later s
  | .launchRequest f req => Sys2Proof.Machine.execLaunchRequest f req s
  | .collectiveCompletion f slot remote => Sys2Proof.Machine.execCollectiveCompletion f slot remote s
  | .collectiveFallback f slot remote => Sys2Proof.Machine.execCollectiveFallback f slot remote s
  | .doorbell f q w => Sys2Proof.Machine.execDoorbell f q w s
  | .queueReset f q => Sys2Proof.Machine.execQueueReset f q s
  | .packetRead q => Sys2Proof.Machine.execPacketRead q s
  | .waitaddrLoad gid => Sys2Proof.Machine.execWaitaddrLoad gid s
  | .packetStart gid => Sys2Proof.Machine.execPacketStart gid s
  | .blockDispatch gid die places => Sys2Proof.Machine.execBlockDispatch gid die places s
  | .stealRequest gid die => Sys2Proof.Machine.execStealRequest gid die s
  | .gangLaunch gid places => Sys2Proof.Machine.execGangLaunch gid places s
  | .blockEnd uid => Sys2Proof.Machine.execBlockEnd uid s
  | .packetCompletion gid => Sys2Proof.Machine.execPacketCompletion gid s
  | .preemptionRequest f q => Sys2Proof.Machine.execPreemptionRequest f q s
  | .queueDestruction f q => Sys2Proof.Machine.execQueueDestruction f q s
  | .runLimit gid => Sys2Proof.Machine.execRunLimit gid s
  | .kernelWatchdog gid => Sys2Proof.Machine.execKernelWatchdog gid s
  | .handlerWatchdog k => Sys2Proof.Machine.execHandlerWatchdog k s
  | .checkpoint f => Sys2Proof.Machine.execCheckpoint f s
  | .checkpointCommit f => Sys2Proof.Machine.execCheckpointCommit f s
  | .rollback f => Sys2Proof.Machine.execRollback f s
  | .timeSliceStart f places => Sys2Proof.Machine.execTimeSliceStart f places s
  | .migrationImage f => Sys2Proof.Machine.execMigrationImage f s
  | .migrationAccept f image => Sys2Proof.Machine.execMigrationAccept f image s
  | .bindRecordWrite die n r => Sys2Proof.Machine.execBindRecordWrite die n r s
  | .functionRecordWrite f r => Sys2Proof.Machine.execFunctionRecordWrite f r s
  | .launchTableWrite f n r => Sys2Proof.Machine.execLaunchTableWrite f n r s
  | .loaderRequest fn => Sys2Proof.Machine.execLoaderRequest fn s
  | .containerLoad f places => Sys2Proof.Machine.execContainerLoad f places s
  | .stewardRequest => Sys2Proof.Machine.execStewardRequest s
  | .eventLogControlWrite fn off v => Sys2Proof.Machine.execEventLogControlWrite fn off v s
  | .wldoor addr => Sys2Proof.Machine.execWldoor addr s
  | .resume => Sys2Proof.Machine.execResume s
  | .layoutRequest layout => Sys2Proof.Machine.execLayoutRequest layout s
  | .commit => Sys2Proof.Machine.execCommit s
  | .done => Sys2Proof.Machine.execDone s
  | .policyCoreRestart die => Sys2Proof.Machine.execPolicyCoreRestart die s
  | .functionLevelReset f => Sys2Proof.Machine.execFunctionLevelReset f s
  | .moduleReset img => Sys2Proof.Machine.execModuleReset img s
  | .lockInterface f => Sys2Proof.Machine.execLockInterface f s
  | .startInterface f => Sys2Proof.Machine.execStartInterface f s
  | .stopInterface f => Sys2Proof.Machine.execStopInterface f s
  | .getDeviceInterfaceReport f => Sys2Proof.Machine.execGetDeviceInterfaceReport f s
  | .getDeviceInterfaceState f => Sys2Proof.Machine.execGetDeviceInterfaceState f s
  | .getVersion fn => Sys2Proof.Machine.execGetVersion fn s
  | .getCapabilities fn v => Sys2Proof.Machine.execGetCapabilities fn v s
  | .negotiateAlgorithms fn => Sys2Proof.Machine.execNegotiateAlgorithms fn s
  | .getDigests fn => Sys2Proof.Machine.execGetDigests fn s
  | .getCertificate fn off len => Sys2Proof.Machine.execGetCertificate fn off len s
  | .challenge fn nonce => Sys2Proof.Machine.execChallenge fn nonce s
  | .getMeasurements fn index secured => Sys2Proof.Machine.execGetMeasurements fn index secured s
  | .keyExchange fn share => Sys2Proof.Machine.execKeyExchange fn share s
  | .finish fn verified => Sys2Proof.Machine.execFinish fn verified s
  | .endSession fn => Sys2Proof.Machine.execEndSession fn s
  | .vendorDefinedRequest fn secured msg => Sys2Proof.Machine.execVendorDefinedRequest fn secured msg s
  | .memoryError site corrected => Sys2Proof.Machine.execMemoryError site corrected s
  | .selfTest x fails => Sys2Proof.Machine.execSelfTest x fails s
  | .patrolScrub line stack => Sys2Proof.Machine.execPatrolScrub line stack s
  | .counterCommit => Sys2Proof.Machine.execCounterCommit s
  | .thermalThrottle core cap => Sys2Proof.Machine.execThermalThrottle core cap s
  | .thermalShutdown => Sys2Proof.Machine.execThermalShutdown s
  | .registerWrite fn off v => Sys2Proof.Machine.execRegisterWrite fn off v s
  | .hostAccess op => Sys2Proof.Machine.execHostAccess op s
  | .actldCompletion core => Sys2Proof.Machine.execActldCompletion core s
  | .asidTableWrite n r => Sys2Proof.Machine.execAsidTableWrite n r s
  | .laneRetrain link bridge lane => Sys2Proof.Machine.execLaneRetrain link bridge lane s

end Sys2Proof.Machine
end

