-- ==== Sys2Proof/Machine/Step.lean ====
section
/-! DEFINITION. One step (R145, R156, R157): a turn of the schedule is taken, and a slice issues one word or another agent
makes one step. -/

namespace Sys2Proof.Machine

/-- The slice at key k takes a turn: nothing happens unless it is ready. It makes its join, or fetches, decodes and executes
the word at its PC. -/
def stepSlice (s : State) (k : Nat) : Host.Outcome State Fault Refusal :=
  match s.ctx k with
  | none => .next s
  | some c =>
    if s.ready k then
      if c.atJoin then exec (.join k) s
      else
        match c.fetch with
        | .trap t s1 => .next (s1.takeTrap k t s.noWord)
        | .word w s1 =>
          let s2 := { s1.modSlice k (fun x => { x with last := x.pc }) with cur := k, ir := w }
          exec (s2.issued k w) s2
    else .next s

/-- The schedule's next turn: the one it names, or the lowest ready slice, one cycle later. -/
def State.nextTurn (s : State) : Turn × List Turn :=
  match s.turns with
  | t :: ts => (t, ts)
  | [] =>
    match s.slices.find? (fun e => s.ready e.1) with
    | some e => (⟨1, .slice e.1⟩, [])
    | none => (⟨1, .slice 0⟩, [])

/-- The state in which a turn is taken: time has passed, its hours counted (R437), and fresh choices stand (log entry 3). -/
def State.advance (s : State) (t : Turn × List Turn) : State :=
  ({ s with now := s.now + t.1.dt, fresh := s.fresh + 1, turns := t.2 } : State).accrue ((s.now + t.1.dt) / hourCycles - s.now / hourCycles)

/-- One step of the module. A turn that names a word as an event is nobody's: nothing happens. -/
def step (s : State) : Host.Outcome State Fault Refusal :=
  let t := s.nextTurn
  match t.1.who with
  | .slice k => stepSlice (s.advance t) k
  | .event i => if i.hasWord then .next (s.advance t) else exec i (s.advance t)

/-- The state with an instruction word placed where the next step fetches (log entry 19). -/
def State.withFetchWord (s : State) (_nbits w : Nat) : State := s.placeProgram (w % 2 ^ 64)

end Sys2Proof.Machine
end

