-- ==== Sys2Proof/Safety.lean ====
section
/-! DEFINITION. The terms in which claims are made: the invariant of a safe run, when a slice is at rest, what the rules of
spec/ give for an instruction written apart from the machine, and what it means that a register element will hold a value. -/

namespace Sys2Proof.Machine

/-! ### Safe states -/

/-- The invariant of every run: memory keeps its canonical form, so that equal memories are equal data. -/
def State.Inv (s : State) : Prop := Memory.wf s.mem = true

/-! ### What a read must see (R251) -/

/-- Whether a read must return the latest write at each of some places: every write there is one that it must see. -/
def State.upToDate (s : State) (r : Reader) (sel : Loc → Bool) : Prop :=
  ∀ w ∈ s.past, sel w.loc = true → s.mustSee r w = true

/-- Whether a word of a slice sees its block's tile descriptors as they stand (R154). -/
def Ctx.tilesCurrent (c : Ctx) : Prop := ∀ n, c.s.upToDate (c.reader .ls .core c.x.seq) (fun l => l == .tdesc (keyBlock c.k) n)

/-! ### Observing a slice -/

/-- The slice that issues stands at a parking point of an unspliced grid with nothing outstanding and nothing to report. Words of
such a slice read and write without the hazards of R31. -/
structure AtRest (s : State) (c : Ctx) : Prop where
  here : s.ctx s.cur = some c
  unspliced : c.x.splice = none
  noOps : c.x.ops = []
  noPend : c.x.pend = []
  noStale : c.x.stale = []
  noDrops : c.x.dropped = []
  noDropDue : c.x.dropDue = false
  noReport : c.x.poisonDue = []
  noFail : c.x.engFail = []
  clean : ∀ n, Sparse.get false c.x.vpoison n = false

/-- The slice gone on to the next word (R27). -/
def Ctx.next (c : Ctx) : Slice := { c.x with pc := c.x.pc + 8, issued := c.x.issued + 1 }

/-- The state with the issuing slice replaced and nothing else changed. -/
def State.withSlice (s : State) (y : Slice) : State := { s with slices := Table.put s.slices s.cur y }

/-- What a slice is after its operation n has returned writes, and no acquire (R251, R253): it differs in what it has read and knows only; it
has read each of the writes, and knows what it knew. -/
def Slice.hasRead (x y : Slice) (ws : List Past) (n : Nat) : Prop :=
  y = { x with reads := y.reads, lastRead := y.lastRead, knows := y.knows }
  ∧ y.reads = x.reads ++ ws.map (fun w => w.known .ls n) ∧ (∀ p ∈ x.knows, p ∈ y.knows)

/-- What n reads that the slice's word makes as LS loads leave (R247, R251): a context of the same word in which memory, blocks, grids and
the other slices are as before, and whose slice has counted n operations more and may know more of what was written. -/
def Ctx.readBy (c : Ctx) (n : Nat) (z : Ctx) : Prop :=
  z.k = c.k ∧ z.b = c.b ∧ z.s.mem = c.s.mem ∧ z.s.blocks = c.s.blocks ∧ z.s.grids = c.s.grids ∧ z.s.chips = c.s.chips
  ∧ (∀ j, j ≠ c.k → Table.find z.s.slices j = Table.find c.s.slices j)
  ∧ z.x = { c.x with seq := c.x.seq + n, reads := z.x.reads, lastRead := z.x.lastRead, knows := z.x.knows }
  ∧ (∀ p ∈ c.x.knows, p ∈ z.x.knows) ∧ (∀ p ∈ c.x.reads, p ∈ z.x.reads)

/-- The element of a register file that will hold v at the slice's next parking point (R29, R30): it holds v and no long result is
due to it, or v is the one long result due. -/
def Slice.lands (y : Slice) (e : Elem) (v : Word64) : Prop :=
  (y.pendOf e = [] ∧ y.getElem e = v) ∨ y.pendOf e = [v]

/-- A scalar source of a slice at rest (R58, R89). -/
def Ctx.val (c : Ctx) : SSrc → Word64
  | .s n => c.x.sreg n.val
  | .sp p => BitVec.ofNat 64 (c.special 0 p)

/-- A scalar source broadcast to lane l of a slice at rest (R62, R91). -/
def Ctx.valLane (c : Ctx) (l : Nat) : SSrc → Word64
  | .s n => c.x.sreg n.val
  | .sp p => BitVec.ofNat 64 (c.special l p)

/-- The element of a format in lane l of a vector register of a slice at rest (R120). -/
def Ctx.at32 (c : Ctx) (f : Fmt) (n l : Nat) : Nat :=
  if f.is64 then (c.x.vreg n l).toNat + (c.x.vreg (n + 1) l).toNat * 2 ^ 32 else (c.x.vreg n l).toNat % 2 ^ f.width

/-- The element of a format that source B or C supplies to lane l of a slice at rest (R62, R120). -/
def Ctx.srcAt (c : Ctx) (f : Fmt) (l : Nat) : VSrc → Nat
  | .v n => c.at32 f n.val l
  | .s x => (c.valLane l x).toNat % 2 ^ (if f.is64 then 64 else f.width)

/-- Whether no register operand of a word passes VCOUNT (R17). -/
def Ctx.fits (c : Ctx) (l : List VUse) : Prop := ∀ r ∈ l, r.n + r.count ≤ c.squad.vcount

/-! ### What the rules give for scalar words (R94–R103) -/

/-- A signed result clamped to 64 bits (R33, R94). -/
def satWord (v : Int) : Word64 := BitVec.ofInt 64 (max (-(2 ^ 63)) (min v (2 ^ 63 - 1)))

/-- The mask of n one bits from bit p on. -/
def onesAt (p n : Nat) : Word64 := ((1#64 <<< n) - 1#64) <<< p

/-- R94, R99: the scalar arithmetic words: control, destination, and the value the rule gives. -/
def Ctx.arithRule (c : Ctx) : Instr → Option (Ctl × SReg × Word64)
  | .sadd k sat d a b => some (k, d, if sat then satWord ((c.val a).toInt + (c.val b).toInt) else c.val a + c.val b)
  | .ssub k sat d a b => some (k, d, if sat then satWord ((c.val a).toInt - (c.val b).toInt) else c.val a - c.val b)
  | .smul k sat d a b => some (k, d, if sat then satWord ((c.val a).toInt * (c.val b).toInt) else c.val a * c.val b)
  | .smulh k d a b =>
    some (k, d, (((c.val a).signExtend 128 * (c.val b).signExtend 128) >>> 64).setWidth 64)
  | .smulhn k d a b =>
    some (k, d, (((c.val a).setWidth 128 * (c.val b).setWidth 128) >>> 64).setWidth 64)
  | .smin k d a b => some (k, d, if (c.val b).slt (c.val a) then c.val b else c.val a)
  | .smax k d a b => some (k, d, if (c.val a).slt (c.val b) then c.val b else c.val a)
  | .sminn k d a b => some (k, d, if c.val b < c.val a then c.val b else c.val a)
  | .smaxn k d a b => some (k, d, if c.val a < c.val b then c.val b else c.val a)
  | .sabs k sat d a =>
    some (k, d, if sat then satWord (c.val a).toInt.natAbs else if (c.val a).msb then -(c.val a) else c.val a)
  | .sclamp k n d a b e =>
    let lt (x y : Word64) : Bool := if n then x.ult y else x.slt y
    let m := if lt (c.val a) (c.val b) then c.val b else c.val a
    some (k, d, if lt (c.val e) m then c.val e else m)
  | .saddi k sat d a i =>
    some (k, d, if sat then satWord ((c.val a).toInt + i.toInt) else c.val a + i.signExtend 64)
  | .smuli k sat d a i =>
    some (k, d, if sat then satWord ((c.val a).toInt * i.toInt) else c.val a * i.signExtend 64)
  | .smini k d a i => some (k, d, if (i.signExtend 64).slt (c.val a) then i.signExtend 64 else c.val a)
  | .smaxi k d a i => some (k, d, if (c.val a).slt (i.signExtend 64) then i.signExtend 64 else c.val a)
  | .saddk k d i => some (k, d, c.x.sreg d.val + i.signExtend 64)
  | .sleapc k d i => some (k, d, c.x.pc + i.signExtend 64)
  | .slea k pod n d a b =>
    some (k, d, if pod then (1#64 <<< 63) ||| ((c.val b &&& 0xFFF#64) <<< 44) ||| (c.val a &&& 0xFFFFFFFFFFF#64)
      else c.val a + (c.val b <<< n.val))
  | _ => none

/-- R94, R95, R99, R100: the logic, move, shift, count and bit-field words. -/
def Ctx.logicRule (c : Ctx) : Instr → Option (Ctl × SReg × Word64)
  | .sand k d a b => some (k, d, c.val a &&& c.val b)
  | .sor k d a b => some (k, d, c.val a ||| c.val b)
  | .sxor k d a b => some (k, d, c.val a ^^^ c.val b)
  | .sandn k d a b => some (k, d, c.val a &&& ~~~(c.val b))
  | .sandi k d a i => some (k, d, c.val a &&& i.setWidth 64)
  | .sori k d a i => some (k, d, c.val a ||| i.setWidth 64)
  | .sxori k d a i => some (k, d, c.val a ^^^ i.setWidth 64)
  | .sselz k d a b e => some (k, d, if c.val e = 0 then c.val a else c.val b)
  | .smov k d a => some (k, d, c.val a)
  | .smovk k d i => some (k, d, i.signExtend 64)
  | .smovkh k d i => some (k, d, (i.setWidth 64 <<< 32) ||| (c.x.sreg d.val &&& 0xFFFFFFFF#64))
  | .sshl k d a b => some (k, d, c.val a <<< ((c.val b).toNat % 64))
  | .sshr k d a b => some (k, d, c.val a >>> ((c.val b).toNat % 64))
  | .ssra k d a b => some (k, d, (c.val a).sshiftRight ((c.val b).toNat % 64))
  | .srot k d a b => some (k, d, (c.val a).rotateRight ((c.val b).toNat % 64))
  | .sshli k d a i => some (k, d, c.val a <<< i.toNat)
  | .sshri k d a i => some (k, d, c.val a >>> i.toNat)
  | .ssrai k d a i => some (k, d, (c.val a).sshiftRight i.toNat)
  | .sroti k d a i => some (k, d, (c.val a).rotateRight i.toNat)
  | .sclz k d a => some (k, d, BitVec.ofNat 64 (((List.range 64).find? (fun i => (c.val a).getMsbD i)).getD 64))
  | .sctz k d a => some (k, d, BitVec.ofNat 64 (((List.range 64).find? (fun i => (c.val a).getLsbD i)).getD 64))
  | .spopc k d a => some (k, d, BitVec.ofNat 64 ((List.range 64).countP (fun i => (c.val a).getLsbD i)))
  | .sbrev k d a => some (k, d, (c.val a).reverse)
  | .sbfx k signed d a b e =>
    let p := (c.val b).toNat % 64
    let n := min ((c.val e).toNat % 128) (64 - p)
    let f := (c.val a >>> p).setWidth n
    some (k, d, if signed then f.signExtend 64 else f.setWidth 64)
  | .sbfi k d a b e =>
    let p := (c.val b).toNat % 64
    let n := min ((c.val e).toNat % 128) (64 - p)
    some (k, d, (c.x.sreg d.val &&& ~~~(onesAt p n)) ||| ((c.val a <<< p) &&& onesAt p n))
  | .ssext k z n d a =>
    let f := (c.val a).setWidth n.toNat
    some (k, d, if z then f.setWidth 64 else f.signExtend 64)
  | _ => none

/-- A compare condition on 64-bit values (R97); none for a condition that scalar compares do not have. -/
def condRule (k : Cond) (a b : Word64) : Option Bool :=
  match k with
  | .eq => some (a == b)
  | .ne => some (a != b)
  | .lt => some (a.slt b)
  | .le => some (a.sle b)
  | .gt => some (b.slt a)
  | .ge => some (b.sle a)
  | .ltn => some (a.ult b)
  | .len => some (a.ule b)
  | .gtn => some (b.ult a)
  | .gen => some (b.ule a)
  | .tst => some (a &&& b != 0)
  | .ntst => some (a &&& b == 0)
  | .un | .or => none

/-- R98: the scalar compares and their result. -/
def Ctx.compareRule (c : Ctx) : Instr → Option (Ctl × Bool)
  | .scmp k cond a b => (condRule cond (c.val a) (c.val b)).map (fun r => (k, r))
  | .scmpi k cond a i => (condRule cond (c.val a) (i.signExtend 64)).map (fun r => (k, r))
  | _ => none

/-- Q with one bit pushed into every lane (R23). -/
def Slice.pushed (x : Slice) (r : Bool) : Vector (BitVec 8) 4 :=
  x.q.map (fun (w : BitVec 8) => (w <<< 1) ||| (if r then 1#8 else 0#8))

/-- R101: the words that write EXEC: the register that receives its old value, and the mask that the rule gives before LIVE is
applied (R20). -/
def Ctx.execRule (c : Ctx) : Instr → Option (Ctl × Option SReg × BitVec 4)
  | .exload k a => some (k, none, (c.val a).setWidth 4)
  | .exand k d a => some (k, some d, c.x.exec &&& (c.val a).setWidth 4)
  | .exandn k d a => some (k, some d, c.x.exec &&& ~~~((c.val a).setWidth 4))
  | .exfromq k neg depth d =>
    some (k, some d, c.x.exec &&& BitVec.ofFnLE (fun l : Fin 4 => c.x.q[l].getLsbD depth.val != neg))
  | _ => none

/-- A slice with one scalar register written. -/
def Slice.withS (x : Slice) (d : SReg) (v : Word64) : Slice := { x with s := x.s.set d.val v d.isLt }

/-! ### What the rules give for vector words (R120–R135) -/

/-- What a vector word writes: its control, its register operands (R17), the format of D, D, and for each lane the element of D
and the flags raised. -/
structure VecRule where
  ctl : Ctl
  uses : List VUse
  df : Fmt
  d : VReg
  elem : Nat → Nat × Flags

/-- The integer that an element of an integer format stands for (R32). -/
def intAt (f : Fmt) (x : Nat) : Int := if f.isSigned then (BitVec.ofNat f.width x).toInt else ((BitVec.ofNat f.width x).toNat : Int)
/-- An exact integer in a format: modulo 2^width, or clamped to its range with .SAT (R33, R125). -/
def intTo (f : Fmt) (sat : Bool) (v : Int) : Nat :=
  let lo : Int := if f.isSigned then -(2 ^ (f.width - 1)) else 0
  let hi : Int := if f.isSigned then 2 ^ (f.width - 1) - 1 else 2 ^ f.width - 1
  (BitVec.ofInt f.width (if sat then max lo (min v hi) else v)).toNat

/-- An integer word's rule: D from integers, no flag. -/
def intsRule (k : Ctl) (uses : List VUse) (f : Fmt) (d : VReg) (v : Nat → Nat) : Option VecRule :=
  if f.isIN then some ⟨k, uses, f, d, fun l => (v l, Flags.none)⟩ else none

/-- R123, R125, R127: arithmetic on the integer formats, exact and then wrapped or clamped. -/
def Ctx.intRule (c : Ctx) : Instr → Option VecRule
  | .vadd k f _ sat d a b =>
    intsRule k (useD f d :: useA f a :: useB f b) f d (fun l =>
      intTo f sat (intAt f (c.at32 f a.val l) + intAt f (c.srcAt f l b)))
  | .vsub k f _ sat d a b =>
    intsRule k (useD f d :: useA f a :: useB f b) f d (fun l =>
      intTo f sat (intAt f (c.at32 f a.val l) - intAt f (c.srcAt f l b)))
  | .vmul k f _ sat d a b =>
    intsRule k (useD f d :: useA f a :: useB f b) f d (fun l =>
      intTo f sat (intAt f (c.at32 f a.val l) * intAt f (c.srcAt f l b)))
  | .vmad k f sat d a b e =>
    intsRule k (useD f d :: useA f a :: (useB f b ++ useB f e)) f d (fun l =>
      intTo f sat (intAt f (c.at32 f a.val l) * intAt f (c.srcAt f l b) + intAt f (c.srcAt f l e)))
  | .vmulh k f d a b =>
    intsRule k (useD f d :: useA f a :: useB f b) f d (fun l =>
      intTo f false (intAt f (c.at32 f a.val l) * intAt f (c.srcAt f l b) / 2 ^ f.width))
  | .vmin k f _ d a b =>
    intsRule k (useD f d :: useA f a :: useB f b) f d (fun l =>
      if intAt f (c.srcAt f l b) < intAt f (c.at32 f a.val l) then c.srcAt f l b else c.at32 f a.val l)
  | .vmax k f _ d a b =>
    intsRule k (useD f d :: useA f a :: useB f b) f d (fun l =>
      if intAt f (c.at32 f a.val l) < intAt f (c.srcAt f l b) then c.srcAt f l b else c.at32 f a.val l)
  | .vclamp k f _ d a b e =>
    intsRule k (useD f d :: useA f a :: (useB f b ++ useB f e)) f d (fun l =>
      let m := if intAt f (c.at32 f a.val l) < intAt f (c.srcAt f l b) then c.srcAt f l b else c.at32 f a.val l
      if intAt f (c.srcAt f l e) < intAt f m then c.srcAt f l e else m)
  | .vabs k f sat d a =>
    if f.isI then
      intsRule k [useD f d, useA f a] f d (fun l => intTo f sat (intAt f (c.at32 f a.val l)).natAbs)
    else none
  | .vneg k f sat d a =>
    if f.isI then intsRule k [useD f d, useA f a] f d (fun l => intTo f sat (-(intAt f (c.at32 f a.val l)))) else none
  | .vabsd k f d a b =>
    if f.isIN then
      some ⟨k, useD f d :: useA f a :: useB f b, if f.is64 then .n64 else .n32, d, fun l =>
        ((intAt f (c.at32 f a.val l) - intAt f (c.srcAt f l b)).natAbs % 2 ^ f.width, Flags.none)⟩
    else none
  | _ => none

/-- A W element's rule: D from bits, no flag. -/
def bitsRule (k : Ctl) (uses : List VUse) (f : Fmt) (d : VReg) (v : Nat → Nat) : Option VecRule :=
  some ⟨k, uses, f, d, fun l => (v l, Flags.none)⟩

/-- An element as a bit vector of its format's width. -/
def bvAt (f : Fmt) (x : Nat) : BitVec f.width := BitVec.ofNat f.width x

/-- R129, R130: the bit words on elements of the formats of W, and the moves. -/
def Ctx.bitRule (c : Ctx) : Instr → Option VecRule
  | .vand k f d a b =>
    bitsRule k (useD f d :: useA f a :: useB f b) f d (fun l => c.at32 f a.val l &&& c.srcAt f l b)
  | .vor k f d a b =>
    bitsRule k (useD f d :: useA f a :: useB f b) f d (fun l => c.at32 f a.val l ||| c.srcAt f l b)
  | .vxor k f d a b =>
    bitsRule k (useD f d :: useA f a :: useB f b) f d (fun l => c.at32 f a.val l ^^^ c.srcAt f l b)
  | .vandn k f d a b =>
    bitsRule k (useD f d :: useA f a :: useB f b) f d (fun l =>
      (bvAt f (c.at32 f a.val l) &&& ~~~(bvAt f (c.srcAt f l b))).toNat)
  | .vnot k f d a => bitsRule k [useD f d, useA f a] f d (fun l => (~~~(bvAt f (c.at32 f a.val l))).toNat)
  | .vshl k f d a b =>
    bitsRule k (useD f d :: useA f a :: useB .n32 b) f d (fun l =>
      (bvAt f (c.at32 f a.val l) <<< (c.srcAt .n32 l b % f.width)).toNat)
  | .vshr k f d a b =>
    bitsRule k (useD f d :: useA f a :: useB .n32 b) f d (fun l =>
      (bvAt f (c.at32 f a.val l) >>> (c.srcAt .n32 l b % f.width)).toNat)
  | .vsra k f d a b =>
    bitsRule k (useD f d :: useA f a :: useB .n32 b) f d (fun l =>
      ((bvAt f (c.at32 f a.val l)).sshiftRight (c.srcAt .n32 l b % f.width)).toNat)
  | .vclz k f d a =>
    bitsRule k [useD f d, useA f a] f d (fun l =>
      ((List.range f.width).find? (fun i => (bvAt f (c.at32 f a.val l)).getMsbD i)).getD f.width)
  | .vpopc k f d a =>
    bitsRule k [useD f d, useA f a] f d (fun l =>
      (List.range f.width).countP (fun i => (bvAt f (c.at32 f a.val l)).getLsbD i))
  | .vbrev k f d a => bitsRule k [useD f d, useA f a] f d (fun l => (bvAt f (c.at32 f a.val l)).reverse.toNat)
  | .vbfx k f signed d a b e =>
    bitsRule k (useD f d :: useA f a :: (useB .n32 b ++ useB .n32 e)) f d (fun l =>
      let p := c.srcAt .n32 l b % f.width
      let n := min (c.srcAt .n32 l e % 128) (f.width - p)
      let x := (bvAt f (c.at32 f a.val l) >>> p).setWidth n
      if signed then (x.signExtend f.width).toNat else x.toNat)
  | .vbfi k f d a b e =>
    bitsRule k (useA f d :: useA f a :: (useB .n32 b ++ useB .n32 e)) f d (fun l =>
      let p := c.srcAt .n32 l b % f.width
      let n := min (c.srcAt .n32 l e % 128) (f.width - p)
      let m : BitVec f.width := ((BitVec.ofNat f.width 1 <<< n) - BitVec.ofNat f.width 1) <<< p
      ((bvAt f (c.at32 f d.val l) &&& ~~~m) ||| ((bvAt f (c.at32 f a.val l) <<< p) &&& m)).toNat)
  | .vsel k f neg depth d a b =>
    bitsRule k (useD f d :: useA f a :: useB f b) f d (fun l =>
      if (c.x.qLane l).getLsbD depth.val != neg then c.at32 f a.val l else c.srcAt f l b)
  | .vmov k f d b => bitsRule k (useD f d :: useB f b) f d (fun l => c.srcAt f l b)
  | .vmovk k d i => bitsRule k [useD .n32 d] .n32 d (fun _ => i.toNat)
  | .vmovq k d => bitsRule k [useD .n32 d] .n32 d (fun l => (c.x.qLane l).toNat)
  | _ => none

/-- The rounding mode of a word (R40). -/
def Ctx.mode (c : Ctx) (r : Rnd) : RM :=
  match r with
  | .rne => .rne
  | .rtz => .rtz
  | .rdn => .rdn
  | .rup => .rup
  | .dflt => smodeRM c.x.smode

/-- A floating-point row on one element or on both halves of a packed one (R124, R126): exact values, one exact operation, one
rounding; NV for a signalling operand. -/
def rounded (f : Fmt) (rm : RM) (sat : Bool) (op : List FVal → FVal × Bool) (args : List Nat) : Nat × Flags :=
  let one (g : Fmt) (xs : List Nat) : Nat × Flags :=
    let r := encodeOp g (op (xs.map (decodeF g))) rm sat
    (r.1, r.2.or (Flags.when (xs.any (isSNaN g)) Flags.invalid))
  if f.isPK then
    let lo := one (halfFmt f) (args.map (fun a => a % 2 ^ 16))
    let hi := one (halfFmt f) (args.map (fun a => a / 2 ^ 16 % 2 ^ 16))
    (lo.1 + hi.1 * 2 ^ 16, lo.2.or hi.2)
  else one f args

/-- A floating-point word's rule. -/
def floatsRule (k : Ctl) (uses : List VUse) (f : Fmt) (d : VReg) (e : Nat → Nat × Flags) : Option VecRule :=
  if f.isIN then none else some ⟨k, uses, f, d, e⟩

/-- R123, R124: VADD, VSUB, VMUL and the fused forms in floating point. -/
def Ctx.floatRule (c : Ctx) : Instr → Option VecRule
  | .vadd k f r sat d a b =>
    floatsRule k (useD f d :: useA f a :: useB f b) f d (fun l =>
      rounded f (c.mode r) sat (fun xs => fAdd (c.mode r) (xs.getD 0 .nan) (xs.getD 1 .nan)) [c.at32 f a.val l, c.srcAt f l b])
  | .vsub k f r sat d a b =>
    floatsRule k (useD f d :: useA f a :: useB f b) f d (fun l =>
      rounded f (c.mode r) sat (fun xs => fAdd (c.mode r) (xs.getD 0 .nan) (fNeg (xs.getD 1 .nan)))
        [c.at32 f a.val l, c.srcAt f l b])
  | .vmul k f r sat d a b =>
    floatsRule k (useD f d :: useA f a :: useB f b) f d (fun l =>
      rounded f (c.mode r) sat (fun xs => fMul (xs.getD 0 .nan) (xs.getD 1 .nan)) [c.at32 f a.val l, c.srcAt f l b])
  | .vfma k f r sat d a b e =>
    floatsRule k (useD f d :: useA f a :: (useB f b ++ useB f e)) f d (fun l =>
      rounded f (c.mode r) sat (fun xs => fFma (c.mode r) (xs.getD 0 .nan) (xs.getD 1 .nan) (xs.getD 2 .nan))
        [c.at32 f a.val l, c.srcAt f l b, c.srcAt f l e])
  | .vfms k f r sat d a b e =>
    floatsRule k (useD f d :: useA f a :: (useB f b ++ useB f e)) f d (fun l =>
      rounded f (c.mode r) sat (fun xs => fFma (c.mode r) (xs.getD 0 .nan) (xs.getD 1 .nan) (fNeg (xs.getD 2 .nan)))
        [c.at32 f a.val l, c.srcAt f l b, c.srcAt f l e])
  | .vfnma k f r sat d a b e =>
    floatsRule k (useD f d :: useA f a :: (useB f b ++ useB f e)) f d (fun l =>
      rounded f (c.mode r) sat (fun xs => fFma (c.mode r) (fNeg (xs.getD 0 .nan)) (xs.getD 1 .nan) (xs.getD 2 .nan))
        [c.at32 f a.val l, c.srcAt f l b, c.srcAt f l e])
  | _ => none

/-- R44, R123, R127–R135, R140: the vector words whose element operation Sys2Proof/Machine/Vector.lean, Real.lean and Act.lean give in a
function of their own: operands read, D, and that function. -/
def Ctx.elementRule (c : Ctx) : Instr → Option VecRule
  | .vmin k f prop d a b =>
    floatsRule k (useD f d :: useA f a :: useB f b) f d (fun l => minMaxElem false f prop (c.at32 f a.val l) (c.srcAt f l b))
  | .vmax k f prop d a b =>
    floatsRule k (useD f d :: useA f a :: useB f b) f d (fun l => minMaxElem true f prop (c.at32 f a.val l) (c.srcAt f l b))
  | .vclamp k f prop d a b e =>
    floatsRule k (useD f d :: useA f a :: (useB f b ++ useB f e)) f d (fun l =>
      let m := minMaxElem true f prop (c.at32 f a.val l) (c.srcAt f l b)
      let r := minMaxElem false f prop m.1 (c.srcAt f l e)
      (r.1, m.2.or r.2))
  | .vabs k f sat d a => floatsRule k [useD f d, useA f a] f d (fun l => absNeg false f sat (c.at32 f a.val l))
  | .vneg k f sat d a => floatsRule k [useD f d, useA f a] f d (fun l => absNeg true f sat (c.at32 f a.val l))
  | .vcpsgn k f x d a b =>
    some ⟨k, useD f d :: useA f a :: useB f b, f, d, fun l => cpsgn x f (c.at32 f a.val l) (c.srcAt f l b)⟩
  | .vcvt k f src r sat d a => some ⟨k, [useD f d, useA src a], f, d, fun l => cvtElem f src (c.mode r) sat (c.at32 src a.val l)⟩
  | .vrnd k f r d a => some ⟨k, [useD f d, useA f a], f, d, fun l => rndElem f (c.mode r) (c.at32 f a.val l)⟩
  | .vfdiv k f r sat d a b =>
    some ⟨k, useD f d :: useA f a :: useB f b, f, d, fun l => divElem f (c.mode r) sat (c.at32 f a.val l) (c.srcAt f l b)⟩
  | .vclass k f d a => some ⟨k, [useD .n32 d, useA f a], .n32, d, fun l => (2 ^ classOf f (c.at32 f a.val l), Flags.none)⟩
  | .vscalb k f r sat d a b =>
    some ⟨k, useD f d :: useA f a :: useB .n32 b, f, d, fun l =>
      scalbElem f (c.mode r) sat (c.at32 f a.val l) (c.srcAt .n32 l b)⟩
  | .vdot2 k f r sat d a b e =>
    some ⟨k, useD .n32 d :: useA .n32 a :: (useB .n32 b ++ useB .n32 e), .n32, d, fun l =>
      dot2 f (c.mode r) sat (c.at32 .n32 a.val l) (c.srcAt .n32 l b) (c.srcAt .n32 l e)⟩
  | .vpack k f r sat d a b =>
    some ⟨k, useD .n32 d :: useA .n32 a :: useB .n32 b, .n32, d, fun l =>
      packElem f (c.mode r) sat (c.at32 .n32 a.val l) (c.srcAt .n32 l b)⟩
  | .vunpkl k f d a => some ⟨k, [useD .n32 d, useA .n32 a], .n32, d, fun l => unpackElem false f (c.at32 .n32 a.val l)⟩
  | .vunpkh k f d a => some ⟨k, [useD .n32 d, useA .n32 a], .n32, d, fun l => unpackElem true f (c.at32 .n32 a.val l)⟩
  | .vkbenc k f d a b =>
    some ⟨k, useD .n32 d :: useA .n32 a :: useB .n32 b, .n32, d, fun l =>
      (kbEncode f (BitVec.ofNat 32 (c.at32 .n32 a.val l)).toInt (c.srcAt .n32 l b % 2), Flags.none)⟩
  | .vrcp k f r sat d a => some ⟨k, [useD f d, useA f a], f, d, fun l => specialFn .rcp f (c.mode r) sat (c.at32 f a.val l)⟩
  | .vrsq k f r sat d a => some ⟨k, [useD f d, useA f a], f, d, fun l => specialFn .rsq f (c.mode r) sat (c.at32 f a.val l)⟩
  | .vsqrt k f r sat d a => some ⟨k, [useD f d, useA f a], f, d, fun l => specialFn .sqrt f (c.mode r) sat (c.at32 f a.val l)⟩
  | .vexp2 k f r sat d a => some ⟨k, [useD f d, useA f a], f, d, fun l => specialFn .exp2 f (c.mode r) sat (c.at32 f a.val l)⟩
  | .vlog2 k f r sat d a => some ⟨k, [useD f d, useA f a], f, d, fun l => specialFn .log2 f (c.mode r) sat (c.at32 f a.val l)⟩
  | .vsin k f r sat d a => some ⟨k, [useD f d, useA f a], f, d, fun l => specialFn .sin f (c.mode r) sat (c.at32 f a.val l)⟩
  | .vcos k f r sat d a => some ⟨k, [useD f d, useA f a], f, d, fun l => specialFn .cos f (c.mode r) sat (c.at32 f a.val l)⟩
  | .vtanh k f r sat d a => some ⟨k, [useD f d, useA f a], f, d, fun l => specialFn .tanh f (c.mode r) sat (c.at32 f a.val l)⟩
  | _ => none

/-- The 32-bit register that lane l receives from an element: the element itself, sign-extended for I8 and I16, or a half of a
64-bit one (R120). -/
def deliveredTo (f : Fmt) (x : Nat) (high : Bool) : Word32 :=
  match f with
  | .i8 => (BitVec.ofNat 8 x).signExtend 32
  | .i16 => (BitVec.ofNat 16 x).signExtend 32
  | _ => if high then BitVec.ofNat 32 (x / 2 ^ 32) else BitVec.ofNat 32 x

/-- What a vector word does to its slice: every active lane of D receives the rule's element, every other element of every vector
register stays, SMODE gains the flags of the active lanes, the slice goes on, and nothing else of it changes. -/
def VecRule.leaves (r : VecRule) (c : Ctx) (y : Slice) : Prop :=
  y = { c.next with v := y.v, pend := y.pend, vpoison := y.vpoison
                    smode := smodeRaise c.x.smode (Flags.all ((c.x.lanes r.ctl.guard).map (fun l => (r.elem l).2))) }
  ∧ (∀ n, Sparse.get false y.vpoison n = false)
  ∧ (∀ n, y.pendOf (.s n) = [])
  ∧ ∀ n l, l < 4 → y.lands (.v n l)
      ((if c.x.active r.ctl.guard l = true ∧ n = r.d.val then deliveredTo r.df (r.elem l).1 false
        else if c.x.active r.ctl.guard l = true ∧ r.df.is64 = true ∧ n = r.d.val + 1 then deliveredTo r.df (r.elem l).1 true
        else c.x.vreg n l).setWidth 64)

/-! ### Paired words (R28, R66, R68) -/

/-- The full-word instruction in a half's row, with the half's guard and operands (R68). -/
def halfAlone (h : Half) : Instr :=
  let k : Ctl := ⟨false, halfGuard h.pg⟩
  let sd : SReg := ⟨h.d.toNat % 64, Nat.mod_lt _ (by decide)⟩
  let sa : SReg := ⟨h.a.toNat % 64, Nat.mod_lt _ (by decide)⟩
  let sx : SReg := ⟨h.x.toNat % 64, Nat.mod_lt _ (by decide)⟩
  let vd : VReg := ⟨h.d.toNat, Nat.lt_trans h.d.isLt (by decide)⟩
  let va : VReg := ⟨h.a.toNat, Nat.lt_trans h.a.isLt (by decide)⟩
  let vx : VReg := ⟨h.x.toNat, Nat.lt_trans h.x.isLt (by decide)⟩
  match h.pop with
  | .nop => .nop k
  | .sadd => .sadd k false sd (.s sa) (.s sx)
  | .ssub => .ssub k false sd (.s sa) (.s sx)
  | .sand => .sand k sd (.s sa) (.s sx)
  | .sor => .sor k sd (.s sa) (.s sx)
  | .sxor => .sxor k sd (.s sa) (.s sx)
  | .smov => .smov k sd (.s sa)
  | .saddi => .saddi k false sd (.s sa) (h.x.signExtend 16)
  | .sshli => .sshli k sd (.s sa) (h.x.setWidth 6)
  | .sshri => .sshri k sd (.s sa) (h.x.setWidth 6)
  | .scmpEq => .scmp k .eq (.s sa) (.s sx)
  | .scmpLt => .scmp k .lt (.s sa) (.s sx)
  | .scmpLtn => .scmp k .ltn (.s sa) (.s sx)
  | .vaddF32 => .vadd k .f32 .dflt false vd va (.v vx)
  | .vsubF32 => .vsub k .f32 .dflt false vd va (.v vx)
  | .vmulF32 => .vmul k .f32 .dflt false vd va (.v vx)
  | .vfmaF32 => .vfma k .f32 .dflt false vd va (.v vx) (.v vd)
  | .vminF32 => .vmin k .f32 false vd va (.v vx)
  | .vmaxF32 => .vmax k .f32 false vd va (.v vx)
  | .vaddI32 => .vadd k .i32 .rne false vd va (.v vx)
  | .vsubI32 => .vsub k .i32 .rne false vd va (.v vx)
  | .vmulI32 => .vmul k .i32 .rne false vd va (.v vx)
  | .vand => .vand k .n32 vd va (.v vx)
  | .vor => .vor k .n32 vd va (.v vx)
  | .vxor => .vxor k .n32 vd va (.v vx)
  | .vmov => .vmov k .n32 vd (.v va)
  | .vmovS => .vmov k .n32 vd (.s (.s sa))
  | .vshl => .vshl k .n32 vd va (.v vx)
  | .vshr => .vshr k .n32 vd va (.v vx)
  | .vcmpLtF32 => .vcmp k .f32 .lt va (.v vx)
  | .vcmpEqI32 => .vcmp k .i32 .eq va (.v vx)
  | .vcvtF32I32 => .vcvt k .f32 .i32 .dflt false vd va
  | .vcvtI32F32 => .vcvt k .i32 .f32 .dflt false vd va

/-- What a half writes: nothing, a scalar register, a vector register, or a bit on Q. -/
inductive HalfDest where
  | nothing | scalar | vector | queue
  deriving DecidableEq, Repr

/-- The destination of a half's row (R68). -/
def halfDest (h : Half) : HalfDest :=
  match h.pop with
  | .nop => .nothing
  | .sadd | .ssub | .sand | .sor | .sxor | .smov | .saddi | .sshli | .sshri => .scalar
  | .scmpEq | .scmpLt | .scmpLtn | .vcmpLtF32 | .vcmpEqI32 => .queue
  | _ => .vector

/-- Whether a half writes a scalar register of the slice. -/
def Ctx.halfWritesS (c : Ctx) (h : Half) (n : Nat) : Prop :=
  halfDest h = .scalar ∧ n = h.d.toNat % 64 ∧ c.x.guardScalar (halfGuard h.pg) = true
/-- Whether a half writes a lane of a vector register of the slice. -/
def Ctx.halfWritesV (c : Ctx) (h : Half) (n l : Nat) : Prop :=
  halfDest h = .vector ∧ n = h.d.toNat ∧ c.x.active (halfGuard h.pg) l = true

/-! ### Traps (R332–R339) -/

/-- A slice at user level, at rest, whose kernel has a handler and whose frame area and handler are mapped: `vec` is TRAPVEC, `at_`
where the frame goes, and `after` the state once the frame has been written. -/
structure TrapReady (s : State) (c : Ctx) (t : TrapInfo) (vec : Nat) (at_ : Xlat) (after : State) : Prop where
  rest : AtRest s c
  user : c.x.priv = 0
  vector : fld c.lrec 191 128 = vec
  aligned : vec ≠ 0 ∧ vec % 8 = 0 ∧ vec < 0x7FFFFF0000000000
  base : (s.chip c.b.vf).tfbase ≠ 0
  inRange : c.frameAddr < 0x7FFFFF0000000000
  mapped : s.translate c.b.vf (s.tlbOf c.b.core) 24000 c.frameAddr .write = .ok at_
  written : after = (s.fillTlb c.b.core at_.used).writeMem (c.writer .ls c.x.seq .core []) c.b.vf false at_.pa (c.frameBytes t s.ir)
  handler : ∃ x, after.translate c.b.vf (after.tlbOf c.b.core) 22000 vec .fetch = .ok x

/-- The slice at its handler (R339): S0 holds the frame's address and S1 INFO, PRIV is 1, EXEC is LIVE, and the PC is TRAPVEC. -/
def Ctx.atHandler (c : Ctx) (t : TrapInfo) (vec : Nat) : Slice :=
  { c.x with
    s := (c.x.s.set 0 (BitVec.ofNat 64 c.frameAddr)).set 1 (BitVec.ofNat 64 (infoWord c.x t))
    smode := smodeSetPriv c.x.smode 1, exec := c.x.live, pc := BitVec.ofNat 64 vec, hold := .none, seq := c.x.seq + 1
    frame := some (BitVec.ofNat 64 c.frameAddr), enteredAt := c.s.now }

/-- What is left when a fault of the slice's word ends its grid (R167, R333, R346): the grid, if it runs and keeps to one chip, is killed with
STATUS 4 and the code of the cause, with bit 7 for a fault at handler level, the PC and the kernel's index; every block of it is killed; nothing
else changes, but that the slice is held no longer. -/
def Ctx.endsGrid (c : Ctx) (u : State) (cause : Cause) (handler : Bool) : Prop :=
  u.mem = c.s.mem ∧ Table.find u.slices c.k = some { c.x with hold := .none }
  ∧ (∀ j, j ≠ c.k → Table.find u.slices j = Table.find c.s.slices j)
  ∧ (∀ n b, Table.find c.s.blocks n = some b →
      Table.find u.blocks n = some (if b.gid = c.b.gid then { b with killed := true } else b))
  ∧ (∀ g, Table.find c.s.grids c.b.gid = some g → g.state = .dispatching ∨ g.state = .draining → g.spansChips = false →
      Table.find u.grids c.b.gid = some { g with
        state := .killing, status := if cause = .watchdog then 3 else 4, undisp := []
        fault := some ⟨c.x.pc, c.kidx, BitVec.ofNat 8 (cause.code + (if handler then 128 else 0))⟩ })
  ∧ ∀ n, n ≠ c.b.gid → Table.find u.grids n = Table.find c.s.grids n

/-- The words whose own effect for a slice at user level is a trap, with what the trap records: TRAP and BRK (R343), the
emulation-defined words with an active lane (R75, R142), and words that are no instruction (R73). -/
def Ctx.trapRule (c : Ctx) : Instr → Option TrapInfo
  | .trap k n => if c.x.guardScalar k.guard = true then some { cause := .software, aux := n.setWidth 32 } else none
  | .brk _ n => some { cause := .breakpoint, aux := n.setWidth 32 }
  | .illegalInstruction _ => some { cause := .illegalInstruction }
  | .vdivI32 k d a b | .vdivN32 k d a b | .vremI32 k d a b | .vremN32 k d a b =>
    if (useD .n32 d :: useA .n32 a :: useB .n32 b).all (fun r => decide (r.n + r.count ≤ c.squad.vcount))
        && !(c.x.lanes k.guard).isEmpty then
      some { cause := .emulatedOpcode }
    else none
  | _ => none

/-- The privileged words (R342–R344, R352): those that a slice at user level may not run. -/
def isPrivileged : Instr → Bool
  | .tret _ | .sysrd _ _ _ | .syswr _ _ _ | .tlbinv _ _ _ _ _ | .tlbinvS2 _ _ _ => true
  | _ => false

/-! ### Memory words (R214–R230) -/

/-- What a memory word asks and becomes, as its entry says: its control, its register operands, and the operation. -/
def Ctx.memRule (c : Ctx) : Instr → Option (Ctl × List VUse × MemWord)
  | .vld k m fe sz d =>
    some (k, memUses m [⟨d.val, sz.regs, false⟩],
      ⟨m, true, { want := .read, size := sz.bytes, granule := feWaits fe }, .load (.vreg d.val) sz fe, fun _ _ => ([], [])⟩)
  | .vldtr k m fe sz d =>
    some (k, memUses m [⟨d.val, sz.bytes, false⟩],
      ⟨m, true, { want := .read, size := 4 * sz.bytes, granule := feWaits fe }, .loadTr d.val sz fe, fun _ _ => ([], [])⟩)
  | .sld k m fe sz d =>
    some (k, memUses m [],
      ⟨m, false, { want := .read, size := sz.bytes, granule := feWaits fe }, .load (.sreg d.val) sz fe, fun _ _ => ([], [])⟩)
  | .vst k m fe sz el d =>
    some (k, memUses m [⟨d.val, sz.regs, true⟩],
      ⟨m, true, { want := .write, size := sz.bytes, granule := fe == .setf }, .store sz fe el, fun _ l =>
        ((laneBytes c.x d.val sz.regs l).take sz.bytes, [])⟩)
  | .sst k m fe sz el d =>
    some (k, memUses m [],
      ⟨m, false, { want := .write, size := sz.bytes, granule := fe == .setf }, .store sz fe el, fun _ _ =>
        (leBytes sz.bytes (c.x.sreg d.val).toNat, [])⟩)
  | .feset k m => some (k, memUses m [], ⟨m, true, { want := .write, size := 16, granule := true }, .feset, fun _ _ => ([], [])⟩)
  | .feclr k m => some (k, memUses m [], ⟨m, true, { want := .write, size := 16, granule := true }, .feclr, fun _ _ => ([], [])⟩)
  | .atadd k m sz rv d => some (atomic .add k m sz rv d)
  | .atmin k m sz rv d => some (atomic .min k m sz rv d)
  | .atminn k m sz rv d => some (atomic .minn k m sz rv d)
  | .atmax k m sz rv d => some (atomic .max k m sz rv d)
  | .atmaxn k m sz rv d => some (atomic .maxn k m sz rv d)
  | .atand k m sz rv d => some (atomic .and k m sz rv d)
  | .ator k m sz rv d => some (atomic .or k m sz rv d)
  | .atxor k m sz rv d => some (atomic .xor k m sz rv d)
  | .atxchg k m sz rv d => some (atomic .xchg k m sz rv d)
  | .atcas k m sz d =>
    some (k, memUses m [⟨d.val, 2 * sz.regs, true⟩],
      ⟨m, true, { want := .atomic, size := sz.bytes }, .atomic .cas sz (some d.val), fun _ l =>
        (laneBytes c.x (d.val + sz.regs) sz.regs l, laneBytes c.x d.val sz.regs l)⟩)
  | .atfadd k m rv d => some (atomic .fadd k m .w32 rv d)
  | .atbadd2 k m rv d => some (atomic .badd2 k m .w32 rv d)
  | _ => none
where
  /-- The bytes of n registers in a lane, lowest first. -/
  laneBytes (x : Slice) (v n l : Nat) : List Byte := (List.range n).flatMap (fun i => leBytes 4 (x.vreg (v + i) l).toNat)
  /-- An atomic word: D supplies the operand, and with RV the old unit returns to it. -/
  atomic (op : AtomOp) (k : Ctl) (m : MemArg) (sz : Sz) (rv : Bool) (d : VReg) : Ctl × List VUse × MemWord :=
    (k, memUses m [⟨d.val, sz.regs, true⟩],
      ⟨m, true, { want := .atomic, size := sz.bytes }, .atomic op sz (if rv then some d.val else none), fun _ l =>
        (laneBytes c.x d.val sz.regs l, [])⟩)

/-- The lanes on which a memory word acts, with the address of each (R64, R216). -/
def Ctx.memAccesses (c : Ctx) (k : Ctl) (w : MemWord) : List (Nat × Nat) :=
  (if w.vec then c.x.lanes k.guard else if c.x.guardScalar k.guard then [0] else []).map (fun l =>
    (l, (c.x.sreg w.mem.base.val
      + (match w.mem.idx with
        | none => 0#64
        | some v => (c.x.vreg v.val l).setWidth 64)
      + w.mem.off.signExtend 64 * BitVec.ofNat 64 w.ask.size).toNat))

/-- One lane of an operation just issued. -/
def Ctx.freshLane (c : Ctx) (w : MemWord) (p : Nat × Nat × Option Xlat) : LaneAcc :=
  let a : LaneAcc :=
    ⟨p.1, BitVec.ofNat 64 p.2.1, p.2.2.map (fun x => x.pa), (w.data c p.1).1, (w.data c p.1).2, [], false, none, false⟩
  { a with waited := feWaits w.kind.fe && !c.laneFull a }

/-- An operation just issued by the slice's word (R114). -/
def Ctx.freshOp (c : Ctx) (kind : OpKind) (lanes : List LaneAcc) (scope : Scope) (acq rel : Bool) : MemOp where
  seq := c.x.seq
  kind := kind
  lanes := lanes
  scope := scope
  acq := acq
  rel := rel
  pc := c.x.pc
  words := c.x.issued
  consumer := false
  checked := false
  sent := false
  status := none
  outside := c.x.forcedOk
  at_ := c.s.fresh
  rels := (if rel then [(scope, c.x.seq)] else []) ++ (if kind.carries then c.x.fences else [])
  kidx := c.kidx
  handler := c.x.priv == 1

/-! ### Cross-lane words of one slice (R168–R181) -/

/-- What a cross-lane word does in an instance whose only member is its own slice: control, participation mask, register operands,
what it writes to a vector register, to a scalar one, and the bits it pushes by lane. -/
structure SoloRule where
  ctl : Ctl
  mask : SliceMask
  uses : List VUse
  vec : Option VecRule := none
  scalar : Option (SReg × Word64) := none
  push : Option (Nat → Bool) := none

/-- The active lanes of the slice's word, ascending: its contributors (R171). -/
def Ctx.acts (c : Ctx) (k : Ctl) : List Nat := (List.range 4).filter (fun l => c.x.active k.guard l)
/-- The mask of the threads of some lanes of the slice (R174). -/
def Ctx.threads (c : Ctx) (ls : List Nat) : Nat := (ls.map (fun l => 2 ^ (keySlice c.k * 4 + l))).sum

/-- A shuffle from thread u of the squad: the element of an active lane of the same slice, else zero or the old D (R175). -/
def Ctx.shuffleRule (c : Ctx) (k : Ctl) (f : Fmt) (keep : Bool) (mask : SliceMask) (d a : VReg) (b : VSrc) (src : Int → Nat → Int) :
    SoloRule :=
  let u (l : Nat) : Int := src ((keySlice c.k : Int) * 4 + l) (c.srcAt .n32 l b)
  let ok (l : Nat) : Bool :=
    decide (0 ≤ u l ∧ u l < 32 ∧ (u l).toNat / 4 = keySlice c.k) && c.x.active k.guard ((u l).toNat % 4)
  { ctl := k, mask := mask
    uses := useA f a :: (if keep then useA f d else useD f d) :: useB .n32 b
    vec := some ⟨k, [], f, d, fun l =>
      (if ok l then c.at32 f a.val ((u l).toNat % 4) else if keep then c.at32 f d.val l else 0, Flags.none)⟩
    push := some (fun l => c.x.active k.guard l && ok l) }

/-- The tree of R178 over four lanes, absent lanes passing the other. -/
def pairs4 {α : Type} (f : α → α → α) (x : Nat → Option α) : Option α :=
  let two (a b : Option α) : Option α :=
    match a, b with
    | some p, some q => some (f p q)
    | some p, none => some p
    | none, q => q
  two (two (x 0) (x 1)) (two (x 2) (x 3))

/-- A reduction over the slice's active lanes (R178). -/
def Ctx.reduceRule (c : Ctx) (r : Red) (k : Ctl) (f : Fmt) (mask : SliceMask) (d a : VReg) : SoloRule :=
  let v := (pairs4 (redNode r f) (fun l =>
    if c.x.active k.guard l then some (redLeaf f (c.at32 f a.val l)) else none)).getD (0, Flags.none)
  { ctl := k, mask := mask, uses := [useA f a, useD f d], vec := some ⟨k, [], f, d, fun _ => v⟩ }

/-- R175–R179: the cross-lane words with one member. -/
def Ctx.soloRule (c : Ctx) : Instr → Option SoloRule
  | .vshfl k f keep mask d a b => some (c.shuffleRule k f keep mask d a b (fun _ i => (i : Int)))
  | .vshflup k f keep mask d a b => some (c.shuffleRule k f keep mask d a b (fun t i => t - i))
  | .vshfldn k f keep mask d a b => some (c.shuffleRule k f keep mask d a b (fun t i => t + i))
  | .vshflx k f keep mask d a b => some (c.shuffleRule k f keep mask d a b (fun t i => ((t.toNat ^^^ i : Nat) : Int)))
  | .vbcast k f mask d a =>
    some { ctl := k, mask := mask, uses := [useA f a, useD f d]
           vec := some ⟨k, [], f, d, fun _ => (((c.acts k).head?.map (c.at32 f a.val)).getD 0, Flags.none)⟩ }
  | .voteany k f mask a =>
    some { ctl := k, mask := mask, uses := [useA f a]
           push := some (fun l => c.x.active k.guard l && (c.acts k).any (fun j => c.at32 f a.val j != 0)) }
  | .voteall k f mask a =>
    some { ctl := k, mask := mask, uses := [useA f a]
           push := some (fun l => c.x.active k.guard l && (c.acts k).all (fun j => c.at32 f a.val j != 0)) }
  | .voteuni k f mask a =>
    some { ctl := k, mask := mask, uses := [useA f a]
           push := some (fun l => c.x.active k.guard l
             && (c.acts k).all (fun i => (c.acts k).all (fun j => c.at32 f a.val i == c.at32 f a.val j))) }
  | .vballot k f mask d a =>
    some { ctl := k, mask := mask, uses := [useA f a]
           scalar := if c.x.guardScalar k.guard then
               some (d, BitVec.ofNat 64 (c.threads ((c.acts k).filter (fun j => c.at32 f a.val j != 0))))
             else none }
  | .vmatchany k f mask d a =>
    some { ctl := k, mask := mask, uses := [useA f a, useD .n32 d]
           vec := some ⟨k, [], .n32, d, fun l =>
             (c.threads ((c.acts k).filter (fun j => c.at32 f a.val j == c.at32 f a.val l)), Flags.none)⟩ }
  | .vmatchall k f mask d a =>
    let same := (c.acts k).all (fun i => (c.acts k).all (fun j => c.at32 f a.val i == c.at32 f a.val j))
    some { ctl := k, mask := mask, uses := [useA f a, useD .n32 d]
           vec := some ⟨k, [], .n32, d, fun _ => (if same then c.threads (c.acts k) else 0, Flags.none)⟩
           push := some (fun l => c.x.active k.guard l && same) }
  | .vredadd k f mask d a => some (c.reduceRule .add k f mask d a)
  | .vredmin k f mask d a => some (c.reduceRule .min k f mask d a)
  | .vredmax k f mask d a => some (c.reduceRule .max k f mask d a)
  | .vredand k f mask d a => some (c.reduceRule .and k f mask d a)
  | .vredor k f mask d a => some (c.reduceRule .or k f mask d a)
  | .vredxor k f mask d a => some (c.reduceRule .xor k f mask d a)
  | .vscanadd k f mask d a =>
    let upTo (n : Nat) : Nat × Flags :=
      match ((c.acts k).filter (fun j => j ≤ n)).map (fun j => redLeaf f (c.at32 f a.val j)) with
      | [] => (0, Flags.none)
      | x :: xs => xs.foldl (redNode .add f) x
    some { ctl := k, mask := mask, uses := [useA f a, useD f d]
           vec := some ⟨k, [], f, d, fun l => ((upTo l).1, (upTo 3).2)⟩ }
  | .regang k xsm => some { ctl := k, mask := ⟨xsm, none⟩, uses := [] }
  | _ => none

/-- The operands of a cross-lane word: control, participation mask, format and register of the elements that it supplies, the index operand of a
shuffle, and the register that keeps its elements. -/
def crossParts : Instr → Option (Ctl × SliceMask × Fmt × VReg × Option VSrc × Option VReg)
  | .vshfl k f keep m d a b | .vshflup k f keep m d a b | .vshfldn k f keep m d a b | .vshflx k f keep m d a b =>
    some (k, m, f, a, some b, if keep then some d else none)
  | .vbcast k f m _ a | .vballot k f m _ a | .vmatchany k f m _ a | .vmatchall k f m _ a => some (k, m, f, a, none, none)
  | .voteany k f m a | .voteall k f m a | .voteuni k f m a => some (k, m, f, a, none, none)
  | .vredadd k f m _ a | .vredmin k f m _ a | .vredmax k f m _ a | .vredand k f m _ a | .vredor k f m _ a | .vredxor k f m _ a
  | .vscanadd k f m _ a => some (k, m, f, a, none, none)
  | _ => none

/-- The least of a list by an order; 0 for none. -/
def firstBy (lt : Nat → Nat → Bool) (l : List Nat) : Nat :=
  match l with
  | [] => 0
  | x :: xs => xs.foldl (fun m y => if lt y m then y else m) x

/-- R171–R181: what a cross-lane word gives the slice of context c in an instance of the slices of `cs`, from the values that their active
lanes supply: the available threads, ascending. Reductions and scans are of I32 and N32. -/
def Ctx.groupRule (c : Ctx) (cs : List Ctx) (i : Instr) : Option SoloRule :=
  match crossParts i with
  | none =>
    match i with
    | .regang k xsm => some { ctl := k, mask := ⟨xsm, none⟩, uses := [] }
    | _ => none
  | some (k, mask, f, a, idx, old) =>
    let from_ (u : Nat) : Option Nat := (cs.find? (fun e => keySlice e.k == u / 4)).bind (fun e =>
      if e.x.active k.guard (u % 4) then some (e.at32 f a.val (u % 4)) else none)
    let all : List (Nat × Nat) := (List.range 32).filterMap (fun u => (from_ u).map (fun v => (u, v)))
    let vals : List Nat := all.map Prod.snd
    let threads (ok : Nat → Bool) : Nat := ((all.filter (fun e => ok e.2)).map (fun e => 2 ^ e.1)).sum
    let same : Bool := vals.all (fun x => vals.all (fun y => x == y))
    let vec (d : VReg) (g : Fmt) (v : Nat → Nat) : Option VecRule := some ⟨k, [], g, d, fun l => (v l, Flags.none)⟩
    let rule : SoloRule := { ctl := k, mask := mask, uses := [] }
    let ints (r : SoloRule) : Option SoloRule := if f = .i32 ∨ f = .n32 then some r else none
    let shuffle (d : VReg) (src : Int → Nat → Int) : Option SoloRule :=
      let u (l : Nat) : Int := src ((keySlice c.k : Int) * 4 + l) ((idx.map (c.srcAt .n32 l)).getD 0)
      let got (l : Nat) : Option Nat := if 0 ≤ u l ∧ u l < 32 then from_ (u l).toNat else none
      some { rule with
        vec := vec d f (fun l => (got l).getD ((old.map (fun r => c.at32 f r.val l)).getD 0))
        push := some (fun l => c.x.active k.guard l && (got l).isSome) }
    match i with
    | .vshfl _ _ _ _ d _ _ => shuffle d (fun _ n => (n : Int))
    | .vshflup _ _ _ _ d _ _ => shuffle d (fun t n => t - n)
    | .vshfldn _ _ _ _ d _ _ => shuffle d (fun t n => t + n)
    | .vshflx _ _ _ _ d _ _ => shuffle d (fun t n => ((t.toNat ^^^ n : Nat) : Int))
    | .vbcast _ _ _ d _ => some { rule with vec := vec d f (fun _ => vals.headD 0) }
    | .voteany _ _ _ _ => some { rule with push := some (fun l => c.x.active k.guard l && vals.any (fun v => v != 0)) }
    | .voteall _ _ _ _ => some { rule with push := some (fun l => c.x.active k.guard l && vals.all (fun v => v != 0)) }
    | .voteuni _ _ _ _ => some { rule with push := some (fun l => c.x.active k.guard l && same) }
    | .vballot _ _ _ d _ => some { rule with
        scalar := if c.x.guardScalar k.guard then some (d, BitVec.ofNat 64 (threads (fun v => v != 0))) else none }
    | .vmatchany _ _ _ d _ => some { rule with vec := vec d .n32 (fun l => threads (fun v => v == c.at32 f a.val l)) }
    | .vmatchall _ _ _ d _ => some { rule with
        vec := vec d .n32 (fun _ => if same then threads (fun _ => true) else 0)
        push := some (fun l => c.x.active k.guard l && same) }
    | .vredadd _ _ _ d _ => ints { rule with vec := vec d f (fun _ => intTo f false (vals.map (intAt f)).sum) }
    | .vredmin _ _ _ d _ => ints { rule with vec := vec d f (fun _ => firstBy (fun x y => intAt f x < intAt f y) vals) }
    | .vredmax _ _ _ d _ => ints { rule with vec := vec d f (fun _ => firstBy (fun x y => intAt f y < intAt f x) vals) }
    | .vredand _ _ _ d _ => ints { rule with vec := vec d f (fun _ => vals.tail.foldl (fun x y => x &&& y) (vals.headD 0)) }
    | .vredor _ _ _ d _ => ints { rule with vec := vec d f (fun _ => vals.foldl (fun x y => x ||| y) 0) }
    | .vredxor _ _ _ d _ => ints { rule with vec := vec d f (fun _ => vals.foldl (fun x y => x ^^^ y) 0) }
    | .vscanadd _ _ _ d _ => ints { rule with vec := vec d f (fun l =>
        intTo f false ((all.filter (fun e => e.1 ≤ keySlice c.k * 4 + l)).map (fun e => intAt f e.2)).sum) }
    | _ => none

/-- The participation mask of a word (R173). -/
def Ctx.maskOf (c : Ctx) (m : SliceMask) : BitVec 8 :=
  ~~~m.xsm &&& (match m.reg with
    | none => 0xFF
    | some r => (c.x.sreg r.val).setWidth 8)

/-- The slice held no longer. -/
def Ctx.released (c : Ctx) : Ctx := { c with x := { c.x with hold := .none } }

/-- What a slice that joins an instance brings to it (R168, R171): its word, its mask, its active lanes and the values that it read. -/
def Ctx.joins (c : Ctx) (i : Instr) : Option Member :=
  match crossParts i with
  | none =>
    match i with
    | .regang k xsm => some ⟨c.k, i, ~~~xsm, 0, c.x.guardScalar k.guard, [], [], []⟩
    | _ => none
  | some (k, m, f, a, idx, old) => some {
      slice := c.k, word := i, mask := c.maskOf m, active := laneMask (fun l => c.x.active k.guard l)
      pass := c.x.guardScalar k.guard
      vals := (List.range 4).map (fun l => BitVec.ofNat 64 (c.at32 f a.val l))
      olds := match old with
        | none => []
        | some d => (List.range 4).map (fun l => BitVec.ofNat 64 (c.at32 f d.val l))
      idx := match idx with
        | none => []
        | some b => (List.range 4).map (fun l => BitVec.ofNat 32 (c.srcAt .n32 l b)) }

/-- The slice that issues is the last that an instance waits for (R168, R170): the others, with nothing outstanding, are held at the same
word, which they issued with the same mask, and every slice that the mask names is among them or can no longer join. -/
structure GroupReady (s : State) (c : Ctx) (i : Instr) (p : BitVec 8) (held : List (Ctx × Member)) : Prop where
  rest : AtRest s c
  free : c.x.hold = .none ∧ c.x.priv ≠ 1
  inSquad : keySquad s.cur < c.b.squads.length
  instances : c.squad.insts = [⟨c.x.pc, held.map Prod.snd⟩]
  own : p.getLsbD (keySlice s.cur) = true
  joined : (c.joins i).map (fun m => m.mask) = some p ∧ ∀ e ∈ held, e.1.joins i = some e.2 ∧ e.2.mask = p
  apart : (held.map (fun e => e.2.slice) ++ [s.cur]).Nodup
  waits : ∀ e ∈ held, s.ctx e.2.slice = some e.1 ∧ keyBlock e.2.slice = keyBlock s.cur ∧ keySquad e.2.slice = keySquad s.cur
    ∧ e.1.x.pc = c.x.pc ∧ e.1.x.hold = .inst c.x.pc ∧ e.1.x.splice = none ∧ e.1.x.ops = [] ∧ e.1.x.pend = [] ∧ e.1.x.stale = []
    ∧ e.1.x.poisonDue = [] ∧ ∀ n, Sparse.get false e.1.x.vpoison n = false
  complete : ∀ sl, sl < 8 → p.getLsbD sl = true → sl = keySlice s.cur ∨ (∃ e ∈ held, keySlice e.2.slice = sl)
    ∨ s.mayCome (keyOf (keyBlock s.cur) (keySquad s.cur) sl) = false

/-- What a completed word leaves in its slice. -/
def SoloRule.leaves (r : SoloRule) (c : Ctx) (y : Slice) : Prop :=
  (match r.push with
    | none => y.q = c.x.q
    | some p => y.q = Vector.ofFn (fun l : Fin 4 => (c.x.q[l] <<< 1) ||| (if p l.val then 1#8 else 0#8)))
  ∧ (match r.vec with
    | some v => v.leaves c { y with q := c.x.q }
    | none =>
      y = { c.next with s := y.s, pend := y.pend, q := y.q }
      ∧ (∀ n l, y.pendOf (.v n l) = [])
      ∧ ∀ n, n < 64 → y.lands (.s n) (match r.scalar with
        | none => c.x.sreg n
        | some (d, w) => if n = d.val then w else c.x.sreg n))

/-- Whether every slice but one, every block and memory are the same in two states. -/
def State.sameBut (s t : State) (k : Nat) : Prop :=
  (∀ j, j ≠ k → Table.find t.slices j = Table.find s.slices j) ∧ (∀ u, Table.find t.blocks u = Table.find s.blocks u)
    ∧ t.mem = s.mem ∧ t.grids = s.grids ∧ t.cores = s.cores ∧ t.chips = s.chips ∧ t.dies = s.dies ∧ t.dev = s.dev

/-! ### Performing operations (R114, R220, R245) -/

/-- A slice of an unspliced grid with one operation outstanding, which no checkpoint binds, and nothing else due. -/
structure Alone (s : State) (k : Nat) (c : Ctx) (o : MemOp) : Prop where
  here : s.ctx k = some c
  unspliced : c.x.splice = none
  only : c.x.ops = [o]
  noPend : c.x.pend = []
  notTrapping : c.x.hold = .none ∨ c.x.hold = .parked
  unbound : o.outside = false

/-- Whether two states agree in everything but one slice, what is known of replaced values, and how far each die has applied the writes of
the others (R254). -/
def State.sameButReads (s t : State) (k : Nat) : Prop :=
  (∀ j, j ≠ k → Table.find t.slices j = Table.find s.slices j) ∧ t.blocks = s.blocks ∧ t.mem = s.mem ∧ t.grids = s.grids
    ∧ t.cores = s.cores ∧ t.chips = s.chips ∧ t.dev = s.dev ∧ t.past = s.past
    ∧ ∀ d, d < 4 → t.die d = { s.die d with clock := (t.die d).clock }

/-- Byte i of a lane in memory or in the scratchpad, as the slice's function reads it (R201, R204). -/
def Ctx.byteAt (c : Ctx) (a : LaneAcc) (i : Nat) : Byte :=
  match a.pa with
  | some p => c.s.readByte (c.s.keyTag c.b.vf) (p + i)
  | none => Sparse.get 0 c.b.scratch (a.addr.toNat - 0x7FFFFF0000000000 + i)
/-- The first n bytes of a lane. -/
def Ctx.bytesAt (c : Ctx) (a : LaneAcc) (n : Nat) : List Byte := (List.range n).map (c.byteAt a)

/-- A lane that has not been read, in memory or in the scratchpad, of n bytes, none of them poisoned. -/
structure Ctx.Readable (c : Ctx) (a : LaneAcc) (n : Nat) : Prop where
  unread : a.got = none
  plain : a.fwd = []
  place : a.pa.isSome = true ∨ (0x7FFFFF0000000000 ≤ a.addr.toNat ∧ a.addr.toNat < 0x7FFFFF0100000000)
  clean : c.lanePoisoned a n = false
  unmarked : a.poisoned = false

/-- A lane of an operation by its number. -/
def laneOf (o : MemOp) (l : Nat) : Option LaneAcc := o.lanes.find? (fun a => a.lane == l)

/-- The word that register i of a load's destination receives from the bytes loaded (R220). -/
def loadedPart (sz : Sz) (x i : Nat) : Word32 :=
  match sz with
  | .i8 => (BitVec.ofNat 8 x).signExtend 32
  | .i16 => (BitVec.ofNat 16 x).signExtend 32
  | _ => BitVec.ofNat 32 (x / 2 ^ (32 * i))

/-- The value that an element of the vector registers receives from a completed load or atomic with return, if any: an active lane that
still lives, extended as the size says (R214, R220), or transposed (R222). -/
def Ctx.loaded (c : Ctx) (o : MemOp) (n l : Nat) : Option Word32 :=
  match laneOf o l with
  | none => none
  | some a =>
    if c.x.live.toNat.testBit l then
      match o.kind with
      | .load (.vreg d) sz _ =>
        if d ≤ n ∧ n < d + sz.regs then
          some (loadedPart sz (leNat (c.bytesAt a sz.bytes)) (n - d))
        else none
      | .loadTr d sz _ =>
        if d ≤ n ∧ n < d + sz.bytes then
          let part (r : Nat) : Nat :=
            match laneOf o r with
            | none => 0
            | some b => leNat (((c.bytesAt b (4 * sz.bytes)).drop (l * sz.bytes)).take sz.bytes)
          let w := 8 * sz.bytes
          some (BitVec.ofNat 32 ((part 0 + part 1 * 2 ^ w + part 2 * 2 ^ (2 * w) + part 3 * 2 ^ (3 * w)) / 2 ^ (32 * (n - d))))
        else none
      | .atomic _ sz (some d) =>
        if d ≤ n ∧ n < d + sz.regs then some (BitVec.ofNat 32 (leNat (c.bytesAt a sz.bytes) / 2 ^ (32 * (n - d)))) else none
      | _ => none
    else none

/-- The value that a scalar load delivers (R220). -/
def scalarLoaded (sz : Sz) (x : Nat) : Word64 :=
  match sz with
  | .i8 => (BitVec.ofNat 8 x).signExtend 64
  | .i16 => (BitVec.ofNat 16 x).signExtend 64
  | _ => BitVec.ofNat 64 x

/-- The state with one slice replaced. -/
def State.putSlice (s : State) (k : Nat) (y : Slice) : State := { s with slices := Table.put s.slices k y }

/-- A location's byte after stores in lane order: the last lane that covers it supplies it. -/
def storedOver (lanes : List (Nat × List Byte)) (x : Nat) (old : Byte) : Byte :=
  lanes.foldl (fun v a => if a.1 ≤ x ∧ x < a.1 + a.2.length then a.2.getD (x - a.1) v else v) old

/-! ### Engine commands (R262–R305) -/

/-- What an engine word whose operands obey their limits puts on a queue: its control, whether it needs the matrix reservation, whether
it goes to the copy queue, its barrier object, and the command with its operands read at issue. -/
structure EngRule where
  ctl : Ctl
  matrix : Bool
  copy : Bool
  ab : Option SSrc
  kind : CmdKind

/-- The tile of a descriptor register when it obeys R285 and lies in the scratchpad. -/
def Ctx.scratchAt (c : Ctx) (t : TReg) : Option Tile :=
  match c.scratchTile (c.b.tdesc[t]) with
  | .ok x => some x
  | .error _ => none
/-- The tile of a descriptor register when it obeys R285, wherever it lies. -/
def Ctx.tileAt (c : Ctx) (t : TReg) : Option (Tile × Lies) :=
  match c.tile (c.b.tdesc[t]) with
  | .ok x => some x
  | .error _ => none
/-- Whether n bytes from an address lie in the scratchpad, aligned. -/
def Ctx.inScratch (c : Ctx) (a : Word64) (n align : Nat) : Bool :=
  c.lies a.toNat (a.toNat + n) == .scratch && a.toNat % align == 0

/-- R287–R293: the commands of the matrix engine that the pump does not expand. -/
def Ctx.matrixRule (c : Ctx) : Instr → Option EngRule
  | .ldstat k ns mode nc xf tb sm ab =>
    (c.scratchAt tb).bind (fun t =>
      if ldstatOk mode xf nc t && (nc == .n48 || c.inScratch (c.val sm) (8 * groupsOf mode nc * t.cols) 8) then
        some ⟨k, true, false, ab, .ldstat mode xf nc ns (c.b.tdesc[tb]) (if nc = .n48 then 0 else c.val sm)⟩
      else none)
  | .pswap k ab => some ⟨k, true, false, ab, .pswap⟩
  | .mx k rnd mode ta sp ab => streamed k (c.mode rnd) mode .n48 ta sp ab
  | .mxsp k rnd mode nc ta sp ab => streamed k (c.mode rnd) mode nc ta sp ab
  | .mxb k mode ta sp ab => streamed k .rne mode .n48 ta sp ab
  | .mxbsp k mode ta sp ab => streamed k .rne mode .n24 ta sp ab
  | .scacc k rnd sr sa sb ab =>
    let p := (c.val sr).toNat % 512
    let t := (c.val sr).toNat / 65536 % 512
    if p ≤ 508 ∧ (t < p ∨ p + 3 < t) ∧ c.inScratch (c.val sa) 2 2 = true ∧ c.inScratch (c.val sb) 256 16 = true then
      some ⟨k, true, false, ab, .scacc (c.mode rnd) (c.val sr) (c.val sa) (c.val sb)⟩
    else none
  | .accclr k sr ab =>
    let n := (c.val sr).toNat / 65536 % 1024
    if 1 ≤ n ∧ (c.val sr).toNat % 512 + n ≤ 512 then some ⟨k, true, false, ab, .accclr (c.val sr)⟩ else none
  | .accrd k rnd sat ic td sp ab =>
    (c.scratchAt td).bind (fun t =>
      if accFits t (c.val sp) && (if ic then t.fmt == .f32 || (t.fmt.isAccInt && rnd == .rne) else t.fmt.isAccFloat) then
        some ⟨k, true, false, ab, .accrd ic (c.mode rnd) sat (c.b.tdesc[td]) (c.val sp)⟩
      else none)
  | .accwr k ts sp ab =>
    (c.scratchAt ts).bind (fun t =>
      if accFits t (c.val sp) && (t.fmt.isAccFloat || t.fmt.isAccInt) then
        some ⟨k, true, false, ab, .accwr (c.b.tdesc[ts]) (c.val sp)⟩
      else none)
  | .accmv k ss sd sz ab =>
    let n := (c.val sz).toNat % 512
    let w := (c.val sz).toNat / 65536 % 256
    let fits (p : Word64) : Bool := decide (p.toNat % 512 + n ≤ 512 ∧ p.toNat / 65536 % 128 + w ≤ 128)
    if 1 ≤ n ∧ 1 ≤ w ∧ w ≤ 128 ∧ fits (c.val ss) = true ∧ fits (c.val sd) = true then
      some ⟨k, true, false, ab, .accmv (c.val ss) (c.val sd) (c.val sz)⟩
    else none
  | _ => none
where
  /-- The streaming commands (R289). -/
  streamed (k : Ctl) (rm : RM) (mode : Mode) (nc : NC) (ta : TReg) (sp : SSrc) (ab : Option SSrc) : Option EngRule :=
    (c.scratchAt ta).bind (fun t =>
      if mode.streamed.contains t.fmt && placeOk mode nc t.rows (c.val sp) then
        some ⟨k, true, false, ab, .stream mode rm nc (c.b.tdesc[ta]) (c.val sp)⟩
      else none)

/-- R272, R291, R294, R296–R299: the commands that the pump expands and those of the copy queue. -/
def Ctx.pumpRule (c : Ctx) : Instr → Option EngRule
  | .mxtile k rnd mode ta tb sp ab =>
    (c.scratchAt ta).bind (fun a => (c.scratchAt tb).bind (fun b =>
      let kind : CmdKind := .mxtile mode (c.mode rnd) (c.b.tdesc[ta]) (c.b.tdesc[tb]) (c.val sp)
      if mode.streamed.contains a.fmt && mode.stationary.contains b.fmt && a.cols == b.rows
          && placeOk mode .n48 (a.rows * ceilDiv b.cols 96) (c.val sp) && decide (kind.total < 2 ^ 24) then
        some ⟨k, true, false, ab, kind⟩
      else none))
  | .cptile k td ts ab =>
    (c.tileAt td).bind (fun d => (c.tileAt ts).bind (fun t =>
      let kind : CmdKind := .cptile (c.b.tdesc[td]) (c.b.tdesc[ts])
      if d.1.rows == t.1.rows && d.1.rb == t.1.rb && d.1.fmt.width == t.1.fmt.width && decide (kind.total < 2 ^ 24) then
        some ⟨k, true, false, ab, kind⟩
      else none))
  | .sctile k rnd sc ta tb ab =>
    (c.scratchAt ta).bind (fun a => (c.scratchAt tb).bind (fun b =>
      let x := (c.val sc).toNat
      let p0 := x % 512
      let t0 := x / 2 ^ 16 % 512
      let m := x / 2 ^ 32 % 1024
      let cg := x / 2 ^ 48 % 4
      let nb := x / 2 ^ 52 % 4
      let kind : CmdKind := .sctile (c.mode rnd) (c.val sc) (c.b.tdesc[ta]) (c.b.tdesc[tb])
      if 1 ≤ m ∧ m ≤ 512 ∧ 1 ≤ cg ∧ 1 ≤ nb ∧ p0 + 12 * nb * m ≤ 512 ∧ t0 + m * cg ≤ 512
          ∧ (t0 + m * cg ≤ p0 ∨ p0 + 12 * nb * m ≤ t0) ∧ a.fmt = .e5m3 ∧ m ≤ a.rows ∧ 2 * nb ≤ a.cols
          ∧ b.fmt = .e5m3 ∧ 128 * cg ≤ b.rows ∧ 2 * nb ≤ b.cols ∧ kind.total < 2 ^ 24 then
        some ⟨k, true, false, ab, kind⟩
      else none))
  | .cpcopy k sd ss sl ab =>
    let n := (c.val sl).toNat % 2 ^ 32
    let ok (a : Word64) : Bool := c.lies a.toNat (a.toNat + n) == .scratch || c.lies a.toNat (a.toNat + n) == .memory
    if 0 < n ∧ n ≤ 65536 ∧ ok (c.val sd) = true ∧ ok (c.val ss) = true then
      some ⟨k, false, true, ab, .cpcopy (c.val sd) (c.val ss) n⟩
    else none
  | .cptr k td ts ab =>
    (c.scratchAt td).bind (fun d => (c.tileAt ts).bind (fun t =>
      if d.fmt.isTr && t.1.fmt.isTr && d.fmt.width == t.1.fmt.width && decide (t.1.rows ≤ 256) && decide (t.1.cols ≤ 256)
          && d.rows == t.1.cols && d.cols == t.1.rows then
        some ⟨k, false, true, ab, .cptr (c.b.tdesc[td]) (c.b.tdesc[ts])⟩
      else none))
  | .cpmcast k d so ts sk =>
    (c.tileAt ts).bind (fun t =>
      let o := (c.val so).toNat / 2 ^ 32
      if t.2 == .memory && decide (t.1.base < 2 ^ 63) && decide (t.1.rows * t.1.rb ≤ 983040)
          && (o == 0xFFFFFFFF || o % 16 == 0) then
        some ⟨k, false, true, none, .cpmcast d.val (c.val so) (c.b.tdesc[ts]) ((c.val sk).setWidth 8)
          (c.special 0 .scrbase - windowBase)⟩
      else none)
  | _ => none

/-- A command that stands at the head of one of a core's queues, with no barrier object, of a slice of a block that runs, issued in an
earlier cycle, and that must see every write to the block's scratchpad (R257). -/
structure AtHead (s : State) (core : Nat) (copy : Bool) (cmd : Cmd) (rest : List Cmd) (b : Block) : Prop where
  queue : (if copy then (s.core core).copyq else (s.core core).cmdq) = cmd :: rest
  block : Table.find s.blocks cmd.block = some b
  runs : b.killed = false ∧ s.chipRuns b.vf = true
  begun : cmd.at_ ≤ s.now
  noObject : cmd.ab = none
  current : ∀ o, s.upToDate (cmd.reader b) (fun l => l == .scratch cmd.block o)

/-- What is left when the head command of a queue has completed (R114, R263): the queue is one shorter and EN of the issuing slice
falls while the command is attached. -/
def Completed (s t : State) (core : Nat) (copy : Bool) (cmd : Cmd) (rest : List Cmd) : Prop :=
  (if copy then (t.core core).copyq else (t.core core).cmdq) = rest
  ∧ (∀ x, cmd.attached = true → Table.find s.slices cmd.slice = some x →
      ∃ y, Table.find t.slices cmd.slice = some y ∧ y.cnt = { x.cnt with en := x.cnt.en - 1 })
  ∧ (∀ k, k ≠ cmd.slice → Table.find t.slices k = Table.find s.slices k)
  ∧ (∀ n, n ≠ core → t.core n = s.core n)

/-- What a block's scratchpad is after rows of bytes have been written to it by an engine, in their order, each at its offset: their bytes,
and no others, are written, and each granule that one touches is full (R196, R299). -/
def State.rowsReceived (s t : State) (uid : Nat) (rows : List (Nat × List Byte)) : Prop :=
  ∀ b, Table.find s.blocks uid = some b → ∃ y, Table.find t.blocks uid = some y
    ∧ (∀ o, Sparse.get 0 y.scratch o = storedOver rows o (Sparse.get 0 b.scratch o))
    ∧ ∀ g, Sparse.get false y.full g = (Sparse.get false b.full g
        || rows.any (fun r => decide (0 < r.2.length ∧ r.1 / 16 ≤ g ∧ g ≤ (r.1 + r.2.length - 1) / 16)))

/-- Whether no byte of a range lies in pod memory (R8). -/
def noPod (a n : Nat) : Prop := ∀ p ∈ cutPages a n, regionOf p.1 ≠ .pod

/-- What is left when the head command has made one of its steps (R272). -/
def Stepped (s t : State) (core : Nat) (copy : Bool) (cmd : Cmd) (rest : List Cmd) : Prop :=
  (if copy then (t.core core).copyq else (t.core core).cmdq) = { cmd with next := cmd.next + 1 } :: rest
  ∧ t.slices = s.slices ∧ (∀ n, n ≠ core → t.core n = s.core n)

/-- Whether the governor gives streaming work the active cycles it still needs within the present window (R278). -/
def Core.mayStream (k : Core) (now cycles : Nat) : Prop :=
  let g := k.govern now 0
  cycles - g.streamed ≤ g.budget - g.active
/-- The core with those cycles used. -/
def Core.streaming (k : Core) (now h cycles : Nat) : Core :=
  let g := k.govern now h
  { g with active := g.active + (cycles - g.streamed), streamed := 0 }
/-- The core whose work the governor holds for the rest of the window: what the window had left is used. -/
def Core.heldBack (k : Core) (now h : Nat) : Core :=
  let g := k.govern now h
  { g with active := g.active + (g.budget - g.active), streamed := g.streamed + (g.budget - g.active), blocked := true }

/-! ### Fabric and pod words (R412, R416, R417) -/

/-- What a fabric word asks: its control, source A, source B, the access to the bytes at B if it has them, the operation it becomes,
and whether it is a release (R412). -/
def Ctx.fabricRule (c : Ctx) : Instr → Option (Ctl × SSrc × SSrc × Option Ask × OpKind × Bool)
  | .fsend k d a b =>
    some (k, a, b, some { want := .read, size := 64 }, .fsend ((c.val a).setWidth 12) (c.val b) d.val, true)
  | .fsendLaunch k d a b =>
    some (k, a, b, none,
      .fsendLaunch ((c.val a).setWidth 12) ⟨(c.val a).toNat / 2 ^ 16 % 64, Nat.mod_lt _ (by decide)⟩ (c.val b) d.val, true)
  | .frecv k d a b =>
    some (k, a, b, some { want := .write, size := 64 }, .frecv ((c.val a).setWidth 12) (c.val b) d.val, false)
  | _ => none

/-- What a pod word asks and becomes. -/
def Ctx.podRule (c : Ctx) : Instr → Option (Ctl × List VUse × MemWord)
  | .podld k m sz d =>
    some (k, memUses m [⟨d.val, sz.regs, false⟩],
      ⟨m, true, { want := .read, size := sz.bytes }, .podLoad d.val sz, fun _ _ => ([], [])⟩)
  | .podst k m sz d =>
    some (k, memUses m [⟨d.val, sz.regs, true⟩],
      ⟨m, true, { want := .write, size := sz.bytes }, .podStore sz, fun _ l =>
        ((Ctx.memRule.laneBytes c.x d.val sz.regs l).take sz.bytes, [])⟩)
  | .podred k m sz rop d =>
    some (k, memUses m [⟨d.val, sz.regs, true⟩],
      ⟨m, true, { want := .atomic, size := sz.bytes }, .podRed (ropAtom rop) sz, fun _ l =>
        (Ctx.memRule.laneBytes c.x d.val sz.regs l, [])⟩)
  | _ => none

/-- A lane of a pod operation just issued: its address, and what it carries. -/
def Ctx.podFresh (c : Ctx) (w : MemWord) (p : Nat × Nat) : LaneAcc :=
  ⟨p.1, BitVec.ofNat 64 p.2, none, (w.data c p.1).1, (w.data c p.1).2, [], false, none, false⟩

/-! ### Collectives (R420–R424) -/

/-- The operation and the operands of a collective word. -/
def collRule : Instr → Option (Nat × Ctl × TReg × TReg × SSrc × SSrc)
  | .allreduce k td ts b x => some (0, k, td, ts, b, x)
  | .reducescatter k td ts b x => some (1, k, td, ts, b, x)
  | .allgather k td ts b x => some (2, k, td, ts, b, x)
  | .broadcast k td ts b x => some (3, k, td, ts, b, x)
  | _ => none

/-! ### The device (R433, R434) -/

/-- The state with one SPDM connection replaced. -/
def State.withSpdm (s : State) (fn : Fn) (y : Spdm) : State :=
  { s with dev := { s.dev with spdm := Table.put s.dev.spdm (fnIndex fn) y } }

/-- What an SPDM request asks of a connection: whether the connection's state permits it, the connection after it, and the
response (R434). -/
def State.spdmRule (s : State) : Instr → Option (Fn × Bool × Spdm × Response)
  | .getVersion fn =>
    some (fn, true, { Spdm.start with version := some 0, out := (s.spdm fn).out }, .version [0x12, 0x13])
  | .getCapabilities fn v =>
    some (fn, (s.spdm fn).version.isSome && (v == 0x12 || v == 0x13), { s.spdm fn with version := some v, caps := true },
      .capabilities Config.spdmCapabilities)
  | .negotiateAlgorithms fn =>
    some (fn, (s.spdm fn).caps, { s.spdm fn with algs := true },
      .algorithms ["ECDSA P-384", "SHA-384", "ECDHE P-384", "AES-256-GCM"])
  | .getDigests fn =>
    some (fn, (s.spdm fn).algs, s.spdm fn,
      .digests (Sha.digest (Config.deviceCertificates ++ Config.aliasCertificate s.dev.fwMeas)))
  | .getCertificate fn off len =>
    let chain := Config.deviceCertificates ++ Config.aliasCertificate s.dev.fwMeas
    let part := (chain.drop off).take len
    some (fn, (s.spdm fn).algs && decide (off < chain.length), s.spdm fn, .certificate part (chain.length - off - part.length))
  | .challenge fn nonce =>
    some (fn, (s.spdm fn).algs, s.spdm fn,
      .challengeAuth (Sha.digest (Config.deviceCertificates ++ Config.aliasCertificate s.dev.fwMeas))
        (Config.aliasSign s.dev.fwMeas nonce))
  | .getMeasurements fn index secured =>
    let one (i : Nat) : Option (List Byte) :=
      match i with
      | 1 => some Config.bootRomVersion
      | 2 => some (Sha.digestBytes s.dev.fwMeas)
      | 3 => some (Sha.digestBytes s.dev.fallbackMeas)
      | 4 => some (leBytes 4 Config.unitVersion.toNat)
      | 5 => some (Sha.digestBytes s.dev.configMeas)
      | 16 =>
        match fn with
        | .pf => some (Sha.digestBytes 0)
        | .vf f => if secured && (s.spdm fn).session then some (Sha.digestBytes (s.chip f.val).att) else none
      | _ => none
    let blocks := (if index = 0xFF then [1, 2, 3, 4, 5, 16] else [index.toNat]).filterMap (fun i => (one i).map (fun b => (i, b)))
    some (fn, (s.spdm fn).algs && !blocks.isEmpty, s.spdm fn, .measurements blocks)
  | .keyExchange fn share =>
    some (fn, (s.spdm fn).algs, { s.spdm fn with keyed := true, session := false },
      .keyExchange (Config.responderShare s.fresh) (Config.aliasSign s.dev.fwMeas (share ++ Config.responderShare s.fresh)))
  | .finish fn verified =>
    some (fn, (s.spdm fn).keyed && verified, { s.spdm fn with keyed := false, session := true }, .finish)
  | .endSession fn => some (fn, (s.spdm fn).session, { s.spdm fn with session := false }, .endSession)
  | _ => none

end Sys2Proof.Machine
end

