-- ==== Sys2Proof/Certificates/Slice0/Obligations.lean ====
section
/-! DEFINITION. The statements made about the machine, one `Obligations.<Name> : Prop` each. -/

open Sys2Proof Sys2Proof.Machine

/-! ### Encoding -/

/-- Words that the spec writes out bit by bit (R56, R57, R59–R65, R132, R175, R229, R234, R289, R342, R344, R384, R413, R420), one or more for a
family of the opcode table, decode to the instructions they stand for. -/
def Obligations.DecodeWords : Prop :=
  -- ?!Q2 VFMA.F32.RTZ V10, V3, V7, V12 ^
  decodeWord 0x903D050183861000 = .ok (.vfma ⟨true, .q true 2⟩ .f32 .rtz false 10 3 (.v 7) (.v 12))
  -- VADD.F32 V4, V0, V1 || VMUL.F32 V9, V2, V2 ^
  ∧ decodeWord 0xD0008000A2024102 = .ok (.pairedWord true ⟨.vaddF32, 0, 4, 0, 1⟩ ⟨.vmulF32, 0, 9, 2, 2⟩)
  -- SADDI S3, S3, -8
  ∧ decodeWord 0x02000181FFFC0000 = .ok (.saddi ⟨false, .always⟩ false 3 (.s 3) 0xFFF8)
  -- BRA.PACK, four words back
  ∧ decodeWord 0x0800007FFFFFFE40 = .ok (.bra ⟨false, .always⟩ true 0xFFFFFFFC)
  -- VCVT.E4M3.F32.RNE.SAT V5, V2
  ∧ decodeWord 0x10E0028100000850 = .ok (.vcvt ⟨false, .always⟩ .e4m3 .f32 .rne true 5 2)
  -- VSHFLDN.N32 V5, V2, S3
  ∧ decodeWord 0x182002810180002E = .ok (.vshfldn ⟨false, .always⟩ .n32 false ⟨0, none⟩ 5 2 (.s (.s 3)))
  -- TRET
  ∧ decodeWord 0x3410000000000000 = .ok (.tret ⟨false, .always⟩)
  -- SYSRD S3, TFBASE
  ∧ decodeWord 0x3420018000000001 = .ok (.sysrd ⟨false, .always⟩ .tfbase 3)
  -- COLL T2, T1, S4, S5
  ∧ decodeWord 0x3620010082028000 = .ok (.allreduce ⟨false, .always⟩ 2 1 (.s 4) (.s 5))
  -- WLD.W32 V7, base S22, index V1, OFF 4, CLUSTER scope, a poison report that pushes, ^
  ∧ decodeWord 0xA200038B00822120 = .ok (.wld ⟨true, .always⟩ ⟨22, some 1, 4, .cluster, .none, false⟩ .w32 .push 7)
  -- VLD.W32 V1, base S7, index V0, CORE scope, ^
  ∧ decodeWord 0xA000008380001920 = .ok (.vld ⟨true, .always⟩ ⟨7, some 0, 0, .core, .none, false⟩ .none .w32 1)
  -- ATBADD2 V6, base S2, index V3, OFF 2, DIE scope, no return
  ∧ decodeWord 0x21B0030101812920 = .ok (.atbadd2 ⟨false, .always⟩ ⟨2, some 3, 2, .die, .none, false⟩ false 6)
  -- MXB.KB8 T1, S4, barrier object in S9
  ∧ decodeWord 0x3040048082000420 = .ok (.mxb ⟨false, .always⟩ .kb8 1 (.s 4) (some (.s 9)))
  -- FSEND S6, S3, S5
  ∧ decodeWord 0x3600030182800000 = .ok (.fsend ⟨false, .always⟩ 6 (.s 3) (.s 5))
  -- QENQ S3, S4, S5
  ∧ decodeWord 0x3700018202800000 = .ok (.qenq ⟨false, .always⟩ 3 (.s 4) (.s 5))
  -- OP 0x3FF has no row
  ∧ decodeWord 0x3FF0000000000000 = .error .undefinedOpcode

/-- Whether an instruction has a word that stands for it alone. The other operations of COLL share the word of its first, since the
operation is chosen by a register (R420); a word that is no instruction has no fields. -/
def Instr.ownWord : Instr → Bool
  | .illegalInstruction _ => false
  | .reducescatter _ _ _ _ _ => false
  | .allgather _ _ _ _ _ => false
  | .broadcast _ _ _ _ _ => false
  | i => i.hasWord

/-- Decoding the word of a well-formed instruction gives the instruction back, with every operand: no bit of an encoding is
dropped. -/
def Obligations.DecodeEncode : Prop :=
  ∀ i : Instr, Instr.ownWord i = true → i.wf = true → ∃ w, encode i = some w ∧ decodeWord w = .ok i

/-- Every word that decodes is the word of the instruction that it decodes to, so that no two words stand for one instruction, and
that instruction is well formed (R73). -/
def Obligations.EncodeDecode : Prop :=
  ∀ (w : Word64) (i : Instr), decodeWord w = .ok i → i.wf = true ∧ encodeNat i = w.toNat

/-! ### The step -/

/-- A turn of a ready slice: it fetches at its PC, and the step is exec of the instruction that the fetched word stands for, at the
state the fetch leaves with the word and the slice noted; a word that does not decode is the illegal instruction (R27, R73, R345). -/
def Claims.StepRunsDecoded : Prop :=
  ∀ (s : State) (k : Nat) (dt : Nat) (ts : List Turn) (c : Ctx) (w : Word64) (s1 : State) (i : Instr),
    s.turns = ⟨dt, .slice k⟩ :: ts →
    (s.advance s.nextTurn).ctx k = some c → (s.advance s.nextTurn).ready k = true → c.atJoin = false →
    c.fetch = .word w s1 → decodeWord w = .ok i → i.wf = true →
    s.advance s.nextTurn =
      ({ s with now := s.now + dt, fresh := s.fresh + 1, turns := ts } : State).accrue ((s.now + dt) / hourCycles - s.now / hourCycles)
    ∧ step s =
        (let s2 := { s1.modSlice k (fun x => { x with last := x.pc }) with cur := k, ir := w }
         match s2.ctx k with
         | some y => exec (y.resolve1 i) s2
         | none => exec i s2)

/-- R73, R334, R345: a word that does not decode is the illegal instruction; a fetch that faults takes its trap, with no word that any rule
states in the frame; and a schedule that names no turn gives the next one to the lowest ready slice, one cycle later. -/
def Claims.StepElse : Prop :=
  (∀ (s : State) (k : Nat) (dt : Nat) (ts : List Turn) (c : Ctx) (w : Word64) (s1 : State) (e : DecodeError),
    s.turns = ⟨dt, .slice k⟩ :: ts → (s.advance s.nextTurn).ctx k = some c → (s.advance s.nextTurn).ready k = true → c.atJoin = false →
    c.fetch = .word w s1 → decodeWord w = .error e →
    step s = exec (.illegalInstruction w) { s1.modSlice k (fun x => { x with last := x.pc }) with cur := k, ir := w })
  ∧ (∀ (s : State) (k : Nat) (dt : Nat) (ts : List Turn) (c : Ctx) (t : TrapInfo) (s1 : State),
    s.turns = ⟨dt, .slice k⟩ :: ts → (s.advance s.nextTurn).ctx k = some c → (s.advance s.nextTurn).ready k = true → c.atJoin = false →
    c.fetch = .trap t s1 → step s = .next (s1.takeTrap k t (s.advance s.nextTurn).noWord))
  ∧ (∀ (s : State) (k : Nat) (x : Slice) (before after : List (Nat × Slice)),
    s.turns = [] → s.slices = before ++ (k, x) :: after → (∀ e ∈ before, s.ready e.1 = false) → s.ready k = true →
    step s = step { s with turns := [⟨1, .slice k⟩] })
  ∧ ∀ s : State, s.turns = [] → (∀ e ∈ s.slices, s.ready e.1 = false) → step s = step { s with turns := [⟨1, .slice 0⟩] }

/-- A turn that the schedule gives to an event runs that event's row of the table. -/
def Claims.StepRunsEvent : Prop :=
  ∀ (s : State) (dt : Nat) (i : Instr) (ts : List Turn),
    s.turns = ⟨dt, .event i⟩ :: ts → i.hasWord = false →
    step s = exec i
      (({ s with now := s.now + dt, fresh := s.fresh + 1, turns := ts } : State).accrue ((s.now + dt) / hourCycles - s.now / hourCycles))

/-- A step runs the instruction its turn decodes: the fetched word of a slice, a word that does not decode as the illegal instruction (R27,
R73), or the row of the event that the schedule names; a fetch that faults traps; and without a schedule the lowest ready slice has its turn. -/
def Obligations.AStepRuns : Prop :=
  Claims.StepRunsDecoded ∧ Claims.StepElse ∧ Claims.StepRunsEvent

/-- R27, R240: a slice fetches its words at PC: the bytes that translation and memory give at the address, lowest byte first, or else the word
that the core's instruction cache holds for it, or one that memory held before writes that no ICINV has made its fetches see. -/
def Obligations.FetchReadsMemory : Prop :=
  ∀ (s : State) (c : Ctx) (x : Xlat),
    c.s = s → c.x.splice = none → c.x.pc.toNat % 8 = 0 → c.x.pc.toNat < 0x7FFFFF0000000000 →
    s.translate c.b.vf (s.tlbOf c.b.core) 50000 c.x.pc.toNat .fetch = .ok x →
    s.linePoisoned x.pa 8 = false →
    let cached := Table.find (s.core c.b.core).icache (icKey c.b.vf c.x.pc.toNat)
    let fresh := BitVec.ofNat 64 (leNat (s.readBytes (s.keyTag c.b.vf) x.pa 8))
    ∃ w t, c.fetch = .word w t ∧ t.mem = s.mem ∧ t.slices = s.slices ∧ t.blocks = s.blocks
      ∧ (w = fresh ∨ cached = some w ∨ w ∈ c.olderWords c.x.pc.toNat x.pa)
      ∧ (cached = none → (∀ p ∈ s.past, p.loc.inBytes x.pa 8 = true → p.stamp < c.fetchFrom c.x.pc.toNat) → w = fresh)

/-! ### Invariants and reset -/

/-- Every step keeps memory in its canonical form (log entry 4): addresses rise, and only bytes that are not zero are listed. -/
def Obligations.StepKeepsInv : Prop := ∀ s t : State, s.Inv → step s = .next t → t.Inv

/-- The machine never stops on a word or an event that has a slice to run: the one fault is a word with no slice (R73, R332). -/
def Obligations.ExecAnswers : Prop :=
  ∀ (i : Instr) (s : State) (c : Ctx), s.ctx s.cur = some c → ∃ t, exec i s = .next t

/-- After a module reset and the boot of its signed image (R432) memory is canonical and lists nothing, and no grid, block or slice
exists; every queue is DISABLED (R377); of each function TFBASE is 0, HWDOG is 1,000 (R344), its record permits TENANT alone
(R395) and its interface is CONFIG_UNLOCKED (R406); the four dies form one partition with every bridge open (R390, R432). That
memory reads as zero and no packet is queued rests on log entries 4 and 19, and that TFBASE is 0 on log entry 1: no rule gives its value. -/
def Obligations.ResetState : Prop :=
  State.reset.Inv ∧ State.reset.mem = [] ∧ State.reset.slices = [] ∧ State.reset.blocks = [] ∧ State.reset.grids = []
  ∧ (∀ f q, (State.reset.queue f q).state = .disabled)
  ∧ (∀ f, (State.reset.chip f).tfbase = 0 ∧ (State.reset.chip f).hwdog = 1000 ∧ (State.reset.chip f).tdisp = .unlocked
    ∧ (State.reset.frec f).toNat = 2 ^ 64)
  ∧ ∀ d, d < 4 → (State.reset.die d).partcfg = 0xFF00

/-! ### Scalar words (R94–R103) -/

/-- R94, R95, R96, R99, R100: a scalar word whose guard passes writes its rule's value to D as a short result, goes on to the next
word, and changes nothing else of the machine. -/
def Claims.ScalarResults : Prop :=
  ∀ (s : State) (c : Ctx) (i : Instr) (k : Ctl) (d : SReg) (v : Word64),
    AtRest s c → (c.arithRule i = some (k, d, v) ∨ c.logicRule i = some (k, d, v)) → c.x.guardScalar k.guard = true →
    exec i s = .next (s.withSlice (c.next.withS d v))

/-- R98: SCMP and SCMPI push one bit into all four lanes of Q: the condition's truth, or 0 when the guard fails (R23). -/
def Claims.CompareResults : Prop :=
  ∀ (s : State) (c : Ctx) (i : Instr) (k : Ctl) (r : Bool),
    AtRest s c → c.compareRule i = some (k, r) →
    exec i s = .next (s.withSlice { c.next with q := c.x.pushed (c.x.guardScalar k.guard && r) })

/-- R94–R100: the scalar arithmetic, logic, move, shift, count and bit-field words write their row's value, and the scalar compares push their
result; nothing else changes. -/
def Obligations.ScalarWords : Prop :=
  Claims.ScalarResults ∧ Claims.CompareResults

/-- R101: EXLOAD, EXAND, EXANDN and EXFROMQ write EXEC, never beyond LIVE (R20), and those with a D write EXEC's old value there;
EXSAVE writes EXEC to D. -/
def Claims.ExecWords : Prop :=
  (∀ (s : State) (c : Ctx) (i : Instr) (k : Ctl) (d : Option SReg) (m : BitVec 4),
    AtRest s c → c.execRule i = some (k, d, m) → c.x.guardScalar k.guard = true →
    exec i s = .next (s.withSlice { (match d with
      | none => c.next
      | some r => c.next.withS r (c.x.exec.setWidth 64)) with exec := m &&& c.x.live }))
  ∧ (∀ (s : State) (c : Ctx) (k : Ctl) (d : SReg), AtRest s c → c.x.guardScalar k.guard = true →
    exec (.exsave k d) s = .next (s.withSlice (c.next.withS d (c.x.exec.setWidth 64))))

/-- R101, R102: QSAVE and QLOAD move Q as 32 bits, lane l's stack in bits 8l+7 to 8l; MODERD delivers SMODE; MODEWR writes the
rounding mode and the sticky flags of SMODE and no other bit; MODERM writes the rounding mode. -/
def Claims.QueueAndModeWords : Prop :=
  ∀ (s : State) (c : Ctx) (k : Ctl), AtRest s c → c.x.guardScalar k.guard = true →
    (∀ d, exec (.qsave k d) s = .next (s.withSlice (c.next.withS d
      ((c.x.q[3] ++ c.x.q[2] ++ c.x.q[1] ++ c.x.q[0] : BitVec 32).setWidth 64))))
    ∧ (∀ a, exec (.qload k a) s = .next (s.withSlice { c.next with
      q := #v[(c.val a).setWidth 8, (c.val a >>> 8).setWidth 8, (c.val a >>> 16).setWidth 8, (c.val a >>> 24).setWidth 8] }))
    ∧ (∀ d, exec (.moderd k d) s = .next (s.withSlice (c.next.withS d c.x.smode)))
    ∧ (∀ a, exec (.modewr k a) s = .next (s.withSlice { c.next with
      smode := (c.x.smode &&& ~~~0x1F3#64) ||| (c.val a &&& 0x1F3#64) }))
    ∧ (∀ r, exec (.moderm k r) s = .next (s.withSlice { c.next with
      smode := (c.x.smode &&& ~~~3#64) ||| BitVec.ofNat 64 (rmBits r) }))

/-- R101, R102: the words that move EXEC, Q and SMODE. -/
def Obligations.StateWords : Prop :=
  Claims.ExecWords ∧ Claims.QueueAndModeWords

/-- The words that a failing guard turns into a word that only goes on (R22), those that ask for no privilege. -/
def Instr.skips : Instr → Option Ctl
  | .sadd k _ _ _ _ | .ssub k _ _ _ _ | .smul k _ _ _ _ => some k
  | .smulh k _ _ _ | .smulhn k _ _ _ | .smin k _ _ _ | .smax k _ _ _ | .sminn k _ _ _ | .smaxn k _ _ _ => some k
  | .sand k _ _ _ | .sor k _ _ _ | .sxor k _ _ _ | .sandn k _ _ _ => some k
  | .sshl k _ _ _ | .sshr k _ _ _ | .ssra k _ _ _ | .srot k _ _ _ => some k
  | .sclz k _ _ | .sctz k _ _ | .spopc k _ _ | .sbrev k _ _ => some k
  | .sbfx k _ _ _ _ _ | .ssext k _ _ _ _ | .slea k _ _ _ _ _ => some k
  | .sbfi k _ _ _ _ | .sselz k _ _ _ _ | .smov k _ _ | .sabs k _ _ _ | .sclamp k _ _ _ _ _ => some k
  | .saddi k _ _ _ _ | .smuli k _ _ _ _ => some k
  | .sandi k _ _ _ | .sori k _ _ _ | .sxori k _ _ _ | .sshli k _ _ _ | .sshri k _ _ _ | .ssrai k _ _ _ | .sroti k _ _ _ => some k
  | .smini k _ _ _ | .smaxi k _ _ _ | .smovk k _ _ | .smovkh k _ _ | .saddk k _ _ | .sleapc k _ _ => some k
  | .exsave k _ | .exload k _ | .exand k _ _ | .exandn k _ _ | .exfromq k _ _ _ => some k
  | .qsave k _ | .qload k _ | .moderd k _ | .modewr k _ | .moderm k _ => some k
  | .bra k _ _ | .bexz k _ _ | .bexnz k _ _ | .call k _ _ | .ret k _ | .brs k _ | .brix k _ => some k
  | .wait k _ _ _ _ _ => some k
  | .trap k _ | .bar k _ _ | .abwait k _ _ | .wdget k _ _ | .tdset k _ _ _ | .tdget k _ _ _ | .cgrp k _ _ _ | .qenq k _ _ _ => some k
  | _ => none

/-- R22: at user level a scalar word whose guard fails has no effect but to go on to the next word. -/
def Obligations.GuardFails : Prop :=
  ∀ (s : State) (c : Ctx) (i : Instr) (k : Ctl),
    AtRest s c → c.x.priv = 0 → Instr.skips i = some k → c.x.guardScalar k.guard = false →
    exec i s = .next (s.withSlice c.next)

/-! ### Control flow (R104–R111, R116) -/

/-- R104, R105: BRA, BEXZ and BEXNZ go to PC + 8 × DISP32 when their guard passes and EXEC is as they ask, and else to the next word;
CALL also writes the return address; R119: NOP only goes on. -/
def Claims.Branches : Prop :=
  ∀ (s : State) (c : Ctx) (k : Ctl) (p : Bool) (disp : BitVec 32), AtRest s c →
    let there : State := s.withSlice { c.next with pc := c.x.pc + (disp.signExtend 64 <<< 3) }
    (exec (.bra k p disp) s = .next (if c.x.guardScalar k.guard = true then there else s.withSlice c.next))
    ∧ (exec (.bexz k p disp) s = .next (if c.x.guardScalar k.guard = true ∧ c.x.exec = 0 then there else s.withSlice c.next))
    ∧ (exec (.bexnz k p disp) s = .next (if c.x.guardScalar k.guard = true ∧ c.x.exec ≠ 0 then there else s.withSlice c.next))
    ∧ (∀ d, c.x.guardScalar k.guard = true → exec (.call k d disp) s =
        .next (s.withSlice { c.next.withS d (c.x.pc + 8) with pc := c.x.pc + (disp.signExtend 64 <<< 3) }))
    ∧ exec (.nop k) s = .next (s.withSlice c.next)

/-- R106: RET and BRS go to the address in a register. -/
def Claims.RegisterJumps : Prop :=
  ∀ (s : State) (c : Ctx) (k : Ctl) (a : SSrc), AtRest s c → c.x.guardScalar k.guard = true → (c.val a).toNat % 8 = 0 →
    exec (.ret k a) s = .next (s.withSlice { c.next with pc := c.val a })
    ∧ exec (.brs k a) s = .next (s.withSlice { c.next with pc := c.val a })

/-- R104–R106, R119: the branches, CALL, RET, BRS and NOP go where their row says. -/
def Obligations.Jumps : Prop :=
  Claims.Branches ∧ Claims.RegisterJumps

/-- R108–R110: BRIX goes to KENTRY plus the entry of the dispatch table that a scalar index selects; BRIXL takes the index of the
lowest lane of EXEC, restricts EXEC to the lanes that hold the same index, and delivers the remaining ones. The table is read as an LS
load of 8 bytes at DTBASE + 8 × index, which takes a number among the slice's operations, and of which later reads and fences know
(R247, R251). -/
def Claims.TableJump : Prop :=
  ∀ (s : State) (c z : Ctx) (k : Ctl) (idx : Nat) (bs : List Byte), AtRest s c →
    idx < c.special 0 .dtlen →
    c.readNow .core ((c.special 0 .dtbase + 8 * idx) % 2 ^ 64) 8 = .ok (bs, z) →
    (c.special 0 .kentry + leNat bs) % 8 = 0 →
    let target := BitVec.ofNat 64 (c.special 0 .kentry + leNat bs)
    c.readBy 1 z
    ∧ (∀ a, c.x.guardScalar k.guard = true → (c.val a).toNat = idx →
      exec (.brix k a) s = .next (z.s.withSlice { z.next with pc := target }))
    ∧ (∀ (d : SReg) (va : VReg) (l : Nat), va.val < c.squad.vcount → (List.range 4).find? (fun l => c.x.execBit l) = some l →
      (c.x.vreg va.val l).toNat = idx →
      exec (.brixl k d va) s =
        (let m := laneMask (fun j => c.x.execBit j && c.x.vreg va.val j == c.x.vreg va.val l)
         .next (z.s.withSlice
          { z.next.withS d ((c.x.exec &&& ~~~m).setWidth 64) with exec := m &&& c.x.live, pc := target })))

/-- R110: BRIXL with no lane in EXEC delivers 0 and goes on to the next word. -/
def Claims.TableJumpEmpty : Prop :=
  ∀ (s : State) (c : Ctx) (k : Ctl) (d : SReg) (va : VReg),
    AtRest s c → va.val < c.squad.vcount → c.x.exec = 0 →
    exec (.brixl k d va) s = .next (s.withSlice (c.next.withS d 0))

/-- R108–R110: BRIX and BRIXL. -/
def Obligations.TableJumps : Prop :=
  Claims.TableJump ∧ Claims.TableJumpEmpty

/-- R112, R113: EXIT ends its active lanes: they leave LIVE and EXEC, and the slice goes on while a lane lives; when none does the
slice has ended. -/
def Claims.ExitEndsLanes : Prop :=
  ∀ (s : State) (c : Ctx) (k : Ctl), AtRest s c → c.x.priv ≠ 1 →
    let m := laneMask (fun l => c.x.active k.guard l)
    (c.x.live &&& ~~~m ≠ 0 →
      exec (.exit k) s = .next (s.withSlice { c.next with live := c.x.live &&& ~~~m, exec := c.x.exec &&& ~~~m }))
    ∧ (c.x.live &&& ~~~m = 0 → m ≠ 0 → c.squad.insts = [] → c.b.bars = [] → c.b.meet = [] → c.b.splice = none →
      ∃ t, exec (.exit k) s = .next t
        ∧ Table.find t.slices s.cur = some { c.x with live := 0, exec := 0, hold := .none, ended := true }
        ∧ t.mem = s.mem ∧ t.blocks = s.blocks ∧ t.grids = s.grids)

/-- R116, R239: WAIT goes on once every counter that a field 0–6 names is at most that value; with its guard failing, or every field at 7,
it goes on at once. With an EN field the slice then knows, on their own paths, the writes of its commands that have left their queue, and
with an FB field those of its fabric operations (R257). -/
def Claims.WaitCompletes : Prop :=
  ∀ (s : State) (c : Ctx) (k : Ctl) (ld st en wl fb : Fin 8), AtRest s c →
    let met (n : BitVec 6) (t : Fin 8) : Prop := t.val = 7 ∨ n.toNat ≤ t.val
    (c.x.guardScalar k.guard = false
      ∨ met c.x.cnt.ld ld ∧ met c.x.cnt.st st ∧ met c.x.cnt.en en ∧ met c.x.cnt.wl wl ∧ met c.x.cnt.fb fb) →
    ∃ kn, exec (.wait k ld st en wl fb) s = .next (s.withSlice { c.next with knows := kn })
      ∧ (∀ p ∈ c.x.knows, p ∈ kn)
      ∧ (c.x.guardScalar k.guard = false ∨ en.val = 7 ∧ fb.val = 7 → kn = c.x.knows)
      ∧ (c.x.guardScalar k.guard = true → en.val ≠ 7 → ∀ w ∈ s.past, (w.path = .cp ∨ w.path = .mx) → w.site.key = s.cur →
          (∀ d ∈ (s.core c.b.core).cmdq ++ (s.core c.b.core).copyq, d.slice = s.cur → d.seq ≠ w.seq) →
          w.known w.path c.x.seq ∈ kn)
      ∧ (c.x.guardScalar k.guard = true → fb.val ≠ 7 → ∀ w ∈ s.past, w.path = .fb → w.site.key = s.cur →
          w.known .fb c.x.seq ∈ kn)

/-- R116, R438: while a counter that a field 0–6 names is above that value, ST at most its own, WAIT holds its slice at the word and
changes nothing, but that loads it waits for are noted as awaited. -/
def Claims.WaitHolds : Prop :=
  ∀ (s : State) (c : Ctx) (k : Ctl) (ld st en wl fb : Fin 8),
    s.ctx s.cur = some c → c.x.dropDue = false → c.x.poisonDue = [] → c.x.engFail = [] → c.x.guardScalar k.guard = true →
    let met (n : BitVec 6) (t : Fin 8) : Prop := t.val = 7 ∨ n.toNat ≤ t.val
    met c.x.cnt.st st → ¬ (met c.x.cnt.ld ld ∧ met c.x.cnt.en en ∧ met c.x.cnt.wl wl ∧ met c.x.cnt.fb fb) →
    ∃ t y, exec (.wait k ld st en wl fb) s = .next t ∧ Table.find t.slices s.cur = some y
      ∧ y = { c.x with ops := y.ops } ∧ (met c.x.cnt.ld ld → y.ops = c.x.ops)
      ∧ y.ops.map (fun o => { o with consumer := false }) = c.x.ops.map (fun o => { o with consumer := false })
      ∧ (∀ j, j ≠ s.cur → Table.find t.slices j = Table.find s.slices j)
      ∧ t.mem = s.mem ∧ t.blocks = s.blocks ∧ t.grids = s.grids ∧ t.cores = s.cores

/-- R112, R113, R116: EXIT ends lanes and slices, and WAIT holds its slice until its counters permit it to go on. -/
def Obligations.LanesEndAndWait : Prop :=
  Claims.ExitEndsLanes ∧ Claims.WaitCompletes ∧ Claims.WaitHolds

/-! ### Vector words (R17, R120–R135) -/

/-- R123, R125, R127, R129, R130: the integer and bit words compute, in every active lane, what their row gives for that lane's
elements, deliver it as R120 says, and change nothing else. -/
def Claims.VectorIntegerBits : Prop :=
  ∀ (s : State) (c : Ctx) (i : Instr) (r : VecRule),
    AtRest s c → c.fits r.uses → (c.intRule i = some r ∨ c.bitRule i = some r) →
    ∃ y, exec i s = .next (s.withSlice y) ∧ r.leaves c y

/-- R123, R124, R126: VADD, VSUB, VMUL, VFMA, VFMS and VFNMA in floating point round the exact result once, in each half of a packed
format apart, and raise their flags. -/
def Claims.VectorFloat : Prop :=
  ∀ (s : State) (c : Ctx) (i : Instr) (r : VecRule),
    AtRest s c → c.fits r.uses → c.floatRule i = some r →
    ∃ y, exec i s = .next (s.withSlice y) ∧ r.leaves c y

/-- R44, R127, R131–R135: the other vector words apply their element operation in every active lane. -/
def Claims.VectorElement : Prop :=
  ∀ (s : State) (c : Ctx) (i : Instr) (r : VecRule),
    AtRest s c → c.fits r.uses → c.elementRule i = some r →
    ∃ y, exec i s = .next (s.withSlice y) ∧ r.leaves c y

/-- R17, R44, R120–R135, R140: a vector word whose operands lie within VCOUNT delivers its row's element in every active lane, raises its
flags, and changes nothing else. -/
def Obligations.VectorResults : Prop :=
  Claims.VectorIntegerBits ∧ Claims.VectorFloat ∧ Claims.VectorElement

/-- R23, R128: VCMP pushes its result in each active lane and 0 in every other one, and raises NV as R128 says. -/
def Claims.VectorCompare : Prop :=
  ∀ (s : State) (c : Ctx) (k : Ctl) (f : Fmt) (cond : Cond) (a : VReg) (b : VSrc),
    AtRest s c → c.fits (useA f a :: useB f b) →
    let r (l : Nat) : Bool × Flags := cmpElem cond f (c.at32 f a.val l) (c.srcAt f l b)
    exec (.vcmp k f cond a b) s = .next (s.withSlice { c.next with
      q := Vector.ofFn (fun l : Fin 4 => (c.x.q[l] <<< 1) ||| (if c.x.active k.guard l.val && (r l.val).1 then 1#8 else 0#8))
      smode := smodeRaise c.x.smode (Flags.all ((c.x.lanes k.guard).map (fun l => (r l).2))) })

/-- R134: VKBDEC delivers the decoded value in every active lane; with .Q it also pushes each active lane's selector. -/
def Claims.DecodedSelectors : Prop :=
  ∀ (s : State) (c : Ctx) (k : Ctl) (f : Fmt) (q : Bool) (d a : VReg),
    AtRest s c → c.fits [useD .n32 d, useA .n32 a] →
    let v (l : Nat) : Nat × Int := kbValue f (c.at32 .n32 a.val l)
    let r : VecRule := ⟨k, [], .n32, d, fun l => ((BitVec.ofInt 32 (v l).2).toNat, Flags.none)⟩
    ∃ y, exec (.vkbdec k f q d a) s = .next (s.withSlice y)
      ∧ r.leaves c { y with q := c.x.q }
      ∧ y.q = if q then
          Vector.ofFn (fun l : Fin 4 => (c.x.q[l] <<< 1)
            ||| (if c.x.active k.guard l.val && (v l.val).1 == 1 then 1#8 else 0#8))
        else c.x.q

/-- R23, R128, R134: the vector words that push bits on Q. -/
def Obligations.VectorFlags : Prop :=
  Claims.VectorCompare ∧ Claims.DecodedSelectors

/-- R28, R66, R68: a paired word does what the full-word instructions of its two halves do: both read before either writes, a register
element that both write receives the second half's value, and the second half pushes after the first. -/
def Obligations.PairedWords : Prop :=
  ∀ (s : State) (c : Ctx) (m : Bool) (h1 h2 : Half),
    AtRest s c → c.fits (halfUses h1 ++ halfUses h2) →
    ∃ y1 y2 y, exec (halfAlone h1) s = .next (s.withSlice y1) ∧ exec (halfAlone h2) s = .next (s.withSlice y2)
      ∧ exec (.pairedWord m h1 h2) s = .next (s.withSlice y)
      ∧ y = { c.next with s := y.s, v := y.v, pend := y.pend, vpoison := y.vpoison, q := y.q, smode := y.smode }
      ∧ y.smode = y1.smode ||| y2.smode
      ∧ (∀ n, n < 64 → (c.halfWritesS h2 n → y.sreg n = y2.sreg n) ∧ (¬ c.halfWritesS h2 n → y.sreg n = y1.sreg n))
      ∧ (∀ n l v, l < 4 →
          (c.halfWritesV h2 n l → y2.lands (.v n l) v → y.lands (.v n l) v)
          ∧ (¬ c.halfWritesV h2 n l → y1.lands (.v n l) v → y.lands (.v n l) v))
      ∧ (halfDest h2 ≠ .queue → y.q = y1.q)
      ∧ (halfDest h2 = .queue → y.q = Vector.ofFn (fun l : Fin 4 => (y1.q[l] <<< 1) ||| (y2.q[l] &&& 1#8)))

/-! ### The activation table (R136–R141) -/

/-- R139, R140: for a block that reserves the table, ACTSEL selects a buffer unless an ACTLD of the block is in progress, and VACT
interpolates each active lane's element in the selected one. -/
def Claims.ActivationWords : Prop :=
  ∀ (s : State) (c : Ctx) (k : Ctl), AtRest s c → c.b.actRes = true →
    (∀ n, c.x.guardScalar k.guard = true → s.actBusy (keyBlock s.cur) = false →
      exec (.actsel k n) s = .next ((s.modCore c.b.core (fun u => { u with actSel := n })).withSlice c.next))
    ∧ (∀ n, c.x.guardScalar k.guard = true → s.actBusy (keyBlock s.cur) = true → exec (.actsel k n) s = .next s)
    ∧ (∀ (rnd : Rnd) (sat : Bool) (d a : VReg), c.fits [useD .f32 d, useA .f32 a] →
      let u := s.core c.b.core
      let buf := if u.actSel then u.actBufs[1] else u.actBufs[0]
      let r : VecRule := ⟨k, [], .f32, d, fun l => actElem buf (c.mode rnd) sat (c.at32 .f32 a.val l)⟩
      ∃ y, exec (.vact k rnd sat d a) s = .next (s.withSlice y) ∧ r.leaves c y)

/-- R137, R138: ACTLD checks the whole 2,064-byte image, in 16-byte pieces from its address up, and is counted under EN until its
completion. -/
def Claims.ActivationLoad : Prop :=
  ∀ (s : State) (c : Ctx) (k : Ctl) (a : SSrc) (r : List (Nat × Nat × Option Xlat)),
    AtRest s c → c.b.actRes = true → c.x.guardScalar k.guard = true → c.x.cnt.en ≠ 63 →
    c.check { want := .read, size := 16 } ((List.range 129).map (fun i => (0, ((c.val a) + BitVec.ofNat 64 (16 * i)).toNat))) = .ok r →
    let lanes : List LaneAcc := r.map (fun p =>
      ⟨0, BitVec.ofNat 64 p.2.1, p.2.2.map (fun y => y.pa), [], [], [], false, none, false⟩)
    (∀ l ∈ lanes, c.lanePoisoned l 16 = false) →
    exec (.actld k a) s = .next ((s.fillTlb c.b.core (usedOf r)).withSlice { c.next with
      ops := [{ c.freshOp .actLoad lanes .core false false with outside := false }]
      seq := c.x.seq + 1, cnt := { c.x.cnt with en := c.x.cnt.en + 1 } })

/-- R138, R141, R247: an ACTLD that is performed fills the buffer that is not selected at that moment, from the image's header and entries,
leaves the selected one alone, and EN falls; it is an LS load, of which later reads and fences of the slice know. -/
def Claims.ActivationCompletion : Prop :=
  ∀ (s : State) (core k : Nat) (c : Ctx) (o : MemOp),
    s.actReady core = [(k, o.seq)] → s.ctx k = some c → c.x.op? o.seq = some o → c.b.core = core →
    (∀ a ∈ o.lanes, c.lanePoisoned a 16 = false) →
    let bytes := o.lanes.flatMap (fun a => (c.loadSeen .core o.seq a 16).1)
    let header := leNat (bytes.take 16)
    ∃ t, exec (.actldCompletion core) s = .next t
      ∧ (let old := (s.core core).actBufs
         let new := (t.core core).actBufs
         let got := if (s.core core).actSel then new[0] else new[1]
         (if (s.core core).actSel then new[1] = old[1] else new[0] = old[0])
         ∧ got.header.toNat = header
         ∧ got.valid = actHeaderOk (BitVec.ofNat 128 header)
         ∧ ∀ i, i < 256 → Sparse.get 0 got.entries i = BitVec.ofNat 64 (leNat ((bytes.drop (16 + 8 * i)).take 8)))
      ∧ (∃ y, Table.find t.slices k = some { y with
            ops := c.x.ops.filter (fun e => e.seq != o.seq), cnt := { c.x.cnt with en := c.x.cnt.en - 1 } }
          ∧ c.x.hasRead y (o.lanes.flatMap (fun a => (c.loadSeen .core o.seq a 16).2)) o.seq)
      ∧ t.mem = s.mem ∧ t.blocks = s.blocks

/-- R136–R141: ACTSEL, VACT and ACTLD. -/
def Obligations.ActivationTable : Prop :=
  Claims.ActivationWords ∧ Claims.ActivationLoad ∧ Claims.ActivationCompletion

/-! ### Traps and system registers (R332–R344, R352) -/

/-- R334–R339: TRAP, BRK, the emulation-defined divisions on stepping A1 (R75, R142) and words that are no instruction (R73) write the
frame and go on at TRAPVEC, at handler level, with S0 the frame's address and S1 INFO. -/
def Claims.TrapEntry : Prop :=
  ∀ (s : State) (c : Ctx) (i : Instr) (t : TrapInfo) (vec : Nat) (at_ : Xlat) (after : State),
    c.trapRule i = some t → TrapReady s c t vec at_ after →
    exec i s = .next (after.withSlice (c.atHandler t vec))

/-- R26, R332: a privileged word of a slice at user level takes the privilege trap and has no other effect. -/
def Claims.PrivilegedWords : Prop :=
  ∀ (s : State) (c : Ctx) (i : Instr) (vec : Nat) (at_ : Xlat) (after : State),
    isPrivileged i = true → TrapReady s c { cause := .privilege } vec at_ after →
    exec i s = .next (after.withSlice (c.atHandler { cause := .privilege } vec))

/-- R336, R337: the frame is 1,024 bytes: PC, the word, ADDR, INFO, SMODE, Q, the squad's register base and count, the squad's and the slice's
number, the kernel, the pump state word, and from byte 512 the sixty-four scalar registers; every reserved bit is zero. INFO holds the cause,
DEFER, WR, LEVEL, ENGERR, EXEC, LIVE, LANE, zeros in KILL and the reserved bits, and AUX. -/
def Claims.TrapFrame : Prop :=
  ∀ (s : State) (c : Ctx) (t : TrapInfo) (w : Word64), AtRest s c →
    let f := c.frameBytes t w
    let at_ (o n : Nat) : Nat := leNat ((f.drop o).take n)
    f.length = 1024 ∧ at_ 0 8 = c.x.pc.toNat ∧ at_ 8 8 = w.toNat ∧ at_ 16 8 = t.addr.toNat ∧ at_ 24 8 = infoWord c.x t
    ∧ at_ 32 8 = c.x.smode.toNat ∧ at_ 40 4 = (c.x.q[3] ++ c.x.q[2] ++ c.x.q[1] ++ c.x.q[0] : BitVec 32).toNat
    ∧ at_ 48 4 = c.squad.vbase % 2 ^ 20 + c.squad.vcount % 2 ^ 9 * 2 ^ 20 ∧ at_ 54 1 = keySquad c.k ∧ at_ 55 1 = keySlice c.k
    ∧ at_ 56 2 = c.kidx % 2 ^ 16 ∧ at_ 64 8 = t.pump.toNat ∧ (∀ n, n < 64 → at_ (512 + 8 * n) 8 = (c.x.sreg n).toNat)
    ∧ at_ 44 4 = 0 ∧ at_ 52 2 = 0 ∧ at_ 58 6 = 0 ∧ at_ 72 440 = 0
    ∧ (let info := BitVec.ofNat 64 (at_ 24 8)
      (info.extractLsb' 0 8).toNat = t.cause.code ∧ info.getLsbD 8 = t.defer ∧ info.getLsbD 9 = t.wr
      ∧ info.extractLsb' 10 2 = BitVec.ofNat 2 t.level ∧ info.extractLsb' 12 4 = BitVec.ofNat 4 t.engerr
      ∧ info.extractLsb' 16 4 = c.x.exec ∧ info.extractLsb' 20 4 = c.x.live ∧ info.extractLsb' 24 2 = BitVec.ofNat 2 t.lane
      ∧ info.extractLsb' 26 6 = 0 ∧ info.extractLsb' 32 32 = t.aux)

/-- R333–R335, R340, R346: a trap ends its grid with STATUS 4 and the cause, the PC and the kernel's index, and no frame is written: a trap of a user-level
word whose kernel has TRAPVEC 0; a frame fault where TFBASE is 0; every trap at handler level, with bit 7 of the code set, TRAP and BRK
among them, which are words of user level; a trap at steward level (log entry 16); and a cause that no handler receives. -/
def Claims.TrapsThatEnd : Prop :=
  (∀ (s : State) (c : Ctx) (i : Instr) (t : TrapInfo),
    AtRest s c → c.x.priv = 0 → c.trapRule i = some t →
    (fld c.lrec 191 128 = 0 → ∃ u, exec i s = .next u ∧ c.endsGrid u t.cause false)
    ∧ (fld c.lrec 191 128 ≠ 0 → (s.chip c.b.vf).tfbase = 0 → ∃ u, exec i s = .next u ∧ c.endsGrid u .frameFault false))
  ∧ (∀ (s : State) (c : Ctx), AtRest s c → c.x.priv = 1 ∨ 2 ≤ c.x.priv →
    let handler : Bool := c.x.priv == 1
    (∀ w, ∃ u, exec (.illegalInstruction w) s = .next u ∧ c.endsGrid u .illegalInstruction handler)
    ∧ (∀ k n, ∃ u, exec (.trap k n) s = .next u ∧ c.endsGrid u .privilege handler)
    ∧ ∀ k n, ∃ u, exec (.brk k n) s = .next u ∧ c.endsGrid u .privilege handler)
  ∧ ∀ (s : State) (c : Ctx) (t : TrapInfo) (w : Word64),
    AtRest s c → c.x.priv = 0 → t.cause.delivered = false → c.endsGrid (s.takeTrap s.cur t w) t.cause false

/-- R26, R73, R334–R340, R342, R343, R346: a word that traps at user level writes its frame, whose contents R336 and R337 give, and goes on at
its handler; a privileged word takes the privilege trap; and some traps end the grid. -/
def Obligations.Traps : Prop :=
  Claims.TrapEntry ∧ Claims.PrivilegedWords ∧ Claims.TrapFrame ∧ Claims.TrapsThatEnd

/-- R341, R342: TRET reads the frame at the address the slice took when it trapped, ends the lanes of KILL, restores the scalar
registers, Q, the rounding mode and sticky flags of SMODE, EXEC within LIVE and the PC, and goes on at user level. -/
def Obligations.TrapReturn : Prop :=
  ∀ (s : State) (c z : Ctx) (k : Ctl) (bs : List Byte),
    AtRest s c → c.x.priv = 1 → c.readNow .core (c.x.frame.getD 0).toNat 1024 = .ok (bs, z) →
    let at_ (o n : Nat) : Nat := leNat ((bs.drop o).take n)
    let live := c.x.live &&& ~~~(BitVec.ofNat 4 (at_ 24 8 / 2 ^ 28))
    at_ 0 8 % 8 = 0 → live ≠ 0 →
    c.readBy 1 z ∧ exec (.tret k) s = .next (z.s.withSlice { z.x with
      pc := BitVec.ofNat 64 (at_ 0 8), issued := c.x.issued + 1
      s := Vector.ofFn (fun n : Fin 64 => BitVec.ofNat 64 (at_ (512 + 8 * n.val) 8))
      q := Vector.ofFn (fun l : Fin 4 => BitVec.ofNat 8 (at_ (40 + l.val) 1))
      smode := smodeSetPriv ((c.x.smode &&& ~~~0x1F3#64) ||| (BitVec.ofNat 64 (at_ 32 8) &&& 0x1F3#64)) 0
      live := live, exec := BitVec.ofNat 4 (at_ 24 8 / 2 ^ 16) &&& live, frame := none })

/-- What SYSRD reads of a function's register (R344). -/
def sysValue (s : State) (c : Ctx) : SysReg → Word64
  | .tfbase => (s.chip c.b.vf).tfbase
  | .hwdog => (s.chip c.b.vf).hwdog
  | .asid => (s.chip c.b.vf).asid.setWidth 64
  | .vmid => BitVec.ofNat 64 c.b.vf
  | .ctbase => (s.chip c.b.vf).ctbase
  | .govcfg => (s.core c.b.core).govNext
  | .partcfg => (s.die (coreDie c.b.core)).partcfg
  | .scopepol => ((s.frec c.b.vf >>> 64) &&& 7).setWidth 64

/-- R344: SYSRD delivers a system register at handler level, GOVCFG and PARTCFG only at steward level. -/
def Claims.SystemReads : Prop :=
  ∀ (s : State) (c : Ctx) (k : Ctl) (r : SysReg) (d : SReg),
    AtRest s c → c.x.guardScalar k.guard = true → c.b.vf < 64 →
    (c.x.priv = 1 ∧ r ≠ .govcfg ∧ r ≠ .partcfg ∨ 2 ≤ c.x.priv) →
    exec (.sysrd k r d) s = .next (s.withSlice (c.next.withS d (sysValue s c r)))

/-- R279, R344: SYSWR at steward level writes TFBASE and CTBASE when 64 KiB aligned, HWDOG within 1–1,000,000, GOVCFG with legal CAP and
RAMP, from the next window boundary on (the windows that have ended close first), and SCOPEPOL; a value outside them is ignored. -/
def Claims.SystemWrites : Prop :=
  ∀ (s : State) (c : Ctx) (k : Ctl) (a : SReg), AtRest s c → c.x.guardScalar k.guard = true → c.b.vf < 64 → 2 ≤ c.x.priv →
    let v := c.x.sreg a.val
    let done (t : State) : State := t.withSlice c.next
    exec (.syswr k .tfbase a) s =
      .next (done (if v.toNat % 65536 = 0 then s.modChip c.b.vf (fun h => { h with tfbase := v }) else s))
    ∧ exec (.syswr k .ctbase a) s =
      .next (done (if v.toNat % 65536 = 0 then s.modChip c.b.vf (fun h => { h with ctbase := v }) else s))
    ∧ exec (.syswr k .hwdog a) s =
      .next (done (if 1 ≤ v.toNat ∧ v.toNat ≤ 1000000 then s.modChip c.b.vf (fun h => { h with hwdog := v }) else s))
    ∧ (∃ h, exec (.syswr k .govcfg a) s =
      .next (done (if 16 ≤ govCap v ∧ govCap v ≤ 256 ∧ 8 ≤ govRamp v ∧ govRamp v ≤ 256 then
        s.modCore c.b.core (fun u => { u.govern s.now h with govNext := v &&& 0x3FF01FF }) else s)))
    ∧ (∃ t, exec (.syswr k .scopepol a) s = .next t
        ∧ (t.frec c.b.vf).toNat = setBits (s.frec c.b.vf).toNat 64 3 v.toNat
        ∧ (∀ f, f ≠ c.b.vf → t.frec f = s.frec f) ∧ t.mem = s.mem ∧ t.blocks = s.blocks)

/-- R26, R340, R344, R375: SYSRD of GOVCFG and PARTCFG and every SYSWR at handler level, SYSWR of ASID, VMID and PARTCFG at steward level, and
SYSWR of a function's register in the management complex's own context are privilege traps, which end the grid at these levels. -/
def Claims.SystemPrivileges : Prop :=
  ∀ (s : State) (c : Ctx) (k : Ctl) (r : SysReg) (d : SReg), AtRest s c →
    let denied (i : Instr) (handler : Bool) : Prop := ∃ u, exec i s = .next u ∧ c.endsGrid u .privilege handler
    (c.x.priv = 1 → (r = .govcfg ∨ r = .partcfg → denied (.sysrd k r d) true) ∧ denied (.syswr k r d) true)
    ∧ (2 ≤ c.x.priv → (r = .asid ∨ r = .vmid ∨ r = .partcfg → denied (.syswr k r d) false)
      ∧ (64 ≤ c.b.vf → r = .tfbase ∨ r = .hwdog ∨ r = .ctbase ∨ r = .scopepol → denied (.syswr k r d) false))

/-- R26, R279, R344, R375: reads and writes of the system registers, and where they are privilege traps. -/
def Obligations.SystemRegisters : Prop :=
  Claims.SystemReads ∧ Claims.SystemWrites ∧ Claims.SystemPrivileges

/-- R352: TLBINV at steward level removes, in every TLB within its scope, the stage-1 entries of an ASID, all of them or those of one
address, the table's root among them, or with .S2 the entries of both stages of a VMID, and removes nothing else (R353). That at a scope narrower
than the die the TLB that the die's cores share loses the entries too, and the die's other cores hold them themselves from then on, is the
model's way of keeping to R351 (log entry 63, DEDUCED). -/
def Obligations.TlbInvalidation : Prop :=
  ∀ (s : State) (c : Ctx) (k : Ctl) (scope : Scope) (all : Bool) (a b : SSrc),
    AtRest s c → 2 ≤ c.x.priv → s.scopeDenied c.b.vf scope = false → (all = true ∨ (c.val b).toNat % 65536 = 0) →
    let asid := (c.val a).toNat % 4096
    let vmid := (c.val a).toNat / 4096 % 64
    let reach := s.tlbReach c.b.core vmid scope
    let stays (i : Instr) (hit : TlbEntry → Bool) : Prop :=
      ∃ t, exec i s = .next t ∧ t.mem = s.mem ∧ Table.find t.slices s.cur = some c.next
        ∧ (let home := coreDie c.b.core
           let shared := if reach.2 = [] then (s.die home).tlb.filter hit else []
           (∀ n, (t.core n).tlb =
              if reach.1.contains n then (s.core n).tlb.filter (fun e => !hit e)
              else if coreDie n = home ∧ shared ≠ [] then addTlb (s.core n).tlb shared
              else (s.core n).tlb)
           ∧ ∀ d, d < 4 → (t.die d).tlb =
              if reach.2.contains d = true ∨ reach.2 = [] ∧ d = home then (s.die d).tlb.filter (fun e => !hit e) else (s.die d).tlb)
    stays (.tlbinv k scope all a b) (fun e =>
        !e.stage2 && e.tag == asid && (all || e.level == 4 || e.page == (c.val b).toNat / 2 ^ levelShift e.level))
    ∧ stays (.tlbinvS2 k scope a) (fun e => e.vmid == vmid)

/-! ### Fences, granules and barriers (R182–R187, R237–R241, R301–R304) -/

/-- R223, R237–R239, R256: with nothing outstanding FENCE, FENCE.SC and XFENCE at a scope the policy permits go on and change nothing but
what is known: acquire keeps what the slice's loads have returned; release gives the slice's earlier stores the fence's scope and
stays for its next store; FENCE.SC learns what precedes the earlier ones of its function and adds what precedes it; XFENCE
makes what the slice knows of writes performed on one path, its own LS stores among them, known on the other (R257). PREF only goes on. -/
def Claims.Fences : Prop :=
  ∀ (s : State) (c : Ctx) (k : Ctl), AtRest s c →
    let goes (i : Instr) (ok : State → Slice → Prop) : Prop :=
      ∃ t y, exec i s = .next t ∧ Table.find t.slices s.cur = some y ∧ y = { c.next with knows := y.knows, fences := y.fences }
        ∧ (∀ p ∈ c.x.knows, p ∈ y.knows) ∧ (∀ j, j ≠ s.cur → Table.find t.slices j = Table.find s.slices j)
        ∧ t.blocks = s.blocks ∧ t.mem = s.mem ∧ t.grids = s.grids ∧ t.cores = s.cores ∧ t.dies = s.dies ∧ t.dev = s.dev ∧ ok t y
    let wider (t : State) (scope : Scope) : Prop := t.past = s.past.map (fun w =>
      if w.site.key = s.cur ∧ w.path = .ls ∧ w.loc.isByte = true ∧ w.seq < c.x.seq then { w with scope := widerScope w.scope scope } else w)
    (∀ scope ord, s.scopeDenied c.b.vf scope = false → goes (.fence k scope ord) (fun t y => t.chips = s.chips
      ∧ (if ordRel ord then wider t scope ∧ y.fences = c.x.fences ++ [(scope, c.x.seq)] else t.past = s.past ∧ y.fences = c.x.fences)
      ∧ (ordAcq ord = true → ∀ p ∈ c.x.reads, { p with since := c.x.seq } ∈ y.knows)))
    ∧ (s.scopeDenied c.b.vf .tenant = false → goes (.fenceSc k) (fun t y => wider t .tenant
      ∧ (∀ p ∈ (s.chip c.b.vf).fenceOrder, { p with since := c.x.seq } ∈ y.knows ∧ p ∈ (t.chip c.b.vf).fenceOrder)
      ∧ (∀ p ∈ c.x.knows, p.since ≤ c.x.seq → p ∈ (t.chip c.b.vf).fenceOrder)
      ∧ ∀ w ∈ s.past, w.site.key = s.cur → w.path = .ls → w.seq < c.x.seq → w.known .ls 0 ∈ (t.chip c.b.vf).fenceOrder))
    ∧ (∀ scope f g, s.scopeDenied c.b.vf scope = false → goes (.xfence k scope f g) (fun t y => t.chips = s.chips ∧ t.past = s.past
      ∧ y.fences = c.x.fences
      ∧ (f ≠ g → ∀ p ∈ c.x.knows, ∀ w ∈ s.past, w.stamp = p.stamp → w.path = f → s.shares p.site c.site p.scope = true →
          ⟨p.stamp, g, c.x.seq, scope, c.site⟩ ∈ y.knows)
      ∧ (f = .ls → g ≠ .ls → ∀ w ∈ s.past, w.site.key = s.cur → w.path = .ls → w.seq < c.x.seq →
          ⟨w.stamp, g, c.x.seq, scope, c.site⟩ ∈ y.knows)))
    ∧ (∀ m, c.fits (memUses m []) → exec (.pref k m) s = .next (s.withSlice c.next))

/-- R240: ICINV removes from the instruction caches within its scope every word of the slice's function, or those in the lines of the
bytes A to A + B, and no other; and it is noted as a write of those words, which a later fetch of a slice that synchronises with it must
see. -/
def Claims.InstructionCache : Prop :=
  ∀ (s : State) (c : Ctx) (k : Ctl) (scope : Scope) (all : Bool) (a b : SSrc),
    AtRest s c → s.scopeDenied c.b.vf scope = false →
    let lo := (c.val a).toNat
    let n := (c.val b).toNat
    let hit (key : Nat) : Bool :=
      key / 2 ^ 64 == c.b.vf
        && (all || decide (0 < n ∧ lo / 128 ≤ key % 2 ^ 64 / 128 ∧ key % 2 ^ 64 / 128 ≤ (lo + n - 1) / 128))
    ∃ t, exec (.icinv k scope all a b) s = .next t ∧ t.mem = s.mem
      ∧ Table.find t.slices s.cur = some (if all = true ∨ 0 < n then { c.next with seq := c.x.seq + 1 } else c.next)
      ∧ (all = true ∨ 0 < n → ∃ w ∈ t.past, w.site = c.site ∧ w.path = .ls ∧ w.seq = c.x.seq ∧ w.scope = scope
          ∧ w.loc = (if all then .words c.b.vf 0 (2 ^ 64) else .words c.b.vf lo n))
      ∧ ∀ u, (t.core u).icache =
          if (s.coresIn c.b.vf c.b.core scope).contains u then (s.core u).icache.filter (fun e => !hit e.1)
          else (s.core u).icache

/-- R223, R237–R240, R256: fences with nothing outstanding, PREF, and ICINV. -/
def Obligations.FencesAndCaches : Prop :=
  Claims.Fences ∧ Claims.InstructionCache

/-- R182–R184: BAR by the only slice still to come completes the generation: the slice goes on and the barrier is empty; while another
named slice is still to come the slice is held at the barrier. -/
def Claims.BarrierAlone : Prop :=
  ∀ (s : State) (c : Ctx) (k : Ctl) (id : Fin 16) (a : SSrc),
    AtRest s c → c.x.priv ≠ 1 → c.x.guardScalar k.guard = true → Table.getD c.b.bars id.val [] = [] →
    keySquad s.cur < c.b.squads.length → c.x.ended = false →
    let named := (c.val a).setWidth 32 &&& BitVec.ofNat 32 (2 ^ c.b.squads.length - 1)
    named = BitVec.ofNat 32 (2 ^ keySquad s.cur) →
    let others : Prop := ∃ sl, sl < 8 ∧ keyOf (keyBlock s.cur) (keySquad s.cur) sl ≠ s.cur
      ∧ s.mayCome (keyOf (keyBlock s.cur) (keySquad s.cur) sl) = true
    (¬ others → ∃ t, exec (.bar k id (some a)) s = .next t
      ∧ (∃ kn, Table.find t.slices s.cur = some { c.next with hold := .none, knows := kn } ∧ ∀ p ∈ c.x.knows, p ∈ kn)
      ∧ (∀ j, j ≠ s.cur → Table.find t.slices j = Table.find s.slices j)
      ∧ (∃ b, Table.find t.blocks (keyBlock s.cur) = some b ∧ Table.find b.bars id.val = none) ∧ t.mem = s.mem)
    ∧ (others → ∃ t, exec (.bar k id (some a)) s = .next t
      ∧ Table.find t.slices s.cur = some { c.x with hold := .barrier id.val }
      ∧ (∀ j, j ≠ s.cur → Table.find t.slices j = Table.find s.slices j)
      ∧ (∃ b, Table.find t.blocks (keyBlock s.cur) = some b
          ∧ Table.find b.bars id.val = some [⟨s.cur, named, k.m, s.ir⟩]) ∧ t.mem = s.mem)

/-- R182–R184: BAR, with a register that names squads or with none, which names every squad, joins the generation of its barrier that other
slices have begun: while a launched slice of a squad that an arrival names is still to come it is held there; when none is and the masks agree,
it and every slice held there go on, with what they make known to one another, and the barrier is empty. A mask that leaves out the slice's own
squad traps. -/
def Claims.BarrierJoined : Prop :=
  ∀ (s : State) (c : Ctx) (k : Ctl) (id : Fin 16) (mask : Option SSrc),
    AtRest s c → c.x.priv ≠ 1 → c.x.guardScalar k.guard = true → keySquad s.cur < c.b.squads.length → c.x.ended = false →
    let named : BitVec 32 := (match mask with
      | none => 0xFFFFFFFF#32
      | some a => (c.val a).setWidth 32) &&& BitVec.ofNat 32 (2 ^ c.b.squads.length - 1)
    let held : List Arrival := Table.getD c.b.bars id.val []
    let all : List Arrival := held ++ [⟨s.cur, named, k.m, s.ir⟩]
    let stillOpen : Prop := ∃ q sl, q < c.b.squads.length ∧ sl < 8 ∧ (∃ a ∈ all, a.mask.getLsbD q = true)
      ∧ (∀ a ∈ all, a.slice ≠ keyOf (keyBlock s.cur) q sl) ∧ s.mayCome (keyOf (keyBlock s.cur) q sl) = true
    (named.getLsbD (keySquad s.cur) = false → ∀ vec at_ after, TrapReady s c { cause := .groupSync } vec at_ after →
      exec (.bar k id mask) s = .next (after.withSlice (c.atHandler { cause := .groupSync } vec)))
    ∧ (named.getLsbD (keySquad s.cur) = true → stillOpen → ∃ t, exec (.bar k id mask) s = .next t
      ∧ Table.find t.slices s.cur = some { c.x with hold := .barrier id.val }
      ∧ (∀ j, j ≠ s.cur → Table.find t.slices j = Table.find s.slices j) ∧ t.mem = s.mem
      ∧ ∃ b, Table.find t.blocks (keyBlock s.cur) = some b ∧ Table.find b.bars id.val = some all)
    ∧ (named.getLsbD (keySquad s.cur) = true → ¬ stillOpen → (∀ a ∈ held, a.mask = named) → (all.map (fun a => a.slice)).Nodup →
      (∀ a ∈ held, keyBlock a.slice = keyBlock s.cur ∧ ∃ y, Table.find s.slices a.slice = some y
        ∧ y.splice = none ∧ y.ops = [] ∧ y.pend = [] ∧ y.poisonDue = []) →
      ∃ t, exec (.bar k id mask) s = .next t ∧ t.mem = s.mem
        ∧ (∃ b, Table.find t.blocks (keyBlock s.cur) = some b ∧ Table.find b.bars id.val = none)
        ∧ (∃ kn, Table.find t.slices s.cur = some { c.next with hold := .none, knows := kn } ∧ ∀ p ∈ c.x.knows, p ∈ kn)
        ∧ (∀ a ∈ held, ∀ y, Table.find s.slices a.slice = some y → ∃ kn, (∀ p ∈ y.knows, p ∈ kn)
            ∧ Table.find t.slices a.slice = some { y with pc := y.pc + 8, issued := y.issued + 1, hold := .none, knows := kn })
        ∧ ∀ j, (∀ a ∈ all, a.slice ≠ j) → Table.find t.slices j = Table.find s.slices j)

/-- R182–R184: BAR alone, and as one of several arrivals. -/
def Obligations.BlockBarrier : Prop :=
  Claims.BarrierAlone ∧ Claims.BarrierJoined

/-! ### Cross-lane words (R168–R181) -/

/-- R168, R173–R181: a cross-lane word or REGANG whose mask names only its own slice completes at once: it delivers what its row gives for
the slice's active lanes, pushes what its row pushes, and changes no other slice, no block and no memory. -/
def Claims.CrossLaneAlone : Prop :=
  ∀ (s : State) (c : Ctx) (i : Instr) (r : SoloRule),
    AtRest s c → c.x.priv ≠ 1 → c.x.hold = .none → c.fits r.uses → c.soloRule i = some r →
    c.maskOf r.mask = BitVec.ofNat 8 (2 ^ keySlice s.cur) → keySquad s.cur < c.b.squads.length → c.squad.insts = [] →
    ∃ t y, exec i s = .next t ∧ Table.find t.slices s.cur = some y ∧ r.leaves c y ∧ s.sameBut t s.cur

/-- R168, R170: a cross-lane word whose mask names another slice of the squad that has neither joined nor ended holds its slice in a new
instance at its address; one whose mask leaves out its own slice takes the group-sync trap. -/
def Claims.CrossLaneWaits : Prop :=
  ∀ (s : State) (c : Ctx) (i : Instr) (r : SoloRule),
    AtRest s c → c.x.priv ≠ 1 → c.fits r.uses → c.soloRule i = some r →
    keySquad s.cur < c.b.squads.length → c.squad.insts = [] →
    ((c.maskOf r.mask).getLsbD (keySlice s.cur) = true →
      (∃ sl, sl < 8 ∧ sl ≠ keySlice s.cur ∧ (c.maskOf r.mask).getLsbD sl = true
        ∧ s.mayCome (keyOf (keyBlock s.cur) (keySquad s.cur) sl) = true) →
      ∃ t m, exec i s = .next t
        ∧ Table.find t.slices s.cur = some { c.x with hold := .inst c.x.pc }
        ∧ (∀ j, j ≠ s.cur → Table.find t.slices j = Table.find s.slices j) ∧ t.mem = s.mem
        ∧ (∃ b, Table.find t.blocks (keyBlock s.cur) = some b ∧ (b.squad (keySquad s.cur)).insts = [⟨c.x.pc, [m]⟩])
        ∧ m.slice = s.cur ∧ m.mask = c.maskOf r.mask)
    ∧ (∀ vec at_ after, (c.maskOf r.mask).getLsbD (keySlice s.cur) = false →
      TrapReady s c { cause := .groupSync } vec at_ after →
      exec i s = .next (after.withSlice (c.atHandler { cause := .groupSync } vec)))

/-- R168, R171–R181: when the last slice that a mask names joins the others at a cross-lane word or REGANG, the word completes for all of
them: each of them receives what the word's row gives for it from the active lanes of all, by ascending thread, goes on, and nothing else
changes. Reductions and scans are of the integer formats here. -/
def Claims.CrossLaneTogether : Prop :=
  ∀ (s : State) (c : Ctx) (i : Instr) (r : SoloRule) (p : BitVec 8) (held : List (Ctx × Member)),
    GroupReady s c i p held → c.soloRule i = some r → c.fits r.uses →
    let cs : List Ctx := held.map Prod.fst ++ [c]
    (c.groupRule cs i).isSome = true →
    ∃ t, exec i s = .next t ∧ t.mem = s.mem
      ∧ (∀ e ∈ cs, ∀ g, e.released.groupRule cs i = some g → ∃ y, Table.find t.slices e.k = some y ∧ g.leaves e.released y)
      ∧ (∀ j, (∀ e ∈ cs, e.k ≠ j) → Table.find t.slices j = Table.find s.slices j)
      ∧ ∃ b, Table.find t.blocks (keyBlock s.cur) = some b ∧ (b.squad (keySquad s.cur)).insts = []

/-- R168–R181: cross-lane words and REGANG alone, together, held for other slices, and outside their mask. -/
def Obligations.CrossLaneWords : Prop :=
  Claims.CrossLaneAlone ∧ Claims.CrossLaneTogether ∧ Claims.CrossLaneWaits

/-! ### Memory words (R114, R214–R230) -/

/-- R114, R115, R214–R218, R220–R229: a load, a store, FESET, FECLR or an atomic whose checks pass becomes one operation of the slice with
one access per active lane at the lane's address, its counter rises by one, and the slice goes on; registers and memory wait for the
operation to be performed. -/
def Claims.MemoryIssue : Prop :=
  ∀ (s : State) (c : Ctx) (i : Instr) (k : Ctl) (uses : List VUse) (w : MemWord) (r : List (Nat × Nat × Option Xlat)),
    AtRest s c → c.memRule i = some (k, uses, w) → c.fits uses → w.kind.full c.x.cnt = false →
    s.scopeDenied c.b.vf w.mem.scope = false → c.memAccesses k w ≠ [] → c.check w.ask (c.memAccesses k w) = .ok r →
    (w.kind.reads = true → ∀ p ∈ r, (c.freshLane w p).waited = true ∨ c.lanePoisoned (c.freshLane w p) w.ask.size = false) →
    (s.timeSliced c.b.vf = false ∨ c.x.forcedOk = true ∨ hostLane w.ask.want r = false) →
    exec i s = .next ((if (usedOf r).isEmpty then s else s.fillTlb c.b.core (usedOf r)).withSlice { c.next with
      ops := [c.freshOp w.kind (r.map (c.freshLane w)) w.mem.scope (ordAcq w.mem.ord) (ordRel w.mem.ord)]
      seq := c.x.seq + 1, cnt := w.kind.count c.x.cnt, forcedOk := false
      fences := if w.kind.carries then [] else c.x.fences
      hold := if k.m && w.kind.isLong then .parked else c.x.hold })

/-- R21, R216: a memory word without ordering in which no lane is active only goes on. -/
def Claims.MemoryIdle : Prop :=
  ∀ (s : State) (c : Ctx) (i : Instr) (k : Ctl) (uses : List VUse) (w : MemWord),
    AtRest s c → c.memRule i = some (k, uses, w) → c.fits uses → w.kind.full c.x.cnt = false →
    w.mem.ord = .none → c.memAccesses k w = [] →
    exec i s = .next (s.withSlice c.next)

/-- R114, R214–R229: memory words become operations of their slice, or only go on when no lane is active. -/
def Obligations.MemoryIssues : Prop :=
  Claims.MemoryIssue ∧ Claims.MemoryIdle

/-! ### Performing memory operations (R114, R197, R202–R204, R220–R229, R245) -/

/-- R114, R214, R220, R222, R251: when an unqualified load that must see the latest writes of its bytes is performed, each active lane that
lives receives the bytes at its address, extended as the access size says, LD falls, a parked slice goes on, and memory and scratchpad
stay as they were. -/
def Claims.LoadCompletes : Prop :=
  ∀ (s : State) (k : Nat) (c : Ctx) (o : MemOp),
    Alone s k c o → (∀ a ∈ o.lanes, c.Readable a o.kind.size) → (o.lanes.map (fun a => a.lane)).Nodup →
    (match o.kind with
      | .load _ _ fe | .loadTr _ _ fe => fe = .none
      | _ => False) →
    (∀ a ∈ o.lanes, s.upToDate (c.reader .ls o.scope o.seq) (a.covers (keyBlock k) o.kind.size)) →
    ∃ t y, exec (.loadCompletion k o.seq 0) s = .next t ∧ Table.find t.slices k = some y ∧ s.sameButReads t k
      ∧ y.ops = [] ∧ y.cnt = { c.x.cnt with ld := c.x.cnt.ld - 1 } ∧ y.hold = .none ∧ y.pc = c.x.pc
      ∧ (∀ n l, l < 4 → y.lands (.v n l) (((c.loaded o n l).getD (c.x.vreg n l)).setWidth 64))
      ∧ (∀ d sz fe a, o.kind = .load (.sreg d) sz fe → o.lanes = [a] → d < 64 →
          y.lands (.s d) (scalarLoaded sz (leNat (c.bytesAt a sz.bytes))))

/-- R197: a load of form .WAITF whose granule is empty stays outstanding and marks the lane as waiting; once the granule is full it
completes, and form .WAITF.CLR empties the granule. -/
def Claims.FullEmptyLoads : Prop :=
  ∀ (s : State) (k : Nat) (c : Ctx) (o : MemOp) (a : LaneAcc) (dst : LoadDst) (sz : Sz) (fe : FE) (off : Nat),
    Alone s k c o → o.lanes = [a] → o.kind = .load dst sz fe → fe = .waitf ∨ fe = .waitfClr → c.Readable a sz.bytes →
    a.pa = none → a.addr.toNat = 0x7FFFFF0000000000 + off →
    (Sparse.get false c.b.full (off / 16) = false →
      exec (.loadCompletion k o.seq 0) s = .next (s.putSlice k { c.x with ops := [{ o with lanes := [{ a with waited := true }] }] }))
    ∧ (Sparse.get false c.b.full (off / 16) = true →
      ∃ t y b, exec (.loadCompletion k o.seq 0) s = .next t ∧ Table.find t.slices k = some y
        ∧ y.ops = [] ∧ y.cnt.ld = c.x.cnt.ld - 1 ∧ Table.find t.blocks (keyBlock k) = some b ∧ b.scratch = c.b.scratch
        ∧ (∀ g, Sparse.get false b.full g = if fe = .waitfClr ∧ g = off / 16 then false else Sparse.get false c.b.full g))

/-- R114, R197, R214, R220, R222: loads deliver what memory and scratchpad hold, and wait for full granules. -/
def Obligations.LoadsPerformed : Prop :=
  Claims.LoadCompletes ∧ Claims.FullEmptyLoads

/-- R224–R227: an atomic with return on a scratchpad unit delivers the old unit and leaves the operation's result there, and changes no
other byte. -/
def Claims.AtomicReturns : Prop :=
  ∀ (s : State) (k : Nat) (c : Ctx) (o : MemOp) (a : LaneAcc) (op : AtomOp) (sz : Sz) (d off : Nat),
    Alone s k c o → o.lanes = [a] → o.kind = .atomic op sz (some d) → c.Readable a sz.bytes → (op = .badd2 → a.cmp = []) →
    a.pa = none → a.addr.toNat = 0x7FFFFF0000000000 + off →
    let old := leNat (c.bytesAt a sz.bytes)
    let new := op.apply (8 * sz.bytes) old (leNat a.data) (leNat a.cmp)
    ∃ t y b, exec (.loadCompletion k o.seq 0) s = .next t ∧ Table.find t.slices k = some y
      ∧ y.ops = [] ∧ y.cnt.ld = c.x.cnt.ld - 1
      ∧ (∀ n l, l < 4 → y.lands (.v n l) (((c.loaded o n l).getD (c.x.vreg n l)).setWidth 64))
      ∧ Table.find t.blocks (keyBlock k) = some b ∧ t.mem = s.mem
      ∧ ∀ x, Sparse.get 0 b.scratch x = storedOver [(off, leBytes sz.bytes new)] x (Sparse.get 0 c.b.scratch x)

/-- R225–R227: what the read-modify-write operations store for units of n bits: sums modulo 2^n, signed and unsigned minima and maxima,
bit operations, exchange, and compare-and-swap. -/
def Claims.AtomicOperations : Prop :=
  ∀ (n : Nat) (a b x : BitVec n), 0 < n →
    AtomOp.apply .add n a.toNat b.toNat x.toNat = (a + b).toNat
    ∧ AtomOp.apply .and n a.toNat b.toNat x.toNat = (a &&& b).toNat
    ∧ AtomOp.apply .or n a.toNat b.toNat x.toNat = (a ||| b).toNat
    ∧ AtomOp.apply .xor n a.toNat b.toNat x.toNat = (a ^^^ b).toNat
    ∧ AtomOp.apply .xchg n a.toNat b.toNat x.toNat = b.toNat
    ∧ AtomOp.apply .cas n a.toNat b.toNat x.toNat = (if a = x then b else a).toNat
    ∧ AtomOp.apply .min n a.toNat b.toNat x.toNat = (if b.slt a then b else a).toNat
    ∧ AtomOp.apply .max n a.toNat b.toNat x.toNat = (if a.slt b then b else a).toNat
    ∧ AtomOp.apply .minn n a.toNat b.toNat x.toNat = min a.toNat b.toNat
    ∧ AtomOp.apply .maxn n a.toNat b.toNat x.toNat = max a.toNat b.toNat

/-- R225, R227: ATFADD stores the sum of two FP32 values, rounded once to nearest even, and the canonical NaN where an operand is a NaN or
infinities of different signs meet; ATBADD2 does so with the two BF16 halves of its unit. -/
def Claims.AtomicSums : Prop :=
  let sum (f : Fmt) (a b : Nat) : Nat := (rounded f .rne false (fun xs => fAdd .rne (xs.getD 0 .nan) (xs.getD 1 .nan)) [a, b]).1
  (∀ a b x : BitVec 32, AtomOp.apply .fadd 32 a.toNat b.toNat x.toNat = sum .f32 a.toNat b.toNat
    ∧ (decodeF .f32 a.toNat = .nan ∨ decodeF .f32 b.toNat = .nan → AtomOp.apply .fadd 32 a.toNat b.toNat x.toNat = 0x7FC00000)
    ∧ (∀ p, decodeF .f32 a.toNat = .inf p → decodeF .f32 b.toNat = .inf (!p) → AtomOp.apply .fadd 32 a.toNat b.toNat x.toNat = 0x7FC00000))
  ∧ ∀ a b x : BitVec 32, AtomOp.apply .badd2 32 a.toNat b.toNat x.toNat
      = sum .bf16 (a.toNat % 2 ^ 16) (b.toNat % 2 ^ 16) + sum .bf16 (a.toNat / 2 ^ 16) (b.toNat / 2 ^ 16) * 2 ^ 16

/-- R224, R230: an atomic on memory combines the unit at the physical address of its lane's address: one without return when its held write is
performed, if its page still permits it, whereupon ST falls; one with return when it completes, which also delivers the old unit. Every other
byte reads as before to the slice's function. -/
def Claims.AtomicMemory : Prop :=
  ∀ (s : State) (k : Nat) (c : Ctx) (o : MemOp) (a : LaneAcc) (op : AtomOp) (sz : Sz),
    Alone s k c o → o.lanes = [a] → a.got = none → a.fwd = [] → (op = .badd2 → a.cmp = []) →
    let left (t : State) (pa : Nat) : Prop :=
      let old := leNat (s.readBytes (s.keyTag c.b.vf) pa sz.bytes)
      let new := op.apply (8 * sz.bytes) old (leNat a.data) (leNat a.cmp)
      (∀ p, t.readByte (s.keyTag c.b.vf) p = storedOver [(pa, leBytes sz.bytes new)] p (s.readByte (s.keyTag c.b.vf) p))
      ∧ t.blocks = s.blocks ∧ (∀ j, j ≠ k → Table.find t.slices j = Table.find s.slices j)
    (∀ x : Xlat, o.kind = .atomic op sz none → a.pa.isSome = true →
      s.translate c.b.vf (s.tlbOf c.b.core) (laneSite a.lane + 1024 * (o.seq + 1)) a.addr.toNat .atomic = .ok x →
      ∃ t y, exec (.storePerformed k o.seq 0) s = .next t ∧ Table.find t.slices k = some y ∧ left t x.pa
        ∧ y = { c.x with ops := [], cnt := { c.x.cnt with st := c.x.cnt.st - 1 }, knows := y.knows, reads := y.reads, lastRead := y.lastRead }
        ∧ (o.acq = false → y.knows = c.x.knows ∧ y.reads = c.x.reads ∧ y.lastRead = c.x.lastRead))
    ∧ ∀ (d pa : Nat), o.kind = .atomic op sz (some d) → a.pa = some pa → c.Readable a sz.bytes →
      ∃ t y, exec (.loadCompletion k o.seq 0) s = .next t ∧ Table.find t.slices k = some y ∧ left t pa
        ∧ y.ops = [] ∧ y.cnt.ld = c.x.cnt.ld - 1
        ∧ ∀ n l, l < 4 → y.lands (.v n l) (((c.loaded o n l).getD (c.x.vreg n l)).setWidth 64)

/-- R227, R229: the halves of an ATBADD2 unit can be updated apart: an event that puts one half off updates the other alone, the operation
stays outstanding with that half to go, and no other byte changes. -/
def Claims.HalvesApart : Prop :=
  ∀ (s : State) (k : Nat) (c : Ctx) (o : MemOp) (a : LaneAcc) (off h : Nat),
    Alone s k c o → o.lanes = [a] → o.kind = .atomic .badd2 .w32 none → a.got = none → a.cmp = [] → a.fwd = [] → a.pa = none →
    a.lane < 4 → a.addr.toNat = 0x7FFFFF0000000000 + off → off + 4 ≤ 2 ^ 32 → h < 2 → o.acq = false →
    let at_ (n : Nat) : Byte := Sparse.get 0 c.b.scratch (off + 2 * h + n)
    let sum : Nat := (addF .bf16 .rne (leNat [at_ 0, at_ 1]) (leNat ((a.data.drop (2 * h)).take 2))).1
    ∃ t b, exec (.storePerformed k o.seq (BitVec.ofNat 8 (2 ^ (a.lane + 4 * (1 - h))))) s = .next t
      ∧ Table.find t.slices k = some { c.x with ops := [{ o with lanes := [{ a with cmp := [BitVec.ofNat 8 h] }] }] }
      ∧ (∀ j, j ≠ k → Table.find t.slices j = Table.find s.slices j) ∧ t.mem = s.mem
      ∧ Table.find t.blocks (keyBlock k) = some b
      ∧ ∀ x, Sparse.get 0 b.scratch x = storedOver [(off + 2 * h, leBytes 2 sum)] x (Sparse.get 0 c.b.scratch x)

/-- R224–R227, R229, R230: atomics in the scratchpad and on memory, the operations they apply, and the two halves of ATBADD2. -/
def Obligations.AtomicsPerformed : Prop :=
  Claims.AtomicReturns ∧ Claims.AtomicMemory ∧ Claims.AtomicOperations ∧ Claims.AtomicSums ∧ Claims.HalvesApart

/-- R220, R197, R245: a held store to the scratchpad is performed: the bytes of its lanes hold its data, a later lane over an earlier one,
every other byte stays, form .SETF fills its granules, ST falls, and memory and the other slices stay. -/
def Claims.ScratchStores : Prop :=
  ∀ (s : State) (k : Nat) (c : Ctx) (o : MemOp) (sz : Sz) (fe : FE) (el : Bool),
    Alone s k c o → o.kind = .store sz fe el →
    (∀ a ∈ o.lanes, a.got = none ∧ a.pa = none ∧ 0x7FFFFF0000000000 ≤ a.addr.toNat ∧ a.addr.toNat < 0x7FFFFF0100000000) →
    let off (a : LaneAcc) : Nat := a.addr.toNat - 0x7FFFFF0000000000
    ∃ t b, exec (.storePerformed k o.seq 0) s = .next t
      ∧ Table.find t.slices k = some { c.x with ops := [], cnt := { c.x.cnt with st := c.x.cnt.st - 1 } }
      ∧ (∀ j, j ≠ k → Table.find t.slices j = Table.find s.slices j) ∧ t.mem = s.mem
      ∧ (∀ u, u ≠ keyBlock k → Table.find t.blocks u = Table.find s.blocks u)
      ∧ Table.find t.blocks (keyBlock k) = some b
      ∧ (∀ x, Sparse.get 0 b.scratch x = storedOver (o.lanes.map (fun a => (off a, a.data))) x (Sparse.get 0 c.b.scratch x))
      ∧ (∀ g, Sparse.get false b.full g =
          if fe = .setf ∧ ∃ a ∈ o.lanes, g = off a / 16 then true else Sparse.get false c.b.full g)

/-- R219, R220, R245: a held store to memory whose page still permits writing stores what is left of its lane's bytes at the physical address
of the lane's address, every other byte reads as before for the slice's function, and ST falls. What is left of a 16-byte store one of whose
halves has been performed is the other half. -/
def Claims.MemoryStores : Prop :=
  ∀ (s : State) (k : Nat) (c : Ctx) (o : MemOp) (a : LaneAcc) (sz : Sz) (el : Bool) (x : Xlat),
    Alone s k c o → o.kind = .store sz .none el → o.lanes = [a] → a.got = none → a.pa.isSome = true → a.data ≠ [] →
    s.translate c.b.vf (s.tlbOf c.b.core) (laneSite a.lane + 1024 * (o.seq + 1)) a.addr.toNat .write = .ok x →
    let left : Nat × List Byte := match a.cmp with
      | [] => (x.pa, a.data)
      | h :: _ =>
        if sz.bytes ≠ 16 then (x.pa, a.data) else if h = 0 then (x.pa + 8, (a.data.drop 8).take 8) else (x.pa, a.data.take 8)
    ∃ t, exec (.storePerformed k o.seq 0) s = .next t
      ∧ Table.find t.slices k = some { c.x with ops := [], cnt := { c.x.cnt with st := c.x.cnt.st - 1 } }
      ∧ (∀ j, j ≠ k → Table.find t.slices j = Table.find s.slices j) ∧ t.blocks = s.blocks
      ∧ ∀ p, t.readByte (s.keyTag c.b.vf) p = storedOver [left] p (s.readByte (s.keyTag c.b.vf) p)

/-- R219: the halves of a 16-byte store to memory can be performed apart, in either order: an event that puts one half off stores the other
alone, and the operation stays outstanding with that half to go. -/
def Claims.StoreHalves : Prop :=
  ∀ (s : State) (k : Nat) (c : Ctx) (o : MemOp) (a : LaneAcc) (el : Bool) (x : Xlat) (h : Nat),
    Alone s k c o → o.kind = .store .w128 .none el → o.lanes = [a] → a.got = none → a.cmp = [] → a.pa.isSome = true →
    a.data.length = 16 → a.lane < 4 → h < 2 →
    s.translate c.b.vf (s.tlbOf c.b.core) (laneSite a.lane + 1024 * (o.seq + 1)) a.addr.toNat .write = .ok x →
    ∃ t, exec (.storePerformed k o.seq (BitVec.ofNat 8 (2 ^ (a.lane + 4 * (1 - h))))) s = .next t
      ∧ Table.find t.slices k = some { c.x with ops := [{ o with lanes := [{ a with cmp := [BitVec.ofNat 8 h] }] }] }
      ∧ (∀ j, j ≠ k → Table.find t.slices j = Table.find s.slices j) ∧ t.blocks = s.blocks
      ∧ ∀ p, t.readByte (s.keyTag c.b.vf) p
          = storedOver [(x.pa + 8 * h, (a.data.drop (8 * h)).take 8)] p (s.readByte (s.keyTag c.b.vf) p)

/-- R241, R362: a held store whose page no longer permits writing is dropped: nothing is written, and the slice remembers it for its next
release point, or, while a checkpoint's cut forms, for its next word. -/
def Claims.DroppedStores : Prop :=
  ∀ (s : State) (k : Nat) (c : Ctx) (o : MemOp) (a : LaneAcc) (sz : Sz) (fe : FE) (el : Bool) (lv : Nat),
    Alone s k c o → o.kind = .store sz fe el → o.lanes = [a] → a.got = none → a.pa.isSome = true → c.x.ended = false →
    s.translate c.b.vf (s.tlbOf c.b.core) (laneSite a.lane + 1024 * (o.seq + 1)) a.addr.toNat .write = .error (.stage1 lv) →
    exec (.storePerformed k o.seq 0) s = .next (s.putSlice k { c.x with
      ops := [], cnt := { c.x.cnt with st := c.x.cnt.st - 1 }, dropped := c.x.dropped ++ [(o.seq, a.addr, lv)]
      dropDue := c.x.dropDue || (s.chip c.b.vf).cut })

/-- R220, R246: the lanes of a store are unordered: an event that puts some of them off performs the others, and the operation stays
outstanding, and counted under ST, with the lanes put off. -/
def Claims.LanesApart : Prop :=
  ∀ (s : State) (k : Nat) (c : Ctx) (o : MemOp) (sz : Sz) (el : Bool) (later : BitVec 8),
    Alone s k c o → o.kind = .store sz .none el →
    (∀ a ∈ o.lanes, a.got = none ∧ a.pa = none ∧ 0x7FFFFF0000000000 ≤ a.addr.toNat ∧ a.addr.toNat < 0x7FFFFF0100000000) →
    o.lanes.Pairwise (fun a b => a.addr.toNat + sz.bytes ≤ b.addr.toNat ∨ b.addr.toNat + sz.bytes ≤ a.addr.toNat) →
    let waits (a : LaneAcc) : Bool := later.getLsbD a.lane
    o.lanes.filter waits ≠ [] →
    ∃ t b, exec (.storePerformed k o.seq later) s = .next t
      ∧ Table.find t.slices k = some { c.x with ops := [{ o with lanes := o.lanes.filter waits }] }
      ∧ (∀ j, j ≠ k → Table.find t.slices j = Table.find s.slices j) ∧ t.mem = s.mem
      ∧ Table.find t.blocks (keyBlock k) = some b
      ∧ ∀ x, Sparse.get 0 b.scratch x = storedOver ((o.lanes.filter (fun a => !waits a)).map (fun a =>
          (a.addr.toNat - 0x7FFFFF0000000000, a.data))) x (Sparse.get 0 c.b.scratch x)

/-- R197, R219, R220, R241, R245, R246: held stores are performed, all lanes or some, whole or by halves, or dropped and remembered. -/
def Obligations.StoresPerformed : Prop :=
  Claims.ScratchStores ∧ Claims.MemoryStores ∧ Claims.StoreHalves ∧ Claims.DroppedStores ∧ Claims.LanesApart

/-- R202, R204: what an agent of a function writes the function reads back, every other byte reads to it as before, and a byte of a line
that was not written reads as before under every key. -/
def Claims.WrittenBytes : Prop :=
  ∀ (s : State) (w : Writer) (v : Nat) (bound : Bool) (a : Nat) (bs : List Byte), bs ≠ [] →
    let t := s.writeMem w v bound a bs
    (∀ p, t.readByte (s.keyTag v) p = storedOver [(a, bs)] p (s.readByte (s.keyTag v) p))
    ∧ (∀ key p, (p / 128 < a / 128 ∨ (a + bs.length - 1) / 128 < p / 128) → t.readByte key p = s.readByte key p)

/-- R236, R251: a read returns at each place the latest value or one that a later write replaced, and nothing older than a write that it must
see; those are the reader's own LS stores, to well loads too, and what it knows from an acquire or a fence. -/
def Claims.ReadValues : Prop :=
  ∀ (s : State) (r : Reader) (site : Nat) (sel : Loc → Bool) (l : Loc),
    ((s.view r site sel l).1 = s.atLoc l ∨ ∃ p ∈ s.past, p.loc = l ∧ s.mustSee r p = false ∧ (s.view r site sel l).1 = p.old)
    ∧ (∀ newer w older, s.past.filter (fun p => p.loc == l) = newer ++ w :: older → s.mustSee r w = true →
        (s.view r site sel l).1 = s.atLoc l ∨ ∃ p ∈ newer, (s.view r site sel l).1 = p.old)
    ∧ (∀ w, w.site.key = r.site.key → w.path = .ls → r.path = .ls ∨ r.path = .wl → s.mustSee r w = true)
    ∧ ∀ w p, p ∈ r.knows → p.stamp = w.stamp → p.path = r.path → p.since ≤ r.seq → s.shares p.site r.site p.scope = true →
        s.mustSee r w = true

/-- R254, R391: a die that applies a write of another die of its partition has then applied every write of the partition that the write's
clock counts, and still every one that it had applied; across a closed bridge nothing is applied. Which writes a die's clock counts is log
entry 95 (DEDUCED): this is a statement about that count. -/
def Claims.AppliedInOrder : Prop :=
  ∀ (s : State) (d a : Nat) (w v : Past),
    d < 4 → w.loc = .mem a → w.site.die ≠ d → v.site.die < 4 →
    (s.joined d w.site.die = true → s.joined d v.site.die = true → v.emit ≤ (w.clock.toList.getD v.site.die 0).toNat →
      (s.applyAt d w).applied v d = true)
    ∧ (s.joined d w.site.die = false → s.applyAt d w = s)
    ∧ (s.applied v d = true → (s.applyAt d w).applied v d = true)
    ∧ ∀ e, e < 4 → e ≠ d → (s.applyAt d w).die e = s.die e

/-- R247, R249: a store that is a release carries what happens before it: each byte that it writes makes known the slice's earlier LS
stores and what the slice knew. -/
def Claims.ReleaseCarries : Prop :=
  ∀ (s : State) (k : Nat) (c : Ctx) (o : MemOp) (a : LaneAcc) (sz : Sz) (el : Bool) (off n i : Nat) (scope : Scope),
    Alone s k c o → o.kind = .store sz .none el → o.lanes = [a] → a.got = none → a.pa = none →
    a.addr.toNat = 0x7FFFFF0000000000 + off → off < 2 ^ 32 → i < a.data.length → (scope, n) ∈ o.rels →
    ∃ t w m, exec (.storePerformed k o.seq 0) s = .next t ∧ w ∈ t.past ∧ w.loc = .scratch (keyBlock k) (off + i) ∧ w.stamp = s.stamp
      ∧ m ∈ w.rels ∧ m.scope = scope ∧ m.site = c.site
      ∧ (∀ p ∈ s.past, p.site.key = k → p.path = .ls → p.seq < n → p.known .ls 0 ∈ m.knows)
      ∧ (∀ p ∈ c.x.knows, p.since ≤ n → p ∈ m.knows) ∧ ∀ p ∈ c.x.reads, p.since < n → p ∈ m.knows

/-- R247: a load that is an acquire learns what a release makes known whose write it returns, when the two slices share both scopes. -/
def Claims.AcquireLearns : Prop :=
  ∀ (s : State) (k : Nat) (c : Ctx) (o : MemOp) (a : LaneAcc) (dst : LoadDst) (sz : Sz) (w : Past) (m : Msg) (p : Known),
    Alone s k c o → o.kind = .load dst sz .none → o.lanes = [a] → c.Readable a sz.bytes → o.acq = true →
    w ∈ (c.loadSeen o.scope o.seq a sz.bytes).2 → m ∈ w.rels → s.shares m.site c.site m.scope = true →
    s.shares m.site c.site o.scope = true → p ∈ m.knows → s.shares p.site c.site p.scope = true →
    ∃ t y, exec (.loadCompletion k o.seq 0) s = .next t ∧ Table.find t.slices k = some y
      ∧ { p with since := o.seq + 1 } ∈ y.knows ∧ t.mem = s.mem ∧ t.blocks = s.blocks

/-- R254, R391: a write that an agent makes to memory whose home is another die of its partition leaves the agent's die, whose clock counts it,
and the home die has then applied it. That a write is counted when it leaves is log entry 95 (DEDUCED). -/
def Claims.WritesLeave : Prop :=
  ∀ (s : State) (w : Writer) (v : Nat) (bound : Bool) (a : Nat) (b : Byte) (h : Nat),
    w.site.die < 4 → h < 4 → s.homeDie (a / 128) = h → h ≠ w.site.die → s.joined h w.site.die = true →
    (s.keyOfLine (a / 128) = none ∨ s.keyOfLine (a / 128) = s.keyTag v) →
    let n := ((s.die w.site.die).clock.toList.getD w.site.die 0).toNat
    n < 2 ^ 64 - 1 →
    let t := s.writeMem w v bound a [b]
    ((t.die w.site.die).clock.toList.getD w.site.die 0).toNat = n + 1
    ∧ ∀ p ∈ t.past, p ∉ s.past → p.site = w.site ∧ p.emit = n + 1 ∧ t.applied p h = true

/-- R202, R204, R247, R249, R251, R254: writes read back, older values are returned only where nothing rules them out, releases carry what
happens before them, and acquires learn it. -/
def Obligations.MemoryConsistency : Prop :=
  Claims.WrittenBytes ∧ Claims.ReadValues ∧ Claims.AppliedInOrder ∧ Claims.WritesLeave ∧ Claims.ReleaseCarries ∧ Claims.AcquireLearns

/-! ### Wells (R209–R213, R231–R236) -/

/-- R234, R235: WLD at well-window addresses becomes one operation counted under WL; without a poison report, .NOQ, the slice goes on at
once, and with one it is held at its word. -/
def Claims.WellLoad : Prop :=
  ∀ (s : State) (c : Ctx) (k : Ctl) (m : MemArg) (sz : Sz) (pr : PoisonReport) (d : VReg) (r : List (Nat × Nat × Option Xlat)),
    AtRest s c → c.fits (memUses m [⟨d.val, 1, false⟩]) → c.x.cnt.wl ≠ 63 → s.scopeDenied c.b.vf m.scope = false →
    let w : MemWord := ⟨m, true, { want := .read, size := sz.bytes, well := true },
      .well d.val sz ((c.x.lanes k.guard).map (fun l =>
        (l, c.wellDesc ((c.address m sz.bytes l - 0x7FFFFF0000000000) % 2 ^ 32)))) pr, fun _ _ => ([], [])⟩
    c.memAccesses k w ≠ [] → c.check w.ask (c.memAccesses k w) = .ok r →
    exec (.wld k m sz pr d) s = .next ((if (usedOf r).isEmpty then s else s.fillTlb c.b.core (usedOf r)).withSlice
      { (if pr = .noq then c.next else c.x) with
        ops := [c.freshOp w.kind (r.map (c.freshLane w)) m.scope (ordAcq m.ord) (ordRel m.ord)]
        seq := c.x.seq + 1, cnt := { c.x.cnt with wl := c.x.cnt.wl + 1 }, forcedOk := false
        hold := if pr = .noq then (if k.m then .parked else c.x.hold) else .well c.x.seq s.ir })

/-- R212, R213, R234, R236: a WLD without a poison report that must see the latest writes of its members is performed: it delivers, in each of its lanes that lives, the element of the well
at the lane's offset, and WL falls. -/
def Claims.WellElements : Prop :=
  ∀ (s : State) (k : Nat) (c : Ctx) (o : MemOp) (d : Nat) (sz : Sz) (descs : List (Nat × BitVec 512)),
    Alone s k c o → o.kind = .well d sz descs .noq → sz.bytes ≤ 4 → (o.lanes.map (fun a => a.lane)).Nodup →
    (∀ a ∈ o.lanes, a.got = none) →
    (∀ a ∈ o.lanes, s.upToDate (c.reader .wl o.scope o.seq) (c.wellRead descs a).2.2) →
    ∃ y, exec (.loadCompletion k o.seq 0) s = .next (s.putSlice k y) ∧ y.ops = []
      ∧ y.cnt = { c.x.cnt with wl := c.x.cnt.wl - 1 } ∧ y.hold = .none
      ∧ ∀ a ∈ o.lanes, a.lane < 4 → c.x.live.toNat.testBit a.lane = true →
          let desc := ((descs.find? (fun e => e.1 == a.lane)).map (fun e => e.2)).getD 0
          y.lands (.v d a.lane) (BitVec.ofNat 64
            (leNat (leBytes sz.bytes (c.wellElement desc ((a.addr.toNat - 0x7FFFFF0000000000) % 2 ^ 20)).1)))

/-- R209–R213, R234, R235: WLD and the elements it delivers. -/
def Obligations.WellReads : Prop :=
  Claims.WellLoad ∧ Claims.WellElements

/-- R231–R233, R247: WDSET reads 64 bytes as an LS load, here ones whose latest writes it must see, installs them as the descriptor of a
slot when the slot exists and they are well formed, and pushes whether it did; WDGET stores a slot's descriptor, which may be the release
write of the slice's earlier fences, in a word that need not wait for a checkpoint (R367). That an image with VALID 0 is held to the same
checks is log entry 20 (DEDUCED). -/
def Obligations.WellDescriptors : Prop :=
  ∀ (s : State) (c : Ctx) (k : Ctl) (a b : SSrc) (x : Xlat) (used : List TlbEntry),
    AtRest s c → c.x.guardScalar k.guard = true → (c.val b).toNat % 64 = 0 → (c.val b).toNat < 0x7FFFFF0000000000 →
    let i := (c.val a).toNat
    (s.translate c.b.vf (s.tlbOf c.b.core) (laneSite 0) (c.val b).toNat .read = .ok ⟨x.pa, x.device, used⟩ →
      s.linePoisoned x.pa 64 = false → s.upToDate (c.reader .ls .core c.x.seq) (Loc.inBytes x.pa 64) →
      let d := BitVec.ofNat 512 (leNat (s.readBytes (s.keyTag c.b.vf) x.pa 64))
      ∃ t, exec (.wdset k a b) s = .next t ∧ t.mem = s.mem
        ∧ (let ok := decide (i < 64) && s.wellFormed c.b.vf d
          ∃ y ws, c.x.hasRead y ws c.x.seq ∧ (∀ w ∈ ws, w ∈ s.past ∧ Loc.inBytes x.pa 64 w.loc = true)
            ∧ Table.find t.slices s.cur = some { y with
              pc := c.x.pc + 8, issued := c.x.issued + 1, q := c.x.pushed ok, seq := if ok then c.x.seq + 2 else c.x.seq + 1 })
        ∧ (t.chip c.b.vf).wells = if i < 64 ∧ s.wellFormed c.b.vf d = true then
            Table.put (s.chip c.b.vf).wells i d else (s.chip c.b.vf).wells)
    ∧ (s.translate c.b.vf (s.tlbOf c.b.core) (laneSite 0) (c.val b).toNat .write = .ok ⟨x.pa, x.device, used⟩ → i < 64 →
      (s.timeSliced c.b.vf = false ∨ c.x.forcedOk = true ∨ Config.isHostMemory (x.pa / 128) = false) →
      ∃ t, exec (.wdget k a b) s = .next t
        ∧ Table.find t.slices s.cur = some { c.next with seq := c.x.seq + 1, fences := [], forcedOk := false }
        ∧ t.blocks = s.blocks
        ∧ ∀ p, t.readByte (s.keyTag c.b.vf) p =
            storedOver [(x.pa, leBytes 64 (Table.getD (s.chip c.b.vf).wells i 0).toNat)] p (s.readByte (s.keyTag c.b.vf) p))

/-! ### Engines (R262–R305) -/

/-- R17: a vector word one of whose register operands passes VCOUNT takes the register-range trap and writes no register. -/
def Claims.RegisterRange : Prop :=
  ∀ (s : State) (c : Ctx) (i : Instr) (r : VecRule) (vec : Nat) (at_ : Xlat) (t : State),
    (c.intRule i = some r ∨ c.bitRule i = some r ∨ c.floatRule i = some r ∨ c.elementRule i = some r) → ¬ c.fits r.uses →
    TrapReady s c { cause := .registerRange } vec at_ t →
    exec i s = .next (t.withSlice (c.atHandler { cause := .registerRange } vec))

/-- R216, R217: a memory word some lane of which is not aligned to its access size takes the misaligned-data trap, for the lowest such lane,
when every address form is permitted. -/
def Claims.MemoryMisaligned : Prop :=
  ∀ (s : State) (c : Ctx) (i : Instr) (k : Ctl) (uses : List VUse) (w : MemWord) (l a vec : Nat) (at_ : Xlat) (after : State),
    c.memRule i = some (k, uses, w) → c.fits uses → w.kind.full c.x.cnt = false → s.scopeDenied c.b.vf w.mem.scope = false →
    (∀ p ∈ c.memAccesses k w, badForm w.ask p.2 = false) →
    (c.memAccesses k w).find? (fun p => p.2 % w.ask.size != 0) = some (l, a) →
    let t : TrapInfo := { cause := .misalignedData, addr := BitVec.ofNat 64 a, lane := l, wr := w.ask.want.writes }
    TrapReady s c t vec at_ after →
    exec i s = .next (after.withSlice (c.atHandler t vec))

/-- R8, R192, R194, R198, R217: the other checks of a memory word, in their order: a denied scope, though no lane be active where the word has
an ordering; an address beyond the register window's first MiB, which no memory word may have; and for the lowest lane whose place fails, a
scratchpad access beyond SCRATCH, the register window at user level, a full-empty qualifier outside the scratchpad, and a translation that
fails. -/
def Claims.MemoryTraps : Prop :=
  ∀ (s : State) (c : Ctx) (i : Instr) (k : Ctl) (uses : List VUse) (w : MemWord),
    AtRest s c → c.memRule i = some (k, uses, w) → c.fits uses → w.kind.full c.x.cnt = false →
    let takes (t : TrapInfo) : Prop := ∀ vec at_ after, TrapReady s c t vec at_ after → exec i s = .next (after.withSlice (c.atHandler t vec))
    let fault (cause : Cause) (l a lv : Nat) : TrapInfo :=
      { cause := cause, addr := BitVec.ofNat 64 a, lane := l, level := lv, wr := w.ask.want.writes }
    let bad (a : Nat) : Bool := decide (0x7FFFFF0100100000 ≤ a)
    (s.scopeDenied c.b.vf w.mem.scope = true → c.memAccesses k w ≠ [] ∨ w.mem.ord ≠ .none → takes { cause := .scopePolicy })
    ∧ (s.scopeDenied c.b.vf w.mem.scope = false →
      (∀ l a, (c.memAccesses k w).find? (fun p => bad p.2) = some (l, a) → takes (fault .addressForm l a 0))
      ∧ ((∀ p ∈ c.memAccesses k w, bad p.2 = false ∧ p.2 % w.ask.size = 0) → ∀ before l a rest,
        c.memAccesses k w = before ++ (l, a) :: rest → (∃ r, c.resolveAll w.ask before = .ok r) →
        (0x7FFFFF0000000000 ≤ a → a < 0x7FFFFF0100000000 → 0x7FFFFF0000000000 + c.b.scratchSize < a + w.ask.size →
            takes (fault .dataFault l a 0))
        ∧ (0x7FFFFF0100000000 ≤ a → takes (fault .dataFault l a 0))
        ∧ (a < 0x7FFFFF0000000000 → w.ask.granule = true → takes (fault .dataFault l a 0))
        ∧ (∀ lv, a < 0x7FFFFF0000000000 → w.ask.granule = false →
            s.translate c.b.vf (s.tlbOf c.b.core) (laneSite l) a w.ask.want = .error (.stage1 lv) → takes (fault .dataFault l a lv))))

/-- R8, R192, R217, R234: WLD at an address outside the well window takes the address-form trap. A pod word some lane of which has no pod
address, one with bits [62:56] set, or one whose VCHIP is no member traps for the lowest such lane, and else for the lowest misaligned one. -/
def Claims.WellAndPodTraps : Prop :=
  ∀ (s : State) (c : Ctx), AtRest s c →
    let takes (i : Instr) (t : TrapInfo) : Prop :=
      ∀ vec at_ after, TrapReady s c t vec at_ after → exec i s = .next (after.withSlice (c.atHandler t vec))
    (∀ (k : Ctl) (m : MemArg) (sz : Sz) (pr : PoisonReport) (d : VReg) (l a : Nat),
      c.fits (memUses m [⟨d.val, 1, false⟩]) → c.x.cnt.wl ≠ 63 → s.scopeDenied c.b.vf m.scope = false →
      (c.memAccesses k ⟨m, true, { want := .read, size := sz.bytes, well := true }, .well d.val sz [] pr, fun _ _ => ([], [])⟩).find?
        (fun p => !decide (0x7FFFFF0200000000 ≤ p.2 ∧ p.2 < 0x7FFFFF0204000000)) = some (l, a) →
      takes (.wld k m sz pr d) { cause := .addressForm, addr := BitVec.ofNat 64 a, lane := l })
    ∧ ∀ (i : Instr) (k : Ctl) (uses : List VUse) (w : MemWord) (before rest : List (Nat × Nat)) (l a : Nat),
      c.podRule i = some (k, uses, w) → c.fits uses → c.x.cnt.fb ≠ 63 → s.scopeDenied c.b.vf w.mem.scope = false →
      c.memAccesses k w = before ++ (l, a) :: rest →
      let form (x : Nat) : Prop := 2 ^ 63 ≤ x ∧ x / 2 ^ 56 % 128 = 0
      let member (x : Nat) : Prop := entryValid (s.chipEntry c.b.vf (x / 2 ^ 44 % 4096)) = true
      let fault (cause : Cause) : TrapInfo := { cause := cause, addr := BitVec.ofNat 64 a, lane := l, wr := w.ask.want.writes }
      ((∀ p ∈ before, form p.2 ∧ member p.2) →
        (¬ form a → takes i (fault .addressForm)) ∧ (form a → ¬ member a → takes i (fault .podMember)))
      ∧ ((∀ p ∈ c.memAccesses k w, form p.2 ∧ member p.2) → (∀ p ∈ before, p.2 % w.ask.size = 0) → a % w.ask.size ≠ 0 →
        takes i (fault .misalignedData))

/-- R200, R283: a matrix-class word or CPTILE of a block that does not reserve the matrix engine is an illegal instruction. -/
def Claims.EngineReservation : Prop :=
  ∀ (s : State) (c : Ctx) (i : Instr) (r : EngRule) (vec : Nat) (at_ : Xlat) (after : State),
    (c.matrixRule i = some r ∨ c.pumpRule i = some r) → r.matrix = true → c.b.mxRes = false →
    TrapReady s c { cause := .illegalInstruction } vec at_ after →
    exec i s = .next (after.withSlice (c.atHandler { cause := .illegalInstruction } vec))

/-- R8, R17, R192, R200, R216, R217, R283: operands that a word may not have trap before it has any effect. -/
def Obligations.OperandTraps : Prop :=
  Claims.RegisterRange ∧ Claims.MemoryMisaligned ∧ Claims.MemoryTraps ∧ Claims.WellAndPodTraps ∧ Claims.EngineReservation

/-- R114, R200, R263, R280, R283, R287–R299: an engine word whose block may issue it, whose operands obey their limits, that sees its tile
descriptors as they stand (R154) and whose queue has room puts one command, with its operands as read at issue, on its queue, EN rises, and
the slice goes on. -/
def Claims.EngineIssue : Prop :=
  ∀ (s : State) (c : Ctx) (i : Instr) (r : EngRule) (o : Option Word64),
    AtRest s c → (c.matrixRule i = some r ∨ c.pumpRule i = some r) → c.x.guardScalar r.ctl.guard = true → c.tilesCurrent →
    (r.matrix = true → c.b.mxRes = true) → c.x.cnt.en ≠ 63 → c.objCheck r.ab = .ok o →
    (if r.copy then (s.core c.b.core).copyq else (s.core c.b.core).cmdq).length < 16 →
    let cmd : Cmd :=
      ⟨s.cur, true, c.x.seq, keyBlock s.cur, c.x.pc, r.kind, o, 0, 0, [], 0, c.x.knows, c.kidx, c.x.priv == 1, s.now + 1, []⟩
    exec i s = .next ((s.modCore c.b.core (fun u =>
        if r.copy then { u with copyq := enterCmd true cmd u.copyq } else { u with cmdq := enterCmd false cmd u.cmdq })).withSlice
      { c.next with seq := c.x.seq + 1, cnt := { c.x.cnt with en := c.x.cnt.en + 1 } })

/-- R263, R295: a command goes to the end of its queue, but of the words that issue in one cycle (of one block in the engine order, of the
core in the copy queue) that of the lower (squad, slice) comes first; and a queue begins a command only after the cycle of its issue. -/
def Claims.EngineOrder : Prop :=
  (∀ (copy : Bool) (cmd : Cmd) (q : List Cmd),
    let ahead (e : Cmd) : Prop := e.at_ = cmd.at_
      ∧ if copy then cmd.slice % 256 < e.slice % 256 else e.block = cmd.block ∧ cmd.slice < e.slice
    ∃ before after, q = before ++ after ∧ enterCmd copy cmd q = before ++ cmd :: after
      ∧ (∀ e ∈ before, ¬ ahead e) ∧ ∀ e, after.head? = some e → ahead e)
  ∧ ∀ (s : State) (core : Nat) (copy : Bool) (cmd : Cmd) (rest : List Cmd),
      (if copy then (s.core core).copyq else (s.core core).cmdq) = cmd :: rest → s.now < cmd.at_ →
      exec (.engineCommandCompletion core copy) s = .next s
        ∧ (copy = true → exec (.copyQueueStep core) s = .next s)
        ∧ (copy = false → exec (.fill core) s = .next s ∧ exec (.stream core) s = .next s ∧ exec (.scale core) s = .next s
            ∧ exec (.copy core) s = .next s)

/-- R154, R284, R286: TDSET writes a tile descriptor of the block from two scalar sources; where a higher slice has written it in the same
cycle it waits for a later one; TDGET reads half of one. -/
def Claims.TileDescriptors : Prop :=
  ∀ (s : State) (c : Ctx) (k : Ctl) (t : TReg), AtRest s c → c.x.guardScalar k.guard = true →
    (∀ a b k', Table.find c.b.tdAt t.val = some (s.now, k') → s.cur < k' → exec (.tdset k t a b) s = .next s)
    ∧ (∀ a b, (∀ k', Table.find c.b.tdAt t.val = some (s.now, k') → ¬ s.cur < k') →
        ∃ u, exec (.tdset k t a b) s = .next u ∧ Table.find u.slices s.cur = some { c.next with seq := c.x.seq + 1 }
        ∧ u.blocks = Table.put s.blocks (keyBlock s.cur)
             { c.b with tdesc := c.b.tdesc.set t.val (c.val b ++ c.val a), tdAt := Table.put c.b.tdAt t.val (s.now, s.cur) }
        ∧ (∀ j, j ≠ s.cur → Table.find u.slices j = Table.find s.slices j)
        ∧ u.mem = s.mem ∧ u.grids = s.grids ∧ u.cores = s.cores ∧ u.chips = s.chips ∧ u.dies = s.dies ∧ u.dev = s.dev)
    ∧ (∀ hi d, c.tilesCurrent → exec (.tdget k hi d t) s = .next (s.withSlice (c.next.withS d
        (if hi then (c.b.tdesc[t] >>> 64).setWidth 64 else c.b.tdesc[t].setWidth 64))))

/-- R262–R299: engine words put commands on their queue; TDSET and TDGET move tile descriptors. -/
def Obligations.EngineWords : Prop :=
  Claims.EngineIssue ∧ Claims.EngineOrder ∧ Claims.TileDescriptors

/-- R262, R287, R292: commands of the engine order when they complete: PSWAP exchanges the planes, ACCCLR clears its rows, ACCMV copies a
rectangle of cells as it was, ACCWR writes widened elements; no other cell changes. -/
def Claims.AccumulatorCommands : Prop :=
  ∀ (s : State) (core : Nat) (cmd : Cmd) (rest : List Cmd) (b : Block),
    AtHead s core false cmd rest b →
    let k := s.core core
    let done (t : State) : Prop := exec (.engineCommandCompletion core false) s = .next t ∧ Completed s t core false cmd rest
    let cells (t : State) (rows cols row col : Nat) (v : Nat → Nat → Word32) : Prop :=
      ∀ r q, q < 128 → (t.core core).cell r q =
        if row ≤ r ∧ r < row + rows ∧ col ≤ q ∧ q < col + cols then v (r - row) (q - col) else k.cell r q
    (cmd.kind = .pswap → ∃ t, done t ∧ (t.core core).stationary = k.shadow ∧ (t.core core).shadow = k.stationary)
    ∧ (∀ a : Word64, cmd.kind = .accclr a →
        ∃ t, done t ∧ cells t (a.toNat / 2 ^ 16 % 1024) 128 (a.toNat % 512) 0 (fun _ _ => 0))
    ∧ (∀ ss sd sz : Word64, cmd.kind = .accmv ss sd sz →
        let n := sz.toNat % 512
        let w := sz.toNat / 2 ^ 16 % 256
        posCol sd + w ≤ 128 → posCol ss + w ≤ 128 →
        (∀ i j, i < n → j < w → k.badCell (posRow ss + i) (posCol ss + j) = false) →
        ∃ t, done t ∧ cells t n w (posRow sd) (posCol sd) (fun i j => k.cell (posRow ss + i) (posCol ss + j)))
    ∧ (∀ (ts : BitVec 128) (sp : Word64) (u : Tile), cmd.kind = .accwr ts sp → tileOf ts = some u →
        posCol sp + u.cols ≤ 128 → b.badTile u 0 u.rows 0 u.cols = false →
        ∃ t, done t ∧ cells t u.rows u.cols (posRow sp) (posCol sp) (fun i j =>
          BitVec.ofNat 32 (accWiden u.fmt (b.tileElem u i j))))

/-- R292, R293, R305: ACCRD writes each row's narrowed cells to the tile in the scratchpad, no other scratchpad byte changes, and each
granule written becomes full (R196). -/
def Claims.AccumulatorRead : Prop :=
  ∀ (s : State) (core : Nat) (cmd : Cmd) (rest : List Cmd) (b : Block) (ic sat : Bool) (rm : RM) (td : BitVec 128) (sp : Word64)
    (u : Tile),
    AtHead s core false cmd rest b → cmd.kind = .accrd ic rm sat td sp → tileOf td = some u → 0x7FFFFF0000000000 ≤ u.base →
    (∀ i j, i < u.rows → j < u.cols → (s.core core).badCell (posRow sp + i) (posCol sp + j) = false) →
    8 ≤ u.fmt.width →
    ∃ t y, exec (.engineCommandCompletion core false) s = .next t ∧ Completed s t core false cmd rest
      ∧ Table.find t.blocks cmd.block = some y
      ∧ (∀ o, Sparse.get 0 y.scratch o = storedOver ((List.range u.rows).map (fun i =>
          (u.row i - 0x7FFFFF0000000000, (List.range u.cols).flatMap (fun j => leBytes (u.fmt.width / 8)
            (accNarrow u.fmt ic rm sat ((s.core core).cell (posRow sp + i) (posCol sp + j)).toNat))))) o
          (Sparse.get 0 b.scratch o))
      ∧ (∀ i x, i < u.rows → x < u.rb → Sparse.get false y.full ((u.row i - 0x7FFFFF0000000000 + x) / 16) = true)

/-- R262, R292, R293, R305: PSWAP, ACCCLR, ACCMV, ACCWR and ACCRD when they complete. -/
def Obligations.ArrayCommands : Prop :=
  Claims.AccumulatorCommands ∧ Claims.AccumulatorRead

/-- R262, R287: a dense LDSTAT that meets no poison loads the shadow plane with the tile's elements, by column and row, and its tag,
and without .NS exchanges it with the stationary plane. -/
def Claims.PlaneLoad : Prop :=
  ∀ (s : State) (core : Nat) (cmd : Cmd) (rest : List Cmd) (b : Block) (mode : Mode) (xf : Fmt) (ns : Bool) (tb : BitVec 128)
    (sm : Word64) (u : Tile),
    AtHead s core false cmd rest b → cmd.kind = .ldstat mode xf .n48 ns tb sm → tileOf tb = some u → u.rows ≤ 1024 →
    b.badTile u 0 u.rows 0 u.cols = false →
    ∃ t p, exec (.engineCommandCompletion core false) s = .next t ∧ Completed s t core false cmd rest
      ∧ p.tag = some ⟨mode, xf, u.fmt, .n48, u.rows, u.cols⟩
      ∧ (∀ n r, n < u.cols → r < u.rows → p.at? n r = some (b.tileElem u r n % 2 ^ 16))
      ∧ (if ns then (t.core core).shadow = p ∧ (t.core core).stationary = (s.core core).stationary
        else (t.core core).stationary = p ∧ (t.core core).shadow = (s.core core).stationary)

/-- R266, R278, R287, R289: streaming a tile in mode I8 past a dense stationary plane that the loader filled, when the governor gives it its
cycles, adds to each cell of a row the sum of products of the row's elements with a column's, modulo 2^32, and changes no other cell. -/
def Claims.StreamedProducts : Prop :=
  ∀ (s : State) (core : Nat) (cmd : Cmd) (rest : List Cmd) (b : Block) (rm : RM) (ta : BitVec 128) (sp : Word64) (u : Tile) (g : PlaneTag),
    AtHead s core false cmd rest b → cmd.kind = .stream .i8 rm .n48 ta sp → tileOf ta = some u →
    (s.core core).stationary.tag = some g → g.mode = .i8 → g.afmt = u.fmt → g.nc = .n48 → g.k = u.cols →
    posCol sp + g.ncol ≤ 128 → b.badTile u 0 u.rows 0 u.cols = false →
    (∀ i j, i < u.rows → j < g.ncol → (s.core core).badCell (posRow sp + i) (posCol sp + j) = false) →
    (s.core core).mayStream s.now u.rows →
    let k := s.core core
    let sum (i j : Nat) : Int := ((List.range u.cols).map (fun x =>
      match k.stationary.at? j x with
      | none => 0
      | some y => intAt u.fmt (b.tileElem u i x) * intAt g.bfmt y)).sum
    ∃ t, exec (.engineCommandCompletion core false) s = .next t ∧ Completed s t core false cmd rest
      ∧ (t.core core).stationary = k.stationary
      ∧ ∀ r q, q < 128 → (t.core core).cell r q =
          if posRow sp ≤ r ∧ r < posRow sp + u.rows ∧ posCol sp ≤ q ∧ q < posCol sp + g.ncol then
            BitVec.ofInt 32 ((k.cell r q).toInt + sum (r - posRow sp) (q - posCol sp))
          else k.cell r q

/-- R265, R267, R278, R289, R290: a streaming command in any mode, once the governor gives it its cycles, and SCACC leave in the core what the
array and the scale unit compute when they meet no failure; a streaming command that the governor does not give them is held where it is, for
the model performs such a command whole (log entry 29, DESIGN CHOICE); and a failure code of R276 takes the command away and is kept for the
slice's next engine word (R277). In modes other than I8 the sums are those of the model's own `streamRows` and `scacc`. -/
def Claims.MatrixCommands : Prop :=
  ∀ (s : State) (core : Nat) (cmd : Cmd) (rest : List Cmd) (b : Block) (f : Core → Nat × Core) (cycles : Option Nat),
    AtHead s core false cmd rest b →
    ((∃ mode rm nc ta sp u, cmd.kind = .stream mode rm nc ta sp ∧ tileOf ta = some u
        ∧ f = (fun k => k.streamRows b mode rm nc u 0 u.rows 0 (posRow sp) (posCol sp) u.cols)
        ∧ cycles = some ((if mode = .f16 ∨ mode = .bf16 then 2 else 1) * u.rows))
      ∨ (∃ rm a sa sb, cmd.kind = .scacc rm a sa sb ∧ f = (fun k => k.scacc b rm a sa sb) ∧ cycles = none)) →
    let r := f (s.core core)
    (r.1 = 0 → (∀ n, cycles = some n → (s.core core).mayStream s.now n) →
      ∃ t h, exec (.engineCommandCompletion core false) s = .next t ∧ Completed s t core false cmd rest
        ∧ t.core core = { (f (match cycles with
            | some n => (s.core core).streaming s.now h n
            | none => s.core core)).2 with cmdq := rest, streamed := 0 })
    ∧ (r.1 = 0 → ∀ n, cycles = some n → ¬ (s.core core).mayStream s.now n →
      ∃ h, exec (.engineCommandCompletion core false) s = .next (s.modCore core (fun k => k.heldBack s.now h)))
    ∧ (r.1 ≠ 0 → ∀ x, Table.find s.slices cmd.slice = some x → keyBlock cmd.slice = cmd.block → x.ended = false →
      ∃ t, exec (.engineCommandCompletion core false) s = .next t ∧ (t.core core).cmdq = rest ∧ (t.core core).acc = (s.core core).acc
        ∧ Table.find t.slices cmd.slice = some { x with
            cnt := if cmd.attached then { x.cnt with en := x.cnt.en - 1 } else x.cnt
            engFail := x.engFail ++ [(cmd.pc, r.1, 0, cmd.kidx)] })

/-- R272, R278, R294: FILL makes a plane step of MXTILE: it loads the sub-tile of B for its panel and pass into the stationary plane; STREAM
makes a streaming step, once the governor gives it its cycles: at most 16 rows of A against it. Each counts one step. A step too long for
what the window has left is held whole (log entry 29, DESIGN CHOICE). -/
def Claims.PumpedMultiply : Prop :=
  ∀ (s : State) (core : Nat) (cmd : Cmd) (rest : List Cmd) (b : Block) (mode : Mode) (rm : RM) (ta tb : BitVec 128) (sp : Word64)
    (a u : Tile),
    AtHead s core false cmd rest b → cmd.kind = .mxtile mode rm ta tb sp → tileOf ta = some a → tileOf tb = some u →
    cmd.next < cmd.kind.total →
    let per := 1 + ceilDiv a.rows 16
    let passes := ceilDiv a.cols 192
    let panel := cmd.next / per / passes
    let pass := cmd.next / per % passes
    let j := cmd.next % per
    let sub := u.part (192 * pass) (min 192 (u.rows - 192 * pass)) (96 * panel) (min 96 (u.cols - 96 * panel))
    (j = 0 → b.badTile sub 0 sub.rows 0 sub.cols = false →
      ∃ t, exec (.fill core) s = .next t ∧ Stepped s t core false cmd rest ∧ t.blocks = s.blocks
        ∧ (t.core core).acc = (s.core core).acc
        ∧ (t.core core).stationary.tag = some ⟨mode, a.fmt, u.fmt, .n48, sub.rows, sub.cols⟩
        ∧ ∀ n r, n < sub.cols → r < sub.rows → (t.core core).stationary.at? n r = some (b.tileElem sub r n % 2 ^ 16))
    ∧ (j ≠ 0 →
      let rows := min 16 (a.rows - 16 * (j - 1))
      let cycles := (if mode = .f16 ∨ mode = .bf16 then 2 else 1) * rows
      let f (k : Core) : Nat × Core := k.streamRows b mode rm .n48 a (16 * (j - 1)) rows (192 * pass)
          (posRow sp + a.rows * panel) (posCol sp) (min 192 (a.cols - 192 * pass))
      (f (s.core core)).1 = 0 →
      ((s.core core).mayStream s.now cycles →
        ∃ t h, exec (.stream core) s = .next t ∧ Stepped s t core false cmd rest ∧ t.blocks = s.blocks
          ∧ t.core core = { (f ((s.core core).streaming s.now h cycles)).2 with cmdq := { cmd with next := cmd.next + 1 } :: rest })
      ∧ (¬ (s.core core).mayStream s.now cycles →
        ∃ h, exec (.stream core) s = .next (s.modCore core (fun k => k.heldBack s.now h))))

/-- R291: SCALE makes one step of SCTILE: one accumulator row receives the scaled sums of four rows of partial sums, with the scales that
the two tiles hold for it (R52), and no other cell changes. -/
def Claims.PumpedScale : Prop :=
  ∀ (s : State) (core : Nat) (cmd : Cmd) (rest : List Cmd) (b : Block) (rm : RM) (sc : Word64) (ta tb : BitVec 128) (a u : Tile),
    AtHead s core false cmd rest b → cmd.kind = .sctile rm sc ta tb → tileOf ta = some a → tileOf tb = some u →
    cmd.next < cmd.kind.total →
    let m := sc.toNat / 2 ^ 32 % 1024
    let cg := sc.toNat / 2 ^ 48 % 4
    let nb := sc.toNat / 2 ^ 52 % 4
    let row := cmd.next % m
    let g := cmd.next / m % cg
    let j := cmd.next / m / cg
    let p := sc.toNat % 512 + 12 * nb * row + 12 * j + 4 * g
    let d := sc.toNat / 2 ^ 16 % 512 + m * g + row
    let k := s.core core
    b.badTile a row 1 (2 * j) 2 = false → b.badTile u (128 * g) 128 (2 * j) 2 = false →
    (∀ n, n < 128 → k.badCell d n = false ∧ ∀ i, i < 4 → k.badCell (p + i) n = false) →
    ∃ t, exec (.scale core) s = .next t ∧ Stepped s t core false cmd rest ∧ t.blocks = s.blocks
      ∧ ∀ r n, n < 128 → (t.core core).cell r n =
          if r = d then
            BitVec.ofNat 32 (scaccCell rm (k.cell d n).toNat (fun x => b.tileElem a row (2 * j + x))
              (fun x => b.tileElem u (128 * g + n) (2 * j + x)) (fun i => (k.cell (p + i) n).toInt))
          else k.cell r n

/-- R262, R266, R267, R276, R287–R291, R294: LDSTAT, the streaming commands and SCACC when they complete, and the steps FILL, STREAM and
SCALE. -/
def Obligations.MatrixProducts : Prop :=
  Claims.PlaneLoad ∧ Claims.StreamedProducts ∧ Claims.MatrixCommands ∧ Claims.PumpedMultiply ∧ Claims.PumpedScale

/-- R196, R208, R299: a multicast without objects all of whose rows have been read first delivers to destinations the rows that they have still
to receive: the first such row's destination receives all of its own, in order, and others may; the bytes of a delivered row stand in its
destination block's scratchpad, its granules full, and no other byte or granule changes; the rows not delivered are kept and the command
stays. -/
def Claims.LateRows : Prop :=
  ∀ (s : State) (core : Nat) (cmd : Cmd) (rest : List Cmd) (b : Block) (d : Nat) (so : Word64) (ts : BitVec 128) (mask : BitVec 8)
    (base : Nat),
    AtHead s core true cmd rest b → cmd.kind = .cpmcast d so ts mask base → so.toNat / 2 ^ 32 = 0xFFFFFFFF →
    cmd.next = cmd.kind.total → cmd.late ≠ [] →
    ∃ (t : State) (now : Nat → Bool), exec (.engineCommandCompletion core true) s = .next t
      ∧ (∀ e, cmd.late.head? = some e → now e.1 = true)
      ∧ (t.core core).copyq
          = { cmd with late := cmd.late.filter (fun e => (Table.find cmd.dests e.1).isSome && !now e.1) } :: rest
      ∧ (∀ u, s.rowsReceived t u
          ((cmd.late.filter (fun e => now e.1 && Table.find cmd.dests e.1 == some u)).map (fun e => e.2)))
      ∧ t.slices = s.slices ∧ t.mem = s.mem ∧ (∀ n, n ≠ core → t.core n = s.core n)

/-- R272, R294–R299: a command of the pump or of the copy queue all of whose steps are done, and of whose rows no destination has one still to
receive, completes, EN falls, and no block, plane, cell or memory changes. -/
def Claims.SteppedCompletion : Prop :=
  ∀ (s : State) (core : Nat) (copy : Bool) (cmd : Cmd) (rest : List Cmd) (b : Block),
    AtHead s core copy cmd rest b → (copy = true ∨ cmd.kind.pump ≠ 0) → cmd.next = cmd.kind.total → cmd.late = [] →
    ∃ t, exec (.engineCommandCompletion core copy) s = .next t ∧ Completed s t core copy cmd rest
      ∧ t.mem = s.mem ∧ t.blocks = s.blocks ∧ (t.core core).acc = (s.core core).acc

/-- R272, R291, R294–R299: the steps of MXTILE and SCTILE, and the completion of stepped commands. -/
def Obligations.PumpedCommands : Prop :=
  Claims.PumpedMultiply ∧ Claims.PumpedScale ∧ Claims.LateRows ∧ Claims.SteppedCompletion

/-- R272, R296, R297: COPY, and COPY_QUEUE_STEP for CPCOPY, move at most 2,048 bytes: within the scratchpad the destination bytes become the
source's, every other byte stays, and one step is counted. -/
def Claims.ScratchCopies : Prop :=
  ∀ (s : State) (core : Nat) (cmd : Cmd) (rest : List Cmd) (b : Block) (src dst n : Nat),
    0x7FFFFF0000000000 + src + n ≤ 0x7FFFFF0100000000 → 0x7FFFFF0000000000 + dst + n ≤ 0x7FFFFF0100000000 → 0 < n →
    cmd.next < cmd.kind.total → (∀ g, src / 16 ≤ g → g ≤ (src + n - 1) / 16 → Sparse.get false b.poison g = false) →
    let moved (copy : Bool) (t : State) : Prop := Stepped s t core copy cmd rest ∧ t.mem = s.mem
      ∧ ∃ y, Table.find t.blocks cmd.block = some y
        ∧ ∀ o, Sparse.get 0 y.scratch o =
            if dst ≤ o ∧ o < dst + n then Sparse.get 0 b.scratch (src + (o - dst)) else Sparse.get 0 b.scratch o
    (∀ (td ts : BitVec 128) (d u : Tile), AtHead s core false cmd rest b → cmd.kind = .cptile td ts → tileOf td = some d →
      tileOf ts = some u →
      let r := cmd.next / rowSteps u
      let o := cmd.next % rowSteps u * 2048
      u.row r + o = 0x7FFFFF0000000000 + src → d.row r + o = 0x7FFFFF0000000000 + dst → n = min 2048 (u.rb - o) →
      ∃ t, exec (.copy core) s = .next t ∧ moved false t)
    ∧ (∀ (a e : Word64) (len : Nat), AtHead s core true cmd rest b → cmd.kind = .cpcopy a e len →
      e.toNat + cmd.next * 2048 = 0x7FFFFF0000000000 + src → a.toNat + cmd.next * 2048 = 0x7FFFFF0000000000 + dst →
      n = min 2048 (len - cmd.next * 2048) →
      ∃ t, exec (.copyQueueStep core) s = .next t ∧ moved true t)

/-- R276, R283: what a step of an engine reads: from the scratchpad, without a poisoned word, its bytes; from memory, within one page that the
block's function may read and without a poisoned line, and where every write there is one that the command must see, the bytes at the
page's physical address. -/
def Claims.EngineReads : Prop :=
  ∀ (s : State) (r : Reader) (b : Block) (site a n : Nat), 0 < n →
    (0x7FFFFF0000000000 ≤ a → a + n ≤ 0x7FFFFF0100000000 →
      (∀ g, (a - 0x7FFFFF0000000000) / 16 ≤ g → g ≤ (a - 0x7FFFFF0000000000 + n - 1) / 16 → Sparse.get false b.poison g = false) →
      s.engRead r b.vf b.core b site a n
        = .ok ((List.range n).map (fun i => Sparse.get 0 b.scratch (a - 0x7FFFFF0000000000 + i))))
    ∧ (∀ x, regionOf a = .virt → a % 65536 + n ≤ 65536 → s.translate b.vf (s.tlbOf b.core) site a .read = .ok x →
      s.linePoisoned x.pa n = false → s.upToDate { r with site := r.site.toward s b.vf } (Loc.inBytes x.pa n) →
      s.engRead r b.vf b.core b site a n = .ok (s.readBytes (s.keyTag b.vf) x.pa n))

/-- R272, R296, R297: the steps of CPTILE and CPCOPY from wherever they read to wherever they write, other chips apart: the bytes that the step
reads stand, in order, at its destination, in the scratchpad with their granules full, or at the physical address of the destination's page
where the block's function may write it; no other byte changes, and one step is counted. -/
def Claims.MemoryCopies : Prop :=
  ∀ (s : State) (core : Nat) (cmd : Cmd) (rest : List Cmd) (b : Block) (src dst n : Nat) (bs : List Byte),
    cmd.next < cmd.kind.total → noPod src n → 0 < n →
    s.engRead (cmd.reader b) b.vf core b 70000 src n = .ok bs →
    let moved (copy : Bool) (i : Instr) : Prop :=
      (∀ o, dst = 0x7FFFFF0000000000 + o → dst + n ≤ 0x7FFFFF0100000000 →
        ∃ t, exec i s = .next t ∧ Stepped s t core copy cmd rest ∧ t.mem = s.mem ∧ s.rowsReceived t cmd.block [(o, bs)])
      ∧ (∀ y, regionOf dst = .virt → dst % 65536 + n ≤ 65536 → s.translate b.vf (s.tlbOf core) 80000 dst .write = .ok y →
        ∃ t, exec i s = .next t ∧ Stepped s t core copy cmd rest ∧ t.blocks = s.blocks
          ∧ ∀ p, t.readByte (s.keyTag b.vf) p = storedOver [(y.pa, bs)] p (s.readByte (s.keyTag b.vf) p))
    (∀ (td ts : BitVec 128) (d u : Tile), AtHead s core false cmd rest b → cmd.kind = .cptile td ts → tileOf td = some d →
      tileOf ts = some u →
      let r := cmd.next / rowSteps u
      let o := cmd.next % rowSteps u * 2048
      u.row r + o = src → d.row r + o = dst → n = min 2048 (u.rb - o) → moved false (.copy core))
    ∧ (∀ (a e : Word64) (len : Nat), AtHead s core true cmd rest b → cmd.kind = .cpcopy a e len →
      e.toNat + cmd.next * 2048 = src → a.toNat + cmd.next * 2048 = dst → n = min 2048 (len - cmd.next * 2048) →
      moved true (.copyQueueStep core))

/-- R296, R298: COPY_QUEUE_STEP for CPTR writes one row of the transpose to the scratchpad: element c of row r is element r of the source's
row c, as a bit pattern; no other byte changes, and one step is counted. -/
def Claims.TransposeSteps : Prop :=
  ∀ (s : State) (core : Nat) (cmd : Cmd) (rest : List Cmd) (b : Block) (td ts : BitVec 128) (d u : Tile) (x : Nat → List Byte),
    AtHead s core true cmd rest b → cmd.kind = .cptr td ts → tileOf td = some d → tileOf ts = some u → cmd.next < d.rows →
    let w := u.fmt.width / 8
    (∀ i, i < u.rows → noPod (u.addr i cmd.next) w
      ∧ s.engRead (cmd.reader b) b.vf core b (70000 + 1024 * i) (u.addr i cmd.next) w = .ok (x i)) →
    ∃ t, exec (.copyQueueStep core) s = .next t ∧ Stepped s t core true cmd rest ∧ t.mem = s.mem
      ∧ s.rowsReceived t cmd.block [(d.row cmd.next - 0x7FFFFF0000000000, (List.range u.rows).flatMap x)]

/-- R207, R208, R299: COPY_QUEUE_STEP for CPMCAST without objects reads one row of the source once, and each destination that its mask names and
that takes it receives it in this step or later: the bytes of a row that is delivered stand in the destination block's scratchpad, at SO's
offset from SCRBASE and the row's place, its granules full; the rest is kept; and a destination that cannot take it is undelivered. -/
def Claims.MulticastSteps : Prop :=
  ∀ (s : State) (core : Nat) (cmd : Cmd) (rest : List Cmd) (b : Block) (r : Nat) (so : Word64) (ts : BitVec 128) (mask : BitVec 8)
    (base : Nat) (u : Tile) (bs : List Byte),
    AtHead s core true cmd rest b → cmd.kind = .cpmcast r so ts mask base → tileOf ts = some u → so.toNat / 2 ^ 32 = 0xFFFFFFFF →
    mask ≠ 0 → cmd.next < u.rows → s.engRead (cmd.reader b) b.vf core b 70000 (u.row cmd.next) u.rb = .ok bs →
    let off := so.toNat % 2 ^ 32 + base
    let dests := if cmd.next = 0 then s.mcastDests core b.gid mask else cmd.dests
    let takes (i : Nat) : Bool := match Table.find dests i with
      | none => false
      | some v => (match Table.find s.blocks v with
        | none => false
        | some y => decide (off + u.rows * u.rb ≤ y.scratchSize) && !cmd.undelivered.getLsbD i)
    let sent := cmd.late ++ ((List.range 8).filter takes).map (fun i => (i, off + cmd.next * u.rb, bs))
    ∃ (t : State) (now : Nat → Bool) (h : Cmd), exec (.copyQueueStep core) s = .next t
      ∧ (t.core core).copyq = h :: rest ∧ h.next = cmd.next + 1 ∧ h.dests = dests
      ∧ (∀ i, i < 8 → h.undelivered.getLsbD i = (cmd.undelivered.getLsbD i || mask.getLsbD i && !takes i))
      ∧ h.late = sent.filter (fun e => (Table.find dests e.1).isSome && !now e.1)
      ∧ (∀ v, s.rowsReceived t v ((sent.filter (fun e => now e.1 && Table.find dests e.1 == some v)).map (fun e => e.2)))
      ∧ t.slices = s.slices ∧ t.mem = s.mem ∧ (∀ n, n ≠ core → t.core n = s.core n)

/-- R207, R208, R272, R283, R296–R299: the steps of the copies, within the scratchpad and with memory, of transposes and of multicasts. -/
def Obligations.CopySteps : Prop :=
  Claims.ScratchCopies ∧ Claims.EngineReads ∧ Claims.MemoryCopies ∧ Claims.TransposeSteps ∧ Claims.MulticastSteps

/-- R278, R279: when a window closes, GOVST rises by the cycles in which streaming work was held, which are none where no step was held, the
written GOVCFG takes effect, and the next window allows min(CAP, active + RAMP) active cycles, 256 with EN 0; after windows in which nothing
was streamed `active` is 0. That windows in which nothing was streamed close together with the one before, and that a window's held cycles are
any number up to what it left unstreamed, is the model's choice (log entry 29). -/
def Obligations.GovernorWindow : Prop :=
  ∀ (s : State) (core : Nat), (s.core core).window < s.now / 256 →
    let k := s.core core
    let a := if s.now / 256 = k.window + 1 then k.active else 0
    ∃ t h, exec (.governorWindow core) s = .next t
      ∧ h ≤ 256 - k.active ∧ (k.blocked = false → h = 0)
      ∧ t.core core = { k with
          window := s.now / 256, active := 0, held := h, blocked := false, govcfg := k.govNext, govst := k.govst + BitVec.ofNat 32 h
          budget := if k.govNext.getLsbD 25 then min (govCap k.govNext) (a + govRamp k.govNext) else 256 }
      ∧ (∀ n, n ≠ core → t.core n = s.core n) ∧ t.slices = s.slices ∧ t.mem = s.mem

/-- R185–R187: ABWAIT goes on, and stays at its word otherwise, as the object's phase bit differs from bit 0 of its operand; ABTEST
pushes that and goes on. A slice that sees the phase completed knows what its arrivals and counted bytes make known. -/
def Claims.BarrierObjectTests : Prop :=
  ∀ (s : State) (c : Ctx) (k : Ctl) (a b : SSrc) (o : Nat),
    AtRest s c → c.x.priv ≠ 1 → c.x.guardScalar k.guard = true →
    (c.val a).toNat = 0x7FFFFF0000000000 + o → o % 16 = 0 → o + 16 ≤ c.b.scratchSize → o < 2 ^ 32 → c.b.isPoisoned o = false →
    let passed := (Sparse.get 0 c.b.scratch o).getLsbD 0 != (c.val b).getLsbD 0
    (passed = false → exec (.abwait k a b) s = .next s ∧ exec (.abtest k a b) s = .next (s.withSlice { c.next with q := c.x.pushed false }))
    ∧ (passed = true → ∃ kn, (∀ p ∈ c.x.knows, p ∈ kn)
      ∧ (∀ m ∈ c.b.phaseDone o, s.shares m.site c.site m.scope = true → ∀ p ∈ m.knows, s.shares p.site c.site p.scope = true →
          { p with since := c.x.seq } ∈ kn)
      ∧ exec (.abwait k a b) s = .next (s.withSlice { c.next with knows := kn })
      ∧ exec (.abtest k a b) s = .next (s.withSlice { c.next with knows := kn, q := c.x.pushed true }))

/-- R22, R218, R250: ABARR with a failing guard updates nothing; with .REL it still orders what came before: the slice's earlier stores are
performed at its scope. -/
def Claims.BarrierArrivalSkipped : Prop :=
  ∀ (s : State) (c : Ctx) (k : Ctl) (a : SSrc) (scope : Scope) (rel : Bool) (bytes : Option SSrc),
    AtRest s c → c.x.guardScalar k.guard = false → c.x.cnt.st ≠ 63 → (rel = true → s.scopeDenied c.b.vf scope = false) →
    exec (.abarr k scope rel a bytes) s = .next ((if rel then { s with past := s.past.map (fun w =>
      if w.site.key = s.cur ∧ w.path = .ls ∧ w.loc.isByte = true ∧ w.seq < c.x.seq then
        { w with scope := widerScope w.scope scope } else w) }
      else s).withSlice c.next)

/-- R247, R303: ABINIT, ABARR and ABEXP at a 16-byte object of the scratchpad are counted under ST and go on; what they do to the object
happens when they are performed, and they may be the release writes of earlier fences. -/
def Claims.BarrierObjectUpdates : Prop :=
  ∀ (s : State) (c : Ctx) (k : Ctl) (a : SSrc) (o : Nat),
    AtRest s c → c.x.guardScalar k.guard = true → c.x.cnt.st ≠ 63 →
    (c.val a).toNat = 0x7FFFFF0000000000 + o → o % 16 = 0 → o + 16 ≤ c.b.scratchSize → o < 2 ^ 32 → c.b.isPoisoned o = false →
    let queued (kind : OpKind) (data : List Byte) (rel : Option Scope) : State :=
      s.withSlice { c.next with
        ops := [{ c.freshOp kind [⟨0, c.val a, none, data, [], [], false, none, false⟩] (rel.getD .block) false rel.isSome with
          outside := false }]
        seq := c.x.seq + 1, cnt := { c.x.cnt with st := c.x.cnt.st + 1 }, fences := [] }
    (∀ b, let n := (c.val b).toNat % 65536
      n ≠ 0 → exec (.abinit k a b) s =
        .next (queued (.abInit (BitVec.ofNat 16 n)) (leBytes 16 (2 + n * 2 ^ 32 + n * 2 ^ 48)) none))
    ∧ (∀ scope rel bytes, (rel = true → s.scopeDenied c.b.vf scope = false) →
      exec (.abarr k scope rel a bytes) s = .next (queued (.abUpdate true (match bytes with
        | none => 0
        | some b => ((c.val b).setWidth 40).toInt)) [] (if rel then some scope else none)))
    ∧ (∀ b, exec (.abexp k a b) s = .next (queued (.abUpdate false ((c.val b).setWidth 40).toInt) [] none))

/-- R302: an arrival with a byte count on a valid object with arrivals pending takes one arrival and adds the bytes; when both reach zero the
phase flips and the arrival count is restored; a sum outside 40 bits, which sets the error bit, is ruled out here. -/
def Claims.BarrierObjectArrival : Prop :=
  ∀ (g : BitVec 128) (n : Int),
    let arrivals := (g.extractLsb' 32 16).toNat
    let bytes := (g.extractLsb' 64 40).toInt + n
    g.getLsbD 1 = true → 1 ≤ arrivals → -(2 ^ 39) ≤ bytes → bytes < 2 ^ 39 →
    let r : BitVec 128 := BitVec.ofNat 128 (abUpdated g.toNat true n)
    let zero := arrivals = 1 ∧ bytes = 0
    abUpdated g.toNat true n < 2 ^ 128
    ∧ r.getLsbD 0 = (g.getLsbD 0 != decide zero) ∧ r.getLsbD 1 = true ∧ r.getLsbD 2 = g.getLsbD 2
    ∧ r.extractLsb' 32 16 = (if zero then g.extractLsb' 48 16 else BitVec.ofNat 16 (arrivals - 1))
    ∧ r.extractLsb' 48 16 = g.extractLsb' 48 16 ∧ r.extractLsb' 64 40 = BitVec.ofInt 40 bytes
    ∧ r.extractLsb' 104 24 = g.extractLsb' 104 24

/-- R185, R186, R302, R303: the words on barrier objects, and what an arrival does to one. -/
def Obligations.BarrierObjects : Prop :=
  Claims.BarrierObjectTests ∧ Claims.BarrierArrivalSkipped ∧ Claims.BarrierObjectUpdates ∧ Claims.BarrierObjectArrival

/-- R197, R224, R302, R303: the operations that act on one granule of the scratchpad when they are performed: FESET fills it, FECLR empties
it, an atomic without return combines its unit, ABINIT and the updates of a barrier object write its 16 bytes; ST falls. -/
def Obligations.GranuleOperations : Prop :=
  ∀ (s : State) (k : Nat) (c : Ctx) (o : MemOp) (a : LaneAcc) (off : Nat),
    Alone s k c o → o.lanes = [a] → a.got = none → (o.isHalves a = true → a.cmp = []) → a.pa = none → a.fwd = [] → a.addr.toNat = 0x7FFFFF0000000000 + off → off < 2 ^ 32 →
    let after (bytes : List Byte) (full : Option Bool) : Prop :=
      ∃ t b, exec (.storePerformed k o.seq 0) s = .next t
        ∧ (∃ y, Table.find t.slices k = some y ∧ (o.acq = false → y.knows = c.x.knows ∧ y.reads = c.x.reads ∧ y.lastRead = c.x.lastRead)
          ∧ y = { c.x with
              ops := [], cnt := { c.x.cnt with st := c.x.cnt.st - 1 }, knows := y.knows, reads := y.reads, lastRead := y.lastRead })
        ∧ (∀ j, j ≠ k → Table.find t.slices j = Table.find s.slices j) ∧ t.mem = s.mem
        ∧ Table.find t.blocks (keyBlock k) = some b
        ∧ (∀ x, Sparse.get 0 b.scratch x = storedOver [(off, bytes)] x (Sparse.get 0 c.b.scratch x))
        ∧ ∀ g, Sparse.get false b.full g = if g = off / 16 then full.getD (Sparse.get false c.b.full g) else Sparse.get false c.b.full g
    let old (n : Nat) : Nat := leNat (c.bytesAt a n)
    (o.kind = .feset → after [] (some true))
    ∧ (o.kind = .feclr → after [] (some false))
    ∧ (∀ op sz, o.kind = .atomic op sz none →
        after (leBytes sz.bytes (op.apply (8 * sz.bytes) (old sz.bytes) (leNat a.data) (leNat a.cmp))) none)
    ∧ (∀ n, o.kind = .abInit n → after a.data none)
    ∧ (∀ arrive n, o.kind = .abUpdate arrive n → after (leBytes 16 (abUpdated (old 16) arrive n)) none)

/-! ### The fabric (R402, R403, R407, R410–R417, R440) -/

/-- R412–R414: FSEND, FSEND.LAUNCH and FRECV whose checks pass become one operation counted under FB, with their operands as read at
issue, and the slice goes on; what they do happens at their completion. On a time-sliced chip they wait for a checkpoint first
(R367). -/
def Claims.FabricIssue : Prop :=
  ∀ (s : State) (c : Ctx) (i : Instr) (k : Ctl) (a b : SSrc) (ask : Option Ask) (kind : OpKind) (rel : Bool)
    (r : List (Nat × Nat × Option Xlat)),
    AtRest s c → c.fabricRule i = some (k, a, b, ask, kind, rel) → c.x.guardScalar k.guard = true → c.x.cnt.fb ≠ 63 →
    s.scopeDenied c.b.vf .pod = false → entryValid (s.chipEntry c.b.vf ((c.val a).toNat % 4096)) = true →
    (match ask with
      | none => r = []
      | some q => badForm q (c.val b).toNat = false ∧ c.check q [(0, (c.val b).toNat)] = .ok r) →
    (s.timeSliced c.b.vf = false ∨ c.x.forcedOk = true) →
    exec i s = .next ((s.fillTlb c.b.core (usedOf r)).withSlice { c.next with
      ops := [{ c.freshOp kind (r.map (fun p =>
        ⟨0, BitVec.ofNat 64 p.2.1, p.2.2.map (fun y => y.pa), [], [], [], false, none, false⟩)) .pod false rel with
          sent := s.podPaused c.b.vf }]
      seq := c.x.seq + 1, cnt := { c.x.cnt with fb := c.x.cnt.fb + 1 }, forcedOk := false })

/-- R415, R416: PODLD, PODST and PODRED whose addresses have the pod form, name members and are aligned become one operation counted
under FB, and hold their slice at the word until its targets have checked it; a word that a checkpoint has let through (R367)
goes on, its lanes placed where its checks had led. -/
def Claims.PodIssue : Prop :=
  ∀ (s : State) (c : Ctx) (i : Instr) (k : Ctl) (uses : List VUse) (w : MemWord),
    AtRest s c → c.podRule i = some (k, uses, w) → c.fits uses → c.x.cnt.fb ≠ 63 → s.scopeDenied c.b.vf w.mem.scope = false →
    c.memAccesses k w ≠ [] → c.podForm w.ask (c.memAccesses k w) = .ok () →
    let lanes := (c.memAccesses k w).map (c.podFresh w)
    let placed := if c.x.forcedOk then lanes.map (fun a => { a with pa := c.podPlace w.ask.want a }) else lanes
    let op : MemOp := c.freshOp w.kind placed w.mem.scope (ordAcq w.mem.ord) (ordRel w.mem.ord)
    let y : Slice := if c.x.forcedOk then c.next else c.x
    exec i s = .next (s.withSlice { y with
      ops := [{ op with checked := c.x.forcedOk }], seq := c.x.seq + 1, cnt := { c.x.cnt with fb := c.x.cnt.fb + 1 }, forcedOk := false
      fences := if w.kind.carries then [] else c.x.fences
      hold := if c.x.forcedOk then (if k.m && w.kind.isLong then .parked else c.x.hold) else .pod c.x.seq s.ir })

/-- R416: when the checks at a pod word's targets have passed, the slice goes on at the next word and the operation is ready to be
performed, with the places that its lanes' checks gave; the word's M bit parks a PODLD (R30); and the packet to each chip of this module
raises the counts of its link (R407). -/
def Claims.PodChecked : Prop :=
  ∀ (s : State) (k n : Nat) (c : Ctx) (o : MemOp) (word : Word64) (remote : Option RemoteResult) (ls : List LaneAcc),
    s.ctx k = some c → c.x.splice = none → c.x.pend = [] → c.x.poisonDue = [] → c.x.op? n = some o → o.seq = n →
    (match o.kind with
      | .podLoad _ _ | .podStore _ | .podRed _ _ => True
      | _ => False) →
    s.podPaused c.b.vf = false → o.checked = false → c.x.hold = .pod n word → c.podCheck o remote = some (.ok ls) →
    (o.kind.isPodWrite = true → s.timeSliced c.b.vf = false ∨ c.x.forcedOk = true) →
    ∃ t, exec (.podAccess k n remote 0) s = .next t
      ∧ Table.find t.slices k = some { c.x with
          pc := c.x.pc + 8, issued := c.x.issued + 1
          ops := c.x.ops.map (fun p => if p.seq = n then { p with checked := true, lanes := ls } else p)
          hold := if word.getLsbD 63 && c.x.longOut then .parked else .none }
      ∧ (∀ j, j ≠ k → Table.find t.slices j = Table.find s.slices j) ∧ t.blocks = s.blocks ∧ t.mem = s.mem ∧ t.dies = s.dies
      ∧ (∀ v, t.chip v = { s.chip v with sendCount := (t.chip v).sendCount, acceptCount := (t.chip v).acceptCount })
      ∧ ∀ a ∈ o.lanes, ∀ t0, s.target c.b.vf a.dst = .here t0 →
          Table.getD (t.chip t0).acceptCount (s.vchipOf c.b.vf) 0 = s.nextCount c.b.vf a.dst
            ∧ Table.getD (t.chip c.b.vf).sendCount a.dst 0 = s.nextCount c.b.vf a.dst

/-- R224, R416, R417: a checked pod access to a chip of this module is performed, even while its chip's traffic is paused (R405): a PODST's
bytes stand at the physical address that the destination chip's tables give the address's offset, in that chip's memory; a PODRED combines
the unit there with its operand; every other byte reads as before to that chip; and FB falls. A PODLD that must see the latest writes of
its bytes receives those where its check led, extended as the access size says, memory stays, and FB falls. -/
def Claims.PodPerformed : Prop :=
  ∀ (s : State) (k : Nat) (c : Ctx) (o : MemOp) (a : LaneAcc) (remote : Option RemoteResult) (t0 : Nat),
    Alone s k c o → o.lanes = [a] → o.checked = true → a.got = none → a.poisoned = false → c.podBlocked o = none →
    let dst := a.addr.toNat / 2 ^ 44 % 2 ^ 12
    s.target c.b.vf dst = .here t0 →
    let key := s.keyTag t0
    let writes (x : Xlat) (bs : List Byte) : Prop := ∃ t, exec (.podAccess k o.seq remote 0) s = .next t
      ∧ Table.find t.slices k = some { c.x with ops := [], cnt := { c.x.cnt with fb := c.x.cnt.fb - 1 } }
      ∧ (∀ j, j ≠ k → Table.find t.slices j = Table.find s.slices j) ∧ t.blocks = s.blocks
      ∧ ∀ p, t.readByte key p = storedOver [(x.pa, bs)] p (s.readByte key p)
    (∀ sz x, o.kind = .podStore sz → a.data ≠ [] →
      s.translate t0 (s.chipTlb t0) (laneSite a.lane + 128) (a.addr.toNat % 2 ^ 44) .write = .ok x → writes x a.data)
    ∧ (∀ op sz x, o.kind = .podRed op sz →
      s.translate t0 (s.chipTlb t0) (laneSite a.lane + 128) (a.addr.toNat % 2 ^ 44) .atomic = .ok x →
      writes x (leBytes sz.bytes (op.apply (8 * sz.bytes) (leNat (s.readBytes key x.pa sz.bytes)) (leNat a.data) 0)))
    ∧ (∀ d sz pa, o.kind = .podLoad d sz → a.pa = some pa → s.linePoisoned pa sz.bytes = false →
      s.upToDate { c.reader .fb o.scope o.seq with site := { c.site with die := entryDie (s.chipEntry c.b.vf dst) } }
        (Loc.inBytes pa sz.bytes) →
      ∃ t y, exec (.podAccess k o.seq remote 0) s = .next t ∧ Table.find t.slices k = some y
        ∧ (∀ j, j ≠ k → Table.find t.slices j = Table.find s.slices j) ∧ t.blocks = s.blocks ∧ t.mem = s.mem
        ∧ y.ops = [] ∧ y.cnt = { c.x.cnt with fb := c.x.cnt.fb - 1 } ∧ y.hold = .none ∧ y.pc = c.x.pc
        ∧ ∀ n l, l < 4 → y.lands (.v n l)
            ((if a.lane = l ∧ c.x.live.toNat.testBit l = true ∧ d ≤ n ∧ n < d + sz.regs then
              loadedPart sz (leNat (s.readBytes key pa sz.bytes)) (n - d)
            else c.x.vreg n l).setWidth 64))

/-- R224, R407, R412–R417: fabric and pod words, and how a pod access goes on and is performed. -/
def Obligations.FabricWords : Prop :=
  Claims.FabricIssue ∧ Claims.PodIssue ∧ Claims.PodChecked ∧ Claims.PodPerformed

/-- R413: an operation whose packet has returned its status completes: D receives the code as a completion result (R29), FB falls, and
memory stays. -/
def Claims.FabricStatus : Prop :=
  ∀ (s : State) (k n code : Nat) (c : Ctx) (o : MemOp) (remote : Option RemoteResult) (h : o.kind.result < 64),
    s.ctx k = some c → c.x.op? n = some o → o.status = some code →
    ∃ t, exec (.fabricCompletion k n remote) s = .next t ∧ t.mem = s.mem
      ∧ (∀ j, j ≠ k → Table.find t.slices j = Table.find s.slices j)
      ∧ Table.find t.slices k = some { c.x with
          s := c.x.s.set o.kind.result (BitVec.ofNat 64 code) h
          stale := c.x.stale ++ [⟨o.kind.result, c.x.sreg o.kind.result, false, 0⟩]
          ops := c.x.ops.filter (fun e => e.seq != n), cnt := { c.x.cnt with fb := c.x.cnt.fb - 1 } }

/-- R410, R414: FRECV into the scratchpad from a cistern of the chip delivers 2 for a link without a valid cistern, 1 for an empty one, and
else 0: the 64 bytes of the entry at RIDX stand at its destination, RIDX rises by one, and no other byte changes. -/
def Claims.FabricReceive : Prop :=
  ∀ (s : State) (k : Nat) (c : Ctx) (o : MemOp) (a : LaneAcc) (link : BitVec 12) (dst : Word64) (d off : Nat) (hd : d < 64)
    (x : Xlat) (remote : Option RemoteResult),
    Alone s k c o → o.lanes = [a] → o.kind = .frecv link dst d → o.status = none → a.pa = none →
    a.addr.toNat = 0x7FFFFF0000000000 + off → off + 64 ≤ 2 ^ 32 →
    s.fabricXlat c.b.vf 62000 (s.cisternAt c.b.vf link.toNat) .read = .ok x → s.linePoisoned x.pa 64 = false →
    let key := s.keyTag c.b.vf
    let h := BitVec.ofNat 512 (leNat (s.readBytes key x.pa 64))
    let ridx := h.extractLsb' 128 32
    let widx := h.extractLsb' 160 32
    let done (t : State) (code : Nat) : Prop :=
      exec (.fabricCompletion k o.seq remote) s = .next t
      ∧ ∃ kn, (code ≠ 0 → kn = c.x.knows) ∧ (∀ p ∈ c.x.knows, p ∈ kn) ∧ Table.find t.slices k = some { c.x with
          s := c.x.s.set d (BitVec.ofNat 64 code) hd, stale := c.x.stale ++ [⟨d, c.x.sreg d, false, 0⟩], knows := kn
          ops := [], cnt := { c.x.cnt with fb := c.x.cnt.fb - 1 } }
    let noLink := h.getLsbD 0 = false ∨ badCistern h = true
    (noLink → ∃ t, done t 2 ∧ t.mem = s.mem ∧ t.blocks = s.blocks)
    ∧ (¬ noLink → widx = ridx → ∃ t, done t 1 ∧ t.mem = s.mem ∧ t.blocks = s.blocks)
    ∧ (∀ y z : Xlat, ¬ noLink → widx ≠ ridx → s.fabricXlat c.b.vf 62000 (s.cisternAt c.b.vf link.toNat) .write = .ok z →
        s.fabricXlat c.b.vf 62300 (cisternEntry h ridx.toNat) .read = .ok y → s.linePoisoned y.pa 64 = false →
        ∃ t b, done t 0 ∧ Table.find t.blocks (keyBlock k) = some b
          ∧ (∀ e, Sparse.get 0 b.scratch e = storedOver [(off, s.readBytes key y.pa 64)] e (Sparse.get 0 c.b.scratch e))
          ∧ ∀ p, t.readByte key p = storedOver [(x.pa + 16, leBytes 4 (ridx + 1).toNat)] p (s.readByte key p))

/-- R407, R411: a message from outside the module for a chip of its pod, sealed under the link's key for that chip and with a count above the last accepted one, enters the
cistern of its source: a cistern with room receives the 64 payload bytes at the entry of WIDX, and WIDX rises by one; a full
one changes no byte; the count is the last accepted one from then on. A message under another pod's identifier, which fails authentication
with it (R406), is dropped. -/
def Claims.FabricIngress : Prop :=
  ∀ (s : State) (f : Fin 64) (msg : FabMsg) (x : Xlat),
    msg.sender = none → (s.frec f.val).getLsbD 0 = true →
    (s.podOf f.val ≠ msg.podid.toNat → exec (.fabricIngress f msg) s = .next (s.dropPacket f.val msg.src.toNat))
    ∧ (s.podOf f.val = msg.podid.toNat → msg.key = s.linkKey f.val msg.src.toNat → s.vchipOf f.val = msg.dst.toNat →
    Table.getD (s.chip f.val).acceptCount msg.src.toNat 0 < msg.count.toNat →
    s.fabricXlat f.val 62000 (s.cisternAt f.val msg.src.toNat) .read = .ok x →
    s.inUndo f.val x.pa 64 = false → s.linePoisoned x.pa 64 = false →
    let key := s.keyTag f.val
    let h := BitVec.ofNat 512 (leNat (s.readBytes key x.pa 64))
    let widx := h.extractLsb' 160 32
    let held := widx - h.extractLsb' 128 32
    h.getLsbD 0 = true → badCistern h = false →
    (held.toNat = 2 ^ (h.extractLsb' 8 5).toNat →
      ∃ t, exec (.fabricIngress f msg) s = .next t ∧ t.mem = s.mem
        ∧ Table.getD (t.chip f.val).acceptCount msg.src.toNat 0 = msg.count.toNat)
    ∧ (∀ y z : Xlat, held.toNat ≠ 2 ^ (h.extractLsb' 8 5).toNat → (h.getLsbD 1 = true → held ≠ 0) →
      s.fabricXlat f.val 62000 (s.cisternAt f.val msg.src.toNat) .write = .ok z →
      s.fabricXlat f.val 62300 (cisternEntry h widx.toNat) .write = .ok y → s.inUndo f.val y.pa 64 = false →
      ∃ t, exec (.fabricIngress f msg) s = .next t
        ∧ Table.getD (t.chip f.val).acceptCount msg.src.toNat 0 = msg.count.toNat
        ∧ ∀ p, t.readByte key p =
            storedOver [(y.pa, (msg.payload ++ List.replicate 64 0).take 64), (x.pa + 20, leBytes 4 (widx + 1).toNat)] p
              (s.readByte key p)))

/-- R385, R386: an accepted launch request from outside the module whose launch-table entry is valid and permits its source puts a LAUNCH
packet, with the entry's kernel and scopes and the request's argument, at WIDX of the entry's device-fed queue, and WIDX rises by one. -/
def Claims.LaunchIngress : Prop :=
  ∀ (s : State) (f : Fin 64) (req : LaunchReq) (die : Nat) (b : BitVec 128) (x : Xlat),
    req.sender = none → (s.frec f.val).getLsbD 0 = true → s.podOf f.val = req.podid.toNat → req.key = s.linkKey f.val req.src.toNat → s.vchipOf f.val = req.dst.toNat →
    Table.getD (s.chip f.val).acceptCount req.src.toNat 0 < req.count.toNat →
    let e := Table.getD (s.chip f.val).launchTab req.index.val 0
    let q := (e.extractLsb' 1 6).toNat
    let u := s.queue f.val q
    e.getLsbD 0 = true → (e.getLsbD 31 = true ∨ e.extractLsb' 32 12 = req.src) →
    s.bound f.val q = some (die, b) → bindDevq b = true → u.state ≠ .error → u.held ≠ 2 ^ u.size.toNat →
    u.slotAddr u.widx < 0x7FFFFF0000000000 →
    s.translate f.val (s.die die).tlb 94000 (u.slotAddr u.widx) .write = .ok x → s.inUndo f.val x.pa 64 = false →
    ∃ t, exec (.launchRequest f req) s = .next t
      ∧ Table.getD (t.chip f.val).acceptCount req.src.toNat 0 = req.count.toNat
      ∧ (t.queue f.val q).widx = u.widx + 1
      ∧ ∀ p, t.readByte (s.keyTag f.val) p =
          storedOver [(x.pa, leBytes 64 (1 + 2 ^ 10 + (e.extractLsb' 7 16).toNat * 2 ^ 16 + (e.extractLsb' 23 4).toNat * 2 ^ 32
            + (e.extractLsb' 27 4).toNat * 2 ^ 36 + req.args.toNat * 2 ^ 64))] p (s.readByte (s.keyTag f.val) p)

/-- R385, R386, R407, R410–R414: what arrives over the fabric, and the results of fabric operations. -/
def Obligations.FabricDelivery : Prop :=
  Claims.FabricStatus ∧ Claims.FabricReceive ∧ Claims.FabricIngress ∧ Claims.LaunchIngress

/-! ### Collectives (R418–R426) -/

/-- R418: CGRP whose descriptor is well formed, whose members are distinct, in the pod and hold its own chip, and whose slot has no
collective open, installs the group with the chip's rank and delivers 0; its reads of the descriptor and of each member change nothing else.
That the count of instances starts again from 0 is log entry 37. -/
def Claims.GroupInstalled : Prop :=
  ∀ (s : State) (c : Ctx) (k : Ctl) (d : SReg) (a b : SSrc) (bs : List Byte) (y z : Ctx) (ms : List Nat) (r : Nat),
    AtRest s c → c.x.guardScalar k.guard = true → c.readNow .core (c.val b).toNat 32 = .ok (bs, y) →
    let g : BitVec 256 := BitVec.ofNat 256 (leNat bs)
    let n := (g.extractLsb' 0 13).toNat
    let slot := (c.val a).toNat % 64
    g.extractLsb' 48 16 = 0 → g.extractLsb' 13 19 = 0 → 1 ≤ n → n ≤ 4096 →
    y.readMembers (g.extractLsb' 64 64).toNat n = .ok (ms, z) →
    (∀ m ∈ ms, m < 4096 ∧ entryValid (s.chipEntry c.b.vf m) = true) → ms.Nodup → ms[r]? = some (s.vchipOf c.b.vf) →
    (s.chip c.b.vf).collOpen slot = false →
    exec (.cgrp k d a b) s = .next ((z.s.modChip c.b.vf (fun h => { h with
        groups := Table.put h.groups slot ⟨g.extractLsb' 128 128, g.extractLsb' 32 16, ms, r, []⟩
        collCount := Table.put h.collCount slot 0 })).withSlice (z.next.withS d 0))
    ∧ c.readBy (n + 1) z

/-- R114, R420–R422: a collective word of the only slice of its block that lives, whose operands keep to R421 and that sees its tile descriptors as they stand, puts one command into the
collective engine with the next instance number of its group, EN rises, and the slice goes on; each command at the head of a die's queue
has a time from which its engine may grant it a slot (R425; log entry 124). On a time-sliced chip it waits for a checkpoint first (R367). -/
def Claims.CollectiveIssue : Prop :=
  ∀ (s : State) (c : Ctx) (i : Instr) (op : Nat) (k : Ctl) (td ts : TReg) (w ob : SSrc),
    AtRest s c → collRule i = some (op, k, td, ts, w, ob) → c.x.guardScalar k.guard = true → c.x.cnt.en ≠ 63 →
    s.scopeDenied c.b.vf .pod = false → c.collCheck op (c.b.tdesc[td]) (c.b.tdesc[ts]) (c.val w) ob = .ok () → c.tilesCurrent →
    c.b.meet = [] → (∀ e ∈ s.slices, keyBlock e.1 = keyBlock s.cur → e.1 = s.cur ∨ e.2.ended = true) →
    (s.timeSliced c.b.vf = false ∨ c.x.forcedOk = true) →
    let slot := (c.val w).toNat % 64
    let n := Table.getD (s.chip c.b.vf).collCount slot 0
    let bare (l : List CollCmd) : List CollCmd := l.map (fun e => { e with headAt := none })
    ∃ t, exec i s = .next t
      ∧ Table.find t.slices s.cur = some { c.next with
          hold := .none, forcedOk := false, cnt := { c.x.cnt with en := c.x.cnt.en + 1 } }
      ∧ (∀ j, j ≠ s.cur → Table.find t.slices j = Table.find s.slices j) ∧ t.mem = s.mem
      ∧ bare (t.chip c.b.vf).colls = bare ((s.chip c.b.vf).colls
          ++ [⟨slot, n, op, c.b.tdesc[td], c.b.tdesc[ts], c.val w, c.val ob, keyBlock s.cur, s.now, [s.cur], none⟩])
      ∧ (∀ e ∈ (t.chip c.b.vf).colls, t.collHead c.b.vf e = true → e.headAt ≠ none)
      ∧ Table.getD (t.chip c.b.vf).collCount slot 0 = n + 1

/-- R422–R426: an instance of a group of one chip, with a destination in the scratchpad and no wide wire, completes by the tree unless it
has missed its deadline, and after the deadline by the fallback kernel: the destination holds the source's rows, the granule behind its barrier object holds status 0, one
member and whether it was the fallback, the command is gone, and EN falls in the slice that counts it. That the tree ends no instance after
its deadline, and the fallback none before, is log entry 124. -/
def Claims.CollectiveEnds : Prop :=
  ∀ (s : State) (f slot : Fin 64) (remote : List RemoteMember) (fb : Bool) (g : Group) (k c : CollCmd) (m v j : Nat)
    (p : CollPart) (d : Tile) (x : Slice) (b : Block),
    Table.find (s.chip f.val).groups slot.val = some g → (s.chip f.val).colls.find? (fun e => e.slot == slot.val) = some k →
    g.members = [m] → s.podPaused f.val = false → s.collMember f.val g k.index 0 m remote fb = .here v c p → p.lost = false →
    (if fb then s.collLate [.here v c p] remote = true else s.collMissed [.here v c p] remote = false) → tileOf c.td = some d → 0x7FFFFF0000000000 ≤ d.base → s.collWritable v c d = true →
    Table.find s.blocks c.block = some b → p.op < 4 → collWide p.control = false → collRoot p.control = 0 → p.rows = d.rows →
    p.cols * (d.fmt.width / 8) = d.rb → p.source.length = d.rows → (∀ r ∈ p.source, r.length = d.rb) → 1 ≤ d.fmt.width / 8 →
    c.slices = [j] → Table.find s.slices j = some x →
    let off := c.obj.toNat % 2 ^ 32
    c.obj.toNat = 0x7FFFFF0000000000 + off →
    ∃ t y, exec (if fb then .collectiveFallback f slot remote else .collectiveCompletion f slot remote) s = .next t
      ∧ t.mem = s.mem ∧ Table.find t.slices j = some { x with cnt := { x.cnt with en := x.cnt.en - 1 } }
      ∧ (∀ e ∈ (t.chip v).colls, ¬ (e.slot = c.slot ∧ e.index = c.index)) ∧ Table.find t.blocks c.block = some y
      ∧ (∀ o, o < off ∨ off + 32 ≤ o → Sparse.get 0 y.scratch o =
          storedOver ((List.range d.rows).map (fun r => (d.row r - 0x7FFFFF0000000000, p.source.getD r []))) o
            (Sparse.get 0 b.scratch o))
      ∧ ∀ n, n < 16 → Sparse.get 0 y.scratch (off + 16 + n) = (leBytes 16 ((if fb then 2 ^ 8 else 0) + 2 ^ 16)).getD n 0

/-- R418–R426: groups, collective words, and how an instance ends. -/
def Obligations.Collectives : Prop :=
  Claims.GroupInstalled ∧ Claims.CollectiveIssue ∧ Claims.CollectiveEnds

/-! ### Queues and packets (R163–R167, R377–R387, R441) -/

/-- R384: QENQ at user level of 64 bytes that can be read delivers 2 for a queue that does not exist or is not device-fed, 3 for one in
ERROR, 1 for a full one, and else 0: the ring slot of WIDX holds the 64 bytes that source B names, loaded at TENANT scope, every other byte
reads as before, and WIDX rises by one. The slice's earlier writes are performed at TENANT scope. -/
def Claims.DeviceEnqueue : Prop :=
  ∀ (s : State) (c : Ctx) (k : Ctl) (d : SReg) (a b : SSrc) (r : List (Nat × Nat × Option Xlat)),
    AtRest s c → c.x.priv = 0 → c.x.guardScalar k.guard = true → s.scopeDenied c.b.vf .tenant = false →
    (s.timeSliced c.b.vf = false ∨ c.x.forcedOk = true) →
    let v := c.b.vf
    let q := (c.val a).toNat
    let u := s.queue v q
    let y := c.at (s.widen s.cur c.x.seq .tenant)
    y.check { want := .read, size := 64 } [(0, (c.val b).toNat)] = .ok r →
    let code (n : Word64) : Prop :=
      exec (.qenq k d a b) s = .next (y.s.withSlice { c.next.withS d n with forcedOk := false })
    (64 ≤ q ∨ s.bound v q = none ∨ (∃ e, s.bound v q = some e ∧ bindDevq e.2 = false) → code 2)
    ∧ ∀ die w, q < 64 → s.bound v q = some (die, w) → bindDevq w = true →
      (u.state = .error → code 3)
      ∧ (u.state ≠ .error → u.held = 2 ^ u.size.toNat → code 1)
      ∧ ∀ (bs : List Byte) (z : Ctx) (x0 x : Xlat),
          u.state ≠ .error → u.held ≠ 2 ^ u.size.toNat → u.slotAddr u.widx < 0x7FFFFF0000000000 →
          y.s.translate v (y.s.die die).tlb 94000 (u.slotAddr u.widx) .write = .ok x0 →
          y.readNow .tenant (c.val b).toNat 64 = .ok (bs, z) →
          z.s.translate v (z.s.die die).tlb 94000 (u.slotAddr u.widx) .write = .ok x →
          y.readBy 1 z ∧ ∃ t, exec (.qenq k d a b) s = .next t
            ∧ Table.find t.slices s.cur = some { z.next.withS d 0 with forcedOk := false }
            ∧ (t.queue v q).widx = u.widx + 1
            ∧ ∀ p, t.readByte (s.keyTag v) p = storedOver [(x.pa, bs)] p (s.readByte (s.keyTag v) p)

/-- R400–R402: EVPOST delivers 2 while the event log is off, 1 and a count in LOST when it is full, and else 0: the entry at WIDX holds an
event of KIND 2 with the word's code and data, its queue, its chip and generation, every other byte reads as before, and WIDX
rises by one. Through which tables the entry's address is translated is log entry 14 (DEDUCED). -/
def Claims.EventPosted : Prop :=
  ∀ (s : State) (c : Ctx) (k : Ctl) (scope : Scope) (d : SReg) (a b : SSrc),
    AtRest s c → c.x.priv ≤ 1 → c.x.guardScalar k.guard = true → s.scopeDenied c.b.vf scope = false → c.b.vf < 64 →
    (s.timeSliced c.b.vf = false ∨ c.x.forcedOk = true) →
    let v := c.b.vf
    let l := (s.chip v).log
    let full : Prop := (l.widx - l.ridx).toNat = 2 ^ l.size.toNat
    let done (t : State) (n : Word64) : Prop := exec (.evpost k scope d a b) s = .next t
      ∧ Table.find t.slices s.cur = some { c.next.withS d n with forcedOk := false } ∧ t.blocks = s.blocks
    let queue : Nat := match (c.grid?.map Grid.home : Option QRef) with
      | some (.vf _ q) => q.val
      | _ => 0
    (l.en = false → ∃ t, done t 2 ∧ t.mem = s.mem)
    ∧ (l.en = true → full → ∃ t, done t 1 ∧ t.mem = s.mem ∧ (t.chip v).log = { l with lost := l.lost + 1 })
    ∧ ∀ x : Xlat, l.en = true → ¬ full →
        s.translate v (s.die 0).tlb 20000 (l.base.toNat + 32 * (l.widx.toNat % 2 ^ l.size.toNat)) .write = .ok x →
        ∃ t, done t 0 ∧ (t.chip v).log.widx = l.widx + 1
          ∧ ∀ p, t.readByte (s.keyTag v) p = storedOver [(x.pa, leBytes 32
              (2 + (1 - l.widx.toNat / 2 ^ l.size.toNat % 2) * 2 ^ 8 + (c.val a).toNat % 2 ^ 16 * 2 ^ 48 + queue * 2 ^ 64
                + s.vchipOf v * 2 ^ 84 + l.gen.toNat * 2 ^ 96 + (c.val b).toNat * 2 ^ 192))] p (s.readByte (s.keyTag v) p)

/-- R384, R400–R402: the words with which a slice enqueues a packet and posts an event. -/
def Obligations.QueueWords : Prop := Claims.DeviceEnqueue ∧ Claims.EventPosted

/-- R377–R379, R430: a doorbell of a function that the host reaches writes WIDX and nothing else of the ring; more packets than slots put a
queue that is not DISABLED in ERROR, and a valid write sets an IDLE queue running; a device-fed queue ignores it, and so does a function
that the host does not reach. -/
def Claims.Doorbell : Prop :=
  ∀ (s : State) (f q : Fin 64) (w : BitVec 32),
    let u := s.queue f.val q.val
    let tooMany : Prop := 2 ^ u.size.toNat < (w - u.ridx).toNat
    (s.exposed (.vf f) = false → exec (.doorbell f q w) s = .next s)
    ∧ (∀ e, s.bindRecord f.val q.val = some e → bindDevq e.2.2 = true → exec (.doorbell f q w) s = .next s)
    ∧ (s.exposed (.vf f) = true → (∀ e, s.bindRecord f.val q.val = some e → bindDevq e.2.2 = false) →
      ∃ t, exec (.doorbell f q w) s = .next t
        ∧ (∃ st, t.queue f.val q.val = { u with widx := w, state := st }
          ∧ (u.state = .idle ∨ u.state = .running ∨ u.state = .stopped → tooMany → st = .error)
          ∧ (u.state = .idle → ¬ tooMany → w ≠ u.ridx → s.quiesced f.val = false → st = .running)
          ∧ (u.state = .stopped → ¬ tooMany → st = .stopped) ∧ (u.state = .error → st = .error)
          ∧ (u.state = .disabled → s.bound f.val q.val = none → st = .disabled))
        ∧ t.mem = s.mem ∧ t.slices = s.slices ∧ t.blocks = s.blocks ∧ t.grids = s.grids ∧ t.dies = s.dies)

/-- R378: RESET takes a queue out of ERROR, when no bind record waits to take effect: it is IDLE, RIDX takes WIDX, packets that were not
started are gone, those that run stay; a queue in another state is not changed, nor one of a function that the host does not reach. -/
def Claims.QueueReset : Prop :=
  ∀ (s : State) (f q : Fin 64),
    let u := s.queue f.val q.val
    (s.exposed (.vf f) = false → exec (.queueReset f q) s = .next s)
    ∧ (s.exposed (.vf f) = true → (∀ d, d < 4 → (s.die d).slotsNext = []) → ∃ t, exec (.queueReset f q) s = .next t ∧ t.mem = s.mem ∧ t.slices = s.slices
      ∧ (u.state ≠ .error → t.queue f.val q.val = u)
      ∧ (u.state = .error →
          (t.queue f.val q.val).state = .idle ∧ (t.queue f.val q.val).ridx = u.widx ∧ (t.queue f.val q.val).widx = u.widx
          ∧ ∀ n ∈ u.pkts, ∀ g, Table.find s.grids n = some g →
              (g.waits = true → Table.find t.grids n = none ∧ n ∉ (t.queue f.val q.val).pkts)
              ∧ (g.waits = false → Table.find t.grids n = some g ∧ n ∈ (t.queue f.val q.val).pkts)))

/-- R355, R356: a pre-emption request stops an IDLE or RUNNING queue at once when no packet of it is in progress; else it waits for them,
and the kernel watchdog of each that runs is armed with the queue's grace period; of a queue in ERROR it arms these watchdogs only. No bind
record waits to take effect. What a request does to an IDLE queue and to one in ERROR is log entry 79. -/
def Claims.Preemption : Prop :=
  ∀ (s : State) (f q : Fin 64),
    let u := s.queue f.val q.val
    let armed (t : State) : Prop :=
      ∀ n ∈ u.pkts, ∀ g, Table.find s.grids n = some g → g.state = .dispatching ∨ g.state = .draining → g.deadline = none →
        Table.find t.grids n = some { g with deadline := some (s.now + s.graceOf (.vf f q)) }
    (∀ d, d < 4 → (s.die d).slotsNext = []) → u.state = .idle ∨ u.state = .running ∨ u.state = .error →
    ∃ t, exec (.preemptionRequest f q) s = .next t ∧ t.mem = s.mem ∧ t.slices = s.slices ∧ t.blocks = s.blocks
      ∧ (u.state ≠ .error → s.inProgress (.vf f q) = false →
          (t.queue f.val q.val).state = .stopped ∧ (t.queue f.val q.val).preempt = false)
      ∧ (u.state ≠ .error → s.inProgress (.vf f q) = true → t.queue f.val q.val = { u with preempt := true } ∧ armed t)
      ∧ (u.state = .error → t.queue f.val q.val = u ∧ armed t)

/-- R359, R378: queue destruction leaves the queue DISABLED and unbound; its waiting packets end with STATUS 2, and of those that run
the undispatched blocks are dropped. -/
def Claims.Destruction : Prop :=
  ∀ (s : State) (f q : Fin 64),
    let u := s.queue f.val q.val
    ∃ t, exec (.queueDestruction f q) s = .next t ∧ t.mem = s.mem ∧ t.slices = s.slices ∧ t.blocks = s.blocks
      ∧ (t.queue f.val q.val).state = .disabled ∧ t.bindRecord f.val q.val = none
      ∧ ∀ n ∈ u.pkts, ∀ g, Table.find s.grids n = some g →
          (g.state = .waiting → g.producer = none → ∃ h, Table.find t.grids n = some h ∧ h.state = .killing ∧ h.status = 2)
          ∧ (g.state = .dispatching ∨ g.state = .draining →
              ∃ h, Table.find t.grids n = some h ∧ h.state = .killing ∧ h.status = 2 ∧ h.undisp = [] ∧ h.destroyed = true)

/-- R355–R359, R377–R379: what the host does to a queue. -/
def Obligations.QueueRequests : Prop := Claims.Doorbell ∧ Claims.QueueReset ∧ Claims.Preemption ∧ Claims.Destruction

/-- R163, R167, R378, R441: the queue core of a RUNNING queue reads the 64 bytes at RIDX: RIDX rises by one; a NOP is gone at once; any
other packet becomes a grid that waits, or ends with STATUS 5 when its format and with 6 when a scope is refused, which puts the queue in
ERROR. A steward queue's next packet enters likewise (R375), of a module whose boot has not failed (R432). The read returns the latest write
of each byte (log entry 111). -/
def Claims.PacketReads : Prop :=
  (∀ (s : State) (f q : Fin 64) (x : Xlat),
    let u := s.queue f.val q.val
    s.coreActs (.vf f q) = true → u.widx ≠ u.ridx → u.slotAddr u.ridx < 0x7FFFFF0000000000 →
    s.translate f.val (s.die (s.queueDie (.vf f q))).tlb 90000 (u.slotAddr u.ridx) .read = .ok x → s.linePoisoned x.pa 64 = false →
    let p := BitVec.ofNat 512 (leNat (s.readBytes (s.keyTag f.val) x.pa 64))
    let r := (s.recordOf (.vf f q) p).getD 0
    ∃ t, exec (.packetRead (.vf f q)) s = .next t ∧ t.mem = s.mem ∧ t.slices = s.slices ∧ t.blocks = s.blocks
      ∧ (t.queue f.val q.val).ridx = u.ridx + 1 ∧ (t.queue f.val q.val).widx = u.widx
      ∧ (p = 3 → t.grids = s.grids ∧ (t.queue f.val q.val).pkts = u.pkts)
      ∧ (p ≠ 3 → s.pktOk (.vf f q) p = false ∨ s.scopesOk f.val p r = false → (t.queue f.val q.val).state = .error)
      ∧ (p ≠ 3 → (t.queue f.val q.val).pkts = u.pkts ++ [s.dev.nextGid]
          ∧ ∃ g, Table.find t.grids s.dev.nextGid = some g
            ∧ g.home = .vf f q ∧ g.ctx = f.val ∧ g.idx = u.ridx.toNat ∧ g.pkt = p ∧ g.lrec = r ∧ g.undisp = []
            ∧ (s.pktOk (.vf f q) p = true → s.scopesOk f.val p r = true → g.state = .waiting ∧ g.status = 0)
            ∧ (s.pktOk (.vf f q) p = true → s.scopesOk f.val p r = false → g.state = .killing ∧ g.status = 6)
            ∧ (s.pktOk (.vf f q) p = false → g.state = .killing ∧ g.status = 5)))
  ∧ ∀ (s : State) (d : Fin 4) (p : BitVec 512) (ps : List (BitVec 512)),
      s.dev.shutdown = false → s.bootFailed = false → (s.die d.val).steward = p :: ps → p ≠ 3 →
      ∃ t g, exec (.packetRead (.steward d)) s = .next t ∧ (t.die d.val).steward = ps ∧ t.mem = s.mem
        ∧ Table.find t.grids s.dev.nextGid = some g ∧ g.home = .steward d ∧ g.pkt = p
        ∧ (t.die d.val).stewardPkts = (s.die d.val).stewardPkts ++ [s.dev.nextGid]

/-- R164, R165, R167, R441: the load of WAITADDR lets a waiting packet go on when the 64-bit value there has reached WAITVAL; a refused
scope ends it with STATUS 6 and an address that does not translate with STATUS 4, and either puts its queue in ERROR. The load returns the
latest write (log entry 111). -/
def Claims.WaitLoads : Prop :=
  ∀ (s : State) (gid : Nat) (g : Grid),
    Table.find s.grids gid = some g → g.waits = true → s.coreActs g.home = true → pktWaitAddr g.pkt ≠ 0 →
    let failed (t : State) (status : Nat) : Prop :=
      exec (.waitaddrLoad gid) s = .next t
      ∧ (∃ h, Table.find t.grids gid = some h ∧ h.state = .killing ∧ h.status = status)
      ∧ ∀ f q, g.home = .vf f q → (t.queue f.val q.val).state = .error
    (s.scopesOk g.ctx g.pkt g.lrec = false → ∃ t, failed t 6)
    ∧ (∀ l, s.scopesOk g.ctx g.pkt g.lrec = true → pktWaitAddr g.pkt < 0x7FFFFF0000000000 →
        s.translate g.ctx (s.die (s.queueDie g.home)).tlb 91000 (pktWaitAddr g.pkt) .read = .error (.stage1 l) → ∃ t, failed t 4)
    ∧ ∀ x : Xlat, s.scopesOk g.ctx g.pkt g.lrec = true → pktWaitAddr g.pkt < 0x7FFFFF0000000000 →
        s.translate g.ctx (s.die (s.queueDie g.home)).tlb 91000 (pktWaitAddr g.pkt) .read = .ok x → s.linePoisoned x.pa 8 = false →
        ∃ t, exec (.waitaddrLoad gid) s = .next t ∧ t.mem = s.mem ∧ t.slices = s.slices ∧ t.blocks = s.blocks
          ∧ Table.find t.grids gid =
              some (if pktWaitVal g.pkt ≤ leNat (s.readBytes (s.keyTag g.ctx) x.pa 8) then { g with waitOk := true, msgs := g.msgs ++ s.waitReleases g } else g)

/-- R160, R164, R165, R166, R381, R383: a packet whose start conditions hold starts, with an acquire: a BARRIER drains; the blocks of a
LAUNCH that is not spliced are shared out over the dies of its chips when a unit of them fits an idle core, a gang launch with the next
ticket of its line, and it ends with STATUS 6 when none does (log entry 84), which puts its queue in ERROR. -/
def Claims.PacketStarts : Prop :=
  ∀ (s : State) (gid : Nat) (g : Grid),
    Table.find s.grids gid = some g → s.mayStart gid g = true → s.scopesOk g.ctx g.pkt g.lrec = true →
    (pktType g.pkt ≠ 1 ∨ recSplice g.lrec = 0) →
    let h := { g with podChips := s.podChipsFor g }
    ∃ t, exec (.packetStart gid) s = .next t ∧ t.mem = s.mem ∧ t.slices = s.slices ∧ t.blocks = s.blocks
      ∧ (pktType g.pkt ≠ 1 → Table.find t.grids gid = some { g with
          state := .draining, startedAt := s.now, knows := s.startAcquire g })
      ∧ (pktType g.pkt = 1 → s.placeable h = true →
          Table.find t.grids gid = some { h with
            state := .dispatching, startedAt := s.now, undisp := s.sharesOf h, knows := s.startAcquire h
            ticket := if s.isGang g.home then some s.dev.nextTicket else g.ticket })
      ∧ (pktType g.pkt = 1 → s.placeable h = false →
          (∃ e, Table.find t.grids gid = some e ∧ e.state = .killing ∧ e.status = 6)
          ∧ ∀ f q, g.home = .vf f q → (t.queue f.val q.val).state = .error)

/-- R163–R167, R381, R441: a packet is read, waits and starts. -/
def Obligations.QueueCores : Prop := Claims.PacketReads ∧ Claims.WaitLoads ∧ Claims.PacketStarts

/-! ### Blocks (R149–R153, R318, R340, R354–R359, R380–R383) -/

/-- R149, R150, R160, R380, R381: a distributor whose grid may dispatch at its turn, with a place on the block's chip that takes a block, dispatches its lowest block: the block
and its eight slices per squad, as the launch record gives them, stand at the place, and the block is no longer undispatched. A block of
another chip waits for that chip's time slice, and a grid on several chips for a checkpoint of its queue's chip (log entry 41). -/
def Claims.Dispatch : Prop :=
  ∀ (s : State) (gid : Nat) (die : Fin 4) (g : Grid) (p : Placement) (lo hi : Nat) (rs : List (Nat × Nat)),
    Table.find s.grids gid = some g → s.mayDispatch g = true → s.isGang g.home = false → s.prioOk g die.val = true →
    s.turnOk g die.val = true → Table.getD g.undisp die.val [] = (lo, hi) :: rs → lo < hi → g.together = 1 →
    coreDie p.core = die.val → (s.chipClusters g (g.chipOf lo)).contains (coreCluster p.core) = true →
    s.placeOk g (g.block gid lo p) p = true → s.setOk g lo p.core = true → s.chipsRun g [lo] = true → s.startKept gid g = true →
    let uid := s.dev.nextUid
    ∃ t h, exec (.blockDispatch gid die [p]) s = .next t ∧ t.mem = s.mem ∧ t.dev.nextUid = uid + 1
      ∧ Table.find t.blocks uid = some (g.block gid lo p)
      ∧ (∀ u, u ≠ uid → Table.find t.blocks u = Table.find s.blocks u)
      ∧ (∀ q sl, q < recSquads g.lrec → sl < 8 → Table.find t.slices (keyOf uid q sl) =
          some { g.slice q sl with ended := createdLanes g.lrec q sl == 0 })
      ∧ Table.find t.grids gid = some h ∧ Table.getD h.undisp die.val [] = if lo + 1 < hi then (lo + 1, hi) :: rs else rs

/-- R382: a distributor without blocks takes, in whole chunk units, half the undispatched blocks of the next die that has any, and none
when that die has fewer than two units. Of blocks in ascending order the highest-numbered move. That it takes none either when a block it
would take is of a chip that has no cluster on its die, follows the model's spread of a POD level (log entry 41). -/
def Claims.Steal : Prop :=
  ∀ (s : State) (gid : Nat) (die : Fin 4) (g : Grid) (d : Nat),
    Table.find s.grids gid = some g → s.mayDispatch g = true → s.isGang g.home = false →
    (s.diesFor g).contains die.val = true → rangeCount (Table.getD g.undisp die.val []) = 0 →
    ((s.diesFor g).filter (fun e => decide (die.val < e)) ++ (s.diesFor g).filter (fun e => decide (e < die.val))).find?
      (fun e => decide (0 < rangeCount (Table.getD g.undisp e []))) = some d →
    let u := max 1 (chunkUnit g.lrec)
    let n := rangeCount (Table.getD g.undisp d [])
    let able : Prop := ∀ p ∈ g.parts, die.val ∈ diesWith (s.chipClusters g p.1)
      ∨ rangesIn (takeHigh (n / 2 / u * u) (Table.getD g.undisp d []).reverse).1 p.2.1 p.2.2 = 0
    (n < 2 * u ∨ ¬ able → exec (.stealRequest gid die) s = .next s)
    ∧ (2 * u ≤ n → able → ∃ t h, exec (.stealRequest gid die) s = .next t ∧ Table.find t.grids gid = some h
        ∧ rangeCount (Table.getD h.undisp die.val []) = n / 2 / u * u ∧ rangeCount (Table.getD h.undisp d []) = n - n / 2 / u * u
        ∧ (∀ e, e ≠ die.val → e ≠ d → Table.getD h.undisp e [] = Table.getD g.undisp e [])
        ∧ ((Table.getD g.undisp d []).Pairwise (fun a b => a.2 ≤ b.1) → ∀ b,
            holdsBlock (Table.getD g.undisp d []) b
                = (holdsBlock (Table.getD h.undisp die.val []) b || holdsBlock (Table.getD h.undisp d []) b)
            ∧ (holdsBlock (Table.getD h.undisp die.val []) b = true →
                ∀ c, holdsBlock (Table.getD h.undisp d []) c = true → c < b))
        ∧ t.blocks = s.blocks ∧ t.slices = s.slices ∧ t.mem = s.mem)

/-- R380, R383: a gang launch at the head of its line gives up its place, and nothing else, when its blocks do not all fit; when they do, and
it has earned them at every die, it places every block of its grid on this module that is still to run at once, which then drains, or changes
nothing when the places given do not take them. That this is one step is the model's choice (log entry 76), and so is what it earns and
spends (log entry 75). -/
def Claims.Gang : Prop :=
  ∀ (s : State) (gid : Nat) (g : Grid) (ps : List Placement),
    Table.find s.grids gid = some g → s.mayDispatch g = true → s.isGang g.home = true → s.gangTurn g = true →
    s.chipsRun g [] = true → (∀ d ∈ s.diesFor g, s.prioOk g d = true) →
    let ns := g.locals.filter (fun b => g.undisp.any (fun e => holdsBlock e.2 b))
    let paid := (s.diesFor g).foldl (fun t d => t.spend gid d (rangeCount (Table.getD g.undisp d [])) g) s
    (s.gangFits g (s.roomOn g) = false → exec (.gangLaunch gid ps) s = .next (s.modGrid gid (fun x => { x with ticket := none })))
    ∧ (s.gangFits g (s.roomOn g) = true → ps.length = ns.length → (∀ d ∈ s.diesFor g, s.turnOk g d = true) →
        s.startKept gid g = true → (∀ n p, (n, p) ∈ ns.zip ps → holdsBlock (Table.getD (s.sharesOf g) (coreDie p.core) []) n = true) →
        unitsTogether g.lrec ps.length g.together ps = true →
        (paid.placeAll gid (ns.zip ps) = none → exec (.gangLaunch gid ps) s = .next s)
        ∧ ∀ u, paid.placeAll gid (ns.zip ps) = some u →
            ∃ t h, exec (.gangLaunch gid ps) s = .next t ∧ t.blocks = u.blocks ∧ t.slices = u.slices ∧ t.mem = s.mem
              ∧ Table.find t.grids gid = some h ∧ h.undisp = [] ∧ h.ticket = none ∧ h.state = .draining)

/-- R149–R152, R380–R383: how blocks come to their cores. -/
def Obligations.BlocksPlaced : Prop := Claims.Dispatch ∧ Claims.Steal ∧ Claims.Gang

/-- R153, R358: a killed block, and one all of whose slices have ended with nothing outstanding, is gone with its slices; the other blocks
and slices stay, and so does memory, unless the killed block has writes in flight or held, which are then performed or discarded. -/
def Claims.BlockEnds : Prop :=
  ∀ (s : State) (uid : Nat) (b : Block),
    Table.find s.blocks uid = some b →
    (b.killed = true → ∃ t, exec (.blockEnd uid) s = .next t ∧ Table.find t.blocks uid = none
      ∧ (∀ k, keyBlock k = uid → Table.find t.slices k = none)
      ∧ ((∀ e ∈ s.slices, keyBlock e.1 = uid → ∀ o ∈ e.2.ops, o.kind.isSt = false) →
          t.mem = s.mem ∧ (∀ u, u ≠ uid → Table.find t.blocks u = Table.find s.blocks u)
          ∧ ∀ k, keyBlock k ≠ uid → Table.find t.slices k = Table.find s.slices k))
    ∧ (b.killed = false → s.blockDone uid b = true →
        ∃ t, exec (.blockEnd uid) s = .next t ∧ t.mem = s.mem ∧ Table.find t.blocks uid = none
          ∧ (∀ u, u ≠ uid → Table.find t.blocks u = Table.find s.blocks u)
          ∧ ∀ k, Table.find t.slices k = if keyBlock k = uid then none else Table.find s.slices k)

/-- R318: a slice of a spliced grid that reaches a join with nothing outstanding arrives there and is held while another slice of its
block may still arrive; one that arrives alone goes on in the next part, and so does one held alone once the last of the others can no
longer arrive. -/
def Claims.Joins : Prop :=
  ∀ (s : State) (k : Nat) (c : Ctx) (sb : SpliceBlock) (g : Grid) (sp : Splice) (ss : SpliceSlice),
    s.ctx k = some c → c.atJoin = true → s.ready k = true → c.x.ops = [] → c.x.dropped = [] → c.b.splice = some sb →
    Table.find s.grids c.b.gid = some g → g.splice = some sp → c.x.splice = some ss →
    ((∃ e ∈ s.slices, keyBlock e.1 = keyBlock k ∧ e.1 ≠ k ∧ e.2.pastJoins = false ∧ e.1 ∉ sb.arrived) →
      ∃ t, exec (.join k) s = .next t ∧ t.mem = s.mem ∧ Table.find t.slices k = some { c.x with hold := .join, dropDue := false }
        ∧ (∀ j, j ≠ k → Table.find t.slices j = Table.find s.slices j)
        ∧ ∃ y z, Table.find t.blocks (keyBlock k) = some y ∧ y.splice = some z ∧ z.arrived = sb.arrived ++ [k])
    ∧ (sb.arrived = [] → (∀ e ∈ s.slices, keyBlock e.1 = keyBlock k → e.1 = k ∨ e.2.pastJoins = true) →
      ∃ t, exec (.join k) s = .next t ∧ t.mem = s.mem
        ∧ (∃ kn, (∀ p ∈ c.x.knows, p ∈ kn) ∧ Table.find t.slices k =
            some { ({ c.x with dropDue := false, knows := kn }).enterPart ss (if ss.part = 3 then 4 else 6) c.x.pc.toNat with
              hold := .none })
        ∧ ∀ j, j ≠ k → Table.find t.slices j = Table.find s.slices j)
    ∧ (sb.arrived = [k] → c.x.hold = .join →
      ∃ t, exec (.join k) s = .next t ∧ t.mem = s.mem
        ∧ (∃ kn, (∀ p ∈ c.x.knows, p ∈ kn) ∧ Table.find t.slices k =
            some { ({ c.x with knows := kn }).enterPart ss (if ss.part = 3 then 4 else 6) c.x.pc.toNat with hold := .none })
        ∧ ∀ j, j ≠ k → Table.find t.slices j = Table.find s.slices j)

/-- R165–R167, R378: a packet all of whose blocks have ended is DONE: its 32-byte record stands at SIGADDR with its status, no other byte
changes, and it is gone from its queue, which enters ERROR on a status of 2 or more. -/
def Claims.PacketEnds : Prop :=
  ∀ (s : State) (gid : Nat) (g : Grid) (f q : Fin 64) (x : Xlat),
    Table.find s.grids gid = some g → s.drained gid g = true → g.producer = none → g.home = .vf f q → g.splice = none →
    s.timeSliced f.val = false → (s.chip f.val).migrating = false → pktType g.pkt ≠ 3 → pktIrq g.pkt = false →
    pktSig g.pkt ≠ 0 → pktSig g.pkt % 32 = 0 → pktSig g.pkt < 0x7FFFFF0000000000 → s.dev.steward.gid ≠ some gid →
    s.translate g.ctx (s.die (s.queueDie g.home)).tlb 93000 (pktSig g.pkt) .write = .ok x →
    (∀ d, d < 4 → (s.die d).slotsNext = []) → s.stillHeld gid g.home = [] →
    let status := if g.state = .draining then 1 else g.status
    let fault := g.fault.getD ⟨0, 0, 0⟩
    ∃ t, exec (.packetCompletion gid) s = .next t ∧ Table.find t.grids gid = none ∧ t.slices = s.slices ∧ t.blocks = s.blocks
      ∧ gid ∉ (t.queue f.val q.val).pkts
      ∧ (2 ≤ status → (s.queue f.val q.val).state ≠ .disabled → (t.queue f.val q.val).state = .error)
      ∧ ∀ p, t.readByte (s.keyTag g.ctx) p = storedOver [(x.pa, leBytes 32
          (status + g.bzcode % 256 * 2 ^ 24 + fault.code.toNat * 2 ^ 40 + fault.kidx % 2 ^ 16 * 2 ^ 48 + fault.pc.toNat * 2 ^ 64))] p
          (s.readByte (s.keyTag g.ctx) p)

/-- R340, R354, R356, R357: the run limit arms the kernel watchdog of a packet that runs; the watchdog ends its grid with STATUS 3 and
kills its blocks; a handler that HWDOG microseconds have not brought to its end ends the grid with cause watchdog and bit 7. -/
def Claims.Watchdogs : Prop :=
  (∀ (s : State) (gid : Nat) (g : Grid) (f q : Fin 64),
    Table.find s.grids gid = some g → g.home = .vf f q →
    let lim := bindRunLimit (((s.bindRecord f.val q.val).map (fun e => e.2.2)).getD 0)
    lim ≠ 0 → g.startedAt + lim ≤ s.now → g.state = .dispatching ∨ g.state = .draining → g.deadline = none →
    ∃ t, exec (.runLimit gid) s = .next t ∧ t.mem = s.mem ∧ t.slices = s.slices ∧ t.blocks = s.blocks
      ∧ Table.find t.grids gid = some { g with deadline := some (s.now + s.graceOf g.home) })
  ∧ (∀ (s : State) (gid : Nat) (g : Grid) (d : Nat),
    Table.find s.grids gid = some g → g.deadline = some d → d ≤ s.now → g.state = .dispatching ∨ g.state = .draining →
    g.destroyed = false →
    ∃ t, exec (.kernelWatchdog gid) s = .next t ∧ t.mem = s.mem ∧ t.slices = s.slices
      ∧ Table.find t.grids gid = some { g with
          state := .killing, status := 3, undisp := [], deadline := none, fault := some ⟨0, 0, 0x18⟩ }
      ∧ ∀ u b, Table.find s.blocks u = some b →
          Table.find t.blocks u = some (if b.gid = gid then { b with killed := true } else b))
  ∧ ∀ (s : State) (k : Nat) (c : Ctx) (g : Grid),
    s.ctx k = some c → c.x.ended = false → c.b.killed = false → c.x.priv = 1 → s.chipRuns c.b.vf = true →
    c.x.enteredAt + (s.chip c.b.vf).hwdog.toNat * 2500 ≤ s.now → Table.find s.grids c.b.gid = some g →
    g.state = .dispatching ∨ g.state = .draining →
    ∃ t, exec (.handlerWatchdog k) s = .next t ∧ t.mem = s.mem ∧ t.slices = s.slices
      ∧ Table.find t.grids c.b.gid = some { g with
          state := .killing, status := 3, undisp := [], fault := some ⟨c.x.last, c.kidx, 0x98⟩ }
      ∧ ∃ b, Table.find t.blocks (keyBlock k) = some b ∧ b.killed = true

/-- R153, R165–R167, R318, R340, R354–R358: how slices join, and blocks and packets end. -/
def Obligations.GridsEnd : Prop := Claims.BlockEnds ∧ Claims.Joins ∧ Claims.PacketEnds ∧ Claims.Watchdogs

/-! ### Time slices and migration (R360–R370) -/

/-- R362, R364: a due checkpoint of a time-sliced chip that runs begins its cut; slices with nothing outstanding are not changed. -/
def Claims.CutBegins : Prop :=
  ∀ (s : State) (f : Fin 64),
    s.timeSliced f.val = true → s.mayRun f.val = true → s.checkpointDue f.val = true →
    ∃ t, exec (.checkpoint f) s = .next t ∧ (t.chip f.val).cut = true ∧ (t.chip f.val).ckseq = (s.chip f.val).ckseq
      ∧ ((∀ e ∈ s.slices, e.2.ops = [] ∧ e.2.dropped = []) →
          t.mem = s.mem ∧ ∀ k, Table.find t.slices k = Table.find s.slices k)

/-- R361–R363: at the commit of a formed cut that no word forces, every slice of the chip has waited as at a WAIT with every threshold 0: it
keeps what it knew, reads no older completion result, and nothing else of it changes; then the commit saves the chip's context, raises
CKSEQ, empties the undo log, begins a new interval, and changes nothing else. -/
def Claims.CutCommits : Prop :=
  ∀ (s : State) (f : Fin 64),
    s.timeSliced f.val = true → s.chipRuns f.val = true → (s.chip f.val).cut = true → s.cutFormed f.val = true →
    (s.chip f.val).forcing = [] →
    ∃ u : State, u = { s with slices := u.slices }
      ∧ exec (.checkpointCommit f) s = .next (u.modChip f.val (fun c => { c with
          committed := some (u.image f.val), ckseq := c.ckseq + 1, undo := [], lastCommit := s.now, outsideWait := false, cut := false
          forcing := [] }))
      ∧ ∀ k x, Table.find s.slices k = some x → ∃ y, Table.find u.slices k = some y
          ∧ y = { x with stale := y.stale, knows := y.knows } ∧ (∀ p ∈ x.knows, p ∈ y.knows)
          ∧ (if (Table.find s.blocks (keyBlock k)).any (fun b => b.vf == f.val) then y.stale = [] else y = x)

/-- R365: a rollback ends the time slice: every line of the undo log holds its old bytes again, every other byte stays, the chip's slices,
blocks, queues and system registers are those of its committed image, its slices and blocks that the image does not hold are gone, and the
slices and blocks of other chips stay. -/
def Claims.RollsBack : Prop :=
  ∀ (s : State) (f : Fin 64) (i : Image),
    s.timeSliced f.val = true → s.chipRuns f.val = true → (s.chip f.val).committed = some i →
    s.dev.shutdown = false →
    (i.slices.map Prod.fst).Nodup → (i.blocks.map Prod.fst).Nodup → (s.blocks.map Prod.fst).Nodup →
    ∃ t, exec (.rollback f) s = .next t
      ∧ (∀ p, Memory.get t.mem p =
          storedOver ((s.chip f.val).undo.map (fun u => (u.line * 128, u.old))) p (Memory.get s.mem p))
      ∧ (∀ k x, (k, x) ∈ i.slices → Table.find t.slices k = some x)
      ∧ (∀ u b, (u, b) ∈ i.blocks → Table.find t.blocks u = some b)
      ∧ (∀ k b, Table.find s.blocks (keyBlock k) = some b → (∀ x, (k, x) ∉ i.slices) →
          Table.find t.slices k = if b.vf = f.val then none else Table.find s.slices k)
      ∧ (∀ u b, Table.find s.blocks u = some b → (∀ x, (u, x) ∉ i.blocks) →
          Table.find t.blocks u = if b.vf = f.val then none else some b)
      ∧ (t.chip f.val).running = false ∧ (t.chip f.val).undo = [] ∧ (t.chip f.val).queues = i.queues
      ∧ (t.chip f.val).wells = i.wells ∧ (t.chip f.val).tfbase = i.tfbase ∧ (t.chip f.val).hwdog = i.hwdog
      ∧ (t.chip f.val).ctbase = i.ctbase ∧ (t.chip f.val).ckseq = (s.chip f.val).ckseq

/-- R360, R361, R364, R370: a time slice of a valid chip with no pending event, in a pod of the shape that a migrated image needs, starts: the first commits a checkpoint; a later one places every
block of the chip and goes on from its committed image: the detached commands and waiting loads of its slices count again (R275, R362), and
the checkpoint interval goes on from the last commit. -/
def Claims.SliceStarts : Prop :=
  ∀ (s : State) (f : Fin 64) (places : List (Nat × Placement)),
    s.timeSliced f.val = true → (s.frec f.val).getLsbD 0 = true → s.chipRuns f.val = false → (s.chip f.val).migrating = false →
    s.dev.shutdown = false → s.quiesced f.val = false → s.outsideDone f.val = true → (s.chip f.val).pending = [] →
    (∀ n, (s.chip f.val).shape = some n → n = s.podSize f.val) → (s.slices.map Prod.fst).Nodup →
    ((s.chip f.val).committed = none →
      ∃ t, exec (.timeSliceStart f places) s = .next t ∧ t.mem = s.mem ∧ t.slices = s.slices
        ∧ (t.chip f.val).running = true ∧ (t.chip f.val).committed.isSome = true
        ∧ (t.chip f.val).ckseq = (s.chip f.val).ckseq + 1 ∧ (t.chip f.val).lastCommit = s.now)
    ∧ ∀ i u, (s.chip f.val).committed = some i →
        (let mine := s.blocks.filter (fun e => e.2.vf == f.val)
         places.length = mine.length ∧ ∀ e ∈ mine, (places.filter (fun p => p.1 == e.1)).length = 1) →
        ((s.modChip f.val (fun c => { c with running := true })).unplace f.val).resumeAll f.val i places = some u →
        ∃ t, exec (.timeSliceStart f places) s = .next t ∧ t.mem = s.mem ∧ t.blocks = u.blocks
          ∧ (t.chip f.val).running = true ∧ (t.chip f.val).lastCommit = (s.chip f.val).lastCommit
          ∧ ∀ k x b, Table.find s.slices k = some x → Table.find u.blocks (keyBlock k) = some b →
              Table.find t.slices k = some (if b.vf = f.val then u.attach (s.chip f.val).lastCommit k x else x)

/-- R360–R365: checkpoints, rollback and time slices. -/
def Obligations.TimeSlices : Prop := Claims.CutBegins ∧ Claims.CutCommits ∧ Claims.RollsBack ∧ Claims.SliceStarts

/-- R369, R370: the image of a chip whose state is wholly in memory carries the header's magic, version, COMPAT and CKSEQ, the chip's
memory, keys and counts, and none is made while its dies are quiesced (R394); a destination whose COMPAT differs leaves the source to go
on, rejects a malformed image whole, and one with keys while its interface is not in RUN (R406), and takes the context, keys, counts and
pending events of one that it accepts: a time-sliced chip as its committed image, to go on in a time slice, an exclusive one at once. That an
image's body is the context image is log entry 45, how COMPAT is derived log entry 44, that the two pods' sizes are compared, and when,
log entry 89, and the refusal of keys outside RUN log entry 132: the model's choices. -/
def Obligations.Migration : Prop :=
  (∀ (s : State) (f : Fin 64),
    (s.quiesced f.val = true → exec (.migrationImage f) s = .next s)
    ∧ (s.quiesced f.val = false → s.atRest f.val = true → (s.frec f.val).getLsbD 0 = true → (s.chip f.val).migrating = false →
    ∃ t m, exec (.migrationImage f) s = .next t ∧ t.mem = s.mem ∧ (t.chip f.val).migrating = true
      ∧ t.dev.images = s.dev.images ++ [m] ∧ m.src = f.val ∧ m.mem = s.shareBytes f.val ∧ m.gen = (s.chip f.val).log.gen
      ∧ m.chips = s.podSize f.val ∧ m.pending = (s.chip f.val).pending ∧ m.linkKeys = (s.chip f.val).linkKeys ∧ m.acceptCount = (s.chip f.val).acceptCount
      ∧ m.body = ((s.chip f.val).committed.getD (s.image f.val))
      ∧ m.header.extractLsb' 0 32 = 0x47494D4B#32 ∧ m.header.extractLsb' 32 32 = 1#32
      ∧ m.header.extractLsb' 128 384 = s.compat
      ∧ m.header.extractLsb' 512 64 = (if s.timeSliced f.val then (s.chip f.val).ckseq else 0)
      ∧ m.header.extractLsb' 576 448 = 0))
  ∧ ∀ (s : State) (f : Fin 64) (n : Nat) (m : MigImage),
    s.dev.images[n]? = some m →
    (m.header.extractLsb' 128 384 ≠ s.compat →
      exec (.migrationAccept f n) s = .next (s.modChip m.src (fun c => { c with migrating := false })))
    ∧ (m.header.extractLsb' 128 384 = s.compat → (migHeaderOk m.header && m.intact && s.canAccept f m) = false →
      exec (.migrationAccept f n) s = .next s)
    ∧ (m.header.extractLsb' 128 384 = s.compat → m.linkKeys ≠ [] ∨ m.signKeys ≠ [] → (s.chip f.val).tdisp ≠ .run →
      exec (.migrationAccept f n) s = .next s)
    ∧ (m.header.extractLsb' 128 384 = s.compat → m.chips ≠ s.podSize f.val → s.timeSliced f.val = false ∨ s.podSize f.val ≠ 1 →
      exec (.migrationAccept f n) s = .next s)
    ∧ (m.header.extractLsb' 128 384 = s.compat → (migHeaderOk m.header && m.intact && s.canAccept f m) = true →
      ((s.adopt f m).slices.map Prod.fst).Nodup →
      ∃ t, exec (.migrationAccept f n) s = .next t
        ∧ (∀ k x, (k, x) ∈ (s.adopt f m).slices → ∃ y, Table.find t.slices k = some y
            ∧ y = { x with cnt := y.cnt, stale := y.stale, enteredAt := y.enteredAt } ∧ (s.timeSliced f.val = true → y = x))
        ∧ (s.timeSliced f.val = true → (t.chip f.val).shape = some m.chips)
        ∧ (t.chip f.val).ckseq = m.header.extractLsb' 512 64 ∧ (t.chip f.val).linkKeys = m.linkKeys
        ∧ (t.chip f.val).acceptCount = m.acceptCount ∧ (t.chip f.val).sendCount = m.sendCount
        ∧ (s.timeSliced f.val = true ∨ m.pending = [] → (t.chip f.val).pending = m.pending)
        ∧ (t.chip f.val).log.gen = m.gen ∧ (t.chip f.val).migrating = false)

/-! ### What the management complexes write (R350, R379, R380, R385, R389–R396, R403–R406) -/

/-- R355, R379, R380: a bind record that the slot table refuses changes nothing; one for a queue without packets, or in STOPPED, is in
force at once; one for another queue with a packet not DONE waits, but an invalidation acts as a pre-emption request and is in force at
once where no packet of the queue, IDLE, RUNNING or in ERROR, is in progress. That an invalidation acts so, and when the packets of a queue
let a record go, is log entry 80. -/
def Claims.BindWrites : Prop :=
  ∀ (s : State) (die : Fin 4) (i : Fin 256) (r : BitVec 128),
    let old := Table.getD (s.die die.val).slots i.val 0
    let w := bindTarget old r
    let u := s.queue w.1.val w.2.val
    let free : Prop := u.pkts = [] ∨ u.state = .stopped
    let goes : Prop := u.state = .idle ∨ u.state = .running ∨ u.state = .error
    let busy : Prop := s.inProgress (.vf w.1 w.2) = true
    (s.bindRefused die.val i.val r = true → exec (.bindRecordWrite die i r) s = .next s)
    ∧ (s.bindRefused die.val i.val r = false → free ∨ (bindValid old = false ∧ bindValid r = false) →
        ∃ t, exec (.bindRecordWrite die i r) s = .next t ∧ t.mem = s.mem ∧ t.slices = s.slices
          ∧ Table.getD (t.die die.val).slots i.val 0 = r)
    ∧ (s.bindRefused die.val i.val r = false → ¬ free → bindValid r = true ∨ (bindValid old = true ∧ (busy ∨ ¬ goes)) →
        ∃ t, exec (.bindRecordWrite die i r) s = .next t ∧ t.mem = s.mem ∧ t.slices = s.slices
          ∧ (t.die die.val).slots = (s.die die.val).slots ∧ Table.getD (t.die die.val).slotsNext i.val 0 = r)
    ∧ (¬ free → bindValid old = true → bindValid r = false → ¬ busy → goes → (∀ d, d < 4 → (s.die d).slotsNext = []) →
        ∃ t, exec (.bindRecordWrite die i r) s = .next t ∧ t.mem = s.mem ∧ t.slices = s.slices
          ∧ Table.getD (t.die die.val).slots i.val 0 = r)

/-- R395, R396, R406: a function record that breaks R396 is not written (log entry 46); one that changes a frozen function puts its
interface in ERROR, with every queue DISABLED, and is not written; else its fields take the new value. -/
def Claims.RecordWrites : Prop :=
  ∀ (s : State) (f : Fin 64) (r : BitVec 256),
    let new : BitVec 256 := BitVec.ofNat 256 (r.toNat &&& frecMask)
    let kept : Prop := new.getLsbD 0 = true → s.frecKeeps f.val new = true
    (¬ kept → exec (.functionRecordWrite f r) s = .next s)
    ∧ (kept → s.frozen f.val = true → new ≠ s.frec f.val →
        ∃ t, exec (.functionRecordWrite f r) s = .next t ∧ t.mem = s.mem ∧ (t.chip f.val).tdisp = .error
          ∧ t.frec f.val = s.frec f.val ∧ ∀ q : Fin 64, (t.queue f.val q.val).state = .disabled)
    ∧ (kept → s.frozen f.val = false ∨ new = s.frec f.val →
        ∃ t, exec (.functionRecordWrite f r) s = .next t ∧ t.mem = s.mem ∧ t.slices = s.slices ∧ t.frec f.val = new
          ∧ ∀ v, v ≠ f.val → t.frec v = s.frec v)

/-- R350, R385, R396, R406: a launch-table entry takes the value written, without its reserved bits; an ASID table entry takes its value
unless it changes the stage-2 roots of a frozen function, whose interface then enters ERROR, or maps a page that another function holds or
that is out of use (log entry 134). A page whose last holder was another function reads zero from then on; no other byte changes. -/
def Claims.EntryWrites : Prop :=
  (∀ (s : State) (f i : Fin 64) (r : BitVec 128),
    exec (.launchTableWrite f i r) s = .next (s.modChip f.val (fun c =>
      { c with launchTab := Table.put c.launchTab i.val ((r.setWidth 44).setWidth 128) })))
  ∧ ∀ (s : State) (i : Fin 4096) (r : BitVec 128),
    let old := Table.getD s.dev.asids i.val 0
    ((∃ f : Fin 64, s.frozen f.val = true ∧ s.rootChange old r f.val = true) →
      ∃ t, exec (.asidTableWrite i r) s = .next t ∧ t.dev.asids = s.dev.asids ∧ t.mem = s.mem
        ∧ ∃ f : Fin 64, s.frozen f.val = true ∧ s.rootChange old r f.val = true ∧ (t.chip f.val).tdisp = .error)
    ∧ ((∀ f : Fin 64, s.frozen f.val = true → s.rootChange old r f.val = false) →
      let v := asidVmid r
      let ps := s.entryPages r
      (s.pagesFree v ps = false → exec (.asidTableWrite i r) s = .next s)
      ∧ (s.pagesFree v ps = true →
        ∃ t, exec (.asidTableWrite i r) s = .next t ∧ t.dev.asids = Table.put s.dev.asids i.val r
          ∧ t.slices = s.slices ∧ t.blocks = s.blocks
          ∧ ∀ a,
            let inside : Prop := ∃ p ∈ ps, p.1 ≤ a ∧ a < p.1 + p.2
            let passes : Prop := inside ∧ s.lastOwner a ≠ none ∧ s.lastOwner a ≠ some v
            (passes → Memory.get t.mem a = 0) ∧ (¬ passes → Memory.get t.mem a = Memory.get s.mem a)
            ∧ (inside → t.lastOwner a = some v)))

/-- R350, R379, R380, R385, R395, R396, R406: writes of the management tables. -/
def Obligations.ManagementTables : Prop := Claims.BindWrites ∧ Claims.RecordWrites ∧ Claims.EntryWrites

/-- R389, R392, R394: a layout request is refused with code 1 when its layout is not valid, with 4 while a commit is in progress, and with
2 while an affected partition is not idle; else every affected die quiesces, holds the new PARTCFG in its shadow and acknowledges. The order
of the codes, and that a die is affected whose PARTCFG the layout changes, are log entry 91 (DEDUCED). -/
def Claims.LayoutRequests : Prop :=
  ∀ (s : State) (l : BitVec 8),
    let refused (n : Nat) : Prop := exec (.layoutRequest l) s = .next (s.modDev (fun d => { d with layoutResult := some n }))
    (layoutOk l = false → refused 1)
    ∧ (layoutOk l = true → s.layoutBusy = true → refused 4)
    ∧ (layoutOk l = true → s.layoutBusy = false → s.partsIdle (s.affected l) = false → refused 2)
    ∧ (layoutOk l = true → s.layoutBusy = false → s.partsIdle (s.affected l) = true →
        ∃ t, exec (.layoutRequest l) s = .next t ∧ t.mem = s.mem ∧ t.chips = s.chips
          ∧ t.dev.journal = some ⟨s.dev.jseq + 1, l, .prepare⟩ ∧ t.dev.layoutResult = none
          ∧ ∀ d, d < 4 → (t.die d).partcfg = (s.die d).partcfg
            ∧ ((s.die d).partcfg ≠ partcfgOf l d →
                (t.die d).quiesced = true ∧ (t.die d).shadow = some (partcfgOf l d) ∧ (t.die d).acked = true)
            ∧ ((s.die d).partcfg = partcfgOf l d → t.die d = s.die d))

/-- R392–R394: COMMIT, once every die that takes part has acknowledged, puts each one's shadow in force, and resets its vector clocks and
its memory to zero; DONE ends quiescing with result 0; a restart of die 0's policy core rolls a commit in its first step back with
result 3 and one in its second step forward; that of another die repeats its step. No Windlass script waits. -/
def Claims.LayoutCommits : Prop :=
  ∀ (s : State) (j : Journal), s.dev.journal = some j → s.dev.windlassQueue = [] →
    let takes (d : Nat) : Prop := d < 4 ∧ (s.die d).shadow.isSome = true
    let acked : Prop := ∀ d, takes d → (s.die d).acked = true
    let inForce (t : State) (d : Nat) : Prop := (t.die d).partcfg = (s.die d).shadow.getD 0
      ∧ (t.die d).clock = Vector.replicate 4 0
      ∧ ∀ a, Config.isHostMemory (a / 128) = false → s.homeDie (a / 128) = d → Memory.get t.mem a = 0
    let released (t : State) : Prop := ∀ d, takes d → (t.die d).quiesced = false ∧ (t.die d).shadow = none
    (j.step = .prepare → acked → ∃ t, exec .commit s = .next t ∧ t.dev.journal = some { j with step := .commit }
      ∧ (∀ d, takes d → inForce t d) ∧ ∀ d, d < 4 → ¬ takes d → (t.die d).partcfg = (s.die d).partcfg)
    ∧ (j.step = .commit → acked → ∃ t, exec .done s = .next t ∧ t.dev.journal = some { j with step := .done }
      ∧ t.dev.layoutResult = some 0 ∧ released t ∧ t.mem = s.mem ∧ ∀ d, d < 4 → (t.die d).partcfg = (s.die d).partcfg)
    ∧ (j.step = .prepare → ∃ t, exec (.policyCoreRestart 0) s = .next t ∧ t.dev.journal = none ∧ t.dev.layoutResult = some 3
      ∧ released t ∧ t.mem = s.mem ∧ ∀ d, d < 4 → (t.die d).partcfg = (s.die d).partcfg)
    ∧ (j.step = .commit → ∃ t, exec (.policyCoreRestart 0) s = .next t ∧ t.dev.layoutResult = some 0
      ∧ (∀ d, takes d → inForce t d) ∧ released t)
    ∧ (∀ die : Fin 4, die ≠ 0 → takes die.val →
        (j.step = .prepare → ∃ t, exec (.policyCoreRestart die) s = .next t
          ∧ t.die die.val = { s.die die.val with quiesced := true, shadow := some (partcfgOf j.layout die.val), acked := true })
        ∧ (j.step = .commit → ∃ t, exec (.policyCoreRestart die) s = .next t ∧ inForce t die.val))

/-- R389–R394: layout changes. -/
def Obligations.LayoutChanges : Prop := Claims.LayoutRequests ∧ Claims.LayoutCommits

/-- R394, R404, R405: a script rung while one is in progress, or while a layout commit quiesces its guest, waits; another well-formed one
pauses its guest and stages its entries; a malformed one
ends with 0x81 over its END and applies nothing. RESUME waits until the guest's pod accesses that have left, and could be performed, have been;
then it puts the staged entries in force, the last one of each place, ends the pause, and writes 0x80 over the script's END. After a boot that
failed no script runs (R432). When PAUSE completes, and that a script is read up to 65,536 commands, is log entry 94. -/
def Obligations.WindlassScripts : Prop :=
  (∀ (s : State) (a : Word64), s.bootFailed = true → exec (.wldoor a) s = .next s)
  ∧ (∀ (s : State) (a : Word64) (w : Windlass), s.bootFailed = false → s.dev.windlass = some w →
    exec (.wldoor a) s = .next (s.modDev (fun d => { d with windlassQueue := d.windlassQueue ++ [a] })))
  ∧ (∀ (s : State) (a : Word64) (cs : List (BitVec 256)) (e : Nat),
    s.bootFailed = false → s.dev.windlass = none → s.dev.windlassQueue = [] → s.readScript 65536 a.toNat = some (cs, e) →
    (scriptOk cs = true →
      let pod : BitVec 16 := (cs.headD 0).extractLsb' 80 16
      (s.podQuiesced pod.toNat = true → exec (.wldoor a) s = .next (s.modDev (fun d => { d with windlassQueue := [a] })))
      ∧ (s.podQuiesced pod.toNat = false → exec (.wldoor a) s = .next (s.modDev (fun d => { d with
        windlassQueue := [], paused := [pod]
        windlass := some ⟨pod, (cs.filter (fun c => c.extractLsb' 0 8 == 2)).map stagedOf, e⟩ }))))
    ∧ (scriptOk cs = false → ∃ t, exec (.wldoor a) s = .next t ∧ t.dev.windlass = none ∧ t.chips = s.chips
        ∧ ∀ p, t.readByte none p = storedOver [(e, [0x81])] p (s.readByte none p)))
  ∧ ∀ (s : State) (w : Windlass), s.dev.windlass = some w →
    (s.podUnderway w.podid.toNat = true → exec .resume s = .next s)
    ∧ (s.podUnderway w.podid.toNat = false → s.dev.windlassQueue = [] →
      ∃ t, exec .resume s = .next t ∧ t.dev.windlass = none ∧ t.dev.paused = [] ∧ t.blocks = s.blocks
        ∧ (∀ p, t.readByte none p = storedOver [(w.endAt, [0x80])] p (s.readByte none p))
        ∧ (∀ before e after v, w.staged = before ++ e :: after → s.carrier w.podid.toNat e.src.toNat = some v →
            (∀ x ∈ after, x.src = e.src → x.table = e.table → x.index = e.index → e.table = 2 ∧ x.half ≠ e.half) →
            (e.table = 0 → Table.getD (t.chip v).chipTab e.index 0 = e.value)
            ∧ (e.table = 1 → Table.getD (t.chip v).labels e.index 0 = e.value.setWidth 64)
            ∧ (e.table = 2 → (Table.getD (t.chip v).mcast e.index 0).extractLsb' (if e.half then 128 else 0) 128 = e.value
              ∧ ((∀ x ∈ before ++ after, ¬ (x.src = e.src ∧ x.table = 2 ∧ x.index = e.index)) →
                (Table.getD (t.chip v).mcast e.index 0).extractLsb' (if e.half then 0 else 128) 128
                  = (Table.getD (s.chip v).mcast e.index 0).extractLsb' (if e.half then 0 else 128) 128)))
        ∧ ∀ n, (∀ e ∈ w.staged, s.carrier w.podid.toNat e.src.toNat ≠ some n) → t.chip n = s.chip n)

/-! ### The device (R83–R88, R376, R387, R398–R407, R430–R437) -/

/-- R399, R401: writes of an event log's control block while no event waits: RIDX always, BASE and SIZE while the log is off, EN with a
SIZE of 4 to 16. -/
def Claims.EventLogWrites : Prop :=
  ∀ (s : State) (fn : Fn) (v : BitVec 64), s.exposed fn = true → (∀ f, fn = .vf f → (s.chip f.val).pending = []) →
    let l := s.logOf fn
    let size : BitVec 5 := if l.en then l.size else v.extractLsb' 8 5
    let becomes (off : Nat) (l' : EventLog) : Prop :=
      ∃ t, exec (.eventLogControlWrite fn off v) s = .next t ∧ t.logOf fn = l' ∧ t.mem = s.mem ∧ t.slices = s.slices
    becomes 24 { l with ridx := v.extractLsb' 32 32 }
    ∧ becomes 16 (if l.en then l else { l with base := v })
    ∧ (v.getLsbD 0 = false → becomes 0 { l with size := size, en := false })
    ∧ (v.getLsbD 0 = true → 4 ≤ size.toNat → size.toNat ≤ 16 → becomes 0 { l with size := size, en := true })

/-- R377, R430, R437: writes of BAR0: HSEL of the physical function, and the doorbell of a queue, which acts as the doorbell does; a function
that the host does not reach ignores every write (R430, R432), and so does the physical function's loader request block after a boot that
did not fail; after one that failed the doorbell of the Windlass, the steward's request block and HSEL do (R432). Every access is of 64 bits
at an aligned offset (log entry 126). -/
def Claims.RegisterWrites : Prop :=
  ∀ (s : State) (v : BitVec 64),
    (s.bootFailed = false → exec (.registerWrite .pf 0x3000 v) s = .next (s.modDev (fun d => { d with hsel := v })))
    ∧ (s.bootFailed = true → exec (.registerWrite .pf 0x2000 v) s = .next s ∧ exec (.registerWrite .pf 0x2828 v) s = .next s
        ∧ exec (.registerWrite .pf 0x3000 v) s = .next s)
    ∧ (∀ f q : Fin 64, s.exposed (.vf f) = true →
        exec (.registerWrite (.vf f) (0x1018 + 32 * q.val) v) s = exec (.doorbell f q (v.setWidth 32)) s)
    ∧ (∀ (f : Fin 64) off, s.exposed (.vf f) = false → exec (.registerWrite (.vf f) off v) s = .next s)
    ∧ (∀ off, s.dev.devstat.extractLsb' 16 8 = 0 → 0x800 ≤ off → off < 0x840 → exec (.registerWrite .pf off v) s = .next s)

/-- R203, R366, R396: a host access that no time-sliced chip's undo log holds reads the bytes as untagged requests do, or, where it gives no
function a page that its stage-2 tables did not map, writes them and no other; one that an undo log holds waits and forces that chip's
checkpoint. That the host's accesses are untagged and by physical address is log entry 98; that a write which would give a function a page that
another holds does not happen is log entry 134. -/
def Claims.HostAccesses : Prop :=
  ∀ (s : State) (a n : Nat) (bs : List Byte),
    (0 < n → (∀ v, v < 64 → s.inUndo v a n = false) → s.linePoisoned a n = false →
      exec (.hostAccess (.read a n)) s =
        .next (s.modDev (fun d => { d with hostReads := d.hostReads ++ [(a, s.readBytes none a n)] })))
    ∧ (bs ≠ [] → (∀ v, v < 64 → s.inUndo v a bs.length = false) →
      (∀ v, v < 64 → ∀ x ∈ (s.writePhys none true a bs).mapping v, x ∈ s.mapping v) →
      ∃ t, exec (.hostAccess (.write a bs)) s = .next t ∧ t.slices = s.slices ∧ t.blocks = s.blocks
        ∧ ∀ p, t.readByte none p = storedOver [(a, bs)] p (s.readByte none p))
    ∧ (∀ v x, v < 64 → (∀ u, u < 64 → s.inUndo u a bs.length = false) → x ∈ (s.writePhys none true a bs).mapping v → x ∉ s.mapping v →
      Config.isHostMemory (x.2.1 / 128) = false → s.pagesFree v [x.2] = false → exec (.hostAccess (.write a bs)) s = .next s)
    ∧ (∀ v, 0 < n → v < 64 → s.inUndo v a n = true →
      ∃ t, exec (.hostAccess (.read a n)) s = .next t ∧ (t.chip v).outsideWait = true ∧ t.mem = s.mem
        ∧ t.dev.hostReads = s.dev.hostReads)

/-- R203, R366, R377, R399, R401, R430, R437: what the host writes and reads. -/
def Obligations.HostRequests : Prop := Claims.EventLogWrites ∧ Claims.RegisterWrites ∧ Claims.HostAccesses

/-- R387: a loader request takes ADDR, LEN and RESADDR unless one is in progress. -/
def Claims.LoaderRequests : Prop :=
  ∀ (s : State) (f : Fin 64), s.exposed (.vf f) = true →
    exec (.loaderRequest (.vf f)) s = .next (s.modChip f.val (fun c => { c with
      loader := match c.loader.job with
        | some _ => c.loader
        | none => { c.loader with job := some (c.loader.addr, c.loader.len, c.loader.resaddr) } }))

/-- R87, R88, R161, R387: a load of a readable container ends: when a check of R87 fails the result is its code, no other byte changes, and
nothing is installed; else its launch records, relocated, stand at the next kernel-table indices, and over what the model's installation of
the segments left (`State.install`) the result word, code 0 and the first record's index, is the one change of memory. Which memory stands
behind a segment, and which places are refused, is log entry 51. -/
def Claims.ContainerLoads : Prop :=
  ∀ (s : State) (f : Fin 64) (places : List (Nat × Nat)) (a len res : Word64) (c : List Byte),
    (s.chip f.val).loader.job = some (a, len, res) → s.readContainer f.val a.toNat len.toNat = some c →
    let s0 := s.modChip f.val (fun h => { h with loader := { h.loader with job := none } })
    let code := checkContainer (s.chip f.val).signKeys c
    let es := entriesOf c
    (∀ x : Xlat, code ≠ 0 → res.toNat % 16 = 0 → res.toNat < 0x7FFFFF0000000000 →
      s0.translate f.val (s0.die ((s0.diesOf f.val).headD 0)).tlb 99200 res.toNat .write = .ok x →
      ∃ t, exec (.containerLoad f places) s = .next t ∧ (t.chip f.val).loader.job = none
        ∧ (t.chip f.val).kernels = (s.chip f.val).kernels ∧ t.slices = s.slices
        ∧ ∀ p, t.readByte (s.keyTag f.val) p = storedOver [(x.pa, leBytes 16 code)] p (s.readByte (s.keyTag f.val) p))
    ∧ (code = 0 → s.reserveOk f.val es places (recordsOf es c).length = true →
      ∃ t, exec (.containerLoad f places) s = .next t ∧ (t.chip f.val).loader.job = none ∧ t.slices = s.slices
        ∧ (t.chip f.val).kernels = putFrom (s.chip f.val).kernels (s.chip f.val).kernels.length
            ((recordsOf es c).map (fun r =>
              relocate r (firstAt (placed es places) 1) (firstAt (placed es places) 5) (firstAt (placed es places) 6)))
        ∧ let u := s0.install f.val c es places
          ∀ x : Xlat, res.toNat % 16 = 0 → res.toNat < 0x7FFFFF0000000000 →
            u.translate f.val (u.die ((u.diesOf f.val).headD 0)).tlb 99200 res.toNat .write = .ok x →
            ∀ p, t.readByte (u.keyTag f.val) p = storedOver [(x.pa, leBytes 16
              (2 ^ 32 * if (recordsOf es c).isEmpty then 0 else (s.chip f.val).kernels.length))] p (u.readByte (u.keyTag f.val) p))

/-- R376: a steward request is ignored while one is in progress, writes result 5 when it is refused, and else puts one packet on the steward
queue of a die and is in progress, at the scopes of log entry 48. After a boot that failed it is ignored (R432). -/
def Claims.StewardRequests : Prop :=
  (∀ s : State, s.bootFailed = true → exec .stewardRequest s = .next s)
  ∧ ∀ (s : State), s.bootFailed = false →
    let d := s.dev.steward
    (d.busy = true → exec .stewardRequest s = .next s)
    ∧ (d.busy = false → s.stewardRefused = true → ∃ t, exec .stewardRequest s = .next t ∧ t.dies = s.dies
        ∧ ∀ p, t.readByte none p = storedOver [(d.resaddr.toNat, leBytes 16 5)] p (s.readByte none p))
    ∧ (d.busy = false → s.stewardRefused = false →
        let die := if d.ctx.getLsbD 7 then (s.diesOf (d.ctx.extractLsb' 0 6).toNat).headD 0 else 0
        ∃ t, exec .stewardRequest s = .next t ∧ t.mem = s.mem ∧ t.dev.steward = { d with busy := true, result := d.resaddr }
          ∧ (t.die die).steward = (s.die die).steward ++ [stewardPacket d] ∧ ∀ n, n ≠ die → t.die n = s.die n)

/-- R83–R88, R161, R376, R387: requests to the loader and to the steward. -/
def Obligations.LoaderAndSteward : Prop := Claims.LoaderRequests ∧ Claims.ContainerLoads ∧ Claims.StewardRequests

/-- R398, R406: a function-level reset leaves no packet of its function; its queues' registers, wells, TFBASE and HWDOG take their reset
values (TFBASE's is log entry 1; CTBASE stays, log entry 92), its reset generation rises by one, and an event of KIND 4 with that generation waits for its log; a locked function returns
to CONFIG_UNLOCKED without keys. After a failed boot it does nothing (R432). -/
def Claims.FunctionReset : Prop :=
  ∀ (s : State) (f : Fin 64),
    (s.dev.devstat.extractLsb' 16 8 ≠ 0 → exec (.functionLevelReset f) s = .next s)
    ∧ (s.dev.devstat.extractLsb' 16 8 = 0 → (∀ d, d < 4 → (s.die d).slotsNext = []) →
    ∃ t e, exec (.functionLevelReset f) s = .next t ∧ (∀ g ∈ t.grids, homeFn g.2.home ≠ f.val)
      ∧ (∀ q, (t.queue f.val q).state = .disabled) ∧ (t.chip f.val).wells = [] ∧ (t.chip f.val).tfbase = 0
      ∧ (t.chip f.val).hwdog = 1000 ∧ (t.chip f.val).log.en = false
      ∧ (t.chip f.val).log.gen = (s.chip f.val).log.gen + 1
      ∧ (t.chip f.val).pending = (s.chip f.val).pending ++ [e] ∧ e.kind = 4 ∧ e.gen = (s.chip f.val).log.gen + 1
      ∧ (s.frozen f.val = true → (t.chip f.val).tdisp = .unlocked ∧ (t.chip f.val).keyId = 0 ∧ (t.chip f.val).signKeys = []
          ∧ (t.chip f.val).linkKeys = [] ∧ (t.chip f.val).att = 0)
      ∧ (s.frozen f.val = false → (t.chip f.val).tdisp = (s.chip f.val).tdisp))

/-- R431, R432: a module reset leaves no grid, block or slice, every queue DISABLED and device memory zero, and boots: DEVSTAT holds BOOTERR 1
for a wrong key or signature, 2 for a security version below the fused minimum, 4 for dies that do not start, 3 for KSM that does
not train, each with the last step completed; else READY, with the image and the signed configuration measured and its layout in force. That device memory reads zero after a boot that failed before
it would have been cleared is log entry 4. -/
def Claims.ModuleReset : Prop :=
  ∀ (s : State) (img : BootImage), s.dev.pfLoader.job = none →
    let signed : Prop := Sha.digest img.key = Config.rootKeyHash ∧ Ecdsa.verify img.key img.image img.sig = true
    let current : Prop := s.dev.minSecurity ≤ Config.imageSecurity img.image
    let level := (Config.imageLevel img.image).toNat
    ∃ t, exec (.moduleReset img) s = .next t ∧ t.grids = [] ∧ t.blocks = [] ∧ t.slices = []
      ∧ (∀ f q, (t.queue f q).state = .disabled)
      ∧ (∀ a, Config.isHostMemory (a / 128) = false → Memory.get t.mem a = 0)
      ∧ (¬ signed → t.dev.devstat = devstatOf 0 1 0 0)
      ∧ (signed → ¬ current → t.dev.devstat = devstatOf 0 2 1 0)
      ∧ (signed → current → img.diesStart = false → t.dev.devstat = devstatOf level 4 2 0)
      ∧ (signed → current → img.diesStart = true → img.ksmTrains = false → t.dev.devstat = devstatOf level 3 3 0)
      ∧ (signed → current → img.diesStart = true → img.ksmTrains = true →
          t.dev.devstat = devstatOf level 0 6 1 ∧ t.dev.fwMeas = Sha.digest img.image
          ∧ t.dev.configMeas = Sha.digest (signedConfig img)
          ∧ t.dev.minSecurity = max s.dev.minSecurity (Config.imageSecurity img.image)
          ∧ ∀ l d, Config.configLayout (signedConfig img) = some l → layoutOk l = true → d < 4 → (t.die d).partcfg = partcfgOf l d)

/-- R398, R406, R431, R432: resets. -/
def Obligations.Resets : Prop := Claims.FunctionReset ∧ Claims.ModuleReset

/-- R433, R434: a request that the connection's state permits gets its response and changes the connection as its row says; another one
gets the error response and changes nothing. A function that a failed boot hides answers nothing (R432). What the connection's
state permits rests on log entry 55. -/
def Obligations.SpdmResponses : Prop :=
  ∀ (s : State) (i : Instr) (fn : Fn) (ok : Bool) (y : Spdm) (r : Response),
    s.spdmRule i = some (fn, ok, y, r) →
    (s.exposed fn = false → exec i s = .next s)
    ∧ (s.exposed fn = true → exec i s = .next (s.withSpdm fn (if ok then { y with out := y.out ++ [r] }
        else { s.spdm fn with out := (s.spdm fn).out ++ [.error] })))

/-- R406, R407: inside the function's secure session LOCK_INTERFACE gives an unlocked function a fresh memory key and locks it,
START_INTERFACE runs a locked one, STOP_INTERFACE returns any to CONFIG_UNLOCKED without keys, the report and the state are delivered,
and a guest installs its signing and link keys in RUN; without a session each gets the error response and changes nothing else. The error
response, and that a session is needed, are log entry 55 (DESIGN CHOICE). -/
def Obligations.TdispRequests : Prop :=
  ∀ (s : State) (f : Fin 64), s.exposed (.vf f) = true →
    let c := s.chip f.val
    let reply (r : Response) : State := s.withSpdm (.vf f) { s.spdm (.vf f) with out := (s.spdm (.vf f)).out ++ [r] }
    let acks (i : Instr) (r : Response) (done : State → Prop) : Prop :=
      ∃ t, exec i s = .next t ∧ t.spdm (.vf f) = { s.spdm (.vf f) with out := (s.spdm (.vf f)).out ++ [r] } ∧ done t
    ((s.spdm (.vf f)).session = false →
      exec (.lockInterface f) s = .next (reply .error) ∧ exec (.startInterface f) s = .next (reply .error)
      ∧ exec (.stopInterface f) s = .next (reply .error) ∧ exec (.getDeviceInterfaceReport f) s = .next (reply .error)
      ∧ exec (.getDeviceInterfaceState f) s = .next (reply .error)
      ∧ ∀ secured m, exec (.vendorDefinedRequest (.vf f) secured m) s = .next (reply .error))
    ∧ ((s.spdm (.vf f)).session = true →
      (c.tdisp = .unlocked → acks (.lockInterface f) .tdispAck (fun t => (t.chip f.val).tdisp = .locked
        ∧ (t.chip f.val).keyId = s.dev.nextKey ∧ t.dev.nextKey = s.dev.nextKey + 1 ∧ t.mem = s.mem))
      ∧ (c.tdisp ≠ .unlocked → exec (.lockInterface f) s = .next (reply .error))
      ∧ (c.tdisp = .locked → acks (.startInterface f) .tdispAck (fun t => (t.chip f.val).tdisp = .run ∧ t.mem = s.mem))
      ∧ (c.tdisp ≠ .locked → exec (.startInterface f) s = .next (reply .error))
      ∧ acks (.stopInterface f) .tdispAck (fun t => (t.chip f.val).tdisp = .unlocked
        ∧ (c.tdisp ≠ .unlocked → (t.chip f.val).keyId = 0 ∧ (t.chip f.val).signKeys = [] ∧ (t.chip f.val).linkKeys = []))
      ∧ exec (.getDeviceInterfaceReport f) s =
          .next (reply (.report c.att (s.frec f.val) [(s.die 0).partcfg, (s.die 1).partcfg, (s.die 2).partcfg, (s.die 3).partcfg]))
      ∧ exec (.getDeviceInterfaceState f) s = .next (reply (.state c.tdisp))
      ∧ (c.tdisp = .run → ∀ k, k ∉ c.signKeys → c.signKeys.length < 16 →
          acks (.vendorDefinedRequest (.vf f) true (.signingKey k)) .vendor (fun t => (t.chip f.val).signKeys = c.signKeys ++ [k]))
      ∧ (c.tdisp = .run → ∀ n k, acks (.vendorDefinedRequest (.vf f) true (.linkKey n k)) .vendor (fun t =>
          (t.chip f.val).linkKeys = Table.put c.linkKeys n.val k))
      ∧ (c.tdisp ≠ .run → ∀ m, exec (.vendorDefinedRequest (.vf f) true m) s = .next (reply .error)))

/-- R191, R203, R437: a detected error is counted, and an uncorrectable one poisons the register, the scratchpad word, the accumulator cell
or the memory line that it strikes; memory keeps its bytes. No load is outstanding that has still to be bound: an error strikes nothing that one has still to read
(log entry 58, the model's choice). -/
def Claims.StorageErrors : Prop :=
  ∀ (s : State) (corrected : Bool), (∀ e ∈ s.slices, ∀ o ∈ e.2.ops, o.isUnbound = false) →
    let counted (t : State) (i : Nat) : Prop := (Table.getD t.dev.counters i 0).toNat =
      min (2 ^ 64 - 1) ((Table.getD s.dev.counters i 0).toNat + 1)
    (∀ (k n : Nat) (c : Ctx), s.ctx k = some c → n < c.squad.vcount → c.b.core < 160 →
      ∃ t, exec (.memoryError (.register k n) corrected) s = .next t ∧ t.mem = s.mem
        ∧ counted t (if corrected then c.b.core else 0xA0 + c.b.core)
        ∧ Table.find t.slices k =
            some (if corrected then c.x else { c.x with vpoison := Sparse.set false c.x.vpoison n true }))
    ∧ (∀ (u w : Nat) (b : Block), Table.find s.blocks u = some b → w * 16 < b.scratchSize → b.core < 160 →
      ∃ t, exec (.memoryError (.scratch u w) corrected) s = .next t ∧ t.mem = s.mem
        ∧ counted t (if corrected then b.core else 0xA0 + b.core)
        ∧ Table.find t.blocks u = some (if corrected then b else { b with poison := Sparse.set false b.poison w true }))
    ∧ (∀ (core row col : Nat), core < 160 → row < 512 → col < 128 →
      ∃ t, exec (.memoryError (.cell core row col) corrected) s = .next t ∧ t.mem = s.mem
        ∧ counted t (if corrected then core else 0xA0 + core)
        ∧ (corrected = false → Sparse.get false (t.core core).accPoison (row * 128 + col) = true))
    ∧ (∀ (a : Nat) (k : Fin 12) (row : Nat),
      ∃ t, exec (.memoryError (.line a k row) corrected) s = .next t ∧ t.mem = s.mem
        ∧ counted t (if corrected then 0x140 + k.val else 0x14C + k.val)
        ∧ ∀ l, Sparse.get false t.poison l = if corrected = false ∧ l = a / 128 then true else Sparse.get false s.poison l)

/-- R202, R436, R437: a patrol scrub changes nothing (log entry 99); a retrain of a Melsan link is counted; a commit of the lifetime counters uses one of
those left; a self-test that passes, and follows no second error, clears its structure, and one that fails uses a spare. -/
def Claims.Maintenance : Prop :=
  (∀ (s : State) line stack, exec (.patrolScrub line stack) s = .next s)
  ∧ (∀ (s : State) (link : Fin 16) (lane : Nat), ∃ t, exec (.laneRetrain link false lane) s = .next t ∧ t.mem = s.mem
      ∧ (Table.getD t.dev.counters (0x160 + link.val) 0).toNat =
          min (2 ^ 64 - 1) ((Table.getD s.dev.counters (0x160 + link.val) 0).toNat + 1))
  ∧ (∀ (s : State), (s.dev.commitsLeft = 0 → exec .counterCommit s = .next s)
      ∧ (s.dev.commitsLeft ≠ 0 → ∃ t, exec .counterCommit s = .next t ∧ t.dev.commitsLeft = s.dev.commitsLeft - 1
        ∧ t.dev.savedCounters = s.dev.counters ∧ t.mem = s.mem))
  ∧ ∀ (s : State) (x : Structure),
      ((∀ y ∈ s.dev.tests, sameStructure y x = false) → ∀ fails, exec (.selfTest x fails) s = .next s)
      ∧ (x ∈ s.dev.tests → (s.dev.errors.filter (fun e => sameStructure e.1 x)).length = 1 →
          exec (.selfTest x false) s = .next (s.modDev (fun d => { d with tests := d.tests.filter (fun y => !sameStructure y x) })))
      ∧ (x ∈ s.dev.tests → countOf (spareGroup x) s.dev.spared < spares (spareGroup x) →
          ∃ t, exec (.selfTest x true) s = .next t ∧ countOf (spareGroup x) t.dev.spared = countOf (spareGroup x) s.dev.spared + 1
            ∧ x ∉ t.dev.tests ∧ t.cores = s.cores ∧ t.mem = s.mem)

/-- R435: a thermal throttle lowers CAP of a core's GOVCFG, from the next window boundary, and no other bit; a thermal shutdown kills every block and ends every grid that
runs with STATUS 3, in the committed image of a time-sliced chip too; that no fault is recorded of it is log entry 97. -/
def Claims.Power : Prop :=
  (∀ (s : State) (core : Nat) (cap : BitVec 9), core < 160 → 16 ≤ cap.toNat → cap.toNat < govCap (s.core core).govNext →
    ∃ h, exec (.thermalThrottle core cap) s = .next (s.modCore core (fun k => { k.govern s.now h with
      govNext := (k.govNext &&& ~~~(0x1FF#64 <<< 16)) ||| (cap.setWidth 64 <<< 16) })))
  ∧ ∀ s : State, ∃ t, exec .thermalShutdown s = .next t ∧ t.dev.shutdown = true ∧ t.mem = s.mem ∧ t.slices = s.slices
      ∧ (∀ u b, Table.find t.blocks u = some b → b.killed = true)
      ∧ ∀ g x, Table.find s.grids g = some x → Table.find t.grids g =
          some (if x.state = .dispatching ∨ x.state = .draining then { x with state := .killing, status := 3, undisp := [] } else x)
      ∧ ∀ v i, (t.chip v).committed = some i → (∀ e ∈ i.blocks, e.2.killed = true)
          ∧ ∀ e ∈ i.grids, e.2.state ≠ .dispatching ∧ e.2.state ≠ .draining

/-- R191, R202, R203, R435–R437: errors, their repair, and power. -/
def Obligations.ErrorsAndPower : Prop := Claims.StorageErrors ∧ Claims.Maintenance ∧ Claims.Power
end

