-- ==== Sys2Proof/Laws/PerInstr.lean ====
section
/-! SUPPORT. What is proved of each instruction as syntax: that its word fits in 64 bits (R55, R56, R59). -/

namespace Sys2Proof

set_option Elab.async false

theorem bitOf_lt (b : Bool) : bitOf b < 2 := by cases b <;> decide
theorem guardBits_lt (g : Guard) : guardBits g < 32 := by
  cases g with
  | always => decide
  | q neg d => have := bitOf_lt neg; have := d.isLt; simp only [guardBits]; omega
theorem specialCode_lt (p : Special) : specialCode p < 256 := by
  cases p with
  | level k => revert k; decide
  | _ => decide
theorem ssrcCode_lt (a : SSrc) : ssrcCode a < 256 := by
  cases a with
  | s n => have := n.isLt; simp only [ssrcCode]; omega
  | sp p => exact specialCode_lt p
theorem vsrcCode_lt (a : VSrc) : vsrcCode a < 256 := by
  cases a with
  | v n => exact n.isLt
  | s a => exact ssrcCode_lt a
theorem vsrcSel_lt (a : VSrc) : vsrcSel a < 2 := by cases a <;> simp [vsrcSel]
theorem optCode_lt (a : Option SSrc) : optCode a < 256 := by
  cases a with
  | none => decide
  | some a => exact ssrcCode_lt a
theorem optSel_lt (a : Option SSrc) : optSel a < 2 := by cases a <;> simp [optSel]
theorem fmtCode_lt (x : Fmt) : fmtCode x < 32 := by cases x <;> decide
theorem rndCode_lt (x : Rnd) : rndCode x < 8 := by cases x <;> decide
theorem rmCode_lt (x : RM) : rmCode x < 8 := by cases x <;> decide
theorem scopeCode_lt (x : Scope) : scopeCode x < 16 := by cases x <;> decide
theorem eclassCode_lt (x : EClass) : eclassCode x < 8 := by cases x <;> decide
theorem condCode_lt (x : Cond) : condCode x < 16 := by cases x <;> decide
theorem ordCode_lt (x : Ord) : ordCode x < 4 := by cases x <;> decide
theorem feCode_lt (x : FE) : feCode x < 4 := by cases x <;> decide
theorem szCode_lt (x : Sz) : szCode x < 7 := by cases x <;> decide
theorem modeCode_lt (x : Mode) : modeCode x < 8 := by cases x <;> decide
theorem ncCode_lt (x : NC) : ncCode x < 4 := by cases x <;> decide
theorem prCode_lt (x : PoisonReport) : prCode x < 4 := by cases x <;> decide
theorem sysregCode_lt (x : SysReg) : sysregCode x < 2048 := by cases x <;> decide
theorem ropMod_lt (x : Rop) : ropMod x < 131 := by cases x <;> decide
theorem maskC_lt (m : SliceMask) : maskC m < 256 := by
  unfold maskC
  split
  · decide
  · rename_i n _; omega

theorem rrWord_lt (c : Ctl) (op d a b x md : Nat) (ho : op < 1024) (hd : d < 256) (ha : a < 256) (hb : b < 256) (hx : x < 256)
    (hm : md < 32768) : rrWord c op d a b x md < 2 ^ 64 := by
  have := bitOf_lt c.m
  have := guardBits_lt c.guard
  unfold rrWord
  omega
theorem siWord_lt (c : Ctl) (op d a k md : Nat) (ho : op < 1024) (hd : d < 256) (ha : a < 256) (hk : k < 65536) (hm : md < 32768) :
    siWord c op d a k md < 2 ^ 64 := by
  have := bitOf_lt c.m
  have := guardBits_lt c.guard
  unfold siWord
  omega
theorem kiWord_lt (c : Ctl) (op d k km : Nat) (ho : op < 1024) (hd : d < 256) (hk : k < 4294967296) (hm : km < 128) :
    kiWord c op d k km < 2 ^ 64 := by
  have := bitOf_lt c.m
  have := guardBits_lt c.guard
  unfold kiWord
  omega
theorem moWord_lt (c : Ctl) (op d : Nat) (mem : MemArg) (md : Nat) (ho : op < 1024) (hd : d < 256) (hm : md < 248) :
    moWord c op d mem md < 2 ^ 64 := by
  have := mem.base.isLt
  have := mem.off.isLt
  have := scopeCode_lt mem.scope
  have := ordCode_lt mem.ord
  have := bitOf_lt mem.idx.isSome
  have := bitOf_lt mem.nt
  have hi : (match mem.idx with | some v => v.val | none => 0) < 256 := by
    split
    · rename_i v _; exact v.isLt
    · decide
  exact rrWord_lt _ _ _ _ _ _ _ ho hd (by omega) hi (by omega) (by omega)
theorem halfNat_lt (h : Half) : halfNat h < 2 ^ 31 := by
  have hp : popCode h.pop < 64 := by cases h.pop <;> decide
  have := h.pg.isLt
  have := h.d.isLt
  have := h.a.isLt
  have := h.x.isLt
  unfold halfNat
  omega

namespace Laws.Fits

/-- The word of an instruction fits in 64 bits, so that `encode` drops no bit of it. -/
def Statement (i : Instr) : Prop := encodeNat i < 2 ^ 64

theorem nop : ∀ c, Statement (.nop c) := fun c => by
  apply rrWord_lt <;> omega
theorem pairedWord (m : Bool) (h1 h2 : Half) : Statement (.pairedWord m h1 h2) := by
  have := bitOf_lt m
  have := halfNat_lt h1
  have := halfNat_lt h2
  simp only [Statement, encodeNat]
  omega
theorem illegalInstruction (w : Word64) : Statement (.illegalInstruction w) := w.isLt
theorem sadd : ∀ c sat d a b, Statement (.sadd c sat d a b) := fun c sat d a b => by
  have := ssrcCode_lt a
  have := ssrcCode_lt b
  have := bitOf_lt sat
  have := d.isLt
  apply rrWord_lt <;> omega
theorem ssub : ∀ c sat d a b, Statement (.ssub c sat d a b) := fun c sat d a b => by
  have := ssrcCode_lt a
  have := ssrcCode_lt b
  have := bitOf_lt sat
  have := d.isLt
  apply rrWord_lt <;> omega
theorem smul : ∀ c sat d a b, Statement (.smul c sat d a b) := fun c sat d a b => by
  have := ssrcCode_lt a
  have := ssrcCode_lt b
  have := bitOf_lt sat
  have := d.isLt
  apply rrWord_lt <;> omega
theorem smulh : ∀ c d a b, Statement (.smulh c d a b) := fun c d a b => by
  have := ssrcCode_lt a
  have := ssrcCode_lt b
  have := d.isLt
  apply rrWord_lt <;> omega
theorem smulhn : ∀ c d a b, Statement (.smulhn c d a b) := fun c d a b => by
  have := ssrcCode_lt a
  have := ssrcCode_lt b
  have := d.isLt
  apply rrWord_lt <;> omega
theorem smin : ∀ c d a b, Statement (.smin c d a b) := fun c d a b => by
  have := ssrcCode_lt a
  have := ssrcCode_lt b
  have := d.isLt
  apply rrWord_lt <;> omega
theorem smax : ∀ c d a b, Statement (.smax c d a b) := fun c d a b => by
  have := ssrcCode_lt a
  have := ssrcCode_lt b
  have := d.isLt
  apply rrWord_lt <;> omega
theorem sminn : ∀ c d a b, Statement (.sminn c d a b) := fun c d a b => by
  have := ssrcCode_lt a
  have := ssrcCode_lt b
  have := d.isLt
  apply rrWord_lt <;> omega
theorem smaxn : ∀ c d a b, Statement (.smaxn c d a b) := fun c d a b => by
  have := ssrcCode_lt a
  have := ssrcCode_lt b
  have := d.isLt
  apply rrWord_lt <;> omega
theorem sand : ∀ c d a b, Statement (.sand c d a b) := fun c d a b => by
  have := ssrcCode_lt a
  have := ssrcCode_lt b
  have := d.isLt
  apply rrWord_lt <;> omega
theorem sor : ∀ c d a b, Statement (.sor c d a b) := fun c d a b => by
  have := ssrcCode_lt a
  have := ssrcCode_lt b
  have := d.isLt
  apply rrWord_lt <;> omega
theorem sxor : ∀ c d a b, Statement (.sxor c d a b) := fun c d a b => by
  have := ssrcCode_lt a
  have := ssrcCode_lt b
  have := d.isLt
  apply rrWord_lt <;> omega
theorem sandn : ∀ c d a b, Statement (.sandn c d a b) := fun c d a b => by
  have := ssrcCode_lt a
  have := ssrcCode_lt b
  have := d.isLt
  apply rrWord_lt <;> omega
theorem sshl : ∀ c d a b, Statement (.sshl c d a b) := fun c d a b => by
  have := ssrcCode_lt a
  have := ssrcCode_lt b
  have := d.isLt
  apply rrWord_lt <;> omega
theorem sshr : ∀ c d a b, Statement (.sshr c d a b) := fun c d a b => by
  have := ssrcCode_lt a
  have := ssrcCode_lt b
  have := d.isLt
  apply rrWord_lt <;> omega
theorem ssra : ∀ c d a b, Statement (.ssra c d a b) := fun c d a b => by
  have := ssrcCode_lt a
  have := ssrcCode_lt b
  have := d.isLt
  apply rrWord_lt <;> omega
theorem srot : ∀ c d a b, Statement (.srot c d a b) := fun c d a b => by
  have := ssrcCode_lt a
  have := ssrcCode_lt b
  have := d.isLt
  apply rrWord_lt <;> omega
theorem sclz : ∀ c d a, Statement (.sclz c d a) := fun c d a => by
  have := ssrcCode_lt a
  have := d.isLt
  apply rrWord_lt <;> omega
theorem sctz : ∀ c d a, Statement (.sctz c d a) := fun c d a => by
  have := ssrcCode_lt a
  have := d.isLt
  apply rrWord_lt <;> omega
theorem spopc : ∀ c d a, Statement (.spopc c d a) := fun c d a => by
  have := ssrcCode_lt a
  have := d.isLt
  apply rrWord_lt <;> omega
theorem sbrev : ∀ c d a, Statement (.sbrev c d a) := fun c d a => by
  have := ssrcCode_lt a
  have := d.isLt
  apply rrWord_lt <;> omega
theorem sbfx : ∀ c signed d a b x, Statement (.sbfx c signed d a b x) := fun c signed d a b x => by
  have := ssrcCode_lt a
  have := ssrcCode_lt b
  have := ssrcCode_lt x
  have := bitOf_lt signed
  have := d.isLt
  apply rrWord_lt <;> omega
theorem sbfi : ∀ c d a b x, Statement (.sbfi c d a b x) := fun c d a b x => by
  have := ssrcCode_lt a
  have := ssrcCode_lt b
  have := ssrcCode_lt x
  have := d.isLt
  apply rrWord_lt <;> omega
theorem ssext : ∀ c z n d a, Statement (.ssext c z n d a) := fun c z n d a => by
  have := ssrcCode_lt a
  have := bitOf_lt z
  have := d.isLt
  have := n.isLt
  apply rrWord_lt <;> omega
theorem slea : ∀ c pod k d a b, Statement (.slea c pod k d a b) := fun c pod k d a b => by
  have := ssrcCode_lt a
  have := ssrcCode_lt b
  have := bitOf_lt pod
  have := d.isLt
  have := k.isLt
  apply rrWord_lt <;> omega
theorem sselz : ∀ c d a b x, Statement (.sselz c d a b x) := fun c d a b x => by
  have := ssrcCode_lt a
  have := ssrcCode_lt b
  have := ssrcCode_lt x
  have := d.isLt
  apply rrWord_lt <;> omega
theorem smov : ∀ c d a, Statement (.smov c d a) := fun c d a => by
  have := ssrcCode_lt a
  have := d.isLt
  apply rrWord_lt <;> omega
theorem scmp : ∀ c cond a b, Statement (.scmp c cond a b) := fun c cond a b => by
  have := ssrcCode_lt a
  have := ssrcCode_lt b
  have := condCode_lt cond
  apply rrWord_lt <;> omega
theorem sabs : ∀ c sat d a, Statement (.sabs c sat d a) := fun c sat d a => by
  have := ssrcCode_lt a
  have := bitOf_lt sat
  have := d.isLt
  apply rrWord_lt <;> omega
theorem sclamp : ∀ c n d a b x, Statement (.sclamp c n d a b x) := fun c n d a b x => by
  have := ssrcCode_lt a
  have := ssrcCode_lt b
  have := ssrcCode_lt x
  have := bitOf_lt n
  have := d.isLt
  apply rrWord_lt <;> omega
theorem saddi : ∀ c sat d a k, Statement (.saddi c sat d a k) := fun c sat d a k => by
  have := ssrcCode_lt a
  have := bitOf_lt sat
  have := d.isLt
  have := k.isLt
  apply siWord_lt <;> omega
theorem smuli : ∀ c sat d a k, Statement (.smuli c sat d a k) := fun c sat d a k => by
  have := ssrcCode_lt a
  have := bitOf_lt sat
  have := d.isLt
  have := k.isLt
  apply siWord_lt <;> omega
theorem sandi : ∀ c d a k, Statement (.sandi c d a k) := fun c d a k => by
  have := ssrcCode_lt a
  have := d.isLt
  have := k.isLt
  apply siWord_lt <;> omega
theorem sori : ∀ c d a k, Statement (.sori c d a k) := fun c d a k => by
  have := ssrcCode_lt a
  have := d.isLt
  have := k.isLt
  apply siWord_lt <;> omega
theorem sxori : ∀ c d a k, Statement (.sxori c d a k) := fun c d a k => by
  have := ssrcCode_lt a
  have := d.isLt
  have := k.isLt
  apply siWord_lt <;> omega
theorem sshli : ∀ c d a k, Statement (.sshli c d a k) := fun c d a k => by
  have := ssrcCode_lt a
  have := d.isLt
  have := k.isLt
  apply siWord_lt <;> omega
theorem sshri : ∀ c d a k, Statement (.sshri c d a k) := fun c d a k => by
  have := ssrcCode_lt a
  have := d.isLt
  have := k.isLt
  apply siWord_lt <;> omega
theorem ssrai : ∀ c d a k, Statement (.ssrai c d a k) := fun c d a k => by
  have := ssrcCode_lt a
  have := d.isLt
  have := k.isLt
  apply siWord_lt <;> omega
theorem sroti : ∀ c d a k, Statement (.sroti c d a k) := fun c d a k => by
  have := ssrcCode_lt a
  have := d.isLt
  have := k.isLt
  apply siWord_lt <;> omega
theorem scmpi : ∀ c cond a k, Statement (.scmpi c cond a k) := fun c cond a k => by
  have := ssrcCode_lt a
  have := condCode_lt cond
  have := k.isLt
  apply siWord_lt <;> omega
theorem smini : ∀ c d a k, Statement (.smini c d a k) := fun c d a k => by
  have := ssrcCode_lt a
  have := d.isLt
  have := k.isLt
  apply siWord_lt <;> omega
theorem smaxi : ∀ c d a k, Statement (.smaxi c d a k) := fun c d a k => by
  have := ssrcCode_lt a
  have := d.isLt
  have := k.isLt
  apply siWord_lt <;> omega
theorem smovk : ∀ c d k, Statement (.smovk c d k) := fun c d k => by
  have := d.isLt
  have := k.isLt
  apply kiWord_lt <;> omega
theorem smovkh : ∀ c d k, Statement (.smovkh c d k) := fun c d k => by
  have := d.isLt
  have := k.isLt
  apply kiWord_lt <;> omega
theorem saddk : ∀ c d k, Statement (.saddk c d k) := fun c d k => by
  have := d.isLt
  have := k.isLt
  apply kiWord_lt <;> omega
theorem sleapc : ∀ c d k, Statement (.sleapc c d k) := fun c d k => by
  have := d.isLt
  have := k.isLt
  apply kiWord_lt <;> omega
theorem exsave : ∀ c d, Statement (.exsave c d) := fun c d => by
  have := d.isLt
  apply rrWord_lt <;> omega
theorem exload : ∀ c a, Statement (.exload c a) := fun c a => by
  have := ssrcCode_lt a
  apply rrWord_lt <;> omega
theorem exand : ∀ c d a, Statement (.exand c d a) := fun c d a => by
  have := ssrcCode_lt a
  have := d.isLt
  apply rrWord_lt <;> omega
theorem exandn : ∀ c d a, Statement (.exandn c d a) := fun c d a => by
  have := ssrcCode_lt a
  have := d.isLt
  apply rrWord_lt <;> omega
theorem exfromq : ∀ c neg depth d, Statement (.exfromq c neg depth d) := fun c neg depth d => by
  have := bitOf_lt neg
  have := d.isLt
  have := depth.isLt
  apply rrWord_lt <;> omega
theorem qsave : ∀ c d, Statement (.qsave c d) := fun c d => by
  have := d.isLt
  apply rrWord_lt <;> omega
theorem qload : ∀ c a, Statement (.qload c a) := fun c a => by
  have := ssrcCode_lt a
  apply rrWord_lt <;> omega
theorem moderd : ∀ c d, Statement (.moderd c d) := fun c d => by
  have := d.isLt
  apply rrWord_lt <;> omega
theorem modewr : ∀ c a, Statement (.modewr c a) := fun c a => by
  have := ssrcCode_lt a
  apply rrWord_lt <;> omega
theorem moderm : ∀ c rm, Statement (.moderm c rm) := fun c rm => by
  have := rmCode_lt rm
  apply rrWord_lt <;> omega
theorem bra : ∀ c pack disp, Statement (.bra c pack disp) := fun c pack disp => by
  have := bitOf_lt pack
  have := disp.isLt
  apply kiWord_lt <;> omega
theorem bexz : ∀ c pack disp, Statement (.bexz c pack disp) := fun c pack disp => by
  have := bitOf_lt pack
  have := disp.isLt
  apply kiWord_lt <;> omega
theorem bexnz : ∀ c pack disp, Statement (.bexnz c pack disp) := fun c pack disp => by
  have := bitOf_lt pack
  have := disp.isLt
  apply kiWord_lt <;> omega
theorem call : ∀ c d disp, Statement (.call c d disp) := fun c d disp => by
  have := d.isLt
  have := disp.isLt
  apply kiWord_lt <;> omega
theorem ret : ∀ c a, Statement (.ret c a) := fun c a => by
  have := ssrcCode_lt a
  apply rrWord_lt <;> omega
theorem brs : ∀ c a, Statement (.brs c a) := fun c a => by
  have := ssrcCode_lt a
  apply rrWord_lt <;> omega
theorem brix : ∀ c a, Statement (.brix c a) := fun c a => by
  have := ssrcCode_lt a
  apply rrWord_lt <;> omega
theorem brixl : ∀ c d va, Statement (.brixl c d va) := fun c d va => by
  have := d.isLt
  have := va.isLt
  apply rrWord_lt <;> omega
theorem exit : ∀ c, Statement (.exit c) := fun c => by
  apply rrWord_lt <;> omega
theorem wait : ∀ c ld st en wl fb, Statement (.wait c ld st en wl fb) := fun c ld st en wl fb => by
  have := ld.isLt
  have := st.isLt
  have := en.isLt
  have := wl.isLt
  have := fb.isLt
  apply rrWord_lt <;> omega
theorem regang : ∀ c xsm, Statement (.regang c xsm) := fun c xsm => by
  have := xsm.isLt
  apply rrWord_lt <;> omega
theorem vadd : ∀ c f rnd sat d a b, Statement (.vadd c f rnd sat d a b) := fun c f rnd sat d a b => by
  have := vsrcCode_lt b
  have := fmtCode_lt f
  have := rndCode_lt rnd
  have := bitOf_lt sat
  have := vsrcSel_lt b
  have := d.isLt
  have := a.isLt
  apply rrWord_lt <;> omega
theorem vsub : ∀ c f rnd sat d a b, Statement (.vsub c f rnd sat d a b) := fun c f rnd sat d a b => by
  have := vsrcCode_lt b
  have := fmtCode_lt f
  have := rndCode_lt rnd
  have := bitOf_lt sat
  have := vsrcSel_lt b
  have := d.isLt
  have := a.isLt
  apply rrWord_lt <;> omega
theorem vmul : ∀ c f rnd sat d a b, Statement (.vmul c f rnd sat d a b) := fun c f rnd sat d a b => by
  have := vsrcCode_lt b
  have := fmtCode_lt f
  have := rndCode_lt rnd
  have := bitOf_lt sat
  have := vsrcSel_lt b
  have := d.isLt
  have := a.isLt
  apply rrWord_lt <;> omega
theorem vfma : ∀ c f rnd sat d a b x, Statement (.vfma c f rnd sat d a b x) := fun c f rnd sat d a b x => by
  have := vsrcCode_lt b
  have := vsrcCode_lt x
  have := fmtCode_lt f
  have := rndCode_lt rnd
  have := bitOf_lt sat
  have := vsrcSel_lt b
  have := vsrcSel_lt x
  have := d.isLt
  have := a.isLt
  apply rrWord_lt <;> omega
theorem vfms : ∀ c f rnd sat d a b x, Statement (.vfms c f rnd sat d a b x) := fun c f rnd sat d a b x => by
  have := vsrcCode_lt b
  have := vsrcCode_lt x
  have := fmtCode_lt f
  have := rndCode_lt rnd
  have := bitOf_lt sat
  have := vsrcSel_lt b
  have := vsrcSel_lt x
  have := d.isLt
  have := a.isLt
  apply rrWord_lt <;> omega
theorem vfnma : ∀ c f rnd sat d a b x, Statement (.vfnma c f rnd sat d a b x) := fun c f rnd sat d a b x => by
  have := vsrcCode_lt b
  have := vsrcCode_lt x
  have := fmtCode_lt f
  have := rndCode_lt rnd
  have := bitOf_lt sat
  have := vsrcSel_lt b
  have := vsrcSel_lt x
  have := d.isLt
  have := a.isLt
  apply rrWord_lt <;> omega
theorem vmin : ∀ c f prop d a b, Statement (.vmin c f prop d a b) := fun c f prop d a b => by
  have := vsrcCode_lt b
  have := fmtCode_lt f
  have := bitOf_lt prop
  have := vsrcSel_lt b
  have := d.isLt
  have := a.isLt
  apply rrWord_lt <;> omega
theorem vmax : ∀ c f prop d a b, Statement (.vmax c f prop d a b) := fun c f prop d a b => by
  have := vsrcCode_lt b
  have := fmtCode_lt f
  have := bitOf_lt prop
  have := vsrcSel_lt b
  have := d.isLt
  have := a.isLt
  apply rrWord_lt <;> omega
theorem vabs : ∀ c f sat d a, Statement (.vabs c f sat d a) := fun c f sat d a => by
  have := fmtCode_lt f
  have := bitOf_lt sat
  have := d.isLt
  have := a.isLt
  apply rrWord_lt <;> omega
theorem vneg : ∀ c f sat d a, Statement (.vneg c f sat d a) := fun c f sat d a => by
  have := fmtCode_lt f
  have := bitOf_lt sat
  have := d.isLt
  have := a.isLt
  apply rrWord_lt <;> omega
theorem vcpsgn : ∀ c f xor d a b, Statement (.vcpsgn c f xor d a b) := fun c f xor d a b => by
  have := vsrcCode_lt b
  have := fmtCode_lt f
  have := bitOf_lt xor
  have := vsrcSel_lt b
  have := d.isLt
  have := a.isLt
  apply rrWord_lt <;> omega
theorem vcmp : ∀ c f cond a b, Statement (.vcmp c f cond a b) := fun c f cond a b => by
  have := vsrcCode_lt b
  have := fmtCode_lt f
  have := condCode_lt cond
  have := vsrcSel_lt b
  have := a.isLt
  apply rrWord_lt <;> omega
theorem vsel : ∀ c f neg depth d a b, Statement (.vsel c f neg depth d a b) := fun c f neg depth d a b => by
  have := vsrcCode_lt b
  have := fmtCode_lt f
  have := bitOf_lt neg
  have := vsrcSel_lt b
  have := d.isLt
  have := a.isLt
  have := depth.isLt
  apply rrWord_lt <;> omega
theorem vmov : ∀ c f d b, Statement (.vmov c f d b) := fun c f d b => by
  have := vsrcCode_lt b
  have := fmtCode_lt f
  have := vsrcSel_lt b
  have := d.isLt
  apply rrWord_lt <;> omega
theorem vcvt : ∀ c f src rnd sat d a, Statement (.vcvt c f src rnd sat d a) := fun c f src rnd sat d a => by
  have := fmtCode_lt src
  have := fmtCode_lt f
  have := rndCode_lt rnd
  have := bitOf_lt sat
  have := d.isLt
  have := a.isLt
  apply rrWord_lt <;> omega
theorem vrnd : ∀ c f rnd d a, Statement (.vrnd c f rnd d a) := fun c f rnd d a => by
  have := fmtCode_lt f
  have := rndCode_lt rnd
  have := d.isLt
  have := a.isLt
  apply rrWord_lt <;> omega
theorem vfdiv : ∀ c f rnd sat d a b, Statement (.vfdiv c f rnd sat d a b) := fun c f rnd sat d a b => by
  have := vsrcCode_lt b
  have := fmtCode_lt f
  have := rndCode_lt rnd
  have := bitOf_lt sat
  have := vsrcSel_lt b
  have := d.isLt
  have := a.isLt
  apply rrWord_lt <;> omega
theorem vclass : ∀ c f d a, Statement (.vclass c f d a) := fun c f d a => by
  have := fmtCode_lt f
  have := d.isLt
  have := a.isLt
  apply rrWord_lt <;> omega
theorem vscalb : ∀ c f rnd sat d a b, Statement (.vscalb c f rnd sat d a b) := fun c f rnd sat d a b => by
  have := vsrcCode_lt b
  have := fmtCode_lt f
  have := rndCode_lt rnd
  have := bitOf_lt sat
  have := vsrcSel_lt b
  have := d.isLt
  have := a.isLt
  apply rrWord_lt <;> omega
theorem vabsd : ∀ c f d a b, Statement (.vabsd c f d a b) := fun c f d a b => by
  have := vsrcCode_lt b
  have := fmtCode_lt f
  have := vsrcSel_lt b
  have := d.isLt
  have := a.isLt
  apply rrWord_lt <;> omega
theorem vmad : ∀ c f sat d a b x, Statement (.vmad c f sat d a b x) := fun c f sat d a b x => by
  have := vsrcCode_lt b
  have := vsrcCode_lt x
  have := fmtCode_lt f
  have := bitOf_lt sat
  have := vsrcSel_lt b
  have := vsrcSel_lt x
  have := d.isLt
  have := a.isLt
  apply rrWord_lt <;> omega
theorem vmulh : ∀ c f d a b, Statement (.vmulh c f d a b) := fun c f d a b => by
  have := vsrcCode_lt b
  have := fmtCode_lt f
  have := vsrcSel_lt b
  have := d.isLt
  have := a.isLt
  apply rrWord_lt <;> omega
theorem vand : ∀ c f d a b, Statement (.vand c f d a b) := fun c f d a b => by
  have := vsrcCode_lt b
  have := fmtCode_lt f
  have := vsrcSel_lt b
  have := d.isLt
  have := a.isLt
  apply rrWord_lt <;> omega
theorem vor : ∀ c f d a b, Statement (.vor c f d a b) := fun c f d a b => by
  have := vsrcCode_lt b
  have := fmtCode_lt f
  have := vsrcSel_lt b
  have := d.isLt
  have := a.isLt
  apply rrWord_lt <;> omega
theorem vxor : ∀ c f d a b, Statement (.vxor c f d a b) := fun c f d a b => by
  have := vsrcCode_lt b
  have := fmtCode_lt f
  have := vsrcSel_lt b
  have := d.isLt
  have := a.isLt
  apply rrWord_lt <;> omega
theorem vandn : ∀ c f d a b, Statement (.vandn c f d a b) := fun c f d a b => by
  have := vsrcCode_lt b
  have := fmtCode_lt f
  have := vsrcSel_lt b
  have := d.isLt
  have := a.isLt
  apply rrWord_lt <;> omega
theorem vnot : ∀ c f d a, Statement (.vnot c f d a) := fun c f d a => by
  have := fmtCode_lt f
  have := d.isLt
  have := a.isLt
  apply rrWord_lt <;> omega
theorem vshl : ∀ c f d a b, Statement (.vshl c f d a b) := fun c f d a b => by
  have := vsrcCode_lt b
  have := fmtCode_lt f
  have := vsrcSel_lt b
  have := d.isLt
  have := a.isLt
  apply rrWord_lt <;> omega
theorem vshr : ∀ c f d a b, Statement (.vshr c f d a b) := fun c f d a b => by
  have := vsrcCode_lt b
  have := fmtCode_lt f
  have := vsrcSel_lt b
  have := d.isLt
  have := a.isLt
  apply rrWord_lt <;> omega
theorem vsra : ∀ c f d a b, Statement (.vsra c f d a b) := fun c f d a b => by
  have := vsrcCode_lt b
  have := fmtCode_lt f
  have := vsrcSel_lt b
  have := d.isLt
  have := a.isLt
  apply rrWord_lt <;> omega
theorem vclz : ∀ c f d a, Statement (.vclz c f d a) := fun c f d a => by
  have := fmtCode_lt f
  have := d.isLt
  have := a.isLt
  apply rrWord_lt <;> omega
theorem vpopc : ∀ c f d a, Statement (.vpopc c f d a) := fun c f d a => by
  have := fmtCode_lt f
  have := d.isLt
  have := a.isLt
  apply rrWord_lt <;> omega
theorem vbrev : ∀ c f d a, Statement (.vbrev c f d a) := fun c f d a => by
  have := fmtCode_lt f
  have := d.isLt
  have := a.isLt
  apply rrWord_lt <;> omega
theorem vbfx : ∀ c f signed d a b x, Statement (.vbfx c f signed d a b x) := fun c f signed d a b x => by
  have := vsrcCode_lt b
  have := vsrcCode_lt x
  have := fmtCode_lt f
  have := bitOf_lt signed
  have := vsrcSel_lt b
  have := vsrcSel_lt x
  have := d.isLt
  have := a.isLt
  apply rrWord_lt <;> omega
theorem vbfi : ∀ c f d a b x, Statement (.vbfi c f d a b x) := fun c f d a b x => by
  have := vsrcCode_lt b
  have := vsrcCode_lt x
  have := fmtCode_lt f
  have := vsrcSel_lt b
  have := vsrcSel_lt x
  have := d.isLt
  have := a.isLt
  apply rrWord_lt <;> omega
theorem vdot2 : ∀ c f rnd sat d a b x, Statement (.vdot2 c f rnd sat d a b x) := fun c f rnd sat d a b x => by
  have := vsrcCode_lt b
  have := vsrcCode_lt x
  have := fmtCode_lt f
  have := rndCode_lt rnd
  have := bitOf_lt sat
  have := vsrcSel_lt b
  have := vsrcSel_lt x
  have := d.isLt
  have := a.isLt
  apply rrWord_lt <;> omega
theorem vpack : ∀ c f rnd sat d a b, Statement (.vpack c f rnd sat d a b) := fun c f rnd sat d a b => by
  have := vsrcCode_lt b
  have := fmtCode_lt f
  have := rndCode_lt rnd
  have := bitOf_lt sat
  have := vsrcSel_lt b
  have := d.isLt
  have := a.isLt
  apply rrWord_lt <;> omega
theorem vunpkl : ∀ c f d a, Statement (.vunpkl c f d a) := fun c f d a => by
  have := fmtCode_lt f
  have := d.isLt
  have := a.isLt
  apply rrWord_lt <;> omega
theorem vunpkh : ∀ c f d a, Statement (.vunpkh c f d a) := fun c f d a => by
  have := fmtCode_lt f
  have := d.isLt
  have := a.isLt
  apply rrWord_lt <;> omega
theorem vkbenc : ∀ c f d a b, Statement (.vkbenc c f d a b) := fun c f d a b => by
  have := vsrcCode_lt b
  have := fmtCode_lt f
  have := vsrcSel_lt b
  have := d.isLt
  have := a.isLt
  apply rrWord_lt <;> omega
theorem vkbdec : ∀ c f q d a, Statement (.vkbdec c f q d a) := fun c f q d a => by
  have := fmtCode_lt f
  have := bitOf_lt q
  have := d.isLt
  have := a.isLt
  apply rrWord_lt <;> omega
theorem vmovk : ∀ c d k, Statement (.vmovk c d k) := fun c d k => by
  have := d.isLt
  have := k.isLt
  apply kiWord_lt <;> omega
theorem vclamp : ∀ c f prop d a b x, Statement (.vclamp c f prop d a b x) := fun c f prop d a b x => by
  have := vsrcCode_lt b
  have := vsrcCode_lt x
  have := fmtCode_lt f
  have := bitOf_lt prop
  have := vsrcSel_lt b
  have := vsrcSel_lt x
  have := d.isLt
  have := a.isLt
  apply rrWord_lt <;> omega
theorem vmovq : ∀ c d, Statement (.vmovq c d) := fun c d => by
  have := d.isLt
  apply rrWord_lt <;> omega
theorem vrcp : ∀ c f rnd sat d a, Statement (.vrcp c f rnd sat d a) := fun c f rnd sat d a => by
  have := fmtCode_lt f
  have := rndCode_lt rnd
  have := bitOf_lt sat
  have := d.isLt
  have := a.isLt
  apply rrWord_lt <;> omega
theorem vrsq : ∀ c f rnd sat d a, Statement (.vrsq c f rnd sat d a) := fun c f rnd sat d a => by
  have := fmtCode_lt f
  have := rndCode_lt rnd
  have := bitOf_lt sat
  have := d.isLt
  have := a.isLt
  apply rrWord_lt <;> omega
theorem vsqrt : ∀ c f rnd sat d a, Statement (.vsqrt c f rnd sat d a) := fun c f rnd sat d a => by
  have := fmtCode_lt f
  have := rndCode_lt rnd
  have := bitOf_lt sat
  have := d.isLt
  have := a.isLt
  apply rrWord_lt <;> omega
theorem vexp2 : ∀ c f rnd sat d a, Statement (.vexp2 c f rnd sat d a) := fun c f rnd sat d a => by
  have := fmtCode_lt f
  have := rndCode_lt rnd
  have := bitOf_lt sat
  have := d.isLt
  have := a.isLt
  apply rrWord_lt <;> omega
theorem vlog2 : ∀ c f rnd sat d a, Statement (.vlog2 c f rnd sat d a) := fun c f rnd sat d a => by
  have := fmtCode_lt f
  have := rndCode_lt rnd
  have := bitOf_lt sat
  have := d.isLt
  have := a.isLt
  apply rrWord_lt <;> omega
theorem vsin : ∀ c f rnd sat d a, Statement (.vsin c f rnd sat d a) := fun c f rnd sat d a => by
  have := fmtCode_lt f
  have := rndCode_lt rnd
  have := bitOf_lt sat
  have := d.isLt
  have := a.isLt
  apply rrWord_lt <;> omega
theorem vcos : ∀ c f rnd sat d a, Statement (.vcos c f rnd sat d a) := fun c f rnd sat d a => by
  have := fmtCode_lt f
  have := rndCode_lt rnd
  have := bitOf_lt sat
  have := d.isLt
  have := a.isLt
  apply rrWord_lt <;> omega
theorem vtanh : ∀ c f rnd sat d a, Statement (.vtanh c f rnd sat d a) := fun c f rnd sat d a => by
  have := fmtCode_lt f
  have := rndCode_lt rnd
  have := bitOf_lt sat
  have := d.isLt
  have := a.isLt
  apply rrWord_lt <;> omega
theorem actld : ∀ c a, Statement (.actld c a) := fun c a => by
  have := ssrcCode_lt a
  apply rrWord_lt <;> omega
theorem actsel : ∀ c n, Statement (.actsel c n) := fun c n => by
  have := bitOf_lt n
  apply rrWord_lt <;> omega
theorem vact : ∀ c rnd sat d a, Statement (.vact c rnd sat d a) := fun c rnd sat d a => by
  have := rndCode_lt rnd
  have := bitOf_lt sat
  have := d.isLt
  have := a.isLt
  apply rrWord_lt <;> omega
theorem vdivI32 : ∀ c d a b, Statement (.vdivI32 c d a b) := fun c d a b => by
  have := vsrcCode_lt b
  have := vsrcSel_lt b
  have := d.isLt
  have := a.isLt
  apply rrWord_lt <;> omega
theorem vdivN32 : ∀ c d a b, Statement (.vdivN32 c d a b) := fun c d a b => by
  have := vsrcCode_lt b
  have := vsrcSel_lt b
  have := d.isLt
  have := a.isLt
  apply rrWord_lt <;> omega
theorem vremI32 : ∀ c d a b, Statement (.vremI32 c d a b) := fun c d a b => by
  have := vsrcCode_lt b
  have := vsrcSel_lt b
  have := d.isLt
  have := a.isLt
  apply rrWord_lt <;> omega
theorem vremN32 : ∀ c d a b, Statement (.vremN32 c d a b) := fun c d a b => by
  have := vsrcCode_lt b
  have := vsrcSel_lt b
  have := d.isLt
  have := a.isLt
  apply rrWord_lt <;> omega
theorem vshfl : ∀ c f keep mask d a b, Statement (.vshfl c f keep mask d a b) := fun c f keep mask d a b => by
  have := vsrcCode_lt b
  have := maskC_lt mask
  have := fmtCode_lt f
  have := bitOf_lt keep
  have := vsrcSel_lt b
  have := d.isLt
  have := a.isLt
  have := mask.xsm.isLt
  apply rrWord_lt <;> omega
theorem vshflup : ∀ c f keep mask d a b, Statement (.vshflup c f keep mask d a b) := fun c f keep mask d a b => by
  have := vsrcCode_lt b
  have := maskC_lt mask
  have := fmtCode_lt f
  have := bitOf_lt keep
  have := vsrcSel_lt b
  have := d.isLt
  have := a.isLt
  have := mask.xsm.isLt
  apply rrWord_lt <;> omega
theorem vshfldn : ∀ c f keep mask d a b, Statement (.vshfldn c f keep mask d a b) := fun c f keep mask d a b => by
  have := vsrcCode_lt b
  have := maskC_lt mask
  have := fmtCode_lt f
  have := bitOf_lt keep
  have := vsrcSel_lt b
  have := d.isLt
  have := a.isLt
  have := mask.xsm.isLt
  apply rrWord_lt <;> omega
theorem vshflx : ∀ c f keep mask d a b, Statement (.vshflx c f keep mask d a b) := fun c f keep mask d a b => by
  have := vsrcCode_lt b
  have := maskC_lt mask
  have := fmtCode_lt f
  have := bitOf_lt keep
  have := vsrcSel_lt b
  have := d.isLt
  have := a.isLt
  have := mask.xsm.isLt
  apply rrWord_lt <;> omega
theorem vbcast : ∀ c f mask d a, Statement (.vbcast c f mask d a) := fun c f mask d a => by
  have := maskC_lt mask
  have := fmtCode_lt f
  have := d.isLt
  have := a.isLt
  have := mask.xsm.isLt
  apply rrWord_lt <;> omega
theorem voteany : ∀ c f mask a, Statement (.voteany c f mask a) := fun c f mask a => by
  have := maskC_lt mask
  have := fmtCode_lt f
  have := a.isLt
  have := mask.xsm.isLt
  apply rrWord_lt <;> omega
theorem voteall : ∀ c f mask a, Statement (.voteall c f mask a) := fun c f mask a => by
  have := maskC_lt mask
  have := fmtCode_lt f
  have := a.isLt
  have := mask.xsm.isLt
  apply rrWord_lt <;> omega
theorem voteuni : ∀ c f mask a, Statement (.voteuni c f mask a) := fun c f mask a => by
  have := maskC_lt mask
  have := fmtCode_lt f
  have := a.isLt
  have := mask.xsm.isLt
  apply rrWord_lt <;> omega
theorem vballot : ∀ c f mask d a, Statement (.vballot c f mask d a) := fun c f mask d a => by
  have := maskC_lt mask
  have := fmtCode_lt f
  have := d.isLt
  have := a.isLt
  have := mask.xsm.isLt
  apply rrWord_lt <;> omega
theorem vmatchany : ∀ c f mask d a, Statement (.vmatchany c f mask d a) := fun c f mask d a => by
  have := maskC_lt mask
  have := fmtCode_lt f
  have := d.isLt
  have := a.isLt
  have := mask.xsm.isLt
  apply rrWord_lt <;> omega
theorem vmatchall : ∀ c f mask d a, Statement (.vmatchall c f mask d a) := fun c f mask d a => by
  have := maskC_lt mask
  have := fmtCode_lt f
  have := d.isLt
  have := a.isLt
  have := mask.xsm.isLt
  apply rrWord_lt <;> omega
theorem vredadd : ∀ c f mask d a, Statement (.vredadd c f mask d a) := fun c f mask d a => by
  have := maskC_lt mask
  have := fmtCode_lt f
  have := d.isLt
  have := a.isLt
  have := mask.xsm.isLt
  apply rrWord_lt <;> omega
theorem vredmin : ∀ c f mask d a, Statement (.vredmin c f mask d a) := fun c f mask d a => by
  have := maskC_lt mask
  have := fmtCode_lt f
  have := d.isLt
  have := a.isLt
  have := mask.xsm.isLt
  apply rrWord_lt <;> omega
theorem vredmax : ∀ c f mask d a, Statement (.vredmax c f mask d a) := fun c f mask d a => by
  have := maskC_lt mask
  have := fmtCode_lt f
  have := d.isLt
  have := a.isLt
  have := mask.xsm.isLt
  apply rrWord_lt <;> omega
theorem vredand : ∀ c f mask d a, Statement (.vredand c f mask d a) := fun c f mask d a => by
  have := maskC_lt mask
  have := fmtCode_lt f
  have := d.isLt
  have := a.isLt
  have := mask.xsm.isLt
  apply rrWord_lt <;> omega
theorem vredor : ∀ c f mask d a, Statement (.vredor c f mask d a) := fun c f mask d a => by
  have := maskC_lt mask
  have := fmtCode_lt f
  have := d.isLt
  have := a.isLt
  have := mask.xsm.isLt
  apply rrWord_lt <;> omega
theorem vredxor : ∀ c f mask d a, Statement (.vredxor c f mask d a) := fun c f mask d a => by
  have := maskC_lt mask
  have := fmtCode_lt f
  have := d.isLt
  have := a.isLt
  have := mask.xsm.isLt
  apply rrWord_lt <;> omega
theorem vscanadd : ∀ c f mask d a, Statement (.vscanadd c f mask d a) := fun c f mask d a => by
  have := maskC_lt mask
  have := fmtCode_lt f
  have := d.isLt
  have := a.isLt
  have := mask.xsm.isLt
  apply rrWord_lt <;> omega
theorem vld : ∀ c mem fe sz d, Statement (.vld c mem fe sz d) := fun c mem fe sz d => by
  have := feCode_lt fe
  have := szCode_lt sz
  have := d.isLt
  apply moWord_lt <;> omega
theorem vst : ∀ c mem fe sz el d, Statement (.vst c mem fe sz el d) := fun c mem fe sz el d => by
  have := feCode_lt fe
  have := szCode_lt sz
  have := bitOf_lt el
  have := d.isLt
  apply moWord_lt <;> omega
theorem sld : ∀ c mem fe sz d, Statement (.sld c mem fe sz d) := fun c mem fe sz d => by
  have := feCode_lt fe
  have := szCode_lt sz
  have := d.isLt
  apply moWord_lt <;> omega
theorem sst : ∀ c mem fe sz el d, Statement (.sst c mem fe sz el d) := fun c mem fe sz el d => by
  have := feCode_lt fe
  have := szCode_lt sz
  have := bitOf_lt el
  have := d.isLt
  apply moWord_lt <;> omega
theorem vldtr : ∀ c mem fe sz d, Statement (.vldtr c mem fe sz d) := fun c mem fe sz d => by
  have := feCode_lt fe
  have := szCode_lt sz
  have := d.isLt
  apply moWord_lt <;> omega
theorem pref : ∀ c mem, Statement (.pref c mem) := fun c mem => by
  apply moWord_lt <;> omega
theorem feset : ∀ c mem, Statement (.feset c mem) := fun c mem => by
  apply moWord_lt <;> omega
theorem feclr : ∀ c mem, Statement (.feclr c mem) := fun c mem => by
  apply moWord_lt <;> omega
theorem atadd : ∀ c mem sz rv d, Statement (.atadd c mem sz rv d) := fun c mem sz rv d => by
  have := szCode_lt sz
  have := bitOf_lt rv
  have := d.isLt
  apply moWord_lt <;> omega
theorem atmin : ∀ c mem sz rv d, Statement (.atmin c mem sz rv d) := fun c mem sz rv d => by
  have := szCode_lt sz
  have := bitOf_lt rv
  have := d.isLt
  apply moWord_lt <;> omega
theorem atminn : ∀ c mem sz rv d, Statement (.atminn c mem sz rv d) := fun c mem sz rv d => by
  have := szCode_lt sz
  have := bitOf_lt rv
  have := d.isLt
  apply moWord_lt <;> omega
theorem atmax : ∀ c mem sz rv d, Statement (.atmax c mem sz rv d) := fun c mem sz rv d => by
  have := szCode_lt sz
  have := bitOf_lt rv
  have := d.isLt
  apply moWord_lt <;> omega
theorem atmaxn : ∀ c mem sz rv d, Statement (.atmaxn c mem sz rv d) := fun c mem sz rv d => by
  have := szCode_lt sz
  have := bitOf_lt rv
  have := d.isLt
  apply moWord_lt <;> omega
theorem atand : ∀ c mem sz rv d, Statement (.atand c mem sz rv d) := fun c mem sz rv d => by
  have := szCode_lt sz
  have := bitOf_lt rv
  have := d.isLt
  apply moWord_lt <;> omega
theorem ator : ∀ c mem sz rv d, Statement (.ator c mem sz rv d) := fun c mem sz rv d => by
  have := szCode_lt sz
  have := bitOf_lt rv
  have := d.isLt
  apply moWord_lt <;> omega
theorem atxor : ∀ c mem sz rv d, Statement (.atxor c mem sz rv d) := fun c mem sz rv d => by
  have := szCode_lt sz
  have := bitOf_lt rv
  have := d.isLt
  apply moWord_lt <;> omega
theorem atxchg : ∀ c mem sz rv d, Statement (.atxchg c mem sz rv d) := fun c mem sz rv d => by
  have := szCode_lt sz
  have := bitOf_lt rv
  have := d.isLt
  apply moWord_lt <;> omega
theorem atcas : ∀ c mem sz d, Statement (.atcas c mem sz d) := fun c mem sz d => by
  have := szCode_lt sz
  have := d.isLt
  apply moWord_lt <;> omega
theorem atfadd : ∀ c mem rv d, Statement (.atfadd c mem rv d) := fun c mem rv d => by
  have := bitOf_lt rv
  have := d.isLt
  apply moWord_lt <;> omega
theorem atbadd2 : ∀ c mem rv d, Statement (.atbadd2 c mem rv d) := fun c mem rv d => by
  have := bitOf_lt rv
  have := d.isLt
  apply moWord_lt <;> omega
theorem wld : ∀ c mem sz pr d, Statement (.wld c mem sz pr d) := fun c mem sz pr d => by
  have := szCode_lt sz
  have := prCode_lt pr
  have := d.isLt
  apply moWord_lt <;> omega
theorem wdset : ∀ c a b, Statement (.wdset c a b) := fun c a b => by
  have := ssrcCode_lt a
  have := ssrcCode_lt b
  apply rrWord_lt <;> omega
theorem wdget : ∀ c a b, Statement (.wdget c a b) := fun c a b => by
  have := ssrcCode_lt a
  have := ssrcCode_lt b
  apply rrWord_lt <;> omega
theorem fence : ∀ c scope ord, Statement (.fence c scope ord) := fun c scope ord => by
  have := scopeCode_lt scope
  have := ordCode_lt ord
  apply rrWord_lt <;> omega
theorem fenceSc : ∀ c, Statement (.fenceSc c) := fun c => by
  apply rrWord_lt <;> omega
theorem xfence : ∀ c scope frm too, Statement (.xfence c scope frm too) := fun c scope frm too => by
  have := scopeCode_lt scope
  have := eclassCode_lt frm
  have := eclassCode_lt too
  apply rrWord_lt <;> omega
theorem icinv : ∀ c scope all a b, Statement (.icinv c scope all a b) := fun c scope all a b => by
  have := ssrcCode_lt a
  have := ssrcCode_lt b
  have := scopeCode_lt scope
  have := bitOf_lt all
  apply rrWord_lt <;> omega
theorem podld : ∀ c mem sz d, Statement (.podld c mem sz d) := fun c mem sz d => by
  have := szCode_lt sz
  have := d.isLt
  apply moWord_lt <;> omega
theorem podst : ∀ c mem sz d, Statement (.podst c mem sz d) := fun c mem sz d => by
  have := szCode_lt sz
  have := d.isLt
  apply moWord_lt <;> omega
theorem podred : ∀ c mem sz rop d, Statement (.podred c mem sz rop d) := fun c mem sz rop d => by
  have := szCode_lt sz
  have := ropMod_lt rop
  have := d.isLt
  apply moWord_lt <;> omega
theorem bar : ∀ c id mask, Statement (.bar c id mask) := fun c id mask => by
  have := optCode_lt mask
  have := optSel_lt mask
  have := id.isLt
  apply rrWord_lt <;> omega
theorem abwait : ∀ c a b, Statement (.abwait c a b) := fun c a b => by
  have := ssrcCode_lt a
  have := ssrcCode_lt b
  apply rrWord_lt <;> omega
theorem abtest : ∀ c a b, Statement (.abtest c a b) := fun c a b => by
  have := ssrcCode_lt a
  have := ssrcCode_lt b
  apply rrWord_lt <;> omega
theorem abinit : ∀ c a b, Statement (.abinit c a b) := fun c a b => by
  have := ssrcCode_lt a
  have := ssrcCode_lt b
  apply rrWord_lt <;> omega
theorem abarr : ∀ c scope rel a bytes, Statement (.abarr c scope rel a bytes) := fun c scope rel a bytes => by
  have := ssrcCode_lt a
  have := optCode_lt bytes
  have := scopeCode_lt scope
  have := bitOf_lt rel
  have := optSel_lt bytes
  apply rrWord_lt <;> omega
theorem abexp : ∀ c a b, Statement (.abexp c a b) := fun c a b => by
  have := ssrcCode_lt a
  have := ssrcCode_lt b
  apply rrWord_lt <;> omega
theorem ldstat : ∀ c ns mode nc xf tb sm ab, Statement (.ldstat c ns mode nc xf tb sm ab) := fun c ns mode nc xf tb sm ab => by
  have := optCode_lt ab
  have := ssrcCode_lt sm
  have := bitOf_lt ns
  have := modeCode_lt mode
  have := ncCode_lt nc
  have := fmtCode_lt xf
  have := optSel_lt ab
  have := tb.isLt
  apply rrWord_lt <;> omega
theorem pswap : ∀ c ab, Statement (.pswap c ab) := fun c ab => by
  have := optCode_lt ab
  have := optSel_lt ab
  apply rrWord_lt <;> omega
theorem mx : ∀ c rnd mode ta sp ab, Statement (.mx c rnd mode ta sp ab) := fun c rnd mode ta sp ab => by
  have := optCode_lt ab
  have := ssrcCode_lt sp
  have := rndCode_lt rnd
  have := modeCode_lt mode
  have := optSel_lt ab
  have := ta.isLt
  apply rrWord_lt <;> omega
theorem mxsp : ∀ c rnd mode nc ta sp ab, Statement (.mxsp c rnd mode nc ta sp ab) := fun c rnd mode nc ta sp ab => by
  have := optCode_lt ab
  have := ssrcCode_lt sp
  have := rndCode_lt rnd
  have := modeCode_lt mode
  have := ncCode_lt nc
  have := optSel_lt ab
  have := ta.isLt
  apply rrWord_lt <;> omega
theorem mxb : ∀ c mode ta sp ab, Statement (.mxb c mode ta sp ab) := fun c mode ta sp ab => by
  have := optCode_lt ab
  have := ssrcCode_lt sp
  have := modeCode_lt mode
  have := optSel_lt ab
  have := ta.isLt
  apply rrWord_lt <;> omega
theorem mxbsp : ∀ c mode ta sp ab, Statement (.mxbsp c mode ta sp ab) := fun c mode ta sp ab => by
  have := optCode_lt ab
  have := ssrcCode_lt sp
  have := modeCode_lt mode
  have := optSel_lt ab
  have := ta.isLt
  apply rrWord_lt <;> omega
theorem scacc : ∀ c rnd sr sa sb ab, Statement (.scacc c rnd sr sa sb ab) := fun c rnd sr sa sb ab => by
  have := optCode_lt ab
  have := ssrcCode_lt sr
  have := ssrcCode_lt sa
  have := ssrcCode_lt sb
  have := rndCode_lt rnd
  have := optSel_lt ab
  apply rrWord_lt <;> omega
theorem accclr : ∀ c sr ab, Statement (.accclr c sr ab) := fun c sr ab => by
  have := optCode_lt ab
  have := ssrcCode_lt sr
  have := optSel_lt ab
  apply rrWord_lt <;> omega
theorem accrd : ∀ c rnd sat ic td sp ab, Statement (.accrd c rnd sat ic td sp ab) := fun c rnd sat ic td sp ab => by
  have := optCode_lt ab
  have := ssrcCode_lt sp
  have := rndCode_lt rnd
  have := bitOf_lt sat
  have := bitOf_lt ic
  have := optSel_lt ab
  have := td.isLt
  apply rrWord_lt <;> omega
theorem accwr : ∀ c ts sp ab, Statement (.accwr c ts sp ab) := fun c ts sp ab => by
  have := optCode_lt ab
  have := ssrcCode_lt sp
  have := optSel_lt ab
  have := ts.isLt
  apply rrWord_lt <;> omega
theorem accmv : ∀ c ss sd sz ab, Statement (.accmv c ss sd sz ab) := fun c ss sd sz ab => by
  have := optCode_lt ab
  have := ssrcCode_lt ss
  have := ssrcCode_lt sd
  have := ssrcCode_lt sz
  have := optSel_lt ab
  apply rrWord_lt <;> omega
theorem mxtile : ∀ c rnd mode ta tb sp ab, Statement (.mxtile c rnd mode ta tb sp ab) := fun c rnd mode ta tb sp ab => by
  have := optCode_lt ab
  have := ssrcCode_lt sp
  have := rndCode_lt rnd
  have := modeCode_lt mode
  have := optSel_lt ab
  have := ta.isLt
  have := tb.isLt
  apply rrWord_lt <;> omega
theorem cptile : ∀ c td ts ab, Statement (.cptile c td ts ab) := fun c td ts ab => by
  have := optCode_lt ab
  have := optSel_lt ab
  have := td.isLt
  have := ts.isLt
  apply rrWord_lt <;> omega
theorem sctile : ∀ c rnd sc ta tb ab, Statement (.sctile c rnd sc ta tb ab) := fun c rnd sc ta tb ab => by
  have := optCode_lt ab
  have := ssrcCode_lt sc
  have := rndCode_lt rnd
  have := optSel_lt ab
  have := ta.isLt
  have := tb.isLt
  apply rrWord_lt <;> omega
theorem cpcopy : ∀ c sd ss sl ab, Statement (.cpcopy c sd ss sl ab) := fun c sd ss sl ab => by
  have := optCode_lt ab
  have := ssrcCode_lt sd
  have := ssrcCode_lt ss
  have := ssrcCode_lt sl
  have := optSel_lt ab
  apply rrWord_lt <;> omega
theorem cptr : ∀ c td ts ab, Statement (.cptr c td ts ab) := fun c td ts ab => by
  have := optCode_lt ab
  have := optSel_lt ab
  have := td.isLt
  have := ts.isLt
  apply rrWord_lt <;> omega
theorem cpmcast : ∀ c d so ts sk, Statement (.cpmcast c d so ts sk) := fun c d so ts sk => by
  have := ssrcCode_lt so
  have := ssrcCode_lt sk
  have := d.isLt
  have := ts.isLt
  apply rrWord_lt <;> omega
theorem tdset : ∀ c t a b, Statement (.tdset c t a b) := fun c t a b => by
  have := ssrcCode_lt a
  have := ssrcCode_lt b
  have := t.isLt
  apply rrWord_lt <;> omega
theorem tdget : ∀ c hi d t, Statement (.tdget c hi d t) := fun c hi d t => by
  have := bitOf_lt hi
  have := d.isLt
  have := t.isLt
  apply rrWord_lt <;> omega
theorem trap : ∀ c n, Statement (.trap c n) := fun c n => by
  have := n.isLt
  apply rrWord_lt <;> omega
theorem tret : ∀ c, Statement (.tret c) := fun c => by
  apply rrWord_lt <;> omega
theorem sysrd : ∀ c reg d, Statement (.sysrd c reg d) := fun c reg d => by
  have := sysregCode_lt reg
  have := d.isLt
  apply rrWord_lt <;> omega
theorem syswr : ∀ c reg a, Statement (.syswr c reg a) := fun c reg a => by
  have := sysregCode_lt reg
  have := a.isLt
  apply rrWord_lt <;> omega
theorem tlbinv : ∀ c scope all a b, Statement (.tlbinv c scope all a b) := fun c scope all a b => by
  have := ssrcCode_lt a
  have := ssrcCode_lt b
  have := scopeCode_lt scope
  have := bitOf_lt all
  apply rrWord_lt <;> omega
theorem tlbinvS2 : ∀ c scope a, Statement (.tlbinvS2 c scope a) := fun c scope a => by
  have := ssrcCode_lt a
  have := scopeCode_lt scope
  apply rrWord_lt <;> omega
theorem brk : ∀ c n, Statement (.brk c n) := fun c n => by
  have := n.isLt
  apply rrWord_lt <;> omega
theorem fsend : ∀ c d a b, Statement (.fsend c d a b) := fun c d a b => by
  have := ssrcCode_lt a
  have := ssrcCode_lt b
  have := d.isLt
  apply rrWord_lt <;> omega
theorem fsendLaunch : ∀ c d a b, Statement (.fsendLaunch c d a b) := fun c d a b => by
  have := ssrcCode_lt a
  have := ssrcCode_lt b
  have := d.isLt
  apply rrWord_lt <;> omega
theorem frecv : ∀ c d a b, Statement (.frecv c d a b) := fun c d a b => by
  have := ssrcCode_lt a
  have := ssrcCode_lt b
  have := d.isLt
  apply rrWord_lt <;> omega
theorem allreduce : ∀ c td ts b x, Statement (.allreduce c td ts b x) := fun c td ts b x => by
  have := ssrcCode_lt b
  have := ssrcCode_lt x
  have := td.isLt
  have := ts.isLt
  apply rrWord_lt <;> omega
theorem reducescatter : ∀ c td ts b x, Statement (.reducescatter c td ts b x) := fun c td ts b x => by
  have := ssrcCode_lt b
  have := ssrcCode_lt x
  have := td.isLt
  have := ts.isLt
  apply rrWord_lt <;> omega
theorem allgather : ∀ c td ts b x, Statement (.allgather c td ts b x) := fun c td ts b x => by
  have := ssrcCode_lt b
  have := ssrcCode_lt x
  have := td.isLt
  have := ts.isLt
  apply rrWord_lt <;> omega
theorem broadcast : ∀ c td ts b x, Statement (.broadcast c td ts b x) := fun c td ts b x => by
  have := ssrcCode_lt b
  have := ssrcCode_lt x
  have := td.isLt
  have := ts.isLt
  apply rrWord_lt <;> omega
theorem cgrp : ∀ c d a b, Statement (.cgrp c d a b) := fun c d a b => by
  have := ssrcCode_lt a
  have := ssrcCode_lt b
  have := d.isLt
  apply rrWord_lt <;> omega
theorem qenq : ∀ c d a b, Statement (.qenq c d a b) := fun c d a b => by
  have := ssrcCode_lt a
  have := ssrcCode_lt b
  have := d.isLt
  apply rrWord_lt <;> omega
theorem evpost : ∀ c scope d a b, Statement (.evpost c scope d a b) := fun c scope d a b => by
  have := ssrcCode_lt a
  have := ssrcCode_lt b
  have := scopeCode_lt scope
  have := d.isLt
  apply rrWord_lt <;> omega
theorem join : ∀ x0, Statement (.join x0) := fun x0 => by simp [Statement, encodeNat]
theorem loadCompletion : ∀ x0 x1 x2, Statement (.loadCompletion x0 x1 x2) := fun x0 x1 x2 => by simp [Statement, encodeNat]
theorem storePerformed : ∀ x0 x1 x2, Statement (.storePerformed x0 x1 x2) := fun x0 x1 x2 => by simp [Statement, encodeNat]
theorem engineCommandCompletion : ∀ x0 x1, Statement (.engineCommandCompletion x0 x1) := fun x0 x1 => by simp [Statement, encodeNat]
theorem fill : ∀ x0, Statement (.fill x0) := fun x0 => by simp [Statement, encodeNat]
theorem stream : ∀ x0, Statement (.stream x0) := fun x0 => by simp [Statement, encodeNat]
theorem scale : ∀ x0, Statement (.scale x0) := fun x0 => by simp [Statement, encodeNat]
theorem copy : ∀ x0, Statement (.copy x0) := fun x0 => by simp [Statement, encodeNat]
theorem copyQueueStep : ∀ x0, Statement (.copyQueueStep x0) := fun x0 => by simp [Statement, encodeNat]
theorem governorWindow : ∀ x0, Statement (.governorWindow x0) := fun x0 => by simp [Statement, encodeNat]
theorem fabricCompletion : ∀ x0 x1 x2, Statement (.fabricCompletion x0 x1 x2) := fun x0 x1 x2 => by simp [Statement, encodeNat]
theorem fabricIngress : ∀ x0 x1, Statement (.fabricIngress x0 x1) := fun x0 x1 => by simp [Statement, encodeNat]
theorem podAccess : ∀ x0 x1 x2 x3, Statement (.podAccess x0 x1 x2 x3) := fun x0 x1 x2 x3 => by simp [Statement, encodeNat]
theorem launchRequest : ∀ x0 x1, Statement (.launchRequest x0 x1) := fun x0 x1 => by simp [Statement, encodeNat]
theorem collectiveCompletion : ∀ x0 x1 x2, Statement (.collectiveCompletion x0 x1 x2) := fun x0 x1 x2 => by simp [Statement, encodeNat]
theorem collectiveFallback : ∀ x0 x1 x2, Statement (.collectiveFallback x0 x1 x2) := fun x0 x1 x2 => by simp [Statement, encodeNat]
theorem doorbell : ∀ x0 x1 x2, Statement (.doorbell x0 x1 x2) := fun x0 x1 x2 => by simp [Statement, encodeNat]
theorem queueReset : ∀ x0 x1, Statement (.queueReset x0 x1) := fun x0 x1 => by simp [Statement, encodeNat]
theorem packetRead : ∀ x0, Statement (.packetRead x0) := fun x0 => by simp [Statement, encodeNat]
theorem waitaddrLoad : ∀ x0, Statement (.waitaddrLoad x0) := fun x0 => by simp [Statement, encodeNat]
theorem packetStart : ∀ x0, Statement (.packetStart x0) := fun x0 => by simp [Statement, encodeNat]
theorem blockDispatch : ∀ x0 x1 x2, Statement (.blockDispatch x0 x1 x2) := fun x0 x1 x2 => by simp [Statement, encodeNat]
theorem stealRequest : ∀ x0 x1, Statement (.stealRequest x0 x1) := fun x0 x1 => by simp [Statement, encodeNat]
theorem gangLaunch : ∀ x0 x1, Statement (.gangLaunch x0 x1) := fun x0 x1 => by simp [Statement, encodeNat]
theorem blockEnd : ∀ x0, Statement (.blockEnd x0) := fun x0 => by simp [Statement, encodeNat]
theorem packetCompletion : ∀ x0, Statement (.packetCompletion x0) := fun x0 => by simp [Statement, encodeNat]
theorem preemptionRequest : ∀ x0 x1, Statement (.preemptionRequest x0 x1) := fun x0 x1 => by simp [Statement, encodeNat]
theorem queueDestruction : ∀ x0 x1, Statement (.queueDestruction x0 x1) := fun x0 x1 => by simp [Statement, encodeNat]
theorem runLimit : ∀ x0, Statement (.runLimit x0) := fun x0 => by simp [Statement, encodeNat]
theorem kernelWatchdog : ∀ x0, Statement (.kernelWatchdog x0) := fun x0 => by simp [Statement, encodeNat]
theorem handlerWatchdog : ∀ x0, Statement (.handlerWatchdog x0) := fun x0 => by simp [Statement, encodeNat]
theorem checkpoint : ∀ x0, Statement (.checkpoint x0) := fun x0 => by simp [Statement, encodeNat]
theorem checkpointCommit : ∀ x0, Statement (.checkpointCommit x0) := fun x0 => by simp [Statement, encodeNat]
theorem rollback : ∀ x0, Statement (.rollback x0) := fun x0 => by simp [Statement, encodeNat]
theorem timeSliceStart : ∀ x0 x1, Statement (.timeSliceStart x0 x1) := fun x0 x1 => by simp [Statement, encodeNat]
theorem migrationImage : ∀ x0, Statement (.migrationImage x0) := fun x0 => by simp [Statement, encodeNat]
theorem migrationAccept : ∀ x0 x1, Statement (.migrationAccept x0 x1) := fun x0 x1 => by simp [Statement, encodeNat]
theorem bindRecordWrite : ∀ x0 x1 x2, Statement (.bindRecordWrite x0 x1 x2) := fun x0 x1 x2 => by simp [Statement, encodeNat]
theorem functionRecordWrite : ∀ x0 x1, Statement (.functionRecordWrite x0 x1) := fun x0 x1 => by simp [Statement, encodeNat]
theorem launchTableWrite : ∀ x0 x1 x2, Statement (.launchTableWrite x0 x1 x2) := fun x0 x1 x2 => by simp [Statement, encodeNat]
theorem loaderRequest : ∀ x0, Statement (.loaderRequest x0) := fun x0 => by simp [Statement, encodeNat]
theorem containerLoad : ∀ x0 x1, Statement (.containerLoad x0 x1) := fun x0 x1 => by simp [Statement, encodeNat]
theorem stewardRequest : Statement .stewardRequest := by simp [Statement, encodeNat]
theorem eventLogControlWrite : ∀ x0 x1 x2, Statement (.eventLogControlWrite x0 x1 x2) := fun x0 x1 x2 => by simp [Statement, encodeNat]
theorem wldoor : ∀ x0, Statement (.wldoor x0) := fun x0 => by simp [Statement, encodeNat]
theorem resume : Statement .resume := by simp [Statement, encodeNat]
theorem layoutRequest : ∀ x0, Statement (.layoutRequest x0) := fun x0 => by simp [Statement, encodeNat]
theorem commit : Statement .commit := by simp [Statement, encodeNat]
theorem done : Statement .done := by simp [Statement, encodeNat]
theorem policyCoreRestart : ∀ x0, Statement (.policyCoreRestart x0) := fun x0 => by simp [Statement, encodeNat]
theorem functionLevelReset : ∀ x0, Statement (.functionLevelReset x0) := fun x0 => by simp [Statement, encodeNat]
theorem moduleReset : ∀ x0, Statement (.moduleReset x0) := fun x0 => by simp [Statement, encodeNat]
theorem lockInterface : ∀ x0, Statement (.lockInterface x0) := fun x0 => by simp [Statement, encodeNat]
theorem startInterface : ∀ x0, Statement (.startInterface x0) := fun x0 => by simp [Statement, encodeNat]
theorem stopInterface : ∀ x0, Statement (.stopInterface x0) := fun x0 => by simp [Statement, encodeNat]
theorem getDeviceInterfaceReport : ∀ x0, Statement (.getDeviceInterfaceReport x0) := fun x0 => by simp [Statement, encodeNat]
theorem getDeviceInterfaceState : ∀ x0, Statement (.getDeviceInterfaceState x0) := fun x0 => by simp [Statement, encodeNat]
theorem getVersion : ∀ x0, Statement (.getVersion x0) := fun x0 => by simp [Statement, encodeNat]
theorem getCapabilities : ∀ x0 x1, Statement (.getCapabilities x0 x1) := fun x0 x1 => by simp [Statement, encodeNat]
theorem negotiateAlgorithms : ∀ x0, Statement (.negotiateAlgorithms x0) := fun x0 => by simp [Statement, encodeNat]
theorem getDigests : ∀ x0, Statement (.getDigests x0) := fun x0 => by simp [Statement, encodeNat]
theorem getCertificate : ∀ x0 x1 x2, Statement (.getCertificate x0 x1 x2) := fun x0 x1 x2 => by simp [Statement, encodeNat]
theorem challenge : ∀ x0 x1, Statement (.challenge x0 x1) := fun x0 x1 => by simp [Statement, encodeNat]
theorem getMeasurements : ∀ x0 x1 x2, Statement (.getMeasurements x0 x1 x2) := fun x0 x1 x2 => by simp [Statement, encodeNat]
theorem keyExchange : ∀ x0 x1, Statement (.keyExchange x0 x1) := fun x0 x1 => by simp [Statement, encodeNat]
theorem finish : ∀ x0 x1, Statement (.finish x0 x1) := fun x0 x1 => by simp [Statement, encodeNat]
theorem endSession : ∀ x0, Statement (.endSession x0) := fun x0 => by simp [Statement, encodeNat]
theorem vendorDefinedRequest : ∀ x0 x1 x2, Statement (.vendorDefinedRequest x0 x1 x2) := fun x0 x1 x2 => by simp [Statement, encodeNat]
theorem memoryError : ∀ x0 x1, Statement (.memoryError x0 x1) := fun x0 x1 => by simp [Statement, encodeNat]
theorem selfTest : ∀ x0 x1, Statement (.selfTest x0 x1) := fun x0 x1 => by simp [Statement, encodeNat]
theorem patrolScrub : ∀ x0 x1, Statement (.patrolScrub x0 x1) := fun x0 x1 => by simp [Statement, encodeNat]
theorem counterCommit : Statement .counterCommit := by simp [Statement, encodeNat]
theorem thermalThrottle : ∀ x0 x1, Statement (.thermalThrottle x0 x1) := fun x0 x1 => by simp [Statement, encodeNat]
theorem thermalShutdown : Statement .thermalShutdown := by simp [Statement, encodeNat]
theorem registerWrite : ∀ x0 x1 x2, Statement (.registerWrite x0 x1 x2) := fun x0 x1 x2 => by simp [Statement, encodeNat]
theorem hostAccess : ∀ x0, Statement (.hostAccess x0) := fun x0 => by simp [Statement, encodeNat]
theorem actldCompletion : ∀ x0, Statement (.actldCompletion x0) := fun x0 => by simp [Statement, encodeNat]
theorem asidTableWrite : ∀ x0 x1, Statement (.asidTableWrite x0 x1) := fun x0 x1 => by simp [Statement, encodeNat]
theorem laneRetrain : ∀ x0 x1 x2, Statement (.laneRetrain x0 x1 x2) := fun x0 x1 x2 => by simp [Statement, encodeNat]

end Laws.Fits

end Sys2Proof
end

