-- ==== Sys2Proof/Laws/Decode.lean ====
section
/-! SUPPORT. The fields of a word read back from the word that the encoder makes of them, and each code from its operand: decoding
undoes encoding field by field. -/

namespace Sys2Proof

/-! ### Codes -/

@[simp] theorem sreg?_val (r : SReg) : sreg? r.val = some r := by simp [sreg?]
@[simp] theorem vreg?_val (r : VReg) : vreg? r.val = some r := by simp [vreg?]
@[simp] theorem treg?_val (r : TReg) : treg? r.val = some r := by simp [treg?]
@[simp] theorem fmt?_code (x : Fmt) : fmt? (fmtCode x) = some x := by cases x <;> rfl
@[simp] theorem rnd?_code (x : Rnd) : rnd? (rndCode x) = some x := by cases x <;> rfl
@[simp] theorem rm?_code (x : RM) : rm? (rmCode x) = some x := by cases x <;> rfl
@[simp] theorem scope?_code (x : Scope) : scope? (scopeCode x) = some x := by cases x <;> rfl
@[simp] theorem eclass?_code (x : EClass) : eclass? (eclassCode x) = some x := by cases x <;> rfl
@[simp] theorem cond?_code (x : Cond) : cond? (condCode x) = some x := by cases x <;> rfl
@[simp] theorem ord?_code (x : Ord) : ord? (ordCode x) = some x := by cases x <;> rfl
@[simp] theorem fe?_code (x : FE) : fe? (feCode x) = some x := by cases x <;> rfl
@[simp] theorem sz?_code (x : Sz) : sz? (szCode x) = some x := by cases x <;> rfl
@[simp] theorem mode?_code (x : Mode) : mode? (modeCode x) = some x := by cases x <;> rfl
@[simp] theorem nc?_code (x : NC) : nc? (ncCode x) = some x := by cases x <;> rfl
@[simp] theorem pr?_code (x : PoisonReport) : pr? (prCode x) = some x := by cases x <;> rfl
@[simp] theorem rop?_code (x : Rop) : rop? (ropCode x) = some x := by cases x <;> rfl
@[simp] theorem sysreg?_code (x : SysReg) : sysreg? (sysregCode x) = some x := by cases x <;> rfl
@[simp] theorem pop?_code (x : Pop) : pop? (popCode x) = some x := by cases x <;> rfl
theorem special?_code (x : Special) : special? (specialCode x) = some x := by
  cases x with
  | level k => revert k; decide
  | _ => rfl

/-! ### Fields of a full word -/

section
variable (c : Ctl) (op d a b x md : Nat)

theorem rrWord_op (ho : op < 1024) (hd : d < 256) (ha : a < 256) (hb : b < 256) (hx : x < 256) (hm : md < 32768) :
    bits (rrWord c op d a b x md) 52 10 = op := by
  have := bitOf_lt c.m
  have := guardBits_lt c.guard
  unfold bits rrWord
  omega
theorem rrWord_d (hd : d < 256) (ha : a < 256) (hb : b < 256) (hx : x < 256) (hm : md < 32768) :
    fD (rrWord c op d a b x md) = d := by
  have := guardBits_lt c.guard
  unfold fD bits rrWord
  omega
theorem rrWord_a (ha : a < 256) (hb : b < 256) (hx : x < 256) (hm : md < 32768) : fA (rrWord c op d a b x md) = a := by
  unfold fA bits rrWord
  omega
theorem rrWord_b (hb : b < 256) (hx : x < 256) (hm : md < 32768) : fB (rrWord c op d a b x md) = b := by
  unfold fB bits rrWord
  omega
theorem rrWord_c (hx : x < 256) (hm : md < 32768) : fC (rrWord c op d a b x md) = x := by
  unfold fC bits rrWord
  omega
/-- A field within MOD. -/
theorem rrWord_md (p n : Nat) (h : p + n ≤ 15) : bits (rrWord c op d a b x md) p n = bits md p n := by
  have e : rrWord c op d a b x md = md + 2 ^ p * (2 ^ n * (2 ^ (15 - p - n) * (bitOf c.m * 2 ^ 48 + op * 2 ^ 37
      + guardBits c.guard * 2 ^ 32 + d * 2 ^ 24 + a * 2 ^ 16 + b * 2 ^ 8 + x))) := by
    have : 2 ^ p * (2 ^ n * 2 ^ (15 - p - n)) = 2 ^ 15 := by rw [← pow_add, ← pow_add]; congr 1; omega
    rw [← mul_assoc (2 ^ n), ← mul_assoc (2 ^ p), this]
    unfold rrWord
    ring
  unfold bits
  rw [e, Nat.add_mul_div_left _ _ (Nat.two_pow_pos p), Nat.add_mul_mod_self_left]
theorem rrWord_m (ho : op < 1024) (hd : d < 256) (ha : a < 256) (hb : b < 256) (hx : x < 256) (hm : md < 32768) :
    bits (rrWord c op d a b x md) 63 1 = bitOf c.m := by
  have := bitOf_lt c.m
  have := guardBits_lt c.guard
  unfold bits rrWord
  omega
theorem rrWord_guard (hd : d < 256) (ha : a < 256) (hb : b < 256) (hx : x < 256) (hm : md < 32768) :
    bits (rrWord c op d a b x md) 47 5 = guardBits c.guard := by
  have := guardBits_lt c.guard
  unfold bits rrWord
  omega

end

end Sys2Proof
end

