-- ==== Sys2Proof/Laws/Table.lean ====
section
/-! SUPPORT. Reading after writing in sparse data and tables, and that every write keeps the canonical form. -/

namespace Sys2Proof

variable {α : Type}

theorem Sparse.get_insert (d : α) (m : Sparse α) (k : Nat) (v : α) (j : Nat) :
    Sparse.get d (Sparse.insert m k v) j = if j = k then v else Sparse.get d m j := by
  induction m with
  | nil => simp [Sparse.insert, Sparse.get]
  | cons e m ih =>
    obtain ⟨i, w⟩ := e
    by_cases h1 : k < i
    · simp [Sparse.insert, Sparse.get, h1]
    · by_cases h2 : k = i
      · subst h2; by_cases h3 : j = k <;> simp [Sparse.insert, Sparse.get, h3]
      · by_cases h3 : j = k
        · subst h3; simp [Sparse.insert, Sparse.get, h1, h2, ih]
        · simp [Sparse.insert, Sparse.get, h1, h2, h3, ih]

theorem Sparse.get_erase (d : α) (m : Sparse α) (k j : Nat) :
    Sparse.get d (Sparse.erase m k) j = if j = k then d else Sparse.get d m j := by
  induction m with
  | nil => simp [Sparse.erase, Sparse.get]
  | cons e m ih =>
    obtain ⟨i, w⟩ := e
    by_cases h1 : k = i
    · subst h1; by_cases h3 : j = k
      · subst h3; simp [Sparse.erase, ih]
      · simp [Sparse.erase, Sparse.get, h3, ih]
    · by_cases h3 : j = k
      · subst h3; simp [Sparse.erase, Sparse.get, h1, ih]
      · simp [Sparse.erase, Sparse.get, h1, h3, ih]

/-- Reading after a write: the value written at its key, and every other key as before. -/
theorem Sparse.get_set [DecidableEq α] (d : α) (m : Sparse α) (k : Nat) (v : α) (j : Nat) :
    Sparse.get d (Sparse.set d m k v) j = if j = k then v else Sparse.get d m j := by
  by_cases h : v = d <;> simp [Sparse.set, h, Sparse.get_erase, Sparse.get_insert]

@[simp] theorem Sparse.get_set_self [DecidableEq α] (d : α) (m : Sparse α) (k : Nat) (v : α) :
    Sparse.get d (Sparse.set d m k v) k = v := by simp [Sparse.get_set]

theorem Sparse.get_set_other [DecidableEq α] (d : α) (m : Sparse α) {k j : Nat} (v : α) (h : j ≠ k) :
    Sparse.get d (Sparse.set d m k v) j = Sparse.get d m j := by simp [Sparse.get_set, h]

theorem Sparse.risingFrom_weaken {lo hi : Nat} (m : Sparse α) (h : lo ≤ hi) (r : Sparse.risingFrom hi m = true) :
    Sparse.risingFrom lo m = true := by
  cases m with
  | nil => rfl
  | cons e m =>
    obtain ⟨i, w⟩ := e
    simp only [Sparse.risingFrom, Bool.and_eq_true, decide_eq_true_eq] at r ⊢
    exact ⟨by omega, r.2⟩

theorem Sparse.risingFrom_insert (m : Sparse α) (lo k : Nat) (v : α) (h : lo ≤ k) (r : Sparse.risingFrom lo m = true) :
    Sparse.risingFrom lo (Sparse.insert m k v) = true := by
  induction m generalizing lo with
  | nil => simp [Sparse.insert, Sparse.risingFrom, h]
  | cons e m ih =>
    obtain ⟨i, w⟩ := e
    simp only [Sparse.risingFrom, Bool.and_eq_true, decide_eq_true_eq] at r
    simp only [Sparse.insert]
    split_ifs with h1 h2 <;> simp only [Sparse.risingFrom, Bool.and_eq_true, decide_eq_true_eq]
    · exact ⟨h, by omega, r.2⟩
    · subst h2; exact ⟨h, r.2⟩
    · exact ⟨r.1, ih (i + 1) (by omega) r.2⟩

theorem Sparse.risingFrom_erase (m : Sparse α) (lo k : Nat) (r : Sparse.risingFrom lo m = true) :
    Sparse.risingFrom lo (Sparse.erase m k) = true := by
  induction m generalizing lo with
  | nil => rfl
  | cons e m ih =>
    obtain ⟨i, w⟩ := e
    simp only [Sparse.risingFrom, Bool.and_eq_true, decide_eq_true_eq] at r
    simp only [Sparse.erase]
    split_ifs
    · exact Sparse.risingFrom_weaken _ (by omega) (ih (i + 1) r.2)
    · simp only [Sparse.risingFrom, Bool.and_eq_true, decide_eq_true_eq]
      exact ⟨r.1, ih (i + 1) r.2⟩

theorem Sparse.mem_insert (m : Sparse α) (k : Nat) (v : α) {e : Nat × α} (h : e ∈ Sparse.insert m k v) :
    e = (k, v) ∨ e ∈ m := by
  induction m with
  | nil => simpa [Sparse.insert] using h
  | cons x m ih =>
    obtain ⟨i, w⟩ := x
    simp only [Sparse.insert] at h
    split_ifs at h
    · simpa using h
    · rcases List.mem_cons.mp h with h | h
      · exact .inl h
      · exact .inr (List.mem_cons_of_mem _ h)
    · rcases List.mem_cons.mp h with h | h
      · exact .inr (h ▸ List.mem_cons_self)
      · exact (ih h).imp_right (List.mem_cons_of_mem _)

theorem Sparse.mem_erase (m : Sparse α) (k : Nat) {e : Nat × α} (h : e ∈ Sparse.erase m k) : e ∈ m := by
  induction m with
  | nil => exact h
  | cons x m ih =>
    obtain ⟨i, w⟩ := x
    simp only [Sparse.erase] at h
    split_ifs at h
    · exact List.mem_cons_of_mem _ (ih h)
    · rcases List.mem_cons.mp h with h | h
      · exact h ▸ List.mem_cons_self
      · exact List.mem_cons_of_mem _ (ih h)

/-- A write keeps the canonical form. -/
theorem Sparse.wf_set [DecidableEq α] (d : α) (m : Sparse α) (k : Nat) (v : α) (h : Sparse.wf d m = true) :
    Sparse.wf d (Sparse.set d m k v) = true := by
  simp only [Sparse.wf, Bool.and_eq_true, List.all_eq_true, decide_eq_true_eq] at h ⊢
  unfold Sparse.set
  split_ifs with hv
  · exact ⟨Sparse.risingFrom_erase _ _ _ h.1, fun e he => h.2 e (Sparse.mem_erase _ _ he)⟩
  · refine ⟨Sparse.risingFrom_insert _ _ _ _ (Nat.zero_le _) h.1, fun e he => ?_⟩
    rcases Sparse.mem_insert _ _ _ he with rfl | he
    · exact hv
    · exact h.2 e he

theorem Sparse.risingFrom_filter (m : Sparse α) (lo : Nat) (p : Nat × α → Bool) (r : Sparse.risingFrom lo m = true) :
    Sparse.risingFrom lo (m.filter p) = true := by
  induction m generalizing lo with
  | nil => rfl
  | cons e m ih =>
    obtain ⟨i, w⟩ := e
    simp only [Sparse.risingFrom, Bool.and_eq_true, decide_eq_true_eq] at r
    rw [List.filter_cons]
    split_ifs
    · simp only [Sparse.risingFrom, Bool.and_eq_true, decide_eq_true_eq]
      exact ⟨r.1, ih (i + 1) r.2⟩
    · exact Sparse.risingFrom_weaken _ (by omega) (ih (i + 1) r.2)

/-- Dropping entries keeps the canonical form. -/
theorem Sparse.wf_filter [DecidableEq α] (d : α) (m : Sparse α) (p : Nat × α → Bool) (h : Sparse.wf d m = true) :
    Sparse.wf d (m.filter p) = true := by
  simp only [Sparse.wf, Bool.and_eq_true, List.all_eq_true, decide_eq_true_eq] at h ⊢
  exact ⟨Sparse.risingFrom_filter _ _ _ h.1, fun e he => h.2 e (List.mem_of_mem_filter he)⟩

/-- Finding after a put: the record put at its key, and every other key as before. -/
theorem Table.find_put (m : Table α) (k : Nat) (v : α) (j : Nat) :
    Table.find (Table.put m k v) j = if j = k then some v else Table.find m j := by
  induction m with
  | nil => simp [Table.put, Sparse.insert, Table.find]
  | cons e m ih =>
    obtain ⟨i, w⟩ := e
    simp only [Table.put] at ih
    by_cases h1 : k < i
    · simp [Table.put, Sparse.insert, Table.find, h1]
    · by_cases h2 : k = i
      · subst h2; by_cases h3 : j = k <;> simp [Table.put, Sparse.insert, Table.find, h3]
      · by_cases h3 : j = k
        · subst h3; simp [Table.put, Sparse.insert, Table.find, h1, h2, ih]
        · simp [Table.put, Sparse.insert, Table.find, h1, h2, h3, ih]

@[simp] theorem Table.find_put_self (m : Table α) (k : Nat) (v : α) : Table.find (Table.put m k v) k = some v := by
  simp [Table.find_put]

theorem Table.find_put_other (m : Table α) {k j : Nat} (v : α) (h : j ≠ k) :
    Table.find (Table.put m k v) j = Table.find m j := by simp [Table.find_put, h]

@[simp] theorem Table.getD_put_self (m : Table α) (k : Nat) (v d : α) : Table.getD (Table.put m k v) k d = v := by
  simp [Table.getD]

theorem Table.getD_put_other (m : Table α) {k j : Nat} (v d : α) (h : j ≠ k) :
    Table.getD (Table.put m k v) j d = Table.getD m j d := by simp [Table.getD, Table.find_put_other m v h]

/-- Putting twice at one key is putting the second record. -/
theorem Table.put_put (m : Table α) (k : Nat) (v w : α) : Table.put (Table.put m k v) k w = Table.put m k w := by
  induction m with
  | nil => simp [Table.put, Sparse.insert]
  | cons e m ih =>
    obtain ⟨i, u⟩ := e
    simp only [Table.put] at ih ⊢
    simp only [Sparse.insert]
    split_ifs with h1 h2
    · simp [Sparse.insert]
    · simp [Sparse.insert]
    · simp [Sparse.insert, h1, h2, ih]

/-- Finding after a removal. -/
theorem Table.find_del (m : Table α) (k j : Nat) :
    Table.find (Table.del m k) j = if j = k then none else Table.find m j := by
  induction m with
  | nil => simp [Table.del, Sparse.erase, Table.find]
  | cons e m ih =>
    obtain ⟨i, w⟩ := e
    simp only [Table.del] at ih
    by_cases h1 : k = i
    · subst h1; by_cases h3 : j = k
      · subst h3; simp [Table.del, Sparse.erase, ih]
      · simp [Table.del, Sparse.erase, Table.find, h3, ih]
    · by_cases h3 : j = k
      · subst h3; simp [Table.del, Sparse.erase, Table.find, h1, ih]
      · simp [Table.del, Sparse.erase, Table.find, h1, h3, ih]

end Sys2Proof
end

