-- ==== Sys2Proof/Laws/State.lean ====
section
/-! SUPPORT. What the updates of the state and of a slice leave of each field, and how the changed record reads back, so that a proof
never unfolds a record update. -/

namespace Sys2Proof.Machine

set_option Elab.async false

/-! ### modSlice -/

@[simp] theorem State.modSlice_now (s : State) (k : Nat) (f : Slice → Slice) : (s.modSlice k f).now = s.now :=
  by unfold State.modSlice; split <;> rfl
@[simp] theorem State.modSlice_turns (s : State) (k : Nat) (f : Slice → Slice) : (s.modSlice k f).turns = s.turns :=
  by unfold State.modSlice; split <;> rfl
@[simp] theorem State.modSlice_fresh (s : State) (k : Nat) (f : Slice → Slice) : (s.modSlice k f).fresh = s.fresh :=
  by unfold State.modSlice; split <;> rfl
@[simp] theorem State.modSlice_cur (s : State) (k : Nat) (f : Slice → Slice) : (s.modSlice k f).cur = s.cur :=
  by unfold State.modSlice; split <;> rfl
@[simp] theorem State.modSlice_ir (s : State) (k : Nat) (f : Slice → Slice) : (s.modSlice k f).ir = s.ir :=
  by unfold State.modSlice; split <;> rfl
@[simp] theorem State.modSlice_blocks (s : State) (k : Nat) (f : Slice → Slice) : (s.modSlice k f).blocks = s.blocks :=
  by unfold State.modSlice; split <;> rfl
@[simp] theorem State.modSlice_grids (s : State) (k : Nat) (f : Slice → Slice) : (s.modSlice k f).grids = s.grids :=
  by unfold State.modSlice; split <;> rfl
@[simp] theorem State.modSlice_cores (s : State) (k : Nat) (f : Slice → Slice) : (s.modSlice k f).cores = s.cores :=
  by unfold State.modSlice; split <;> rfl
@[simp] theorem State.modSlice_chips (s : State) (k : Nat) (f : Slice → Slice) : (s.modSlice k f).chips = s.chips :=
  by unfold State.modSlice; split <;> rfl
@[simp] theorem State.modSlice_dies (s : State) (k : Nat) (f : Slice → Slice) : (s.modSlice k f).dies = s.dies :=
  by unfold State.modSlice; split <;> rfl
@[simp] theorem State.modSlice_dev (s : State) (k : Nat) (f : Slice → Slice) : (s.modSlice k f).dev = s.dev :=
  by unfold State.modSlice; split <;> rfl
@[simp] theorem State.modSlice_mem (s : State) (k : Nat) (f : Slice → Slice) : (s.modSlice k f).mem = s.mem :=
  by unfold State.modSlice; split <;> rfl
@[simp] theorem State.modSlice_poison (s : State) (k : Nat) (f : Slice → Slice) : (s.modSlice k f).poison = s.poison :=
  by unfold State.modSlice; split <;> rfl
@[simp] theorem State.modSlice_lineKey (s : State) (k : Nat) (f : Slice → Slice) : (s.modSlice k f).lineKey = s.lineKey :=
  by unfold State.modSlice; split <;> rfl
@[simp] theorem State.modSlice_past (s : State) (k : Nat) (f : Slice → Slice) : (s.modSlice k f).past = s.past :=
  by unfold State.modSlice; split <;> rfl
@[simp] theorem State.modSlice_stamp (s : State) (k : Nat) (f : Slice → Slice) : (s.modSlice k f).stamp = s.stamp :=
  by unfold State.modSlice; split <;> rfl

/-! ### modBlock -/

@[simp] theorem State.modBlock_now (s : State) (u : Nat) (f : Block → Block) : (s.modBlock u f).now = s.now :=
  by unfold State.modBlock; split <;> rfl
@[simp] theorem State.modBlock_turns (s : State) (u : Nat) (f : Block → Block) : (s.modBlock u f).turns = s.turns :=
  by unfold State.modBlock; split <;> rfl
@[simp] theorem State.modBlock_fresh (s : State) (u : Nat) (f : Block → Block) : (s.modBlock u f).fresh = s.fresh :=
  by unfold State.modBlock; split <;> rfl
@[simp] theorem State.modBlock_cur (s : State) (u : Nat) (f : Block → Block) : (s.modBlock u f).cur = s.cur :=
  by unfold State.modBlock; split <;> rfl
@[simp] theorem State.modBlock_ir (s : State) (u : Nat) (f : Block → Block) : (s.modBlock u f).ir = s.ir :=
  by unfold State.modBlock; split <;> rfl
@[simp] theorem State.modBlock_slices (s : State) (u : Nat) (f : Block → Block) : (s.modBlock u f).slices = s.slices :=
  by unfold State.modBlock; split <;> rfl
@[simp] theorem State.modBlock_grids (s : State) (u : Nat) (f : Block → Block) : (s.modBlock u f).grids = s.grids :=
  by unfold State.modBlock; split <;> rfl
@[simp] theorem State.modBlock_cores (s : State) (u : Nat) (f : Block → Block) : (s.modBlock u f).cores = s.cores :=
  by unfold State.modBlock; split <;> rfl
@[simp] theorem State.modBlock_chips (s : State) (u : Nat) (f : Block → Block) : (s.modBlock u f).chips = s.chips :=
  by unfold State.modBlock; split <;> rfl
@[simp] theorem State.modBlock_dies (s : State) (u : Nat) (f : Block → Block) : (s.modBlock u f).dies = s.dies :=
  by unfold State.modBlock; split <;> rfl
@[simp] theorem State.modBlock_dev (s : State) (u : Nat) (f : Block → Block) : (s.modBlock u f).dev = s.dev :=
  by unfold State.modBlock; split <;> rfl
@[simp] theorem State.modBlock_mem (s : State) (u : Nat) (f : Block → Block) : (s.modBlock u f).mem = s.mem :=
  by unfold State.modBlock; split <;> rfl
@[simp] theorem State.modBlock_poison (s : State) (u : Nat) (f : Block → Block) : (s.modBlock u f).poison = s.poison :=
  by unfold State.modBlock; split <;> rfl
@[simp] theorem State.modBlock_lineKey (s : State) (u : Nat) (f : Block → Block) : (s.modBlock u f).lineKey = s.lineKey :=
  by unfold State.modBlock; split <;> rfl
@[simp] theorem State.modBlock_past (s : State) (u : Nat) (f : Block → Block) : (s.modBlock u f).past = s.past :=
  by unfold State.modBlock; split <;> rfl
@[simp] theorem State.modBlock_stamp (s : State) (u : Nat) (f : Block → Block) : (s.modBlock u f).stamp = s.stamp :=
  by unfold State.modBlock; split <;> rfl

/-! ### modGrid -/

@[simp] theorem State.modGrid_now (s : State) (g : Nat) (f : Grid → Grid) : (s.modGrid g f).now = s.now :=
  by unfold State.modGrid; split <;> rfl
@[simp] theorem State.modGrid_turns (s : State) (g : Nat) (f : Grid → Grid) : (s.modGrid g f).turns = s.turns :=
  by unfold State.modGrid; split <;> rfl
@[simp] theorem State.modGrid_fresh (s : State) (g : Nat) (f : Grid → Grid) : (s.modGrid g f).fresh = s.fresh :=
  by unfold State.modGrid; split <;> rfl
@[simp] theorem State.modGrid_cur (s : State) (g : Nat) (f : Grid → Grid) : (s.modGrid g f).cur = s.cur :=
  by unfold State.modGrid; split <;> rfl
@[simp] theorem State.modGrid_ir (s : State) (g : Nat) (f : Grid → Grid) : (s.modGrid g f).ir = s.ir :=
  by unfold State.modGrid; split <;> rfl
@[simp] theorem State.modGrid_slices (s : State) (g : Nat) (f : Grid → Grid) : (s.modGrid g f).slices = s.slices :=
  by unfold State.modGrid; split <;> rfl
@[simp] theorem State.modGrid_blocks (s : State) (g : Nat) (f : Grid → Grid) : (s.modGrid g f).blocks = s.blocks :=
  by unfold State.modGrid; split <;> rfl
@[simp] theorem State.modGrid_cores (s : State) (g : Nat) (f : Grid → Grid) : (s.modGrid g f).cores = s.cores :=
  by unfold State.modGrid; split <;> rfl
@[simp] theorem State.modGrid_chips (s : State) (g : Nat) (f : Grid → Grid) : (s.modGrid g f).chips = s.chips :=
  by unfold State.modGrid; split <;> rfl
@[simp] theorem State.modGrid_dies (s : State) (g : Nat) (f : Grid → Grid) : (s.modGrid g f).dies = s.dies :=
  by unfold State.modGrid; split <;> rfl
@[simp] theorem State.modGrid_dev (s : State) (g : Nat) (f : Grid → Grid) : (s.modGrid g f).dev = s.dev :=
  by unfold State.modGrid; split <;> rfl
@[simp] theorem State.modGrid_mem (s : State) (g : Nat) (f : Grid → Grid) : (s.modGrid g f).mem = s.mem :=
  by unfold State.modGrid; split <;> rfl
@[simp] theorem State.modGrid_poison (s : State) (g : Nat) (f : Grid → Grid) : (s.modGrid g f).poison = s.poison :=
  by unfold State.modGrid; split <;> rfl
@[simp] theorem State.modGrid_lineKey (s : State) (g : Nat) (f : Grid → Grid) : (s.modGrid g f).lineKey = s.lineKey :=
  by unfold State.modGrid; split <;> rfl
@[simp] theorem State.modGrid_past (s : State) (g : Nat) (f : Grid → Grid) : (s.modGrid g f).past = s.past :=
  by unfold State.modGrid; split <;> rfl
@[simp] theorem State.modGrid_stamp (s : State) (g : Nat) (f : Grid → Grid) : (s.modGrid g f).stamp = s.stamp :=
  by unfold State.modGrid; split <;> rfl

/-! ### modCore -/

@[simp] theorem State.modCore_now (s : State) (c : Nat) (f : Core → Core) : (s.modCore c f).now = s.now := rfl
@[simp] theorem State.modCore_turns (s : State) (c : Nat) (f : Core → Core) : (s.modCore c f).turns = s.turns := rfl
@[simp] theorem State.modCore_fresh (s : State) (c : Nat) (f : Core → Core) : (s.modCore c f).fresh = s.fresh := rfl
@[simp] theorem State.modCore_cur (s : State) (c : Nat) (f : Core → Core) : (s.modCore c f).cur = s.cur := rfl
@[simp] theorem State.modCore_ir (s : State) (c : Nat) (f : Core → Core) : (s.modCore c f).ir = s.ir := rfl
@[simp] theorem State.modCore_slices (s : State) (c : Nat) (f : Core → Core) : (s.modCore c f).slices = s.slices := rfl
@[simp] theorem State.modCore_blocks (s : State) (c : Nat) (f : Core → Core) : (s.modCore c f).blocks = s.blocks := rfl
@[simp] theorem State.modCore_grids (s : State) (c : Nat) (f : Core → Core) : (s.modCore c f).grids = s.grids := rfl
@[simp] theorem State.modCore_chips (s : State) (c : Nat) (f : Core → Core) : (s.modCore c f).chips = s.chips := rfl
@[simp] theorem State.modCore_dies (s : State) (c : Nat) (f : Core → Core) : (s.modCore c f).dies = s.dies := rfl
@[simp] theorem State.modCore_dev (s : State) (c : Nat) (f : Core → Core) : (s.modCore c f).dev = s.dev := rfl
@[simp] theorem State.modCore_mem (s : State) (c : Nat) (f : Core → Core) : (s.modCore c f).mem = s.mem := rfl
@[simp] theorem State.modCore_poison (s : State) (c : Nat) (f : Core → Core) : (s.modCore c f).poison = s.poison := rfl
@[simp] theorem State.modCore_lineKey (s : State) (c : Nat) (f : Core → Core) : (s.modCore c f).lineKey = s.lineKey := rfl
@[simp] theorem State.modCore_past (s : State) (c : Nat) (f : Core → Core) : (s.modCore c f).past = s.past := rfl
@[simp] theorem State.modCore_stamp (s : State) (c : Nat) (f : Core → Core) : (s.modCore c f).stamp = s.stamp := rfl

/-! ### modChip -/

@[simp] theorem State.modChip_now (s : State) (v : Nat) (f : Chip → Chip) : (s.modChip v f).now = s.now := rfl
@[simp] theorem State.modChip_turns (s : State) (v : Nat) (f : Chip → Chip) : (s.modChip v f).turns = s.turns := rfl
@[simp] theorem State.modChip_fresh (s : State) (v : Nat) (f : Chip → Chip) : (s.modChip v f).fresh = s.fresh := rfl
@[simp] theorem State.modChip_cur (s : State) (v : Nat) (f : Chip → Chip) : (s.modChip v f).cur = s.cur := rfl
@[simp] theorem State.modChip_ir (s : State) (v : Nat) (f : Chip → Chip) : (s.modChip v f).ir = s.ir := rfl
@[simp] theorem State.modChip_slices (s : State) (v : Nat) (f : Chip → Chip) : (s.modChip v f).slices = s.slices := rfl
@[simp] theorem State.modChip_blocks (s : State) (v : Nat) (f : Chip → Chip) : (s.modChip v f).blocks = s.blocks := rfl
@[simp] theorem State.modChip_grids (s : State) (v : Nat) (f : Chip → Chip) : (s.modChip v f).grids = s.grids := rfl
@[simp] theorem State.modChip_cores (s : State) (v : Nat) (f : Chip → Chip) : (s.modChip v f).cores = s.cores := rfl
@[simp] theorem State.modChip_dies (s : State) (v : Nat) (f : Chip → Chip) : (s.modChip v f).dies = s.dies := rfl
@[simp] theorem State.modChip_dev (s : State) (v : Nat) (f : Chip → Chip) : (s.modChip v f).dev = s.dev := rfl
@[simp] theorem State.modChip_mem (s : State) (v : Nat) (f : Chip → Chip) : (s.modChip v f).mem = s.mem := rfl
@[simp] theorem State.modChip_poison (s : State) (v : Nat) (f : Chip → Chip) : (s.modChip v f).poison = s.poison := rfl
@[simp] theorem State.modChip_lineKey (s : State) (v : Nat) (f : Chip → Chip) : (s.modChip v f).lineKey = s.lineKey := rfl
@[simp] theorem State.modChip_past (s : State) (v : Nat) (f : Chip → Chip) : (s.modChip v f).past = s.past := rfl
@[simp] theorem State.modChip_stamp (s : State) (v : Nat) (f : Chip → Chip) : (s.modChip v f).stamp = s.stamp := rfl

/-! ### modDie -/

@[simp] theorem State.modDie_now (s : State) (d : Nat) (f : Die → Die) : (s.modDie d f).now = s.now :=
  by unfold State.modDie; split <;> rfl
@[simp] theorem State.modDie_turns (s : State) (d : Nat) (f : Die → Die) : (s.modDie d f).turns = s.turns :=
  by unfold State.modDie; split <;> rfl
@[simp] theorem State.modDie_fresh (s : State) (d : Nat) (f : Die → Die) : (s.modDie d f).fresh = s.fresh :=
  by unfold State.modDie; split <;> rfl
@[simp] theorem State.modDie_cur (s : State) (d : Nat) (f : Die → Die) : (s.modDie d f).cur = s.cur :=
  by unfold State.modDie; split <;> rfl
@[simp] theorem State.modDie_ir (s : State) (d : Nat) (f : Die → Die) : (s.modDie d f).ir = s.ir :=
  by unfold State.modDie; split <;> rfl
@[simp] theorem State.modDie_slices (s : State) (d : Nat) (f : Die → Die) : (s.modDie d f).slices = s.slices :=
  by unfold State.modDie; split <;> rfl
@[simp] theorem State.modDie_blocks (s : State) (d : Nat) (f : Die → Die) : (s.modDie d f).blocks = s.blocks :=
  by unfold State.modDie; split <;> rfl
@[simp] theorem State.modDie_grids (s : State) (d : Nat) (f : Die → Die) : (s.modDie d f).grids = s.grids :=
  by unfold State.modDie; split <;> rfl
@[simp] theorem State.modDie_cores (s : State) (d : Nat) (f : Die → Die) : (s.modDie d f).cores = s.cores :=
  by unfold State.modDie; split <;> rfl
@[simp] theorem State.modDie_chips (s : State) (d : Nat) (f : Die → Die) : (s.modDie d f).chips = s.chips :=
  by unfold State.modDie; split <;> rfl
@[simp] theorem State.modDie_dev (s : State) (d : Nat) (f : Die → Die) : (s.modDie d f).dev = s.dev :=
  by unfold State.modDie; split <;> rfl
@[simp] theorem State.modDie_mem (s : State) (d : Nat) (f : Die → Die) : (s.modDie d f).mem = s.mem :=
  by unfold State.modDie; split <;> rfl
@[simp] theorem State.modDie_poison (s : State) (d : Nat) (f : Die → Die) : (s.modDie d f).poison = s.poison :=
  by unfold State.modDie; split <;> rfl
@[simp] theorem State.modDie_lineKey (s : State) (d : Nat) (f : Die → Die) : (s.modDie d f).lineKey = s.lineKey :=
  by unfold State.modDie; split <;> rfl
@[simp] theorem State.modDie_past (s : State) (d : Nat) (f : Die → Die) : (s.modDie d f).past = s.past :=
  by unfold State.modDie; split <;> rfl
@[simp] theorem State.modDie_stamp (s : State) (d : Nat) (f : Die → Die) : (s.modDie d f).stamp = s.stamp :=
  by unfold State.modDie; split <;> rfl

/-! ### modDev -/

@[simp] theorem State.modDev_now (s : State) (f : Dev → Dev) : (s.modDev f).now = s.now := rfl
@[simp] theorem State.modDev_turns (s : State) (f : Dev → Dev) : (s.modDev f).turns = s.turns := rfl
@[simp] theorem State.modDev_fresh (s : State) (f : Dev → Dev) : (s.modDev f).fresh = s.fresh := rfl
@[simp] theorem State.modDev_cur (s : State) (f : Dev → Dev) : (s.modDev f).cur = s.cur := rfl
@[simp] theorem State.modDev_ir (s : State) (f : Dev → Dev) : (s.modDev f).ir = s.ir := rfl
@[simp] theorem State.modDev_slices (s : State) (f : Dev → Dev) : (s.modDev f).slices = s.slices := rfl
@[simp] theorem State.modDev_blocks (s : State) (f : Dev → Dev) : (s.modDev f).blocks = s.blocks := rfl
@[simp] theorem State.modDev_grids (s : State) (f : Dev → Dev) : (s.modDev f).grids = s.grids := rfl
@[simp] theorem State.modDev_cores (s : State) (f : Dev → Dev) : (s.modDev f).cores = s.cores := rfl
@[simp] theorem State.modDev_chips (s : State) (f : Dev → Dev) : (s.modDev f).chips = s.chips := rfl
@[simp] theorem State.modDev_dies (s : State) (f : Dev → Dev) : (s.modDev f).dies = s.dies := rfl
@[simp] theorem State.modDev_mem (s : State) (f : Dev → Dev) : (s.modDev f).mem = s.mem := rfl
@[simp] theorem State.modDev_poison (s : State) (f : Dev → Dev) : (s.modDev f).poison = s.poison := rfl
@[simp] theorem State.modDev_lineKey (s : State) (f : Dev → Dev) : (s.modDev f).lineKey = s.lineKey := rfl
@[simp] theorem State.modDev_past (s : State) (f : Dev → Dev) : (s.modDev f).past = s.past := rfl
@[simp] theorem State.modDev_stamp (s : State) (f : Dev → Dev) : (s.modDev f).stamp = s.stamp := rfl

/-! ### withSlice -/

@[simp] theorem State.withSlice_now (s : State) (y : Slice) : (s.withSlice y).now = s.now := rfl
@[simp] theorem State.withSlice_turns (s : State) (y : Slice) : (s.withSlice y).turns = s.turns := rfl
@[simp] theorem State.withSlice_fresh (s : State) (y : Slice) : (s.withSlice y).fresh = s.fresh := rfl
@[simp] theorem State.withSlice_cur (s : State) (y : Slice) : (s.withSlice y).cur = s.cur := rfl
@[simp] theorem State.withSlice_ir (s : State) (y : Slice) : (s.withSlice y).ir = s.ir := rfl
@[simp] theorem State.withSlice_blocks (s : State) (y : Slice) : (s.withSlice y).blocks = s.blocks := rfl
@[simp] theorem State.withSlice_grids (s : State) (y : Slice) : (s.withSlice y).grids = s.grids := rfl
@[simp] theorem State.withSlice_cores (s : State) (y : Slice) : (s.withSlice y).cores = s.cores := rfl
@[simp] theorem State.withSlice_chips (s : State) (y : Slice) : (s.withSlice y).chips = s.chips := rfl
@[simp] theorem State.withSlice_dies (s : State) (y : Slice) : (s.withSlice y).dies = s.dies := rfl
@[simp] theorem State.withSlice_dev (s : State) (y : Slice) : (s.withSlice y).dev = s.dev := rfl
@[simp] theorem State.withSlice_mem (s : State) (y : Slice) : (s.withSlice y).mem = s.mem := rfl
@[simp] theorem State.withSlice_poison (s : State) (y : Slice) : (s.withSlice y).poison = s.poison := rfl
@[simp] theorem State.withSlice_lineKey (s : State) (y : Slice) : (s.withSlice y).lineKey = s.lineKey := rfl
@[simp] theorem State.withSlice_past (s : State) (y : Slice) : (s.withSlice y).past = s.past := rfl
@[simp] theorem State.withSlice_stamp (s : State) (y : Slice) : (s.withSlice y).stamp = s.stamp := rfl

/-! ### Reading back -/

theorem State.modSlice_find (s : State) (k : Nat) (f : Slice → Slice) (j : Nat) :
    Table.find (s.modSlice k f).slices j = if j = k then (Table.find s.slices k).map f else Table.find s.slices j := by
  unfold State.modSlice
  split
  · rename_i x h; simp only [Table.find_put, h, Option.map_some]
  · rename_i h
    by_cases e : j = k
    · simp [e, h]
    · simp [e]

theorem State.modBlock_find (s : State) (u : Nat) (f : Block → Block) (j : Nat) :
    Table.find (s.modBlock u f).blocks j = if j = u then (Table.find s.blocks u).map f else Table.find s.blocks j := by
  unfold State.modBlock
  split
  · rename_i x h; simp only [Table.find_put, h, Option.map_some]
  · rename_i h
    by_cases e : j = u
    · simp [e, h]
    · simp [e]

theorem State.modGrid_find (s : State) (g : Nat) (f : Grid → Grid) (j : Nat) :
    Table.find (s.modGrid g f).grids j = if j = g then (Table.find s.grids g).map f else Table.find s.grids j := by
  unfold State.modGrid
  split
  · rename_i x h; simp only [Table.find_put, h, Option.map_some]
  · rename_i h
    by_cases e : j = g
    · simp [e, h]
    · simp [e]

@[simp] theorem State.modCore_core_self (s : State) (c : Nat) (f : Core → Core) : (s.modCore c f).core c = f (s.core c) := by
  simp [State.core, State.modCore]

theorem State.modCore_core_other (s : State) {c n : Nat} (f : Core → Core) (h : n ≠ c) : (s.modCore c f).core n = s.core n := by
  simp [State.core, State.modCore, Table.getD_put_other _ _ _ h]

@[simp] theorem State.modChip_chip_self (s : State) (v : Nat) (f : Chip → Chip) : (s.modChip v f).chip v = f (s.chip v) := by
  simp [State.chip, State.modChip]

theorem State.modChip_chip_other (s : State) {v n : Nat} (f : Chip → Chip) (h : n ≠ v) : (s.modChip v f).chip n = s.chip n := by
  simp [State.chip, State.modChip, Table.getD_put_other _ _ _ h]

theorem State.modDie_die (s : State) (d : Nat) (f : Die → Die) (n : Nat) :
    (s.modDie d f).die n = if n = d ∧ d < 4 then f (s.die d) else s.die n := by
  unfold State.modDie
  split
  · rename_i h
    by_cases e : n = d
    · subst e; simp [State.die, h]
    · simp [State.die, e, Ne.symm e]
  · rename_i h; simp [h]

@[simp] theorem State.modDev_dev (s : State) (f : Dev → Dev) : (s.modDev f).dev = f s.dev := rfl

@[simp] theorem State.withSlice_find_self (s : State) (y : Slice) : Table.find (s.withSlice y).slices s.cur = some y := by
  simp [State.withSlice]

theorem State.withSlice_find_other (s : State) (y : Slice) {k : Nat} (h : k ≠ s.cur) :
    Table.find (s.withSlice y).slices k = Table.find s.slices k := by
  simp [State.withSlice, Table.find_put_other _ _ h]

@[simp] theorem State.withSlice_withSlice (s : State) (y z : Slice) : (s.withSlice y).withSlice z = s.withSlice z := by
  simp [State.withSlice, Table.put_put]

/-! ### Slice.setS -/

@[simp] theorem Slice.setS_pc (x : Slice) (n : Nat) (w : Word64) : (x.setS n w).pc = x.pc :=
  by unfold Slice.setS; split <;> rfl
@[simp] theorem Slice.setS_last (x : Slice) (n : Nat) (w : Word64) : (x.setS n w).last = x.last :=
  by unfold Slice.setS; split <;> rfl
@[simp] theorem Slice.setS_v (x : Slice) (n : Nat) (w : Word64) : (x.setS n w).v = x.v :=
  by unfold Slice.setS; split <;> rfl
@[simp] theorem Slice.setS_exec (x : Slice) (n : Nat) (w : Word64) : (x.setS n w).exec = x.exec :=
  by unfold Slice.setS; split <;> rfl
@[simp] theorem Slice.setS_live (x : Slice) (n : Nat) (w : Word64) : (x.setS n w).live = x.live :=
  by unfold Slice.setS; split <;> rfl
@[simp] theorem Slice.setS_q (x : Slice) (n : Nat) (w : Word64) : (x.setS n w).q = x.q :=
  by unfold Slice.setS; split <;> rfl
@[simp] theorem Slice.setS_smode (x : Slice) (n : Nat) (w : Word64) : (x.setS n w).smode = x.smode :=
  by unfold Slice.setS; split <;> rfl
@[simp] theorem Slice.setS_cnt (x : Slice) (n : Nat) (w : Word64) : (x.setS n w).cnt = x.cnt :=
  by unfold Slice.setS; split <;> rfl
@[simp] theorem Slice.setS_ops (x : Slice) (n : Nat) (w : Word64) : (x.setS n w).ops = x.ops :=
  by unfold Slice.setS; split <;> rfl
@[simp] theorem Slice.setS_seq (x : Slice) (n : Nat) (w : Word64) : (x.setS n w).seq = x.seq :=
  by unfold Slice.setS; split <;> rfl
@[simp] theorem Slice.setS_pend (x : Slice) (n : Nat) (w : Word64) : (x.setS n w).pend = x.pend :=
  by unfold Slice.setS; split <;> rfl
@[simp] theorem Slice.setS_stale (x : Slice) (n : Nat) (w : Word64) : (x.setS n w).stale = x.stale :=
  by unfold Slice.setS; split <;> rfl
@[simp] theorem Slice.setS_hold (x : Slice) (n : Nat) (w : Word64) : (x.setS n w).hold = x.hold :=
  by unfold Slice.setS; split <;> rfl
@[simp] theorem Slice.setS_ended (x : Slice) (n : Nat) (w : Word64) : (x.setS n w).ended = x.ended :=
  by unfold Slice.setS; split <;> rfl
@[simp] theorem Slice.setS_frame (x : Slice) (n : Nat) (w : Word64) : (x.setS n w).frame = x.frame :=
  by unfold Slice.setS; split <;> rfl
@[simp] theorem Slice.setS_enteredAt (x : Slice) (n : Nat) (w : Word64) : (x.setS n w).enteredAt = x.enteredAt :=
  by unfold Slice.setS; split <;> rfl
@[simp] theorem Slice.setS_dropped (x : Slice) (n : Nat) (w : Word64) : (x.setS n w).dropped = x.dropped :=
  by unfold Slice.setS; split <;> rfl
@[simp] theorem Slice.setS_dropDue (x : Slice) (n : Nat) (w : Word64) : (x.setS n w).dropDue = x.dropDue :=
  by unfold Slice.setS; split <;> rfl
@[simp] theorem Slice.setS_poisonDue (x : Slice) (n : Nat) (w : Word64) : (x.setS n w).poisonDue = x.poisonDue :=
  by unfold Slice.setS; split <;> rfl
@[simp] theorem Slice.setS_vpoison (x : Slice) (n : Nat) (w : Word64) : (x.setS n w).vpoison = x.vpoison :=
  by unfold Slice.setS; split <;> rfl
@[simp] theorem Slice.setS_engFail (x : Slice) (n : Nat) (w : Word64) : (x.setS n w).engFail = x.engFail :=
  by unfold Slice.setS; split <;> rfl
@[simp] theorem Slice.setS_issued (x : Slice) (n : Nat) (w : Word64) : (x.setS n w).issued = x.issued :=
  by unfold Slice.setS; split <;> rfl
@[simp] theorem Slice.setS_forcedOk (x : Slice) (n : Nat) (w : Word64) : (x.setS n w).forcedOk = x.forcedOk :=
  by unfold Slice.setS; split <;> rfl
@[simp] theorem Slice.setS_splice (x : Slice) (n : Nat) (w : Word64) : (x.setS n w).splice = x.splice :=
  by unfold Slice.setS; split <;> rfl
@[simp] theorem Slice.setS_knows (x : Slice) (n : Nat) (w : Word64) : (x.setS n w).knows = x.knows :=
  by unfold Slice.setS; split <;> rfl
@[simp] theorem Slice.setS_reads (x : Slice) (n : Nat) (w : Word64) : (x.setS n w).reads = x.reads :=
  by unfold Slice.setS; split <;> rfl
@[simp] theorem Slice.setS_lastRead (x : Slice) (n : Nat) (w : Word64) : (x.setS n w).lastRead = x.lastRead :=
  by unfold Slice.setS; split <;> rfl
@[simp] theorem Slice.setS_fences (x : Slice) (n : Nat) (w : Word64) : (x.setS n w).fences = x.fences :=
  by unfold Slice.setS; split <;> rfl

/-! ### Slice.setV -/

@[simp] theorem Slice.setV_pc (x : Slice) (n l : Nat) (w : Word32) : (x.setV n l w).pc = x.pc := rfl
@[simp] theorem Slice.setV_last (x : Slice) (n l : Nat) (w : Word32) : (x.setV n l w).last = x.last := rfl
@[simp] theorem Slice.setV_s (x : Slice) (n l : Nat) (w : Word32) : (x.setV n l w).s = x.s := rfl
@[simp] theorem Slice.setV_exec (x : Slice) (n l : Nat) (w : Word32) : (x.setV n l w).exec = x.exec := rfl
@[simp] theorem Slice.setV_live (x : Slice) (n l : Nat) (w : Word32) : (x.setV n l w).live = x.live := rfl
@[simp] theorem Slice.setV_q (x : Slice) (n l : Nat) (w : Word32) : (x.setV n l w).q = x.q := rfl
@[simp] theorem Slice.setV_smode (x : Slice) (n l : Nat) (w : Word32) : (x.setV n l w).smode = x.smode := rfl
@[simp] theorem Slice.setV_cnt (x : Slice) (n l : Nat) (w : Word32) : (x.setV n l w).cnt = x.cnt := rfl
@[simp] theorem Slice.setV_ops (x : Slice) (n l : Nat) (w : Word32) : (x.setV n l w).ops = x.ops := rfl
@[simp] theorem Slice.setV_seq (x : Slice) (n l : Nat) (w : Word32) : (x.setV n l w).seq = x.seq := rfl
@[simp] theorem Slice.setV_pend (x : Slice) (n l : Nat) (w : Word32) : (x.setV n l w).pend = x.pend := rfl
@[simp] theorem Slice.setV_stale (x : Slice) (n l : Nat) (w : Word32) : (x.setV n l w).stale = x.stale := rfl
@[simp] theorem Slice.setV_hold (x : Slice) (n l : Nat) (w : Word32) : (x.setV n l w).hold = x.hold := rfl
@[simp] theorem Slice.setV_ended (x : Slice) (n l : Nat) (w : Word32) : (x.setV n l w).ended = x.ended := rfl
@[simp] theorem Slice.setV_frame (x : Slice) (n l : Nat) (w : Word32) : (x.setV n l w).frame = x.frame := rfl
@[simp] theorem Slice.setV_enteredAt (x : Slice) (n l : Nat) (w : Word32) : (x.setV n l w).enteredAt = x.enteredAt := rfl
@[simp] theorem Slice.setV_dropped (x : Slice) (n l : Nat) (w : Word32) : (x.setV n l w).dropped = x.dropped := rfl
@[simp] theorem Slice.setV_dropDue (x : Slice) (n l : Nat) (w : Word32) : (x.setV n l w).dropDue = x.dropDue := rfl
@[simp] theorem Slice.setV_poisonDue (x : Slice) (n l : Nat) (w : Word32) : (x.setV n l w).poisonDue = x.poisonDue := rfl
@[simp] theorem Slice.setV_vpoison (x : Slice) (n l : Nat) (w : Word32) : (x.setV n l w).vpoison = x.vpoison := rfl
@[simp] theorem Slice.setV_engFail (x : Slice) (n l : Nat) (w : Word32) : (x.setV n l w).engFail = x.engFail := rfl
@[simp] theorem Slice.setV_issued (x : Slice) (n l : Nat) (w : Word32) : (x.setV n l w).issued = x.issued := rfl
@[simp] theorem Slice.setV_forcedOk (x : Slice) (n l : Nat) (w : Word32) : (x.setV n l w).forcedOk = x.forcedOk := rfl
@[simp] theorem Slice.setV_splice (x : Slice) (n l : Nat) (w : Word32) : (x.setV n l w).splice = x.splice := rfl
@[simp] theorem Slice.setV_knows (x : Slice) (n l : Nat) (w : Word32) : (x.setV n l w).knows = x.knows := rfl
@[simp] theorem Slice.setV_reads (x : Slice) (n l : Nat) (w : Word32) : (x.setV n l w).reads = x.reads := rfl
@[simp] theorem Slice.setV_lastRead (x : Slice) (n l : Nat) (w : Word32) : (x.setV n l w).lastRead = x.lastRead := rfl
@[simp] theorem Slice.setV_fences (x : Slice) (n l : Nat) (w : Word32) : (x.setV n l w).fences = x.fences := rfl

/-! ### Slice.push -/

@[simp] theorem Slice.push_pc (x : Slice) (b : Nat → Bool) : (x.push b).pc = x.pc := rfl
@[simp] theorem Slice.push_last (x : Slice) (b : Nat → Bool) : (x.push b).last = x.last := rfl
@[simp] theorem Slice.push_s (x : Slice) (b : Nat → Bool) : (x.push b).s = x.s := rfl
@[simp] theorem Slice.push_v (x : Slice) (b : Nat → Bool) : (x.push b).v = x.v := rfl
@[simp] theorem Slice.push_exec (x : Slice) (b : Nat → Bool) : (x.push b).exec = x.exec := rfl
@[simp] theorem Slice.push_live (x : Slice) (b : Nat → Bool) : (x.push b).live = x.live := rfl
@[simp] theorem Slice.push_smode (x : Slice) (b : Nat → Bool) : (x.push b).smode = x.smode := rfl
@[simp] theorem Slice.push_cnt (x : Slice) (b : Nat → Bool) : (x.push b).cnt = x.cnt := rfl
@[simp] theorem Slice.push_ops (x : Slice) (b : Nat → Bool) : (x.push b).ops = x.ops := rfl
@[simp] theorem Slice.push_seq (x : Slice) (b : Nat → Bool) : (x.push b).seq = x.seq := rfl
@[simp] theorem Slice.push_pend (x : Slice) (b : Nat → Bool) : (x.push b).pend = x.pend := rfl
@[simp] theorem Slice.push_stale (x : Slice) (b : Nat → Bool) : (x.push b).stale = x.stale := rfl
@[simp] theorem Slice.push_hold (x : Slice) (b : Nat → Bool) : (x.push b).hold = x.hold := rfl
@[simp] theorem Slice.push_ended (x : Slice) (b : Nat → Bool) : (x.push b).ended = x.ended := rfl
@[simp] theorem Slice.push_frame (x : Slice) (b : Nat → Bool) : (x.push b).frame = x.frame := rfl
@[simp] theorem Slice.push_enteredAt (x : Slice) (b : Nat → Bool) : (x.push b).enteredAt = x.enteredAt := rfl
@[simp] theorem Slice.push_dropped (x : Slice) (b : Nat → Bool) : (x.push b).dropped = x.dropped := rfl
@[simp] theorem Slice.push_dropDue (x : Slice) (b : Nat → Bool) : (x.push b).dropDue = x.dropDue := rfl
@[simp] theorem Slice.push_poisonDue (x : Slice) (b : Nat → Bool) : (x.push b).poisonDue = x.poisonDue := rfl
@[simp] theorem Slice.push_vpoison (x : Slice) (b : Nat → Bool) : (x.push b).vpoison = x.vpoison := rfl
@[simp] theorem Slice.push_engFail (x : Slice) (b : Nat → Bool) : (x.push b).engFail = x.engFail := rfl
@[simp] theorem Slice.push_issued (x : Slice) (b : Nat → Bool) : (x.push b).issued = x.issued := rfl
@[simp] theorem Slice.push_forcedOk (x : Slice) (b : Nat → Bool) : (x.push b).forcedOk = x.forcedOk := rfl
@[simp] theorem Slice.push_splice (x : Slice) (b : Nat → Bool) : (x.push b).splice = x.splice := rfl
@[simp] theorem Slice.push_knows (x : Slice) (b : Nat → Bool) : (x.push b).knows = x.knows := rfl
@[simp] theorem Slice.push_reads (x : Slice) (b : Nat → Bool) : (x.push b).reads = x.reads := rfl
@[simp] theorem Slice.push_lastRead (x : Slice) (b : Nat → Bool) : (x.push b).lastRead = x.lastRead := rfl
@[simp] theorem Slice.push_fences (x : Slice) (b : Nat → Bool) : (x.push b).fences = x.fences := rfl

/-! ### Slice.setExec -/

@[simp] theorem Slice.setExec_pc (x : Slice) (m : BitVec 4) : (x.setExec m).pc = x.pc := rfl
@[simp] theorem Slice.setExec_last (x : Slice) (m : BitVec 4) : (x.setExec m).last = x.last := rfl
@[simp] theorem Slice.setExec_s (x : Slice) (m : BitVec 4) : (x.setExec m).s = x.s := rfl
@[simp] theorem Slice.setExec_v (x : Slice) (m : BitVec 4) : (x.setExec m).v = x.v := rfl
@[simp] theorem Slice.setExec_live (x : Slice) (m : BitVec 4) : (x.setExec m).live = x.live := rfl
@[simp] theorem Slice.setExec_q (x : Slice) (m : BitVec 4) : (x.setExec m).q = x.q := rfl
@[simp] theorem Slice.setExec_smode (x : Slice) (m : BitVec 4) : (x.setExec m).smode = x.smode := rfl
@[simp] theorem Slice.setExec_cnt (x : Slice) (m : BitVec 4) : (x.setExec m).cnt = x.cnt := rfl
@[simp] theorem Slice.setExec_ops (x : Slice) (m : BitVec 4) : (x.setExec m).ops = x.ops := rfl
@[simp] theorem Slice.setExec_seq (x : Slice) (m : BitVec 4) : (x.setExec m).seq = x.seq := rfl
@[simp] theorem Slice.setExec_pend (x : Slice) (m : BitVec 4) : (x.setExec m).pend = x.pend := rfl
@[simp] theorem Slice.setExec_stale (x : Slice) (m : BitVec 4) : (x.setExec m).stale = x.stale := rfl
@[simp] theorem Slice.setExec_hold (x : Slice) (m : BitVec 4) : (x.setExec m).hold = x.hold := rfl
@[simp] theorem Slice.setExec_ended (x : Slice) (m : BitVec 4) : (x.setExec m).ended = x.ended := rfl
@[simp] theorem Slice.setExec_frame (x : Slice) (m : BitVec 4) : (x.setExec m).frame = x.frame := rfl
@[simp] theorem Slice.setExec_enteredAt (x : Slice) (m : BitVec 4) : (x.setExec m).enteredAt = x.enteredAt := rfl
@[simp] theorem Slice.setExec_dropped (x : Slice) (m : BitVec 4) : (x.setExec m).dropped = x.dropped := rfl
@[simp] theorem Slice.setExec_dropDue (x : Slice) (m : BitVec 4) : (x.setExec m).dropDue = x.dropDue := rfl
@[simp] theorem Slice.setExec_poisonDue (x : Slice) (m : BitVec 4) : (x.setExec m).poisonDue = x.poisonDue := rfl
@[simp] theorem Slice.setExec_vpoison (x : Slice) (m : BitVec 4) : (x.setExec m).vpoison = x.vpoison := rfl
@[simp] theorem Slice.setExec_engFail (x : Slice) (m : BitVec 4) : (x.setExec m).engFail = x.engFail := rfl
@[simp] theorem Slice.setExec_issued (x : Slice) (m : BitVec 4) : (x.setExec m).issued = x.issued := rfl
@[simp] theorem Slice.setExec_forcedOk (x : Slice) (m : BitVec 4) : (x.setExec m).forcedOk = x.forcedOk := rfl
@[simp] theorem Slice.setExec_splice (x : Slice) (m : BitVec 4) : (x.setExec m).splice = x.splice := rfl
@[simp] theorem Slice.setExec_knows (x : Slice) (m : BitVec 4) : (x.setExec m).knows = x.knows := rfl
@[simp] theorem Slice.setExec_reads (x : Slice) (m : BitVec 4) : (x.setExec m).reads = x.reads := rfl
@[simp] theorem Slice.setExec_lastRead (x : Slice) (m : BitVec 4) : (x.setExec m).lastRead = x.lastRead := rfl
@[simp] theorem Slice.setExec_fences (x : Slice) (m : BitVec 4) : (x.setExec m).fences = x.fences := rfl

/-! ### Registers read back -/

@[simp] theorem Slice.setExec_exec (x : Slice) (m : BitVec 4) : (x.setExec m).exec = m &&& x.live := rfl

theorem Slice.sreg_setS (x : Slice) (n : Nat) (w : Word64) (j : Nat) :
    (x.setS n w).sreg j = if j = n ∧ n < 64 then w else x.sreg j := by
  unfold Slice.setS
  split
  · rename_i h
    by_cases e : j = n
    · subst e; simp [Slice.sreg, h]
    · simp [Slice.sreg, e, Ne.symm e]
  · rename_i h; simp [h]

theorem Slice.vreg_setV (x : Slice) (n l : Nat) (w : Word32) (i j : Nat) (hl : l < 4) (hj : j < 4) :
    (x.setV n l w).vreg i j = if i = n ∧ j = l then w else x.vreg i j := by
  simp only [Slice.setV, Slice.vreg, Sparse.get_set]
  by_cases e : i = n ∧ j = l
  · simp [e]
  · rw [if_neg e, if_neg (by omega)]

@[simp] theorem Slice.sreg_setV (x : Slice) (n l : Nat) (w : Word32) (j : Nat) : (x.setV n l w).sreg j = x.sreg j := rfl

@[simp] theorem Slice.vreg_setS (x : Slice) (n : Nat) (w : Word64) (i j : Nat) : (x.setS n w).vreg i j = x.vreg i j := by
  simp [Slice.vreg]

end Sys2Proof.Machine
end

