-- ==== Sys2Proof/Laws/Memory.lean ====
section
/-! SUPPORT. Every operation on memory keeps its canonical form; reading after writing; the memory at reset. -/

namespace Sys2Proof.Machine

/-! ### The canonical form -/

theorem Memory.put_wf (m : List Host.Cell) (a : Nat) (bs : List Byte) (h : Memory.wf m = true) :
    Memory.wf (Memory.put m a bs) = true := by
  induction bs generalizing m a with
  | nil => exact h
  | cons b bs ih => exact ih _ _ (Sparse.wf_set _ _ _ _ h)

theorem Memory.filter_wf (m : List Host.Cell) (p : Host.Cell → Bool) (h : Memory.wf m = true) :
    Memory.wf (m.filter p) = true :=
  Sparse.wf_filter _ _ _ h

theorem State.rekeyLine_inv (s : State) (key : Option Nat) (l : Nat) (h : s.Inv) : (s.rekeyLine key l).Inv := by
  unfold State.rekeyLine
  split
  · exact h
  · split
    · exact h
    · exact Memory.put_wf _ _ _ h

@[simp] theorem State.undoLine_mem (s : State) (v : Nat) (bound : Bool) (a : Nat) (bs : List Byte) (l : Nat) :
    (s.undoLine v bound a bs l).mem = s.mem := by
  unfold State.undoLine
  split
  · rfl
  · split <;> rfl

/-- A fold of steps that each keep the invariant keeps it. -/
theorem State.foldl_inv {β : Type} (f : State → β → State) (l : List β) (s : State) (h : s.Inv)
    (step : ∀ t b, t.Inv → (f t b).Inv) : (l.foldl f s).Inv := by
  induction l generalizing s with
  | nil => exact h
  | cons b l ih => exact ih _ (step _ _ h)

/-- A write to physical memory keeps the canonical form. -/
theorem State.putPhys_inv (s : State) (vf : Option Nat) (bound : Bool) (a : Nat) (bs : List Byte) (h : s.Inv) :
    (s.putPhys vf bound a bs).Inv := by
  unfold State.putPhys
  split
  · exact h
  · refine Memory.put_wf _ _ _ (State.foldl_inv _ _ _ ?_ fun t l ht => State.rekeyLine_inv t _ l ht)
    split
    · exact h
    · split
      · exact State.foldl_inv _ _ _ h fun t l ht => by simpa [State.Inv] using ht
      · exact h

theorem State.writePhys_inv (s : State) (vf : Option Nat) (bound : Bool) (a : Nat) (bs : List Byte) (h : s.Inv) :
    (s.writePhys vf bound a bs).Inv := State.putPhys_inv s vf bound a bs h

/-- A state whose memory is another's keeps the invariant. -/
theorem State.Inv.of_mem {s t : State} (h : s.Inv) (e : t.mem = s.mem) : t.Inv := by
  simpa [State.Inv, e] using h

theorem State.reset_memory : Memory.wf State.reset.mem = true := rfl

/-! ### Reading after writing -/

/-- Bytes written from an address upwards read back, and every other byte reads as before. -/
theorem Memory.get_put (m : List Host.Cell) (a : Nat) (bs : List Byte) (p : Nat) :
    Memory.get (Memory.put m a bs) p = if a ≤ p ∧ p < a + bs.length then bs.getD (p - a) 0 else Memory.get m p := by
  induction bs generalizing m a with
  | nil => rw [Memory.put, if_neg (by simp)]
  | cons b bs ih =>
    rw [Memory.put, ih]
    by_cases h1 : p = a
    · subst h1
      rw [if_neg (by omega), if_pos (by simp)]
      simp [Memory.get]
    · by_cases h2 : a ≤ p ∧ p < a + (b :: bs).length
      · have h3 : a + 1 ≤ p ∧ p < a + 1 + bs.length := by simp at h2; omega
        rw [if_pos h2, if_pos h3, show p - a = (p - (a + 1)) + 1 by omega, List.getD_cons_succ]
      · have h3 : ¬ (a + 1 ≤ p ∧ p < a + 1 + bs.length) := by simp at h2; omega
        rw [if_neg h2, if_neg h3]
        exact Sparse.get_set_other _ _ _ h1

theorem Memory.get_put_outside (m : List Host.Cell) (a : Nat) (bs : List Byte) {p : Nat} (h : p < a ∨ a + bs.length ≤ p) :
    Memory.get (Memory.put m a bs) p = Memory.get m p := by
  rw [Memory.get_put, if_neg (by omega)]

end Sys2Proof.Machine
end

