-- ==== Sys2Proof/Laws/MemoryOps.lean ====
section
/-! SUPPORT. The operations outside Machine/Mem.lean that change memory keep its canonical form: the writes of placement and rollback,
and the scrubs of reset, migration and layout change. -/

namespace Sys2Proof.Machine

theorem State.placeWord64_inv (s : State) (a v : Nat) (h : s.Inv) : (s.placeWord64 a v).Inv := Memory.put_wf _ _ _ h

theorem State.undoOne_inv (s : State) (u : UndoLine) (h : s.Inv) : (s.undoOne u).Inv := Memory.put_wf _ _ _ h

theorem State.scrubShare_inv (s : State) (v : Nat) (h : s.Inv) : (s.scrubShare v).Inv := Memory.filter_wf _ _ h

theorem State.scrubDie_inv (s : State) (d : Nat) (h : s.Inv) : (s.scrubDie d).Inv := Memory.filter_wf _ _ h

theorem State.restart_inv (s : State) (h : s.Inv) : s.restart.Inv := Memory.filter_wf _ _ h

theorem State.loadShare_inv (s : State) (v : Nat) (bs : List (Nat × Byte)) (h : s.Inv) : (s.loadShare v bs).Inv := by
  refine State.foldl_inv _ _ _ h fun t b ht => ?_
  split
  · exact ht
  · exact State.writePhys_inv _ _ _ _ _ ht

/-- A write to the scratchpad keeps its canonical form. -/
theorem Memory.put_scratch_wf (m : Sparse Byte) (a : Nat) (bs : List Byte) (h : Sparse.wf 0 m = true) :
    Sparse.wf 0 (Memory.put m a bs) = true :=
  Memory.put_wf m a bs h

end Sys2Proof.Machine
end

