-- ==== Sys2Proof/Laws/Ops.lean ====
section
/-! SUPPORT. What the operations that every word shares do, said once: issuing, going on, parking, and taking a trap. -/

namespace Sys2Proof.Machine

/-! ### The issuing word -/

theorem State.ctx_eq {s : State} {k : Nat} {c : Ctx} (h : s.ctx k = some c) :
    c.s = s ∧ c.k = k ∧ Table.find s.slices k = some c.x ∧ Table.find s.blocks (keyBlock k) = some c.b := by
  unfold State.ctx at h
  split at h
  · cases h
  · rename_i x hx
    split at h
    · cases h
    · rename_i b hb
      cases h
      exact ⟨rfl, rfl, hx, hb⟩

theorem State.ctx_of {s : State} {k : Nat} {x : Slice} {b : Block} (hx : Table.find s.slices k = some x)
    (hb : Table.find s.blocks (keyBlock k) = some b) : s.ctx k = some ⟨s, k, x, b⟩ := by
  simp [State.ctx, hx, hb]

/-- Everything that issuing a word can do. -/
theorem issue_cases {s t : State} {chk : Ctx → WordChk} {body : Ctx → State} (h : issue s chk body = .next t) :
    ∃ c, s.ctx s.cur = some c ∧ (c.stops (chk c) = some t ∨ (c.stops (chk c) = none ∧ t = body c)) := by
  unfold issue at h
  split at h
  · cases h
  · rename_i c hc
    refine ⟨c, hc, ?_⟩
    cases hs : c.stops (chk c) <;> simp [hs] at h
    · exact .inr ⟨rfl, h.symm⟩
    · exact .inl (congrArg some h)

/-- A word that issues for a slice always answers. -/
theorem issue_next {s : State} {c : Ctx} (chk : Ctx → WordChk) (body : Ctx → State) (h : s.ctx s.cur = some c) :
    issue s chk body = .next ((c.stops (chk c)).getD (body c)) := by
  simp [issue, h]

/-- The common checks stop nothing of a slice at rest whose operands lie within VCOUNT (R17) and whose level the word
permits (R26). -/
theorem Ctx.stops_rest {s : State} {c : Ctx} (h : AtRest s c) (w : WordChk) (hi : w.illegal = false) (hu : w.unreserved = false)
    (hp : w.permits c.x.priv = true) (hr : ∀ r ∈ w.regs, r.n + r.count ≤ c.squad.vcount) : c.stops w = none := by
  have hd : c.dropReport = none := by simp [Ctx.dropReport, h.noDropDue]
  have hq : c.poisonReport = none := by simp [Ctx.poisonReport, h.noReport]
  have ho : c.outOfRange w = false := by
    simp only [Ctx.outOfRange, Ctx.vcount, h.unspliced, List.any_eq_false, decide_eq_true_eq, not_lt]
    exact hr
  have hb : c.poisonedRead w = none := by simp [Ctx.poisonedRead, h.clean]
  have he : c.engineReport = none := by unfold Ctx.engineReport; split <;> simp [h.noFail]
  simp [Ctx.stops, hd, hq, hi, hu, hp, ho, hb, he]

/-- A word of a slice at rest that passes the common checks has its own effect. -/
theorem issue_rest {s : State} {c : Ctx} (h : AtRest s c) (chk : Ctx → WordChk) (body : Ctx → State)
    (hi : (chk c).illegal = false) (hu : (chk c).unreserved = false) (hp : (chk c).permits c.x.priv = true)
    (hr : ∀ r ∈ (chk c).regs, r.n + r.count ≤ c.squad.vcount) : issue s chk body = .next (body c) := by
  rw [issue_next chk body h.here, Ctx.stops_rest h _ hi hu hp hr]
  rfl

/-! ### Going on and parking (R27, R30) -/

/-- A slice with nothing outstanding, due or to report parks as it is. -/
theorem State.parkSlice_quiet (s : State) (x : Slice) (ho : x.ops = []) (hp : x.pend = []) (hd : x.poisonDue = []) :
    s.parkSlice x = x := by
  simp [State.parkSlice, Slice.longOut, ho, State.settle, hp, Slice.readyPoison, hd]
  cases x
  simp_all

/-- A slice outside a spliced grid moves to its target. -/
theorem State.goto_plain {s : State} {k : Nat} {x : Slice} {b : Block} (target : Word64) (direct m : Bool)
    (hx : Table.find s.slices k = some x) (hb : Table.find s.blocks (keyBlock k) = some b) (hs : x.splice = none) :
    let y : Slice := { x with pc := target, issued := x.issued + 1 }
    s.goto k target direct m = { s with slices := Table.put s.slices k (if m then s.parkSlice y else y) } := by
  unfold State.goto
  rw [State.ctx_of hx hb]
  obtain ⟨pc, last, sv, v, exec, live, q, smode, cnt, ops, seq, pend, stale, hold, ended, frame, enteredAt, dropped, dropDue,
    poisonDue, vpoison, engFail, issued, forcedOk, splice⟩ := x
  subst hs
  simp [State.modSlice, hx, Table.put_put]

/-- A slice outside a spliced grid with nothing outstanding goes on at the next word, whatever M holds. -/
theorem State.finish_plain {s : State} {k : Nat} {x : Slice} {b : Block} (m : Bool)
    (hx : Table.find s.slices k = some x) (hb : Table.find s.blocks (keyBlock k) = some b) (hs : x.splice = none)
    (ho : x.ops = []) (hp : x.pend = []) (hd : x.poisonDue = []) :
    s.finish k m = { s with slices := Table.put s.slices k { x with pc := x.pc + 8, issued := x.issued + 1 } } := by
  unfold State.finish
  rw [hx]
  simp only [State.goto_plain (x.pc + 8) true m hx hb hs]
  rw [State.parkSlice_quiet] <;> simp_all

/-! ### Ending a grid and taking a trap (R334, R346) -/

@[simp] theorem State.killBlocks_mem (s : State) (gid : Nat) : (s.killBlocks gid).mem = s.mem := rfl
@[simp] theorem State.killBlocks_slices (s : State) (gid : Nat) : (s.killBlocks gid).slices = s.slices := rfl
@[simp] theorem State.endInImages_mem (s : State) (gid : Nat) (h : Grid → Grid) : (s.endInImages gid h).mem = s.mem := by
  unfold State.endInImages
  split <;> [rfl; (split <;> rfl)]
@[simp] theorem State.endInImages_slices (s : State) (gid : Nat) (h : Grid → Grid) : (s.endInImages gid h).slices = s.slices := by
  unfold State.endInImages
  split <;> [rfl; (split <;> rfl)]
@[simp] theorem State.endGrid_mem (s : State) (gid : Nat) (f : GridFault) (n : Nat) : (s.endGrid gid f n).mem = s.mem := by
  simp [State.endGrid]
@[simp] theorem State.endGrid_slices (s : State) (gid : Nat) (f : GridFault) (n : Nat) : (s.endGrid gid f n).slices = s.slices := by
  simp [State.endGrid]
@[simp] theorem Ctx.endGridFor_mem (c : Ctx) (pc : Word64) (kidx : Nat) (cause : Cause) (handler : Bool) :
    (c.endGridFor pc kidx cause handler).mem = c.s.mem := by
  simp [Ctx.endGridFor]
@[simp] theorem Ctx.endGridFor_slices (c : Ctx) (pc : Word64) (kidx : Nat) (cause : Cause) (handler : Bool) :
    (c.endGridFor pc kidx cause handler).slices = c.s.slices := by
  simp [Ctx.endGridFor]
@[simp] theorem Ctx.endGridAt_mem (c : Ctx) (pc : Word64) (cause : Cause) (handler : Bool) :
    (c.endGridAt pc cause handler).mem = c.s.mem := by
  simp [Ctx.endGridAt]
@[simp] theorem Ctx.endGridAt_slices (c : Ctx) (pc : Word64) (cause : Cause) (handler : Bool) :
    (c.endGridAt pc cause handler).slices = c.s.slices := by
  simp [Ctx.endGridAt]

/-- Moving a slice changes no memory. -/
@[simp] theorem State.goto_mem (s : State) (k : Nat) (target : Word64) (direct m : Bool) :
    (s.goto k target direct m).mem = s.mem := by
  unfold State.goto
  split
  · rfl
  · split
    · split
      · simp
      · split <;> simp
    · simp

@[simp] theorem State.finish_mem (s : State) (k : Nat) (m : Bool) : (s.finish k m).mem = s.mem := by
  unfold State.finish
  split <;> simp

/-- Everything that meeting a cause can do: no slice, a wait for long results, or the entry. -/
theorem State.takeTrap_cases (s : State) (k : Nat) (t : TrapInfo) (word : Word64) :
    (Table.find s.slices k = none ∧ s.takeTrap k t word = s)
    ∨ ∃ x, Table.find s.slices k = some x
      ∧ ((x.longOut = true ∧ s.takeTrap k t word = s.modSlice k (fun x => { x with hold := .trap t word }))
        ∨ (x.longOut = false ∧ s.takeTrap k t word = s.enterTrap k t word)) := by
  unfold State.takeTrap
  split
  · rename_i h; exact .inl ⟨h, rfl⟩
  · rename_i x h
    refine .inr ⟨x, h, ?_⟩
    by_cases e : x.longOut = true <;> simp [e]

end Sys2Proof.Machine
end

