-- ==== Sys2Proof/Laws/Operands.lean ====
section
/-! SUPPORT. Operands of a slice at rest read what its registers hold, and the effect of a register word on it. -/

namespace Sys2Proof.Machine

variable {s : State} {c : Ctx}

@[simp] theorem State.pickFrom_one {α : Type} [DecidableEq α] (s : State) (site : Nat) (d a : α) : s.pickFrom site d [a] = a := rfl

theorem AtRest.state (h : AtRest s c) : c.s = s := (State.ctx_eq h.here).1
theorem AtRest.key (h : AtRest s c) : c.k = s.cur := (State.ctx_eq h.here).2.1
theorem AtRest.inC (h : AtRest s c) : c.inC = false := by simp [Ctx.inC, h.unspliced]
theorem AtRest.physS (h : AtRest s c) (n : Nat) : c.physS n = n := by simp [Ctx.physS, h.inC]
theorem AtRest.physV (h : AtRest s c) (n : Nat) : c.physV n = n := by simp [Ctx.physV, h.inC]
theorem AtRest.physT (h : AtRest s c) (n : Nat) : c.physT n = n := by simp [Ctx.physT, h.inC]
theorem AtRest.pendOf (h : AtRest s c) (e : Elem) : c.x.pendOf e = [] := by simp [Slice.pendOf, h.noPend]

theorem AtRest.dueAt (h : AtRest s c) (e : Elem) : c.x.dueAt e = [] := by simp [Slice.dueAt, h.pendOf, h.noOps]

theorem AtRest.rdS (h : AtRest s c) (n : Nat) : c.rdS n = c.x.sreg n := by
  simp [Ctx.rdS, h.physS, h.dueAt, Slice.staleOf, h.noStale]
theorem AtRest.rdV (h : AtRest s c) (n l : Nat) : c.rdV n l = c.x.vreg n l := by
  simp [Ctx.rdV, Ctx.rdElem, h.physV, h.dueAt]
theorem AtRest.src (h : AtRest s c) (a : SSrc) : c.src a = c.val a := by
  cases a with
  | s n => exact h.rdS n.val
  | sp p => rfl
theorem AtRest.srcLane (h : AtRest s c) (l : Nat) (a : SSrc) : c.srcLane l a = c.valLane l a := by
  cases a with
  | s n => exact h.rdS n.val
  | sp p => rfl
theorem AtRest.elem (h : AtRest s c) (f : Fmt) (n l : Nat) : c.elem f n l = c.at32 f n l := by
  simp [Ctx.elem, Ctx.at32, Ctx.rdPair, h.rdV]
theorem AtRest.elemSrc (h : AtRest s c) (f : Fmt) (l : Nat) (b : VSrc) : c.elemSrc f l b = c.srcAt f l b := by
  cases b with
  | v n => exact h.elem f n.val l
  | s x => simp [Ctx.elemSrc, Ctx.srcAt, h.srcLane]

/-- A short result of a slice with no result due (R29). -/
theorem State.wrShort_plain (s : State) (x : Slice) (n : Nat) (v : Word64) (hp : x.pend = []) (hs : x.stale = []) :
    s.wrShort x n v = x.setS n v := by
  cases x
  simp only at hp hs
  subst hp hs
  unfold State.wrShort Slice.putS Slice.setS State.overtaken
  split <;> simp

/-- The slice after a word whose effect leaves nothing due goes on at the next word (R27). -/
theorem AtRest.done {m : Bool} (h : AtRest s c) (fx : Fx) (y : Slice) (hy : c.applyTo fx c.x = y) (hs : y.splice = none)
    (ho : y.ops = []) (hp : y.pend = []) (hd : y.poisonDue = []) :
    c.done fx m = s.withSlice { y with pc := y.pc + 8, issued := y.issued + 1 } := by
  obtain ⟨e, ek, hx, hb⟩ := State.ctx_eq h.here
  unfold Ctx.done
  have hm : c.s.modSlice c.k (c.applyTo fx) = s.withSlice y := by
    simp [State.modSlice, State.withSlice, e, ek, hx, hy]
  rw [hm, ek, State.finish_plain (s := s.withSlice y) (k := s.cur) (x := y) (b := c.b) m (by simp) (by simpa using hb) hs ho hp hd]
  simp [State.withSlice, Table.put_put]

/-- A scalar word with a short result, whatever its level: its guard passing it writes D, and else it only goes on (R22, R29). -/
theorem AtRest.scalarWord (h : AtRest s c) (k : Ctl) (d : SReg) (f : Ctx → Word64) :
    Machine.scalarWord s k d f = .next (s.withSlice (if c.x.guardScalar k.guard then c.next.withS d (f c) else c.next)) := by
  unfold Machine.scalarWord regWord
  have hp : WordChk.permits { regs := [] } c.x.priv = true := by unfold WordChk.permits; split_ifs <;> rfl
  rw [issue_rest h _ _ rfl rfl hp (by simp [chkRegs])]
  by_cases g : c.x.guardScalar k.guard = true
  · simp only [g, if_true]
    rw [h.done _ (c.x.setS d.val (f c))]
    · simp [Ctx.next, Slice.withS, Slice.setS, d.isLt]
    · simp [Ctx.applyTo, h.physS, State.wrShort_plain _ _ _ _ h.noPend h.noStale, fullWrites, Slice.setS]
    · simpa using h.unspliced
    · simpa using h.noOps
    · simpa using h.noPend
    · simpa using h.noReport
  · simp only [g]
    rw [h.done _ c.x]
    · rfl
    · simp [Ctx.applyTo, fullWrites]
    · exact h.unspliced
    · exact h.noOps
    · exact h.noPend
    · exact h.noReport

end Sys2Proof.Machine
end

