-- ==== Sys2Proof/Laws/Views.lean ====
section
/-! SUPPORT. What noting writes and reads leaves alone, and what a read can return: the lemmas on replaced values that proofs cite
instead of unfolding a view. -/

namespace Sys2Proof.Machine

/-! ### Noting a write -/

@[simp] theorem State.tick_mem (s : State) (d : Nat) : (s.tick d).mem = s.mem := by simp [State.tick]
@[simp] theorem State.tick_past (s : State) (d : Nat) : (s.tick d).past = s.past := by simp [State.tick]

/-- Taking over clocks changes the dies' clocks alone. -/
theorem State.withClocks_die (s t : State) (d : Nat) (h : d < 4) : (s.withClocks t).die d = { s.die d with clock := (t.die d).clock } := by
  simp [State.die, State.withClocks, List.getD, h]
theorem State.withClocks_only (s t : State) (d : Nat) (h : d < 4) :
    (s.withClocks t).die d = { s.die d with clock := ((s.withClocks t).die d).clock } := by
  rw [s.withClocks_die t d h]
@[simp] theorem State.withClocks_mem (s t : State) : (s.withClocks t).mem = s.mem := rfl
@[simp] theorem State.withClocks_slices (s t : State) : (s.withClocks t).slices = s.slices := rfl
@[simp] theorem State.withClocks_blocks (s t : State) : (s.withClocks t).blocks = s.blocks := rfl
@[simp] theorem State.withClocks_past (s t : State) : (s.withClocks t).past = s.past := rfl
@[simp] theorem State.withClocks_chips (s t : State) : (s.withClocks t).chips = s.chips := rfl
@[simp] theorem State.withClocks_dev (s t : State) : (s.withClocks t).dev = s.dev := rfl

/-- Noting a write changes the dies' clocks, the replaced values and their stamp alone. -/
theorem State.noteWrite_only (s : State) (w : Writer) (cells : List (Loc × Nat)) (homes : List Nat) :
    ∃ ds ps n, s.noteWrite w cells homes = { s with dies := ds, past := ps, stamp := n } := by
  unfold State.noteWrite
  split
  · exact ⟨s.dies, s.past, s.stamp, rfl⟩
  · exact ⟨_, _, _, rfl⟩
theorem State.noteWrite_die (s : State) (w : Writer) (cells : List (Loc × Nat)) (homes : List Nat) (d : Nat) (h : d < 4) :
    (s.noteWrite w cells homes).die d = { s.die d with clock := ((s.noteWrite w cells homes).die d).clock } := by
  unfold State.noteWrite
  split
  · rfl
  · exact s.withClocks_only _ d h

theorem State.noteWrite_frame (s : State) (w : Writer) (cells : List (Loc × Nat)) (homes : List Nat) :
    let t := s.noteWrite w cells homes
    t.mem = s.mem ∧ t.slices = s.slices ∧ t.blocks = s.blocks ∧ t.grids = s.grids ∧ t.cores = s.cores ∧ t.chips = s.chips
      ∧ t.dev = s.dev ∧ t.poison = s.poison ∧ t.lineKey = s.lineKey ∧ t.now = s.now ∧ t.fresh = s.fresh ∧ t.cur = s.cur
      ∧ t.ir = s.ir ∧ t.turns = s.turns := by
  obtain ⟨ds, ps, n, h⟩ := s.noteWrite_only w cells homes
  simp [h]

@[simp] theorem State.noteWrite_mem (s : State) (w : Writer) (cells : List (Loc × Nat)) (homes : List Nat) :
    (s.noteWrite w cells homes).mem = s.mem := (s.noteWrite_frame w cells homes).1
@[simp] theorem State.noteWrite_slices (s : State) (w : Writer) (cells : List (Loc × Nat)) (homes : List Nat) :
    (s.noteWrite w cells homes).slices = s.slices := (s.noteWrite_frame w cells homes).2.1
@[simp] theorem State.noteWrite_blocks (s : State) (w : Writer) (cells : List (Loc × Nat)) (homes : List Nat) :
    (s.noteWrite w cells homes).blocks = s.blocks := (s.noteWrite_frame w cells homes).2.2.1

/-- A write of an agent changes memory as putting its bytes does. -/
@[simp] theorem State.writeMem_mem (s : State) (w : Writer) (v : Nat) (bound : Bool) (a : Nat) (bs : List Byte) :
    (s.writeMem w v bound a bs).mem = (s.putPhys (some v) bound a bs).mem := by
  simp [State.writeMem]

theorem State.writeMem_inv (s : State) (w : Writer) (v : Nat) (bound : Bool) (a : Nat) (bs : List Byte) (h : s.Inv) :
    (s.writeMem w v bound a bs).Inv :=
  (s.putPhys_inv (some v) bound a bs h).of_mem (by simp)

@[simp] theorem State.noteScratch_mem (s : State) (w : Writer) (u o n : Nat) : (s.noteScratch w u o n).mem = s.mem := by
  simp [State.noteScratch]

/-! ### Noting a read -/

@[simp] theorem State.noteRead_mem (s : State) (r : Reader) (acq : Bool) (ws : List Past) : (s.noteRead r acq ws).mem = s.mem := by
  simp [State.noteRead]

@[simp] theorem State.widen_mem (s : State) (key n : Nat) (scope : Scope) : (s.widen key n scope).mem = s.mem := rfl

/-! ### What a read returns (R251) -/

/-- The value that is left when the latest writes are not seen: the latest one, or one that a write which is not seen replaced, and no write
older than one that is seen. -/
theorem olderOf_cases (unseen : Past → Bool) (v : Nat) (newer older : List Past) (w : Past) (h : unseen w = false) :
    (olderOf unseen v (newer ++ w :: older)).1 = v
      ∨ ∃ p ∈ newer, unseen p = true ∧ (olderOf unseen v (newer ++ w :: older)).1 = p.old := by
  induction newer generalizing v with
  | nil => simp [olderOf, h]
  | cons p ps ih =>
    simp only [List.cons_append, olderOf]
    by_cases e : unseen p = true
    · rw [if_pos e]
      rcases ih p.old with hv | ⟨q, hq, hu, hv⟩
      · exact .inr ⟨p, by simp, e, hv⟩
      · exact .inr ⟨q, by simp [hq], hu, hv⟩
    · rw [if_neg e]; simp

/-- A place whose latest write must be seen reads as it stands. -/
theorem State.view_current (s : State) (r : Reader) (site : Nat) (sel : Loc → Bool) (l : Loc)
    (h : s.upToDate r (fun x => x == l)) : (s.view r site sel l).1 = s.atLoc l := by
  simp only [State.view]
  cases e : s.past.filter (fun w => w.loc == l) with
  | nil => rfl
  | cons w ws =>
    have hw : w ∈ s.past.filter (fun w => w.loc == l) := by simp [e]
    rw [List.mem_filter] at hw
    simp [olderOf, h w hw.1 hw.2]

/-- A read that must see the latest writes sees the state as it is. -/
theorem State.seen_current (s : State) (r : Reader) (site : Nat) (sel : Loc → Bool) (h : s.upToDate r sel) :
    s.seen r site sel = s := by
  unfold State.seen
  have key : ∀ l ∈ s.pastLocs sel, (s.view r site sel l).1 = s.atLoc l := by
    intro l hl
    refine s.view_current r site sel l fun w hw e => h w hw ?_
    have : sel l = true := by
      simp only [State.pastLocs, List.mem_eraseDups, List.mem_filter] at hl
      exact hl.2
    rw [beq_iff_eq.mp e]; exact this
  generalize s.pastLocs sel = ls at key
  induction ls with
  | nil => rfl
  | cons l ls ih =>
    simp only [List.foldl_cons, key l (by simp), if_true]
    exact ih fun x hx => key x (by simp [hx])

/-- Nothing is older where no write has replaced a value. -/
theorem State.upToDate_nil (s : State) (r : Reader) (sel : Loc → Bool) (h : s.past = []) : s.upToDate r sel := by
  simp [State.upToDate, h]

/-! ### Whole events -/

theorem testBit_zero (n : Nat) : testBit 0 n = false := by simp [testBit]

/-- An event that puts no lane off performs every lane that is left. -/
theorem MemOp.plan_all (o : MemOp) : o.plan 0 = o.lanes.map (fun a => (a, o.parts a)) := by
  have step : ∀ (ls : List LaneAcc) (r : List (LaneAcc × List Nat)), (∀ p ∈ r, p.2 = o.parts p.1) →
      ls.foldl (fun r a =>
        r ++ [(a, (o.parts a).filter (fun p => !testBit (0 : BitVec 8).toNat (a.lane + 4 * p)
          && !(o.kind.ascends && r.any (fun e => (o.parts e.1).any (fun q =>
            !e.2.contains q && decide ((o.partAt e.1 q).1 < (o.partAt a p).1 + (o.partAt a p).2)
              && decide ((o.partAt a p).1 < (o.partAt e.1 q).1 + (o.partAt e.1 q).2))))))]) r
      = r ++ ls.map (fun a => (a, o.parts a)) := by
    intro ls
    induction ls with
    | nil => simp
    | cons a ls ih =>
      intro r hr
      have hh : ∀ f : (LaneAcc × List Nat) → Nat → Bool, r.any (fun e => (o.parts e.1).any (fun q => !e.2.contains q && f e q)) = false := by
        intro f
        rw [List.any_eq_false]
        intro e he
        rw [Bool.not_eq_true, List.any_eq_false]
        intro q hq
        simp [hr e he, hq]
      have hp : ∀ p, r.any (fun e => (o.parts e.1).any (fun q =>
          !e.2.contains q && decide ((o.partAt e.1 q).1 < (o.partAt a p).1 + (o.partAt a p).2)
            && decide ((o.partAt a p).1 < (o.partAt e.1 q).1 + (o.partAt e.1 q).2))) = false := by
        intro p
        simpa [Bool.and_assoc] using hh (fun e q => decide ((o.partAt e.1 q).1 < (o.partAt a p).1 + (o.partAt a p).2)
            && decide ((o.partAt a p).1 < (o.partAt e.1 q).1 + (o.partAt e.1 q).2))
      have hf : (o.parts a).filter (fun p => !testBit (0 : BitVec 8).toNat (a.lane + 4 * p)
          && !(o.kind.ascends && r.any (fun e => (o.parts e.1).any (fun q =>
            !e.2.contains q && decide ((o.partAt e.1 q).1 < (o.partAt a p).1 + (o.partAt a p).2)
              && decide ((o.partAt a p).1 < (o.partAt e.1 q).1 + (o.partAt e.1 q).2))))) = o.parts a := by
        rw [List.filter_eq_self]
        intro p _
        rw [hp p]
        simp [testBit_zero]
      rw [List.foldl_cons, hf, ih]
      · simp
      · intro p hp
        simp only [List.mem_append, List.mem_singleton] at hp
        rcases hp with hp | hp
        · exact hr p hp
        · simp [hp]
  simpa [MemOp.plan] using step o.lanes [] (by simp)

end Sys2Proof.Machine
end

