-- ==== Sys2Proof/Tests/Witness.lean ====
section
/-! SUPPORT. For every statement with hypotheses, a state and operands that meet them together, so that none of them is empty. -/

open Sys2Proof Sys2Proof.Machine

namespace Sys2Proof.Tests

set_option Elab.async false

/-! ### Small states -/

/-- A state whose virtual functions the host reaches. -/
def hosted (s : State) : State := s.modDev (fun d => { d with numVfs := 64 })

/-- Virtual function 0 with one block of one squad, whose slice 0 stands at a NOP at user level. -/
def user : State := State.reset.placeProgram 0
/-- The issuing slice with what it needs, in a state that has one. -/
def ctx (s : State) : Ctx := (s.ctx s.cur).getD ⟨s, 0, Slice.start 0 0 0, placeBlock⟩
/-- `user` with its slice changed. -/
def userSlice (f : Slice → Slice) : State := user.modSlice 0 f
/-- `user` with its block changed. -/
def userBlock (f : Block → Block) : State := user.modBlock 0 f
/-- A control field: no M bit, no guard. -/
def always : Ctl := ⟨false, .always⟩
/-- A guard that fails on an empty Q: the bit at depth 0 is 1. -/
def never : Ctl := ⟨false, .q false 0⟩

/-- Whether a state's issuing slice is at rest. -/
def restful (s : State) : Bool :=
  match s.ctx s.cur with
  | none => false
  | some c => c.x.splice.isNone && c.x.ops.isEmpty && c.x.pend.isEmpty && c.x.stale.isEmpty && c.x.dropped.isEmpty
      && !c.x.dropDue && c.x.poisonDue.isEmpty && c.x.engFail.isEmpty && c.x.vpoison.isEmpty

theorem atRest_of (s : State) (h : restful s = true) : AtRest s (ctx s) := by
  unfold restful at h
  split at h
  · cases h
  · rename_i c hc
    have hx : ctx s = c := by simp [ctx, hc]
    simp only [Bool.and_eq_true, List.isEmpty_iff, Option.isNone_iff_eq_none, Bool.not_eq_true'] at h
    obtain ⟨⟨⟨⟨⟨⟨⟨⟨a, b⟩, d⟩, e⟩, f⟩, g⟩, i⟩, j⟩, k⟩ := h
    rw [hx]
    exact ⟨hc, a, b, d, e, f, g, i, j, fun n => by rw [k]; rfl⟩

/-- The result of a computation that has one. -/
def okD {ε α : Type} (e : Except ε α) (d : α) : α :=
  match e with
  | .ok r => r
  | .error _ => d
theorem exists_ok {ε α : Type} {e : Except ε α} (h : e.isOk = true) : ∃ r, e = .ok r := by
  cases e with
  | error _ => cases h
  | ok r => exact ⟨r, rfl⟩
/-- The next state, if there is one. -/
def nxt : Host.Outcome State Fault Refusal → Option State
  | .next t => some t
  | _ => none
theorem next_of {o : Host.Outcome State Fault Refusal} (h : (nxt o).isSome = true) : ∃ t, o = .next t := by
  cases o with
  | next t => exact ⟨t, rfl⟩
  | fault _ => cases h
  | refused _ => cases h

theorem rest_user : AtRest user (ctx user) := atRest_of _ (by decide +kernel)

/-! ### Encoding and the step -/

theorem witness_DecodeEncode : Instr.ownWord (.saddi always false 3 (.s 3) 0xFFF8) = true
    ∧ (Instr.saddi always false 3 (.s 3) 0xFFF8).wf = true := by decide +kernel
theorem witness_EncodeDecode : decodeWord 0x02000181FFFC0000 = .ok (.saddi always false 3 (.s 3) 0xFFF8) := by decide +kernel

/-- A turn of the slice at an SADDI. -/
def stepping : State := State.reset.placeProgram 0x02000181FFFC0000
theorem witness_StepRunsDecoded : ∃ c w s1 i,
    stepping.turns = ⟨1, .slice 0⟩ :: []
    ∧ (stepping.advance stepping.nextTurn).ctx 0 = some c ∧ (stepping.advance stepping.nextTurn).ready 0 = true
    ∧ c.atJoin = false ∧ c.fetch = .word w s1 ∧ decodeWord w = .ok i ∧ i.wf = true := by
  have h : (match (stepping.advance stepping.nextTurn).ctx 0 with
      | some c => !c.atJoin && (match c.fetch with
        | .word w _ => (match decodeWord w with
          | .ok i => i.wf
          | .error _ => false)
        | _ => false)
      | none => false) = true := by decide +kernel
  have h1 : stepping.turns = [⟨1, .slice 0⟩] := by decide +kernel
  have h2 : (stepping.advance stepping.nextTurn).ready 0 = true := by decide +kernel
  split at h
  · rename_i c hc
    simp only [Bool.and_eq_true, Bool.not_eq_true'] at h
    obtain ⟨hj, h⟩ := h
    split at h
    · rename_i w s1 hf
      split at h
      · rename_i i hd
        exact ⟨c, w, s1, i, h1, hc, h2, hj, hf, hd, h⟩
      · cases h
    · cases h
  · cases h
theorem witness_StepRunsEvent : ({ State.reset with turns := [⟨1, .event .commit⟩] } : State).turns = ⟨1, .event .commit⟩ :: []
    ∧ Instr.hasWord .commit = false := by decide +kernel
/-- A translation of no page. -/
def noXlat : Xlat := ⟨0, false, []⟩
theorem witness_FetchReadsMemory :
    let x := okD (user.translate (ctx user).b.vf (user.tlbOf (ctx user).b.core) 50000 (ctx user).x.pc.toNat .fetch) noXlat
    (ctx user).s = user ∧ (ctx user).x.splice = none ∧ (ctx user).x.pc.toNat % 8 = 0 ∧ (ctx user).x.pc.toNat < 0x7FFFFF0000000000
    ∧ user.translate (ctx user).b.vf (user.tlbOf (ctx user).b.core) 50000 (ctx user).x.pc.toNat .fetch = .ok x
    ∧ user.linePoisoned x.pa 8 = false
    ∧ Table.find (user.core (ctx user).b.core).icache (icKey (ctx user).b.vf (ctx user).x.pc.toNat) = none ∧ user.past = [] := by
  decide +kernel
theorem witness_StepKeepsInv : user.Inv ∧ ∃ t, step user = .next t :=
  ⟨by unfold State.Inv; decide +kernel, next_of (by decide +kernel)⟩
theorem witness_ExecAnswers : user.ctx user.cur = some (ctx user) := rest_user.here

/-! ### Scalar and vector words -/

theorem witness_ScalarResults : AtRest user (ctx user)
    ∧ (ctx user).arithRule (.sadd always false 3 (.s 1) (.s 2)) = some (always, 3, (ctx user).val (.s 1) + (ctx user).val (.s 2))
    ∧ (ctx user).logicRule (.sxor always 3 (.s 1) (.s 2)) = some (always, 3, (ctx user).val (.s 1) ^^^ (ctx user).val (.s 2))
    ∧ (ctx user).x.guardScalar always.guard = true := ⟨rest_user, rfl, rfl, by decide +kernel⟩
theorem witness_CompareResults : AtRest user (ctx user)
    ∧ (ctx user).compareRule (.scmp never .eq (.s 1) (.s 2)) = some (never, (ctx user).val (.s 1) == (ctx user).val (.s 2)) :=
  ⟨rest_user, rfl⟩
theorem witness_ExecWords : AtRest user (ctx user)
    ∧ (ctx user).execRule (.exload always (.s 1)) = some (always, none, ((ctx user).val (.s 1)).setWidth 4)
    ∧ (ctx user).x.guardScalar always.guard = true := ⟨rest_user, rfl, by decide +kernel⟩
theorem witness_QueueAndModeWords : AtRest user (ctx user) ∧ (ctx user).x.guardScalar always.guard = true :=
  ⟨rest_user, by decide +kernel⟩
theorem witness_GuardFails : AtRest user (ctx user) ∧ (ctx user).x.priv = 0
    ∧ Instr.skips (.sadd never false 3 (.s 1) (.s 2)) = some never ∧ (ctx user).x.guardScalar never.guard = false :=
  ⟨rest_user, by decide +kernel, rfl, by decide +kernel⟩
theorem witness_Branches : AtRest user (ctx user) ∧ (ctx user).x.guardScalar always.guard = true ∧ (ctx user).x.exec ≠ 0 :=
  ⟨rest_user, by decide +kernel, by decide +kernel⟩
theorem witness_RegisterJumps : AtRest user (ctx user) ∧ (ctx user).x.guardScalar always.guard = true
    ∧ ((ctx user).val (.s 1)).toNat % 8 = 0 := ⟨rest_user, by decide +kernel, by decide +kernel⟩

/-- `user` with a dispatch table of two entries at address 0x180000, which memory holds as zeros. -/
def tabled : State := user.modGrid 0 (fun g => { g with lrec := g.lrec ||| BitVec.ofNat 1024 (0x180000 * 2 ^ 64 + 2 * 2 ^ 352) })
theorem witness_TableJump :
    let p := okD ((ctx tabled).readNow .core (((ctx tabled).special 0 .dtbase + 8 * 1) % 2 ^ 64) 8) ([], ctx tabled)
    AtRest tabled (ctx tabled) ∧ 1 < (ctx tabled).special 0 .dtlen
    ∧ ((ctx tabled).readNow .core (((ctx tabled).special 0 .dtbase + 8 * 1) % 2 ^ 64) 8).isOk = true
    ∧ ((ctx tabled).special 0 .kentry + leNat p.1) % 8 = 0
    ∧ (ctx tabled).x.guardScalar always.guard = true
    ∧ (List.range 4).find? (fun l => (ctx tabled).x.execBit l) = some 0 :=
  ⟨atRest_of _ (by decide +kernel), by decide +kernel⟩
/-- `user` with no lane in EXEC. -/
def masked : State := userSlice (fun x => { x with exec := 0 })
theorem witness_TableJumpEmpty : AtRest masked (ctx masked) ∧ (255 : Nat) < (ctx masked).squad.vcount ∧ (ctx masked).x.exec = 0 :=
  ⟨atRest_of _ (by decide +kernel), by decide +kernel, by decide +kernel⟩
/-- `user` with lane 0 alone holding a 1 on Q. -/
def oneLane : State := userSlice (fun x => { x with q := #v[1, 0, 0, 0] })
theorem witness_ExitEndsLanes_some : AtRest oneLane (ctx oneLane) ∧ (ctx oneLane).x.priv ≠ 1
    ∧ (ctx oneLane).x.live &&& ~~~(laneMask (fun l => (ctx oneLane).x.active never.guard l)) ≠ 0
    ∧ laneMask (fun l => (ctx oneLane).x.active never.guard l) = 1 :=
  ⟨atRest_of _ (by decide +kernel), by decide +kernel, by decide +kernel, by decide +kernel⟩
theorem witness_ExitEndsLanes_all : AtRest user (ctx user) ∧ (ctx user).x.priv ≠ 1
    ∧ (ctx user).x.live &&& ~~~(laneMask (fun l => (ctx user).x.active always.guard l)) = 0
    ∧ laneMask (fun l => (ctx user).x.active always.guard l) ≠ 0
    ∧ (ctx user).squad.insts = [] ∧ (ctx user).b.bars = [] ∧ (ctx user).b.meet = [] ∧ (ctx user).b.splice = none :=
  ⟨rest_user, by decide +kernel, by decide +kernel, by decide +kernel, by decide +kernel, by decide +kernel, by decide +kernel,
    by decide +kernel⟩
theorem witness_WaitCompletes : AtRest user (ctx user) ∧ (ctx user).x.cnt = Counters.zero
    ∧ (ctx user).x.guardScalar never.guard = false := ⟨rest_user, by decide +kernel, by decide +kernel⟩

theorem witness_VectorIntegerBits : ∃ r q, AtRest user (ctx user)
    ∧ (ctx user).intRule (.vadd always .i64 .rne true 254 2 (.s (.s 1))) = some r ∧ (ctx user).fits r.uses
    ∧ (ctx user).bitRule (.vshl always .n8 255 2 (.v 3)) = some q ∧ (ctx user).fits q.uses :=
  ⟨_, _, rest_user, rfl, by unfold Ctx.fits; decide +kernel, rfl, by unfold Ctx.fits; decide +kernel⟩
theorem witness_VectorFloat : ∃ r, AtRest user (ctx user)
    ∧ (ctx user).floatRule (.vfma always .f16x2 .rtz true 255 2 (.v 3) (.s (.s 1))) = some r ∧ (ctx user).fits r.uses :=
  ⟨_, rest_user, rfl, by unfold Ctx.fits; decide +kernel⟩
theorem witness_VectorElement : ∃ r, AtRest user (ctx user)
    ∧ (ctx user).elementRule (.vrsq always .f32 .rne false 255 2) = some r ∧ (ctx user).fits r.uses :=
  ⟨_, rest_user, rfl, by unfold Ctx.fits; decide +kernel⟩
theorem witness_VectorCompare : AtRest user (ctx user) ∧ (ctx user).fits (useA .f64 254 :: useB .f64 (.v 2)) :=
  ⟨rest_user, by unfold Ctx.fits; decide +kernel⟩
theorem witness_DecodedSelectors : AtRest user (ctx user) ∧ (ctx user).fits [useD .n32 255, useA .n32 3] :=
  ⟨rest_user, by unfold Ctx.fits; decide +kernel⟩
theorem witness_PairedWords : AtRest user (ctx user)
    ∧ (ctx user).fits (halfUses ⟨.vaddF32, 0, 4, 0, 1⟩ ++ halfUses ⟨.vmulF32, 0, 127, 2, 2⟩) :=
  ⟨rest_user, by unfold Ctx.fits; decide +kernel⟩

/-! ### The activation table -/

theorem witness_ActivationWords : AtRest user (ctx user) ∧ (ctx user).b.actRes = true ∧ (ctx user).x.guardScalar always.guard = true
    ∧ user.actBusy (keyBlock user.cur) = false ∧ (ctx user).fits [useD .f32 255, useA .f32 1] :=
  ⟨rest_user, by decide +kernel, by decide +kernel, by decide +kernel, by unfold Ctx.fits; decide +kernel⟩
/-- An operation of 16-byte pieces from physical address 0x180000 on. -/
def tableLoad : MemOp := (ctx user).freshOp .actLoad
  ((List.range 129).map (fun i => ⟨0, BitVec.ofNat 64 (0x180000 + 16 * i), some (0x180000 + 16 * i), [], [], [], false, none, false⟩))
  .core false false
/-- `user` with an ACTLD outstanding. -/
def loading : State := userSlice (fun x => { x with ops := [{ tableLoad with at_ := 0 }], cnt := { x.cnt with en := 1 }, seq := 1 })
/-- The same with a second slice of the block, which issues. -/
def loadingOther : State :=
  { loading with slices := Table.put loading.slices 1 (Slice.start (BitVec.ofNat 64 placeCode) 0xF 0), cur := 1 }
theorem witness_ActivationWords_busy : AtRest loadingOther (ctx loadingOther) ∧ (ctx loadingOther).b.actRes = true
    ∧ (ctx loadingOther).x.guardScalar always.guard = true ∧ loadingOther.actBusy (keyBlock loadingOther.cur) = true :=
  ⟨atRest_of _ (by decide +kernel), by decide +kernel, by decide +kernel, by decide +kernel⟩
/-- `user` with 0x180000 in every scalar register. -/
def addressed : State := userSlice (fun x => { x with s := Vector.replicate 64 0x180000 })
/-- `user` with the scratchpad's first address in every scalar register. -/
def scratched : State := userSlice (fun x => { x with s := Vector.replicate 64 0x7FFFFF0000000000 })
/-- A lane as its check leaves it, without data. -/
def bareLane (p : Nat × Nat × Option Xlat) : LaneAcc :=
  ⟨0, BitVec.ofNat 64 p.2.1, p.2.2.map (fun y => y.pa), [], [], [], false, none, false⟩
theorem witness_ActivationLoad :
    let r := okD ((ctx scratched).check { want := .read, size := 16 }
        ((List.range 129).map (fun i => (0, (((ctx scratched).val (.s 1)) + BitVec.ofNat 64 (16 * i)).toNat)))) []
    AtRest scratched (ctx scratched) ∧ (ctx scratched).b.actRes = true
    ∧ (ctx scratched).x.guardScalar always.guard = true ∧ (ctx scratched).x.cnt.en ≠ 63
    ∧ (ctx scratched).check { want := .read, size := 16 }
        ((List.range 129).map (fun i => (0, (((ctx scratched).val (.s 1)) + BitVec.ofNat 64 (16 * i)).toNat))) = .ok r
    ∧ ∀ l ∈ r.map bareLane, (ctx scratched).lanePoisoned l 16 = false :=
  ⟨atRest_of _ (by decide +kernel), by decide +kernel⟩
theorem witness_ActivationCompletion : ∃ c o, loading.actReady 0 = [(0, o.seq)] ∧ loading.ctx 0 = some c ∧ c.x.op? o.seq = some o
    ∧ c.b.core = 0 ∧ ∀ a ∈ o.lanes, c.lanePoisoned a 16 = false :=
  ⟨ctx loading, { tableLoad with at_ := 0 }, by decide +kernel, by decide +kernel, by decide +kernel, by decide +kernel, by decide +kernel⟩

/-! ### Traps and system registers -/

/-- Whether a slice is ready to trap. -/
def trapsAt (s : State) (t : TrapInfo) (vec : Nat) : Bool :=
  restful s && ((ctx s).x.priv == 0) && (fld (ctx s).lrec 191 128 == vec) && decide (vec ≠ 0 ∧ vec % 8 = 0 ∧ vec < 0x7FFFFF0000000000)
    && decide ((s.chip (ctx s).b.vf).tfbase ≠ 0) && decide ((ctx s).frameAddr < 0x7FFFFF0000000000)
    && (match s.translate (ctx s).b.vf (s.tlbOf (ctx s).b.core) 24000 (ctx s).frameAddr .write with
      | .error _ => false
      | .ok x =>
        let u := (s.fillTlb (ctx s).b.core x.used).writeMem ((ctx s).writer .ls (ctx s).x.seq .core []) (ctx s).b.vf false x.pa ((ctx s).frameBytes t s.ir)
        (u.translate (ctx s).b.vf (u.tlbOf (ctx s).b.core) 22000 vec .fetch).isOk)
theorem trapReady_of (s : State) (t : TrapInfo) (vec : Nat) (h : trapsAt s t vec = true) :
    ∃ at_ after, TrapReady s (ctx s) t vec at_ after := by
  unfold trapsAt at h
  split at h
  · simp at h
  · rename_i x hx
    simp only [Bool.and_eq_true, beq_iff_eq, decide_eq_true_eq] at h
    obtain ⟨⟨⟨⟨⟨⟨a, b⟩, c⟩, d⟩, e⟩, f⟩, g⟩ := h
    exact ⟨x, _, atRest_of s a, b, c, d, e, f, hx, rfl, exists_ok g⟩
theorem witness_TrapEntry : (∃ at_ after, TrapReady user (ctx user) { cause := .software, aux := 7 } 0x200000 at_ after)
    ∧ (ctx user).trapRule (.trap always 7) = some { cause := .software, aux := 7 }
    ∧ (∃ at_ after, TrapReady user (ctx user) { cause := .illegalInstruction } 0x200000 at_ after)
    ∧ (∃ at_ after, TrapReady user (ctx user) { cause := .emulatedOpcode } 0x200000 at_ after)
    ∧ (ctx user).trapRule (.vdivI32 always 255 1 (.v 2)) = some { cause := .emulatedOpcode } :=
  ⟨trapReady_of _ _ _ (by decide +kernel), by decide +kernel, trapReady_of _ _ _ (by decide +kernel),
    trapReady_of _ _ _ (by decide +kernel), by decide +kernel⟩
theorem witness_PrivilegedWords : isPrivileged (.tret always) = true
    ∧ ∃ at_ after, TrapReady user (ctx user) { cause := .privilege } 0x200000 at_ after :=
  ⟨rfl, trapReady_of _ _ _ (by decide +kernel)⟩
theorem witness_TrapFrame : AtRest user (ctx user) := rest_user
/-- `user` at handler level with its frame at 0x180000, which memory holds as zeros. -/
def handler : State := userSlice (fun x => { x with smode := smodeSetPriv x.smode 1, frame := some 0x180000 })
theorem witness_TrapReturn :
    let p := okD ((ctx handler).readNow .core ((ctx handler).x.frame.getD 0).toNat 1024) ([], ctx handler)
    AtRest handler (ctx handler) ∧ (ctx handler).x.priv = 1
    ∧ ((ctx handler).readNow .core ((ctx handler).x.frame.getD 0).toNat 1024).isOk = true
    ∧ leNat ((p.1.drop 0).take 8) % 8 = 0
    ∧ (ctx handler).x.live &&& ~~~(BitVec.ofNat 4 (leNat ((p.1.drop 24).take 8) / 2 ^ 28)) ≠ 0 :=
  ⟨atRest_of _ (by decide +kernel), by decide +kernel⟩
theorem witness_SystemReads : AtRest handler (ctx handler) ∧ (ctx handler).x.guardScalar always.guard = true ∧ (ctx handler).b.vf < 64
    ∧ (ctx handler).x.priv = 1 := ⟨atRest_of _ (by decide +kernel), by decide +kernel, by decide +kernel, by decide +kernel⟩
/-- `user` at steward level, every scalar register holding 16 × 2^16 + 8. -/
def steward : State := userSlice (fun x => { x with smode := smodeSetPriv x.smode 2, s := Vector.replicate 64 0x100008 })
theorem witness_SystemWrites : AtRest steward (ctx steward) ∧ (ctx steward).x.guardScalar always.guard = true
    ∧ (ctx steward).b.vf < 64 ∧ 2 ≤ (ctx steward).x.priv :=
  ⟨atRest_of _ (by decide +kernel), by decide +kernel, by decide +kernel, by decide +kernel⟩
theorem witness_TlbInvalidation : AtRest steward (ctx steward) ∧ 2 ≤ (ctx steward).x.priv
    ∧ steward.scopeDenied (ctx steward).b.vf .pod = false :=
  ⟨atRest_of _ (by decide +kernel), by decide +kernel, by decide +kernel⟩

/-! ### Fences, barriers, cross-lane words -/

theorem witness_Fences : AtRest user (ctx user) ∧ user.scopeDenied (ctx user).b.vf .tenant = false
    ∧ (ctx user).fits (memUses ⟨1, some 255, 0, .block, .none, false⟩ []) :=
  ⟨rest_user, by decide +kernel, by unfold Ctx.fits; decide +kernel⟩
theorem witness_InstructionCache : AtRest user (ctx user) ∧ user.scopeDenied (ctx user).b.vf .die = false :=
  ⟨rest_user, by decide +kernel⟩
/-- `user` with 1 in every scalar register. -/
def ones : State := userSlice (fun x => { x with s := Vector.replicate 64 1 })
/-- `ones` with a second slice of its squad. -/
def pairUp : State := { ones with slices := Table.put ones.slices 1 (Slice.start (BitVec.ofNat 64 placeCode) 0xF 0) }
theorem noneBelow (p : Nat → Bool) {a : Nat → Nat} {k : Nat}
    (h : ((List.range 8).all (fun sl => !(decide (a sl ≠ k) && p (a sl)))) = true) :
    ¬ ∃ sl, sl < 8 ∧ a sl ≠ k ∧ p (a sl) = true := by
  rintro ⟨sl, h8, hk, hp⟩
  have := List.all_eq_true.mp h sl (List.mem_range.mpr h8)
  simp [hk, hp] at this
theorem witness_BlockBarrier : AtRest ones (ctx ones) ∧ (ctx ones).x.priv ≠ 1 ∧ (ctx ones).x.guardScalar always.guard = true
    ∧ Table.getD (ctx ones).b.bars 15 [] = [] ∧ keySquad ones.cur < (ctx ones).b.squads.length ∧ (ctx ones).x.ended = false
    ∧ ((ctx ones).val (.s 1)).setWidth 32 &&& BitVec.ofNat 32 (2 ^ (ctx ones).b.squads.length - 1) = BitVec.ofNat 32 (2 ^ keySquad ones.cur)
    ∧ ¬ ∃ sl, sl < 8 ∧ keyOf (keyBlock ones.cur) (keySquad ones.cur) sl ≠ ones.cur
      ∧ ones.mayCome (keyOf (keyBlock ones.cur) (keySquad ones.cur) sl) = true :=
  ⟨atRest_of _ (by decide +kernel), by decide +kernel, by decide +kernel, by decide +kernel, by decide +kernel, by decide +kernel,
    by decide +kernel, noneBelow _ (by decide +kernel)⟩
theorem witness_BlockBarrier_held : AtRest pairUp (ctx pairUp) ∧ (ctx pairUp).x.priv ≠ 1
    ∧ (ctx pairUp).x.guardScalar always.guard = true
    ∧ Table.getD (ctx pairUp).b.bars 0 [] = [] ∧ keySquad pairUp.cur < (ctx pairUp).b.squads.length ∧ (ctx pairUp).x.ended = false
    ∧ ((ctx pairUp).val (.s 1)).setWidth 32 &&& BitVec.ofNat 32 (2 ^ (ctx pairUp).b.squads.length - 1)
      = BitVec.ofNat 32 (2 ^ keySquad pairUp.cur)
    ∧ ∃ sl, sl < 8 ∧ keyOf (keyBlock pairUp.cur) (keySquad pairUp.cur) sl ≠ pairUp.cur
      ∧ pairUp.mayCome (keyOf (keyBlock pairUp.cur) (keySquad pairUp.cur) sl) = true :=
  ⟨atRest_of _ (by decide +kernel), by decide +kernel, by decide +kernel, by decide +kernel, by decide +kernel, by decide +kernel,
    by decide +kernel, 1, by decide, by decide +kernel, by decide +kernel⟩
theorem witness_CrossLaneAlone : ∃ r, AtRest ones (ctx ones) ∧ (ctx ones).x.priv ≠ 1 ∧ (ctx ones).x.hold = .none
    ∧ (ctx ones).soloRule (.vredadd always .i32 ⟨0, some 1⟩ 255 2) = some r ∧ (ctx ones).fits r.uses
    ∧ (ctx ones).maskOf r.mask = BitVec.ofNat 8 (2 ^ keySlice ones.cur)
    ∧ keySquad ones.cur < (ctx ones).b.squads.length ∧ (ctx ones).squad.insts = [] :=
  ⟨_, atRest_of _ (by decide +kernel), by decide +kernel, by decide +kernel, rfl, by unfold Ctx.fits; decide +kernel, by decide +kernel,
    by decide +kernel, by decide +kernel⟩
theorem witness_CrossLaneWaits : ∃ r, AtRest pairUp (ctx pairUp) ∧ (ctx pairUp).x.priv ≠ 1
    ∧ (ctx pairUp).soloRule (.vredadd always .i32 ⟨0, none⟩ 255 2) = some r ∧ (ctx pairUp).fits r.uses
    ∧ keySquad pairUp.cur < (ctx pairUp).b.squads.length ∧ (ctx pairUp).squad.insts = []
    ∧ ((ctx pairUp).maskOf r.mask).getLsbD (keySlice pairUp.cur) = true
    ∧ ∃ sl, sl < 8 ∧ sl ≠ keySlice pairUp.cur ∧ ((ctx pairUp).maskOf r.mask).getLsbD sl = true
        ∧ pairUp.mayCome (keyOf (keyBlock pairUp.cur) (keySquad pairUp.cur) sl) = true :=
  ⟨_, atRest_of _ (by decide +kernel), by decide +kernel, rfl, by unfold Ctx.fits; decide +kernel, by decide +kernel, by decide +kernel,
    by decide +kernel, 1, by decide, by decide +kernel, by decide +kernel, by decide +kernel⟩
theorem witness_CrossLaneWaits_trap : ∃ r at_ after, AtRest user (ctx user) ∧ (ctx user).x.priv ≠ 1
    ∧ (ctx user).soloRule (.vredadd always .i32 ⟨1, none⟩ 255 2) = some r ∧ (ctx user).fits r.uses
    ∧ keySquad user.cur < (ctx user).b.squads.length ∧ (ctx user).squad.insts = []
    ∧ ((ctx user).maskOf r.mask).getLsbD (keySlice user.cur) = false
    ∧ TrapReady user (ctx user) { cause := .groupSync } 0x200000 at_ after := by
  obtain ⟨x, y, h⟩ := trapReady_of user { cause := .groupSync } 0x200000 (by decide +kernel)
  exact ⟨_, x, y, rest_user, by decide +kernel, rfl, by unfold Ctx.fits; decide +kernel, by decide +kernel, by decide +kernel,
    by decide +kernel, h⟩

/-! ### Memory words -/

/-- A memory operand: base S1, no index, no offset. -/
def atS1 (scope : Scope) : MemArg := ⟨1, none, 0, scope, .none, false⟩
/-- What the memory rule of a state's slice gives for a word that has one. -/
def memOf (s : State) (i : Instr) : Ctl × List VUse × MemWord :=
  ((ctx s).memRule i).getD (always, [], ⟨atS1 .block, false, { want := .read, size := 1 }, .feset, fun _ _ => ([], [])⟩)
/-- A load of pairs of registers up to V255. -/
def pairLoad : Instr := .vld always (atS1 .block) .none .w64 254
theorem witness_MemoryIssue :
    let m := memOf addressed pairLoad
    let r := okD ((ctx addressed).check m.2.2.ask ((ctx addressed).memAccesses m.1 m.2.2)) []
    AtRest addressed (ctx addressed) ∧ (ctx addressed).memRule pairLoad = some (m.1, m.2.1, m.2.2)
    ∧ (ctx addressed).fits m.2.1 ∧ m.2.2.kind.full (ctx addressed).x.cnt = false
    ∧ addressed.scopeDenied (ctx addressed).b.vf m.2.2.mem.scope = false ∧ (ctx addressed).memAccesses m.1 m.2.2 ≠ []
    ∧ (ctx addressed).check m.2.2.ask ((ctx addressed).memAccesses m.1 m.2.2) = .ok r
    ∧ (∀ p ∈ r, ((ctx addressed).freshLane m.2.2 p).waited = true
        ∨ (ctx addressed).lanePoisoned ((ctx addressed).freshLane m.2.2 p) m.2.2.ask.size = false)
    ∧ addressed.timeSliced (ctx addressed).b.vf = false :=
  ⟨atRest_of _ (by decide +kernel), rfl, by unfold Ctx.fits; decide +kernel, by decide +kernel⟩
theorem witness_MemoryIdle : ∃ k uses w, AtRest user (ctx user)
    ∧ (ctx user).memRule (.sst never (atS1 .block) .none .w64 false 2) = some (k, uses, w) ∧ (ctx user).fits uses
    ∧ w.kind.full (ctx user).x.cnt = false ∧ w.mem.ord = .none ∧ (ctx user).memAccesses k w = [] :=
  ⟨_, _, _, rest_user, rfl, by unfold Ctx.fits; decide +kernel, by decide +kernel, rfl, by decide +kernel⟩

/-- An operation of one lane of the slice's word. -/
def oneOp (kind : OpKind) (a : LaneAcc) : MemOp :=
  { seq := 0, kind := kind, lanes := [a], scope := .block, acq := false, rel := false, pc := 0, words := 0, consumer := false, checked := false,
    sent := false, status := none, outside := false, at_ := 0 }
/-- The lane at physical address 0x180000, and the one at the scratchpad's first byte, with data. -/
def memLane (bs : List Byte) : LaneAcc := ⟨3, 0x180000, some 0x180000, bs, [], [], false, none, false⟩
def padLane (bs : List Byte) : LaneAcc := ⟨3, 0x7FFFFF0000000000, none, bs, [], [], false, none, false⟩
/-- `user` with one operation outstanding. -/
def busy (o : MemOp) : State := userSlice (fun x => { x with ops := [o], seq := 1 })
/-- Whether an operation of a slice is alone. -/
def lonely (s : State) (k : Nat) (o : MemOp) : Bool :=
  match s.ctx k with
  | none => false
  | some c => c.x.splice.isNone && decide (c.x.ops = [o]) && c.x.pend.isEmpty && decide (c.x.hold = .none) && !o.outside
/-- The slice at a key with what it needs. -/
def ctxAt (s : State) (k : Nat) : Ctx := (s.ctx k).getD ⟨s, 0, Slice.start 0 0 0, placeBlock⟩
theorem alone_of (s : State) (k : Nat) (o : MemOp) (h : lonely s k o = true) : Alone s k (ctxAt s k) o := by
  unfold lonely at h
  split at h
  · cases h
  · rename_i c hc
    have hx : ctxAt s k = c := by simp [ctxAt, hc]
    simp only [Bool.and_eq_true, decide_eq_true_eq, List.isEmpty_iff, Option.isNone_iff_eq_none, Bool.not_eq_true'] at h
    obtain ⟨⟨⟨⟨a, b⟩, d⟩, e⟩, f⟩ := h
    rw [hx]
    exact ⟨hc, a, b, d, .inl e, f⟩

/-- Whether a lane can be read. -/
def clearLane (c : Ctx) (a : LaneAcc) (n : Nat) : Bool :=
  a.got.isNone && a.fwd.isEmpty
    && decide (a.pa.isSome = true ∨ (0x7FFFFF0000000000 ≤ a.addr.toNat ∧ a.addr.toNat < 0x7FFFFF0100000000))
    && !c.lanePoisoned a n && !a.poisoned
theorem readable_of (c : Ctx) (a : LaneAcc) (n : Nat) (h : clearLane c a n = true) : c.Readable a n := by
  simp only [clearLane, Bool.and_eq_true, Option.isNone_iff_eq_none, List.isEmpty_iff, decide_eq_true_eq, Bool.not_eq_true'] at h
  obtain ⟨⟨⟨⟨a, b⟩, d⟩, e⟩, f⟩ := h
  exact ⟨a, b, d, e, f⟩

/-- Loads, an atomic and stores of one lane. -/
def memLoad : MemOp := oneOp (.load (.vreg 254) .w64 .none) (memLane [])
def padScalarLoad : MemOp := oneOp (.load (.sreg 63) .i8 .none) (padLane [])
def waitLoad : MemOp := oneOp (.load (.vreg 1) .w32 .waitfClr) (padLane [])
def padAtomic : MemOp := oneOp (.atomic .add .w64 (some 254)) (padLane (leBytes 8 5))
def padStore : MemOp := oneOp (.store .w64 .setf false) (padLane (leBytes 8 0x1122334455667788))
def memStore : MemOp := oneOp (.store .w64 .none false) (memLane (leBytes 8 0x1122334455667788))
theorem witness_LoadCompletes : Alone (busy memLoad) 0 (ctxAt (busy memLoad) 0) memLoad
    ∧ (∀ a ∈ memLoad.lanes, (ctxAt (busy memLoad) 0).Readable a memLoad.kind.size)
    ∧ (memLoad.lanes.map (fun a => a.lane)).Nodup ∧ memLoad.kind = .load (.vreg 254) .w64 .none
    ∧ ∀ a ∈ memLoad.lanes, (busy memLoad).upToDate ((ctxAt (busy memLoad) 0).reader .ls memLoad.scope memLoad.seq)
        (a.covers (keyBlock 0) memLoad.kind.size) :=
  ⟨alone_of _ _ _ (by decide +kernel), fun a h => readable_of _ _ _ (by rw [List.mem_singleton.mp h]; decide +kernel), by decide, rfl,
    fun _ _ => State.upToDate_nil _ _ _ (by decide +kernel)⟩
theorem witness_LoadCompletes_scalar : Alone (busy padScalarLoad) 0 (ctxAt (busy padScalarLoad) 0) padScalarLoad
    ∧ (∀ a ∈ padScalarLoad.lanes, (ctxAt (busy padScalarLoad) 0).Readable a padScalarLoad.kind.size)
    ∧ (padScalarLoad.lanes.map (fun a => a.lane)).Nodup ∧ padScalarLoad.kind = .load (.sreg 63) .i8 .none
    ∧ padScalarLoad.lanes = [padLane []]
    ∧ ∀ a ∈ padScalarLoad.lanes, (busy padScalarLoad).upToDate
        ((ctxAt (busy padScalarLoad) 0).reader .ls padScalarLoad.scope padScalarLoad.seq)
        (a.covers (keyBlock 0) padScalarLoad.kind.size) :=
  ⟨alone_of _ _ _ (by decide +kernel), fun a h => readable_of _ _ _ (by rw [List.mem_singleton.mp h]; decide +kernel), by decide, rfl, rfl,
    fun _ _ => State.upToDate_nil _ _ _ (by decide +kernel)⟩
/-- `waitLoad` outstanding while its granule is full. -/
def granted : State := (busy waitLoad).modBlock 0 (fun b => { b with full := Sparse.set false b.full 0 true })
theorem witness_FullEmptyLoads : Alone (busy waitLoad) 0 (ctxAt (busy waitLoad) 0) waitLoad ∧ waitLoad.lanes = [padLane []]
    ∧ waitLoad.kind = .load (.vreg 1) .w32 .waitfClr ∧ (ctxAt (busy waitLoad) 0).Readable (padLane []) 4 ∧ (padLane []).pa = none
    ∧ (padLane []).addr.toNat = 0x7FFFFF0000000000 + 0 ∧ Sparse.get false (ctxAt (busy waitLoad) 0).b.full (0 / 16) = false :=
  ⟨alone_of _ _ _ (by decide +kernel), rfl, rfl, readable_of _ _ _ (by decide +kernel), rfl, by decide, by decide +kernel⟩
theorem witness_FullEmptyLoads_full : Alone granted 0 (ctxAt granted 0) waitLoad ∧ waitLoad.lanes = [padLane []]
    ∧ waitLoad.kind = .load (.vreg 1) .w32 .waitfClr ∧ (ctxAt granted 0).Readable (padLane []) 4 ∧ (padLane []).pa = none
    ∧ (padLane []).addr.toNat = 0x7FFFFF0000000000 + 0 ∧ Sparse.get false (ctxAt granted 0).b.full (0 / 16) = true :=
  ⟨alone_of _ _ _ (by decide +kernel), rfl, rfl, readable_of _ _ _ (by decide +kernel), rfl, by decide, by decide +kernel⟩
theorem witness_AtomicReturns : Alone (busy padAtomic) 0 (ctxAt (busy padAtomic) 0) padAtomic
    ∧ padAtomic.lanes = [padLane (leBytes 8 5)] ∧ padAtomic.kind = .atomic .add .w64 (some 254) ∧ (AtomOp.add = .badd2 → (padLane (leBytes 8 5)).cmp = [])
    ∧ (ctxAt (busy padAtomic) 0).Readable (padLane (leBytes 8 5)) 8 ∧ (padLane (leBytes 8 5)).pa = none
    ∧ (padLane (leBytes 8 5)).addr.toNat = 0x7FFFFF0000000000 + 0 :=
  ⟨alone_of _ _ _ (by decide +kernel), rfl, rfl, by decide, readable_of _ _ _ (by decide +kernel), rfl, by decide⟩
/-- An ATBADD2 of the scratchpad's first word, without return. -/
def padHalves : MemOp := oneOp (.atomic .badd2 .w32 none) (padLane (leBytes 4 0x3F803F80))
theorem witness_HalvesApart : Alone (busy padHalves) 0 (ctxAt (busy padHalves) 0) padHalves
    ∧ padHalves.lanes = [padLane (leBytes 4 0x3F803F80)] ∧ padHalves.kind = .atomic .badd2 .w32 none
    ∧ (let a := padLane (leBytes 4 0x3F803F80)
       a.got = none ∧ a.cmp = [] ∧ a.fwd = [] ∧ a.pa = none ∧ a.lane < 4 ∧ a.addr.toNat = 0x7FFFFF0000000000 + 0) ∧ padHalves.acq = false :=
  ⟨alone_of _ _ _ (by decide +kernel), rfl, rfl, by decide, rfl⟩
/-- A store of two lanes, one of which an event can put off. -/
def padLanes : MemOp := { oneOp (.store .w64 .none false) (padLane (leBytes 8 5)) with
  lanes := [⟨0, 0x7FFFFF0000000000, none, leBytes 8 5, [], [], false, none, false⟩,
    ⟨1, 0x7FFFFF0000000008, none, leBytes 8 6, [], [], false, none, false⟩] }
theorem witness_LanesApart : Alone (busy padLanes) 0 (ctxAt (busy padLanes) 0) padLanes ∧ padLanes.kind = .store .w64 .none false
    ∧ (∀ a ∈ padLanes.lanes, a.got = none ∧ a.pa = none ∧ 0x7FFFFF0000000000 ≤ a.addr.toNat ∧ a.addr.toNat < 0x7FFFFF0100000000)
    ∧ padLanes.lanes.Pairwise (fun a b => a.addr.toNat + Sz.w64.bytes ≤ b.addr.toNat ∨ b.addr.toNat + Sz.w64.bytes ≤ a.addr.toNat)
    ∧ padLanes.lanes.filter (fun a => (1 : BitVec 8).getLsbD a.lane) ≠ [] :=
  ⟨alone_of _ _ _ (by decide +kernel), rfl, by decide, by decide, by decide⟩
theorem witness_ScratchStores : Alone (busy padStore) 0 (ctxAt (busy padStore) 0) padStore ∧ padStore.kind = .store .w64 .setf false
    ∧ ∀ a ∈ padStore.lanes, a.got = none ∧ a.pa = none ∧ 0x7FFFFF0000000000 ≤ a.addr.toNat ∧ a.addr.toNat < 0x7FFFFF0100000000 :=
  ⟨alone_of _ _ _ (by decide +kernel), rfl, by decide⟩
theorem witness_MemoryStores :
    let s := busy memStore
    let a := memLane (leBytes 8 0x1122334455667788)
    let x := okD (s.translate (ctxAt s 0).b.vf (s.tlbOf (ctxAt s 0).b.core) (laneSite a.lane + 1024 * (memStore.seq + 1)) a.addr.toNat .write) noXlat
    Alone s 0 (ctxAt s 0) memStore ∧ memStore.kind = .store .w64 .none false ∧ memStore.lanes = [a] ∧ a.got = none ∧ a.pa.isSome = true ∧ a.data ≠ []
    ∧ s.translate (ctxAt s 0).b.vf (s.tlbOf (ctxAt s 0).b.core) (laneSite a.lane + 1024 * (memStore.seq + 1)) a.addr.toNat .write = .ok x :=
  ⟨alone_of _ _ _ (by decide +kernel), rfl, rfl, rfl, rfl, by decide +kernel, by decide +kernel⟩
/-- A 16-byte store to memory. -/
def wideStore : MemOp := oneOp (.store .w128 .none false) (memLane (leBytes 16 5))
theorem witness_StoreHalves :
    let s := busy wideStore
    let a := memLane (leBytes 16 5)
    let x := okD (s.translate (ctxAt s 0).b.vf (s.tlbOf (ctxAt s 0).b.core) (laneSite a.lane + 1024 * (wideStore.seq + 1)) a.addr.toNat .write) noXlat
    Alone s 0 (ctxAt s 0) wideStore ∧ wideStore.kind = .store .w128 .none false ∧ wideStore.lanes = [a] ∧ a.got = none ∧ a.cmp = []
    ∧ a.pa.isSome = true ∧ a.data.length = 16 ∧ a.lane < 4
    ∧ s.translate (ctxAt s 0).b.vf (s.tlbOf (ctxAt s 0).b.core) (laneSite a.lane + 1024 * (wideStore.seq + 1)) a.addr.toNat .write = .ok x :=
  ⟨alone_of _ _ _ (by decide +kernel), rfl, rfl, rfl, rfl, rfl, by decide +kernel, by decide, by decide +kernel⟩
/-- `memStore` outstanding while its page permits reading alone. -/
def readOnly : State := (busy memStore).placeWord64 0x60000 23
theorem witness_DroppedStores :
    let a := memLane (leBytes 8 0x1122334455667788)
    Alone readOnly 0 (ctxAt readOnly 0) memStore ∧ memStore.kind = .store .w64 .none false ∧ memStore.lanes = [a] ∧ a.got = none ∧ a.pa.isSome = true
    ∧ (ctxAt readOnly 0).x.ended = false
    ∧ readOnly.translate (ctxAt readOnly 0).b.vf (readOnly.tlbOf (ctxAt readOnly 0).b.core) (laneSite a.lane + 1024 * (memStore.seq + 1))
      a.addr.toNat .write = .error (.stage1 2) :=
  ⟨alone_of _ _ _ (by decide +kernel), rfl, rfl, rfl, rfl, by decide +kernel, by decide +kernel⟩

/-! ### Wells -/

/-- A well of FP32 sums over core 0. -/
def aWell : BitVec 512 := BitVec.ofNat 512 (1 + 2 ^ 96)
/-- A state with the well at slot 63 and the scalar registers at its first element. -/
def welled : State :=
  (userSlice (fun x => { x with s := Vector.replicate 64 (0x7FFFFF0200000000 + 63 * 0x100000) })).modChip 0 (fun c =>
    { c with wells := Table.put c.wells 63 aWell })
/-- The operation of a WLD there. -/
def wellWord (pr : PoisonReport) : MemWord :=
  ⟨atS1 .block, true, { want := .read, size := 4, well := true },
    .well 255 .w32 (((ctx welled).x.lanes always.guard).map (fun l =>
      (l, (ctx welled).wellDesc (((ctx welled).address (atS1 .block) 4 l - 0x7FFFFF0000000000) % 2 ^ 32)))) pr, fun _ _ => ([], [])⟩
theorem witness_WellLoad :
    let w := wellWord .noq
    let r := okD ((ctx welled).check w.ask ((ctx welled).memAccesses always w)) []
    AtRest welled (ctx welled) ∧ (ctx welled).fits (memUses (atS1 .block) [⟨255, 1, false⟩]) ∧ (ctx welled).x.cnt.wl ≠ 63
    ∧ welled.scopeDenied (ctx welled).b.vf .block = false ∧ (ctx welled).memAccesses always w ≠ []
    ∧ (ctx welled).check w.ask ((ctx welled).memAccesses always w) = .ok r :=
  ⟨atRest_of _ (by decide +kernel), by unfold Ctx.fits; decide +kernel, by decide +kernel⟩
/-- That load outstanding in lane 3. -/
def wellOp : MemOp :=
  oneOp (.well 255 .w32 [(3, aWell)] .noq) ⟨3, 0x7FFFFF0200000000 + 63 * 0x100000, none, [], [], [], false, none, false⟩
theorem witness_WellElements : Alone (busy wellOp) 0 (ctxAt (busy wellOp) 0) wellOp
    ∧ wellOp.kind = .well 255 .w32 [(3, aWell)] .noq ∧ (wellOp.lanes.map (fun a => a.lane)).Nodup
    ∧ ∀ a ∈ wellOp.lanes, (busy wellOp).upToDate ((ctxAt (busy wellOp) 0).reader .wl wellOp.scope wellOp.seq)
        ((ctxAt (busy wellOp) 0).wellRead [(3, aWell)] a).2.2 :=
  ⟨alone_of _ _ _ (by decide +kernel), rfl, by decide, fun _ _ => State.upToDate_nil _ _ _ (by decide +kernel)⟩
theorem witness_WellDescriptors :
    let a := (ctx addressed).val (.s 1)
    let x := okD (addressed.translate (ctx addressed).b.vf (addressed.tlbOf (ctx addressed).b.core) (laneSite 0) a.toNat .read) noXlat
    let y := okD (addressed.translate (ctx addressed).b.vf (addressed.tlbOf (ctx addressed).b.core) (laneSite 0) a.toNat .write) noXlat
    AtRest addressed (ctx addressed) ∧ (ctx addressed).x.guardScalar always.guard = true ∧ a.toNat % 64 = 0 ∧ a.toNat < 0x7FFFFF0000000000
    ∧ addressed.translate (ctx addressed).b.vf (addressed.tlbOf (ctx addressed).b.core) (laneSite 0) a.toNat .read
      = .ok ⟨x.pa, x.device, x.used⟩ ∧ addressed.linePoisoned x.pa 64 = false ∧ addressed.past = []
    ∧ addressed.translate (ctx addressed).b.vf (addressed.tlbOf (ctx addressed).b.core) (laneSite 0) a.toNat .write
      = .ok ⟨y.pa, y.device, y.used⟩ ∧ ((ctx addressed).val (.sp .laneId)).toNat < 64 :=
  ⟨atRest_of _ (by decide +kernel), by decide +kernel⟩

/-! ### Operands that trap, engine words -/

theorem witness_RegisterRange : ∃ r at_ after, (ctx user).intRule (.vadd always .i64 .rne false 255 2 (.v 3)) = some r
    ∧ ¬ (ctx user).fits r.uses ∧ TrapReady user (ctx user) { cause := .registerRange } 0x200000 at_ after := by
  obtain ⟨x, y, h⟩ := trapReady_of user { cause := .registerRange } 0x200000 (by decide +kernel)
  exact ⟨_, x, y, rfl, by unfold Ctx.fits; decide +kernel, h⟩
/-- `user` with 0x180004 in S1. -/
def skewed : State := userSlice (fun x => { x with s := (Vector.replicate 64 (0 : Word64)).set 1 0x180004 })
theorem witness_MemoryMisaligned :
    let m := memOf skewed pairLoad
    (ctx skewed).memRule pairLoad = some (m.1, m.2.1, m.2.2) ∧ (ctx skewed).fits m.2.1
    ∧ m.2.2.kind.full (ctx skewed).x.cnt = false ∧ skewed.scopeDenied (ctx skewed).b.vf m.2.2.mem.scope = false
    ∧ (∀ p ∈ (ctx skewed).memAccesses m.1 m.2.2, badForm m.2.2.ask p.2 = false)
    ∧ ((ctx skewed).memAccesses m.1 m.2.2).find? (fun p => p.2 % m.2.2.ask.size != 0) = some (0, 0x180004)
    ∧ ∃ at_ after, TrapReady skewed (ctx skewed)
        { cause := .misalignedData, addr := 0x180004, lane := 0, wr := m.2.2.ask.want.writes } 0x200000 at_ after :=
  ⟨rfl, by unfold Ctx.fits; decide +kernel, by decide +kernel, by decide +kernel, by decide +kernel, by decide +kernel,
    trapReady_of _ _ _ (by decide +kernel)⟩
/-- `user` whose block has no matrix reservation. -/
def unreserved : State := userBlock (fun b => { b with mxRes := false })
theorem witness_EngineReservation : ∃ r at_ after, (ctx unreserved).matrixRule (.pswap always none) = some r ∧ r.matrix = true
    ∧ (ctx unreserved).b.mxRes = false ∧ TrapReady unreserved (ctx unreserved) { cause := .illegalInstruction } 0x200000 at_ after := by
  obtain ⟨x, y, h⟩ := trapReady_of unreserved { cause := .illegalInstruction } 0x200000 (by decide +kernel)
  exact ⟨_, x, y, rfl, rfl, by decide +kernel, h⟩
/-- The engine rule of a state's slice for a word that has one. -/
def engineOf (s : State) (i : Instr) : EngRule := (((ctx s).matrixRule i).or ((ctx s).pumpRule i)).getD ⟨always, false, false, none, .pswap⟩
/-- A CPCOPY of 256 bytes within memory, with a barrier object in the scratchpad. -/
def aCopy : Instr := .cpcopy always (.s 1) (.s 2) (.sp .vcount) none
theorem witness_EngineIssue :
    let r := engineOf addressed (.pswap always none)
    AtRest addressed (ctx addressed) ∧ (ctx addressed).tilesCurrent ∧ (ctx addressed).matrixRule (.pswap always none) = some r
    ∧ (ctx addressed).x.guardScalar r.ctl.guard = true ∧ (r.matrix = true → (ctx addressed).b.mxRes = true)
    ∧ (ctx addressed).x.cnt.en ≠ 63 ∧ (ctx addressed).objCheck r.ab = .ok none
    ∧ (if r.copy then (addressed.core (ctx addressed).b.core).copyq else (addressed.core (ctx addressed).b.core).cmdq).length < 16 :=
  ⟨atRest_of _ (by decide +kernel), fun _ => State.upToDate_nil _ _ _ (by decide +kernel), rfl, by decide +kernel⟩
theorem witness_EngineIssue_copy :
    let r := engineOf addressed aCopy
    AtRest addressed (ctx addressed) ∧ (ctx addressed).s.past = [] ∧ ((ctx addressed).pumpRule aCopy).isSome = true
    ∧ (ctx addressed).x.guardScalar r.ctl.guard = true ∧ (r.matrix = true → (ctx addressed).b.mxRes = true)
    ∧ (ctx addressed).x.cnt.en ≠ 63 ∧ (ctx addressed).objCheck r.ab = .ok none
    ∧ (if r.copy then (addressed.core (ctx addressed).b.core).copyq else (addressed.core (ctx addressed).b.core).cmdq).length < 16 :=
  ⟨atRest_of _ (by decide +kernel), by decide +kernel⟩
/-- `user` after a TDSET of T3 by a higher slice in the same cycle. -/
def overwritten : State := userBlock (fun b => { b with tdAt := [(3, (0, 4))] })
theorem witness_TileDescriptors_late : AtRest overwritten (ctx overwritten) ∧ (ctx overwritten).x.guardScalar always.guard = true
    ∧ Table.find (ctx overwritten).b.tdAt 3 = some (overwritten.now, 4) ∧ overwritten.cur < 4 :=
  ⟨atRest_of _ (by decide +kernel), by decide +kernel⟩
theorem witness_TileDescriptors : AtRest user (ctx user) ∧ (ctx user).x.guardScalar always.guard = true ∧ (ctx user).tilesCurrent :=
  ⟨rest_user, by decide +kernel, fun _ => State.upToDate_nil _ _ _ (by decide +kernel)⟩

/-! ### Engine commands -/

/-- A descriptor of a tile in the scratchpad, rows one after another. -/
def padTile (f : Fmt) (rows cols off : Nat) : BitVec 128 :=
  BitVec.ofNat 128 (fmtCode f * 2 ^ 7 + rows * 2 ^ 12 + cols * 2 ^ 26 + cols * f.width / 8 * 2 ^ 40 + (0x7FFFFF0000000000 + off) * 2 ^ 64)
/-- The tile it describes. -/
def theTile (f : Fmt) (rows cols off : Nat) : Tile := ⟨f, rows, cols, cols * f.width / 8, 0x7FFFFF0000000000 + off⟩
/-- A command of the slice with some steps made. -/
def aCmd (kind : CmdKind) (next : Nat) : Cmd := ⟨0, true, 0, 0, BitVec.ofNat 64 placeCode, kind, none, next, 0, [], 0, [], 0, false, 0, []⟩
/-- `user` with a command at the head of a queue of core 0, counted under EN. -/
def queued (copy : Bool) (c : Cmd) : State :=
  (userSlice (fun x => { x with cnt := { x.cnt with en := 1 }, seq := 1 })).modCore 0 (fun k =>
    if copy then { k with copyq := [c] } else { k with cmdq := [c] })
/-- The block of `user`. -/
def blockOf (s : State) : Block := (Table.find s.blocks 0).getD placeBlock
/-- Whether a command is at the head of a queue of core 0. -/
def heads (s : State) (copy : Bool) (c : Cmd) : Bool :=
  decide ((if copy then (s.core 0).copyq else (s.core 0).cmdq) = [c]) && decide (c.block = 0) && (Table.find s.blocks 0).isSome
    && !(blockOf s).killed && s.chipRuns (blockOf s).vf && decide (c.at_ ≤ s.now) && c.ab.isNone && s.past.isEmpty
theorem atHead_of (s : State) (copy : Bool) (c : Cmd) (h : heads s copy c = true) : AtHead s 0 copy c [] (blockOf s) := by
  simp only [heads, Bool.and_eq_true, decide_eq_true_eq, Bool.not_eq_true', Option.isNone_iff_eq_none,
    List.isEmpty_iff] at h
  obtain ⟨⟨⟨⟨⟨⟨⟨a, b⟩, d⟩, e⟩, f⟩, j⟩, g⟩, i⟩ := h
  refine ⟨a, ?_, ⟨e, f⟩, j, g, fun o => s.upToDate_nil _ _ i⟩
  rw [b]
  unfold blockOf
  cases hb : Table.find s.blocks 0 with
  | none => rw [hb] at d; cases d
  | some x => rfl

/-- Commands of the engine order. -/
def swapCmd : Cmd := aCmd .pswap 0
def clearCmd : Cmd := aCmd (.accclr (BitVec.ofNat 64 (511 + 1 * 2 ^ 16))) 0
def moveCmd : Cmd := aCmd (.accmv (BitVec.ofNat 64 0) (BitVec.ofNat 64 (511 + 127 * 2 ^ 16)) (BitVec.ofNat 64 (1 + 2 ^ 16))) 0
def writeCmd : Cmd := aCmd (.accwr (padTile .f16 2 2 0) (BitVec.ofNat 64 (510 + 126 * 2 ^ 16))) 0
def readCmd : Cmd := aCmd (.accrd false .rne true (padTile .f16 2 2 0) (BitVec.ofNat 64 (510 + 126 * 2 ^ 16))) 0
theorem witness_AccumulatorCommands : AtHead (queued false swapCmd) 0 false swapCmd [] (blockOf (queued false swapCmd))
    ∧ swapCmd.kind = .pswap := ⟨atHead_of _ _ _ (by decide +kernel), rfl⟩
theorem witness_AccumulatorCommands_clear : AtHead (queued false clearCmd) 0 false clearCmd [] (blockOf (queued false clearCmd))
    ∧ clearCmd.kind = .accclr (BitVec.ofNat 64 (511 + 1 * 2 ^ 16)) := ⟨atHead_of _ _ _ (by decide +kernel), rfl⟩
theorem witness_AccumulatorCommands_move : AtHead (queued false moveCmd) 0 false moveCmd [] (blockOf (queued false moveCmd))
    ∧ (let ss := BitVec.ofNat 64 0
       let sd := BitVec.ofNat 64 (511 + 127 * 2 ^ 16)
       let sz := BitVec.ofNat 64 (1 + 2 ^ 16)
       moveCmd.kind = .accmv ss sd sz ∧ posCol sd + sz.toNat / 2 ^ 16 % 256 ≤ 128 ∧ posCol ss + sz.toNat / 2 ^ 16 % 256 ≤ 128
       ∧ ∀ i, i < sz.toNat % 512 → ∀ j, j < sz.toNat / 2 ^ 16 % 256 →
         ((queued false moveCmd).core 0).badCell (posRow ss + i) (posCol ss + j) = false) :=
  ⟨atHead_of _ _ _ (by decide +kernel), by decide +kernel⟩
theorem witness_AccumulatorCommands_write :
    AtHead (queued false writeCmd) 0 false writeCmd [] (blockOf (queued false writeCmd))
    ∧ writeCmd.kind = .accwr (padTile .f16 2 2 0) (BitVec.ofNat 64 (510 + 126 * 2 ^ 16))
    ∧ tileOf (padTile .f16 2 2 0) = some (theTile .f16 2 2 0) ∧ posCol (BitVec.ofNat 64 (510 + 126 * 2 ^ 16)) + 2 ≤ 128
    ∧ (blockOf (queued false writeCmd)).badTile (theTile .f16 2 2 0) 0 2 0 2 = false :=
  ⟨atHead_of _ _ _ (by decide +kernel), by decide +kernel⟩
theorem witness_AccumulatorRead :
    AtHead (queued false readCmd) 0 false readCmd [] (blockOf (queued false readCmd))
    ∧ readCmd.kind = .accrd false .rne true (padTile .f16 2 2 0) (BitVec.ofNat 64 (510 + 126 * 2 ^ 16))
    ∧ tileOf (padTile .f16 2 2 0) = some (theTile .f16 2 2 0) ∧ 0x7FFFFF0000000000 ≤ (theTile .f16 2 2 0).base
    ∧ (∀ i, i < 2 → ∀ j, j < 2 → ((queued false readCmd).core 0).badCell (510 + i) (126 + j) = false)
    ∧ 8 ≤ (theTile .f16 2 2 0).fmt.width := ⟨atHead_of _ _ _ (by decide +kernel), by decide +kernel⟩
def planeCmd : Cmd := aCmd (.ldstat .i8 .i8 .n48 true (padTile .i8 2 3 0) 0) 0
theorem witness_PlaneLoad : AtHead (queued false planeCmd) 0 false planeCmd [] (blockOf (queued false planeCmd))
    ∧ planeCmd.kind = .ldstat .i8 .i8 .n48 true (padTile .i8 2 3 0) 0 ∧ tileOf (padTile .i8 2 3 0) = some (theTile .i8 2 3 0)
    ∧ (theTile .i8 2 3 0).rows ≤ 1024
    ∧ (blockOf (queued false planeCmd)).badTile (theTile .i8 2 3 0) 0 2 0 3 = false :=
  ⟨atHead_of _ _ _ (by decide +kernel), by decide +kernel⟩
def streamCmd : Cmd := aCmd (.stream .i8 .rne .n48 (padTile .i8 4 2 64) (BitVec.ofNat 64 (508 + 125 * 2 ^ 16))) 0
/-- A plane of two rows and three columns. -/
def aPlane : Plane := ⟨[(0, 3), (1, 0xFF), (1024, 7)], some ⟨.i8, .i8, .i8, .n48, 2, 3⟩⟩
/-- The streaming command with that plane stationary. -/
def streaming : State := (queued false streamCmd).modCore 0 (fun k => { k with stationary := aPlane })
theorem witness_StreamedProducts : AtHead streaming 0 false streamCmd [] (blockOf streaming)
    ∧ streamCmd.kind = .stream .i8 .rne .n48 (padTile .i8 4 2 64) (BitVec.ofNat 64 (508 + 125 * 2 ^ 16))
    ∧ tileOf (padTile .i8 4 2 64) = some (theTile .i8 4 2 64)
    ∧ (streaming.core 0).stationary.tag = some ⟨.i8, .i8, .i8, .n48, 2, 3⟩ ∧ (theTile .i8 4 2 64).cols = 2
    ∧ posCol (BitVec.ofNat 64 (508 + 125 * 2 ^ 16)) + 3 ≤ 128 ∧ (blockOf streaming).badTile (theTile .i8 4 2 64) 0 4 0 2 = false
    ∧ (∀ i, i < 4 → ∀ j, j < 3 → (streaming.core 0).badCell (508 + i) (125 + j) = false)
    ∧ (streaming.core 0).mayStream streaming.now 4 :=
  ⟨atHead_of _ _ _ (by decide +kernel), by unfold Core.mayStream; decide +kernel⟩
/-- The same once the window's active cycles are spent. -/
def spent : State := streaming.modCore 0 (fun k => { k with active := 256, budget := 256 })
theorem witness_MatrixCommands_held : AtHead spent 0 false streamCmd [] (blockOf spent)
    ∧ ((spent.core 0).streamRows (blockOf spent) .i8 .rne .n48 (theTile .i8 4 2 64) 0 4 0 508 125 2).1 = 0
    ∧ ¬ (spent.core 0).mayStream spent.now 4 :=
  ⟨atHead_of _ _ _ (by decide +kernel), by unfold Core.mayStream; decide +kernel⟩
theorem witness_MatrixCommands : AtHead streaming 0 false streamCmd [] (blockOf streaming)
    ∧ ((streaming.core 0).streamRows (blockOf streaming) .i8 .rne .n48 (theTile .i8 4 2 64) 0 4 0 508 125 2).1 = 0 :=
  ⟨atHead_of _ _ _ (by decide +kernel), by decide +kernel⟩
/-- The streaming command while the stationary plane is EMPTY. -/
def starved : State := queued false streamCmd
theorem witness_MatrixCommands_failing : AtHead starved 0 false streamCmd [] (blockOf starved)
    ∧ ((starved.core 0).streamRows (blockOf starved) .i8 .rne .n48 (theTile .i8 4 2 64) 0 4 0 508 125 2).1 ≠ 0
    ∧ keyBlock streamCmd.slice = streamCmd.block ∧ (Table.find starved.slices streamCmd.slice).isSome = true :=
  ⟨atHead_of _ _ _ (by decide +kernel), by decide +kernel⟩
def scaleCmd1 : Cmd := aCmd (.scacc .rne (BitVec.ofNat 64 (508 + 0 * 65536)) 0x7FFFFF0000000000 0x7FFFFF0000000100) 0
theorem witness_MatrixCommands_scale : AtHead (queued false scaleCmd1) 0 false scaleCmd1 [] (blockOf (queued false scaleCmd1))
    ∧ (((queued false scaleCmd1).core 0).scacc (blockOf (queued false scaleCmd1)) .rne (BitVec.ofNat 64 508) 0x7FFFFF0000000000
      0x7FFFFF0000000100).1 = 0 := ⟨atHead_of _ _ _ (by decide +kernel), by decide +kernel⟩
def tileCmd (n : Nat) : Cmd := aCmd (.mxtile .i8 .rne (padTile .i8 2 2 0) (padTile .i8 2 3 64) (BitVec.ofNat 64 0)) n
theorem witness_PumpedMultiply : AtHead (queued false (tileCmd 0)) 0 false (tileCmd 0) [] (blockOf (queued false (tileCmd 0)))
    ∧ tileOf (padTile .i8 2 2 0) = some (theTile .i8 2 2 0) ∧ tileOf (padTile .i8 2 3 64) = some (theTile .i8 2 3 64)
    ∧ (tileCmd 0).next < (tileCmd 0).kind.total ∧ (tileCmd 0).next % (1 + ceilDiv 2 16) = 0
    ∧ (blockOf (queued false (tileCmd 0))).badTile (theTile .i8 2 3 64) 0 2 0 3 = false :=
  ⟨atHead_of _ _ _ (by decide +kernel), by decide +kernel⟩
/-- The same after its plane step. -/
def filled : State := (queued false (tileCmd 1)).modCore 0 (fun k => { k with stationary := aPlane })
theorem witness_PumpedMultiply_stream : AtHead filled 0 false (tileCmd 1) [] (blockOf filled)
    ∧ (tileCmd 1).next < (tileCmd 1).kind.total ∧ (tileCmd 1).next % (1 + ceilDiv 2 16) ≠ 0
    ∧ ((filled.core 0).streamRows (blockOf filled) .i8 .rne .n48 (theTile .i8 2 2 0) 0 2 0 0 0 2).1 = 0
    ∧ (filled.core 0).mayStream filled.now 2
    ∧ ¬ ((filled.modCore 0 (fun k => { k with active := 256, budget := 256 })).core 0).mayStream filled.now 2 :=
  ⟨atHead_of _ _ _ (by decide +kernel), by unfold Core.mayStream; decide +kernel⟩
/-- One row of partial sums, one column group, one group of scales. -/
def scaleArg : Word64 := BitVec.ofNat 64 (500 + 0 * 2 ^ 16 + 2 ^ 32 + 2 ^ 48 + 2 ^ 52)
def scaleCmd : Cmd := aCmd (.sctile .rne scaleArg (padTile .e5m3 1 2 0) (padTile .e5m3 128 2 64)) 0
theorem witness_PumpedScale : AtHead (queued false scaleCmd) 0 false scaleCmd [] (blockOf (queued false scaleCmd))
    ∧ tileOf (padTile .e5m3 1 2 0) = some (theTile .e5m3 1 2 0) ∧ tileOf (padTile .e5m3 128 2 64) = some (theTile .e5m3 128 2 64)
    ∧ scaleCmd.next < scaleCmd.kind.total
    ∧ (blockOf (queued false scaleCmd)).badTile (theTile .e5m3 1 2 0) 0 1 0 2 = false
    ∧ (blockOf (queued false scaleCmd)).badTile (theTile .e5m3 128 2 64) 0 128 0 2 = false
    ∧ ∀ n, n < 128 → ((queued false scaleCmd).core 0).badCell 0 n = false
        ∧ ∀ i, i < 4 → ((queued false scaleCmd).core 0).badCell (500 + i) n = false :=
  ⟨atHead_of _ _ _ (by decide +kernel), by decide +kernel⟩
/-- A CPMCAST of one row without objects, read already, which core 1 has still to receive. -/
def castCmd : Cmd := { aCmd (.cpmcast 2 (BitVec.ofNat 64 (0xFFFFFFFF * 2 ^ 32)) (padTile .i8 1 4 0) 3 0) 1 with dests := [(1, 0)], late := [(1, 0, [1, 2, 3, 4])] }
theorem witness_LateRows : AtHead (queued true castCmd) 0 true castCmd [] (blockOf (queued true castCmd))
    ∧ (BitVec.ofNat 64 (0xFFFFFFFF * 2 ^ 32)).toNat / 2 ^ 32 = 0xFFFFFFFF ∧ castCmd.next = castCmd.kind.total ∧ castCmd.late ≠ [] :=
  ⟨atHead_of _ _ _ (by decide +kernel), by decide +kernel⟩
theorem witness_SteppedCompletion : AtHead (queued false (tileCmd 2)) 0 false (tileCmd 2) [] (blockOf (queued false (tileCmd 2)))
    ∧ (tileCmd 2).kind.pump ≠ 0 ∧ (tileCmd 2).next = (tileCmd 2).kind.total ∧ (tileCmd 2).late = [] := ⟨atHead_of _ _ _ (by decide +kernel), by decide +kernel⟩
def copyTileCmd : Cmd := aCmd (.cptile (padTile .i8 2 4 64) (padTile .i8 2 4 0)) 1
def copyCmd : Cmd := aCmd (.cpcopy 0x7FFFFF0000000040 0x7FFFFF0000000000 16) 0
theorem witness_CopySteps : AtHead (queued false copyTileCmd) 0 false copyTileCmd [] (blockOf (queued false copyTileCmd))
    ∧ tileOf (padTile .i8 2 4 64) = some (theTile .i8 2 4 64) ∧ tileOf (padTile .i8 2 4 0) = some (theTile .i8 2 4 0)
    ∧ copyTileCmd.next < copyTileCmd.kind.total
    ∧ (theTile .i8 2 4 0).row (1 / rowSteps (theTile .i8 2 4 0)) + 1 % rowSteps (theTile .i8 2 4 0) * 2048 = 0x7FFFFF0000000000 + 4
    ∧ (theTile .i8 2 4 64).row (1 / rowSteps (theTile .i8 2 4 0)) + 1 % rowSteps (theTile .i8 2 4 0) * 2048 = 0x7FFFFF0000000000 + 68
    ∧ 4 = min 2048 ((theTile .i8 2 4 0).rb - 0) ∧ Sparse.get false (blockOf (queued false copyTileCmd)).poison 0 = false :=
  ⟨atHead_of _ _ _ (by decide +kernel), by decide +kernel⟩
theorem witness_CopySteps_queue : AtHead (queued true copyCmd) 0 true copyCmd [] (blockOf (queued true copyCmd))
    ∧ copyCmd.kind = .cpcopy 0x7FFFFF0000000040 0x7FFFFF0000000000 16 ∧ copyCmd.next < copyCmd.kind.total
    ∧ (0x7FFFFF0000000000 : Word64).toNat + copyCmd.next * 2048 = 0x7FFFFF0000000000 + 0
    ∧ (0x7FFFFF0000000040 : Word64).toNat + copyCmd.next * 2048 = 0x7FFFFF0000000000 + 64
    ∧ 16 = min 2048 (16 - copyCmd.next * 2048) ∧ Sparse.get false (blockOf (queued true copyCmd)).poison 0 = false :=
  ⟨atHead_of _ _ _ (by decide +kernel), by decide +kernel⟩
theorem witness_GovernorWindow : (({ user with now := 256 } : State).core 0).window < ({ user with now := 256 } : State).now / 256 := by
  decide +kernel
theorem witness_BarrierObjectTests : AtRest scratched (ctx scratched) ∧ (ctx scratched).x.priv ≠ 1
    ∧ (ctx scratched).x.guardScalar always.guard = true ∧ ((ctx scratched).val (.s 1)).toNat = 0x7FFFFF0000000000 + 0
    ∧ 0 + 16 ≤ (ctx scratched).b.scratchSize ∧ (ctx scratched).b.isPoisoned 0 = false
    ∧ (ctx scratched).x.cnt.st ≠ 63 := ⟨atRest_of _ (by decide +kernel), by decide +kernel⟩
theorem witness_BarrierArrivalSkipped : AtRest user (ctx user) ∧ (ctx user).x.guardScalar never.guard = false ∧ (ctx user).x.cnt.st ≠ 63
    ∧ user.scopeDenied (ctx user).b.vf .tenant = false := ⟨rest_user, by decide +kernel⟩
theorem witness_BarrierObjectUpdates : AtRest scratched (ctx scratched) ∧ (ctx scratched).x.guardScalar always.guard = true
    ∧ (ctx scratched).x.cnt.st ≠ 63 ∧ ((ctx scratched).val (.s 1)).toNat = 0x7FFFFF0000000000 + 0
    ∧ 0 + 16 ≤ (ctx scratched).b.scratchSize ∧ (ctx scratched).b.isPoisoned 0 = false
    ∧ ((ctx scratched).val (.sp .vcount)).toNat % 65536 ≠ 0 ∧ scratched.scopeDenied (ctx scratched).b.vf .pod = false :=
  ⟨atRest_of _ (by decide +kernel), by decide +kernel⟩
theorem witness_BarrierObjectArrival :
    let g : BitVec 128 := BitVec.ofNat 128 (2 + 2 ^ 32 + 2 ^ 48)
    g.getLsbD 1 = true ∧ 1 ≤ (g.extractLsb' 32 16).toNat ∧ -(2 ^ 39) ≤ (g.extractLsb' 64 40).toInt + (2 ^ 39 - 1)
    ∧ (g.extractLsb' 64 40).toInt + (2 ^ 39 - 1) < 2 ^ 39 := by decide +kernel
theorem witness_GranuleOperations (kind : OpKind) (h : kind ∈ [.feset, .feclr, .atomic .add .w64 none, .abInit 1, .abUpdate true 0]) :
    Alone (busy (oneOp kind (padLane (leBytes 8 5)))) 0 (ctxAt (busy (oneOp kind (padLane (leBytes 8 5)))) 0)
      (oneOp kind (padLane (leBytes 8 5)))
    ∧ (padLane (leBytes 8 5)).got = none ∧ (padLane (leBytes 8 5)).cmp = []
    ∧ (padLane (leBytes 8 5)).pa = none ∧ (padLane (leBytes 8 5)).fwd = []
    ∧ (padLane (leBytes 8 5)).addr.toNat = 0x7FFFFF0000000000 + 0 := by
  simp only [List.mem_cons, List.not_mem_nil, or_false] at h
  rcases h with rfl | rfl | rfl | rfl | rfl <;> exact ⟨alone_of _ _ _ (by decide +kernel), rfl, rfl, rfl, rfl, by decide⟩

/-! ### The fabric -/

/-- Chip 0 of function 0 is the only member of its pod. -/
def podded (s : State) : State := s.modChip 0 (fun c => { c with chipTab := [(0, 1)] })
/-- A pod state with 0x180000 in every scalar register, and one with the pod address of chip 0's byte 0x180000. -/
def linked : State := podded addressed
def podS : State := podded (userSlice (fun x => { x with s := Vector.replicate 64 (2 ^ 63 + 0x180000) }))
theorem witness_FabricIssue :
    let q : Ask := { want := .read, size := 64 }
    let r := okD ((ctx linked).check q [(0, ((ctx linked).val (.s 2)).toNat)]) []
    AtRest linked (ctx linked)
    ∧ (ctx linked).fabricRule (.fsend always 3 (.s 1) (.s 2)) = some (always, .s 1, .s 2, some q,
        .fsend (((ctx linked).val (.s 1)).setWidth 12) ((ctx linked).val (.s 2)) 3, true)
    ∧ (ctx linked).x.guardScalar always.guard = true ∧ (ctx linked).x.cnt.fb ≠ 63 ∧ linked.scopeDenied (ctx linked).b.vf .pod = false
    ∧ entryValid (linked.chipEntry (ctx linked).b.vf (((ctx linked).val (.s 1)).toNat % 4096)) = true
    ∧ badForm q ((ctx linked).val (.s 2)).toNat = false ∧ (ctx linked).check q [(0, ((ctx linked).val (.s 2)).toNat)] = .ok r
    ∧ linked.timeSliced (ctx linked).b.vf = false := ⟨atRest_of _ (by decide +kernel), rfl, by decide +kernel⟩
/-- What the pod rule of a state's slice gives for a word that has one. -/
def podOf (s : State) (i : Instr) : Ctl × List VUse × MemWord :=
  ((ctx s).podRule i).getD (always, [], ⟨atS1 .block, false, { want := .read, size := 1 }, .feset, fun _ _ => ([], [])⟩)
theorem witness_PodIssue :
    let m := podOf podS (.podld always (atS1 .pod) .w64 254)
    AtRest podS (ctx podS) ∧ (ctx podS).podRule (.podld always (atS1 .pod) .w64 254) = some (m.1, m.2.1, m.2.2)
    ∧ (ctx podS).fits m.2.1 ∧ (ctx podS).x.cnt.fb ≠ 63 ∧ podS.scopeDenied (ctx podS).b.vf m.2.2.mem.scope = false
    ∧ (ctx podS).memAccesses m.1 m.2.2 ≠ [] ∧ (ctx podS).podForm m.2.2.ask ((ctx podS).memAccesses m.1 m.2.2) = .ok () :=
  ⟨atRest_of _ (by decide +kernel), rfl, by unfold Ctx.fits; decide +kernel, by decide +kernel⟩
/-- A pod store of lane 3 to chip 0's byte 0x180000. -/
def podLane3 : LaneAcc := ⟨3, 2 ^ 63 + 0x180000, none, leBytes 8 0x1122334455667788, [], [], false, none, false⟩
def podOp (checked : Bool) : MemOp := { oneOp (.podStore .w64) podLane3 with checked := checked }
/-- Its slice held at the word until the check returns. -/
def checking : State := podded ((busy (podOp false)).modSlice 0 (fun x => { x with hold := .pod 0 0 }))
theorem witness_PodChecked : checking.ctx 0 = some (ctxAt checking 0) ∧ (ctxAt checking 0).x.splice = none ∧ (ctxAt checking 0).x.pend = []
    ∧ (ctxAt checking 0).x.poisonDue = [] ∧ (ctxAt checking 0).x.op? 0 = some (podOp false) ∧ (podOp false).seq = 0
    ∧ (podOp false).kind = .podStore .w64 ∧ checking.podPaused (ctxAt checking 0).b.vf = false ∧ (podOp false).checked = false
    ∧ (ctxAt checking 0).x.hold = .pod 0 0
    ∧ (match (ctxAt checking 0).podCheck (podOp false) none with
        | some (.ok ls) => ls.length == 1
        | _ => false) = true
    ∧ checking.timeSliced (ctxAt checking 0).b.vf = false := by decide +kernel
/-- The store once checked. -/
def podStoring : State := podded (busy (podOp true))
theorem witness_PodStorePerformed :
    let x := okD (podStoring.translate 0 (podStoring.chipTlb 0) (laneSite 3 + 128) (podLane3.addr.toNat % 2 ^ 44) .write) noXlat
    Alone podStoring 0 (ctxAt podStoring 0) (podOp true) ∧ (podOp true).lanes = [podLane3] ∧ (podOp true).kind = .podStore .w64
    ∧ podStoring.podPaused (ctxAt podStoring 0).b.vf = false ∧ podLane3.data ≠ [] ∧ podLane3.got = none
    ∧ podStoring.target (ctxAt podStoring 0).b.vf (podLane3.addr.toNat / 2 ^ 44 % 2 ^ 12) = .here 0
    ∧ (ctxAt podStoring 0).podBlocked (podOp true) = none
    ∧ podStoring.translate 0 (podStoring.chipTlb 0) (laneSite 3 + 128) (podLane3.addr.toNat % 2 ^ 44) .write = .ok x :=
  ⟨alone_of _ _ _ (by decide +kernel), by decide +kernel⟩
/-- A send whose packet has returned status 2. -/
def sentOp : MemOp := { oneOp (.fsend 0 0 63) (padLane []) with status := some 2 }
theorem witness_FabricStatus : (busy sentOp).ctx 0 = some (ctxAt (busy sentOp) 0) ∧ (ctxAt (busy sentOp) 0).x.op? 0 = some sentOp
    ∧ sentOp.status = some 2 ∧ sentOp.kind.result < 64 := by decide +kernel
/-- An FRECV into the scratchpad from link 5. -/
def recvOp : MemOp := oneOp (.frecv 5 0x7FFFFF0000000000 3) (padLane [])
/-- The cistern of link 5 of the chip at 0x1A0000: valid, 4 entries at 0x1B0000, with indices; every byte of memory as it stands. -/
def cistern (s : State) (ridx widx : Nat) : State :=
  ((((s.modChip 0 (fun c => { c with ctbase := 0x1A0000 })).placeWord64 (0x1A0000 + 64 * 5) (1 + 2 ^ 9)).placeWord64
    (0x1A0000 + 64 * 5 + 16) (ridx + widx * 2 ^ 32)).placeWord64 (0x1A0000 + 64 * 5 + 24) 0x1B0000)
/-- The header of the cistern of a link. -/
def headAt (s : State) (link : Nat) : BitVec 512 :=
  BitVec.ofNat 512 (leNat (s.readBytes (s.keyTag 0) (okD (s.fabricXlat 0 62000 (s.cisternAt 0 link) .read) noXlat).pa 64))
/-- Whether the header of link 5's cistern may be written. -/
def headWritten (s : State) : Bool := (s.fabricXlat 0 62000 (s.cisternAt 0 5) .write).isOk
/-- Whether FRECV meets its conditions, and what the header says. -/
def recvReady (s : State) : Bool :=
  let x := okD (s.fabricXlat 0 62000 (s.cisternAt 0 5) .read) noXlat
  lonely s 0 recvOp && decide (s.fabricXlat 0 62000 (s.cisternAt 0 5) .read = .ok x) && !s.linePoisoned x.pa 64
theorem witness_FabricReceive (s : State)
    (h : s ∈ [busy recvOp, cistern (busy recvOp) 7 7, cistern (busy recvOp) 0xFFFFFFFF 0]) : recvReady s = true := by
  simp only [List.mem_cons, List.not_mem_nil, or_false] at h
  rcases h with rfl | rfl | rfl <;> decide +kernel
theorem witness_FabricReceive_header : (headAt (busy recvOp) 5).getLsbD 0 = false
    ∧ (headAt (cistern (busy recvOp) 7 7) 5).getLsbD 0 = true ∧ badCistern (headAt (cistern (busy recvOp) 7 7) 5) = false
    ∧ (let h := headAt (cistern (busy recvOp) 0xFFFFFFFF 0) 5
       let s := cistern (busy recvOp) 0xFFFFFFFF 0
       let y := okD (s.fabricXlat 0 62300 (cisternEntry h 0xFFFFFFFF) .read) noXlat
       h.getLsbD 0 = true ∧ badCistern h = false ∧ (h.extractLsb' 128 32).toNat = 0xFFFFFFFF ∧ h.extractLsb' 160 32 = 0
       ∧ headWritten s = true
       ∧ s.fabricXlat 0 62300 (cisternEntry h 0xFFFFFFFF) .read = .ok y ∧ s.linePoisoned y.pa 64 = false) := by decide +kernel
/-- A message for function 0 from another module's chip 5. -/
def msg5 : FabMsg := { src := 5, dst := 0, podid := 0, payload := [1, 2, 3], count := 1, key := none, sender := none }
/-- Whether ingress meets its conditions. -/
def ingressReady (s : State) : Bool :=
  let x := okD (s.fabricXlat 0 62000 (s.cisternAt 0 5) .read) noXlat
  (s.frec 0).getLsbD 0 && decide (s.podOf 0 = msg5.podid.toNat) && decide (Table.getD (s.chip 0).acceptCount 5 0 < msg5.count.toNat)
    && decide (msg5.key = s.linkKey 0 5) && decide (s.vchipOf 0 = msg5.dst.toNat)
    && decide (s.fabricXlat 0 62000 (s.cisternAt 0 5) .read = .ok x) && !s.inUndo 0 x.pa 64 && !s.linePoisoned x.pa 64
    && (headAt s 5).getLsbD 0 && !badCistern (headAt s 5)
theorem witness_FabricIngress : ingressReady (cistern user 0 4) = true
    ∧ (cistern user 0 4).podOf 0 ≠ ({ msg5 with podid := 1 } : FabMsg).podid.toNat
    ∧ (let h := headAt (cistern user 0 4) 5
       (h.extractLsb' 160 32 - h.extractLsb' 128 32).toNat = 2 ^ (h.extractLsb' 8 5).toNat) := by decide +kernel
theorem witness_FabricIngress_room :
    let s := cistern user 0xFFFFFFFE 0xFFFFFFFF
    let h := headAt s 5
    let y := okD (s.fabricXlat 0 62300 (cisternEntry h (h.extractLsb' 160 32).toNat) .write) noXlat
    ingressReady s = true ∧ (h.extractLsb' 160 32 - h.extractLsb' 128 32).toNat ≠ 2 ^ (h.extractLsb' 8 5).toNat
    ∧ h.getLsbD 1 = false ∧ headWritten s = true ∧ s.fabricXlat 0 62300 (cisternEntry h (h.extractLsb' 160 32).toNat) .write = .ok y
    ∧ s.inUndo 0 y.pa 64 = false := by decide +kernel
/-- A bind record of function 0's queue 3 on cluster 0, with further bits. -/
def aBind (more : Nat) : BitVec 128 := BitVec.ofNat 128 (1 + 3 * 2 ^ 12 + 2 ^ 100 + more)
/-- A state in which queue 3 of function 0 is bound on die 0 in TDISP RUN, with a ring of 16 slots at 0x1C0000. -/
def ringed (s : State) (more : Nat) (st : QState) (ridx widx : BitVec 32) : State :=
  ((s.modDie 0 (fun d => { d with slots := [(0, aBind more)] })).modChip 0 (fun c => { c with tdisp := .run })).modQueue 0 3 (fun u =>
    { u with base := 0x1C0000, size := 4, state := st, ridx := ridx, widx := widx })
/-- A launch request of chip 5 for entry 63 of function 0's launch table. -/
def req5 : LaunchReq := { src := 5, dst := 0, podid := 0, index := 63, args := 0x1234, count := 1, key := none, sender := none }
theorem witness_LaunchIngress :
    let s := (ringed user (2 ^ 30) .idle 0 15).modChip 0 (fun c => { c with launchTab := [(63, BitVec.ofNat 128 (1 + 3 * 2 + 5 * 2 ^ 32))] })
    let e := Table.getD (s.chip 0).launchTab 63 0
    let u := s.queue 0 3
    let x := okD (s.translate 0 (s.die 0).tlb 94000 (u.slotAddr u.widx) .write) noXlat
    (s.frec 0).getLsbD 0 = true ∧ s.podOf 0 = req5.podid.toNat ∧ req5.key = s.linkKey 0 req5.src.toNat
    ∧ s.vchipOf 0 = req5.dst.toNat ∧ Table.getD (s.chip 0).acceptCount req5.src.toNat 0 < req5.count.toNat
    ∧ (e.extractLsb' 1 6).toNat = 3 ∧ e.getLsbD 0 = true ∧ e.extractLsb' 32 12 = req5.src ∧ s.bound 0 3 = some (0, aBind (2 ^ 30))
    ∧ bindDevq (aBind (2 ^ 30)) = true ∧ u.state ≠ .error ∧ u.held ≠ 2 ^ u.size.toNat ∧ u.slotAddr u.widx < 0x7FFFFF0000000000
    ∧ s.translate 0 (s.die 0).tlb 94000 (u.slotAddr u.widx) .write = .ok x ∧ s.inUndo 0 x.pa 64 = false := by decide +kernel

/-! ### Collectives -/

/-- A group descriptor of one member, chip 0, at 0x180000, with its list at 0x190000. -/
def groupReady : State := (linked.placeWord64 0x180000 1).placeWord64 0x180008 0x190000
theorem witness_GroupInstalled :
    let c := ctx groupReady
    let p := okD (c.readNow .core (c.val (.s 2)).toNat 32) ([], c)
    let g : BitVec 256 := BitVec.ofNat 256 (leNat p.1)
    let q := okD (p.2.readMembers (g.extractLsb' 64 64).toNat 1) ([], c)
    AtRest groupReady c ∧ c.x.guardScalar always.guard = true ∧ (c.readNow .core (c.val (.s 2)).toNat 32).isOk = true
    ∧ (p.2.readMembers (g.extractLsb' 64 64).toNat 1).isOk = true
    ∧ g.extractLsb' 48 16 = 0 ∧ g.extractLsb' 13 19 = 0 ∧ (g.extractLsb' 0 13).toNat = 1
    ∧ (∀ m ∈ q.1, m < 4096 ∧ entryValid (groupReady.chipEntry c.b.vf m) = true) ∧ q.1.Nodup
    ∧ q.1[0]? = some (groupReady.vchipOf c.b.vf)
    ∧ (groupReady.chip c.b.vf).collOpen ((c.val (.s 1)).toNat % 64) = false :=
  ⟨atRest_of _ (by decide +kernel), by decide +kernel⟩
/-- The group of chip 0 alone. -/
def loneGroup : Group := ⟨0, 0, [0], 0, []⟩
/-- A block with two tiles of one FP32 row of two elements, its slice holding the object's address in S5, and the group at slot 0. -/
def collS : State :=
  (((podded (userSlice (fun x => { x with s := (Vector.replicate 64 0#64).set 5 0x7FFFFF0000000100 }))).modChip 0 (fun c =>
    { c with groups := [(0, loneGroup)] })).modBlock 0 (fun b =>
      { b with tdesc := (b.tdesc.set 2 (padTile .f32 1 2 64)).set 1 (padTile .f32 1 2 0) }))
theorem witness_CollectiveIssue :
    let c := ctx collS
    AtRest collS c ∧ collRule (.allreduce always 2 1 (.s 4) (.s 5)) = some (0, always, 2, 1, .s 4, .s 5)
    ∧ c.x.guardScalar always.guard = true ∧ c.x.cnt.en ≠ 63 ∧ collS.scopeDenied c.b.vf .pod = false
    ∧ c.collCheck 0 (c.b.tdesc[2]) (c.b.tdesc[1]) (c.val (.s 4)) (.s 5) = .ok () ∧ c.s.past = [] ∧ c.b.meet = []
    ∧ (∀ e ∈ collS.slices, keyBlock e.1 = keyBlock collS.cur → e.1 = collS.cur ∨ e.2.ended = true)
    ∧ collS.timeSliced c.b.vf = false := ⟨atRest_of _ (by decide +kernel), by decide +kernel⟩
/-- The command of that word in the engine, and its grid's deadline of one microsecond passed. -/
def aColl : CollCmd := ⟨0, 0, 0, padTile .f32 1 2 64, padTile .f32 1 2 0, 0, 0x7FFFFF0000000100, 0, 0, [0], some 0⟩
def collBusy : State :=
  ({ (collS.modChip 0 (fun c => { c with colls := [aColl], collCount := [(0, 1)] })).modSlice 0 (fun x =>
      { x with cnt := { x.cnt with en := 1 } }) with now := 2500 }).modGrid 0 (fun g =>
        { g with lrec := g.lrec ||| BitVec.ofNat 1024 (2 ^ 672) })
/-- What the member brings. -/
def collPart0 : CollPart := collBusy.collPart 0 aColl
theorem witness_CollectiveEnds (fb : Bool) :
    Table.find (collBusy.chip 0).groups 0 = some loneGroup ∧ (collBusy.chip 0).colls.find? (fun e => e.slot == 0) = some aColl
    ∧ loneGroup.members = [0] ∧ collBusy.podPaused 0 = false
    ∧ collBusy.collMember 0 loneGroup aColl.index 0 0 [] fb = .here 0 aColl collPart0 ∧ collPart0.lost = false
    ∧ (if fb then collBusy.collLate [.here 0 aColl collPart0] [] = true else collBusy.collMissed [.here 0 aColl collPart0] [] = false) ∧ tileOf aColl.td = some (theTile .f32 1 2 64)
    ∧ 0x7FFFFF0000000000 ≤ (theTile .f32 1 2 64).base ∧ collBusy.collWritable 0 aColl (theTile .f32 1 2 64) = true
    ∧ (Table.find collBusy.blocks aColl.block).isSome = true ∧ collPart0.op < 4 ∧ collWide collPart0.control = false
    ∧ collRoot collPart0.control = 0 ∧ collPart0.rows = 1 ∧ collPart0.cols * ((theTile .f32 1 2 64).fmt.width / 8) = (theTile .f32 1 2 64).rb
    ∧ collPart0.source.length = 1 ∧ (∀ r ∈ collPart0.source, r.length = (theTile .f32 1 2 64).rb)
    ∧ (Table.find collBusy.slices 0).isSome = true ∧ aColl.obj.toNat = 0x7FFFFF0000000000 + aColl.obj.toNat % 2 ^ 32 := by
  cases fb <;> decide +kernel

/-! ### Queues and packets -/

/-- A slice that enqueues the 64 bytes at 0x180000 on queue q. -/
def enqS (q : Nat) (more : Nat) (st : QState) (ridx widx : BitVec 32) : State :=
  ringed (userSlice (fun x => { x with s := (Vector.replicate 64 0x180000#64).set 1 (BitVec.ofNat 64 q) })) more st ridx widx
/-- The slice once its earlier stores are performed at TENANT scope. -/
def wide (s : State) : Ctx := (ctx s).at (s.widen s.cur (ctx s).x.seq .tenant)
/-- What QENQ loads, and the context after it. -/
def enqLoad (s : State) : List Byte × Ctx := okD ((wide s).readNow .tenant ((ctx s).val (.s 2)).toNat 64) ([], ctx s)
/-- Whether QENQ meets its conditions. -/
def enqReady (s : State) : Bool :=
  let c := ctx s
  restful s && decide (c.x.priv = 0) && c.x.guardScalar always.guard && !s.scopeDenied c.b.vf .tenant && !s.timeSliced c.b.vf
    && ((wide s).check { want := .read, size := 64 } [(0, (c.val (.s 2)).toNat)]).isOk
    && ((wide s).readNow .tenant (c.val (.s 2)).toNat 64).isOk
theorem witness_DeviceEnqueue : enqReady (enqS 64 (2 ^ 30) .idle 0 0) = true ∧ enqReady (enqS 2 (2 ^ 30) .idle 0 0) = true
    ∧ (enqS 2 (2 ^ 30) .idle 0 0).bound 0 2 = none
    ∧ enqReady (enqS 3 0 .idle 0 0) = true ∧ (enqS 3 0 .idle 0 0).bound 0 3 = some (0, aBind 0) ∧ bindDevq (aBind 0) = false := by
  decide +kernel
theorem witness_DeviceEnqueue_bound (s : State)
    (h : s ∈ [enqS 3 (2 ^ 30) .error 0 0, enqS 3 (2 ^ 30) .running 0xFFFFFFFF 15, enqS 3 (2 ^ 30) .idle 0xFFFFFFFF 14]) :
    enqReady s = true ∧ s.bound 0 3 = some (0, aBind (2 ^ 30)) ∧ bindDevq (aBind (2 ^ 30)) = true := by
  simp only [List.mem_cons, List.not_mem_nil, or_false] at h
  rcases h with rfl | rfl | rfl <;> decide +kernel
theorem witness_DeviceEnqueue_entered :
    let s := enqS 3 (2 ^ 30) .idle 0xFFFFFFFF 14
    let u := s.queue 0 3
    let y := wide s
    let t := (enqLoad s).2.s
    let x0 := okD (y.s.translate 0 (y.s.die 0).tlb 94000 (u.slotAddr u.widx) .write) noXlat
    let x := okD (t.translate 0 (t.die 0).tlb 94000 (u.slotAddr u.widx) .write) noXlat
    u.state ≠ .error ∧ u.held ≠ 2 ^ u.size.toNat ∧ u.slotAddr u.widx < 0x7FFFFF0000000000
    ∧ y.s.translate 0 (y.s.die 0).tlb 94000 (u.slotAddr u.widx) .write = .ok x0
    ∧ t.translate 0 (t.die 0).tlb 94000 (u.slotAddr u.widx) .write = .ok x
    ∧ (enqS 3 (2 ^ 30) .error 0 0).queue 0 3 = { u with state := .error, ridx := 0, widx := 0 }
    ∧ ((enqS 3 (2 ^ 30) .running 0xFFFFFFFF 15).queue 0 3).held = 2 ^ 4 := by decide +kernel
/-- `user` with its event log of 16 entries at 0x1D0000, on or off. -/
def logged (en : Bool) (ridx widx : BitVec 32) : State :=
  user.modChip 0 (fun c => { c with log := { c.log with base := 0x1D0000, size := 4, en := en, ridx := ridx, widx := widx } })
/-- Whether EVPOST meets its conditions. -/
def postReady (s : State) : Bool :=
  let c := ctx s
  restful s && decide (c.x.priv ≤ 1) && c.x.guardScalar always.guard && !s.scopeDenied c.b.vf .die && decide (c.b.vf < 64)
    && !s.timeSliced c.b.vf
theorem witness_EventPosted (s : State) (h : s ∈ [logged false 0 0, logged true 0xFFFFFFFF 15, logged true 0 15]) :
    postReady s = true := by
  simp only [List.mem_cons, List.not_mem_nil, or_false] at h
  rcases h with rfl | rfl | rfl <;> decide +kernel
theorem witness_EventPosted_room :
    let s := logged true 0 15
    let l := (s.chip 0).log
    let x := okD (s.translate 0 (s.die 0).tlb 20000 (l.base.toNat + 32 * (l.widx.toNat % 2 ^ l.size.toNat)) .write) noXlat
    (l.widx - l.ridx).toNat ≠ 2 ^ l.size.toNat
    ∧ s.translate 0 (s.die 0).tlb 20000 (l.base.toNat + 32 * (l.widx.toNat % 2 ^ l.size.toNat)) .write = .ok x
    ∧ (((logged true 0xFFFFFFFF 15).chip 0).log.widx - ((logged true 0xFFFFFFFF 15).chip 0).log.ridx).toNat = 16 := by decide +kernel

theorem witness_Doorbell : (hosted (ringed user 0 .idle 0 0)).exposed (.vf 0) = true ∧ (ringed user 0 .idle 0 0).exposed (.vf 0) = false
    ∧ (ringed user (2 ^ 30) .idle 0 0).bindRecord 0 3 = some (0, 0, aBind (2 ^ 30)) ∧ bindDevq (aBind (2 ^ 30)) = true
    ∧ (∀ e, (hosted (ringed user 0 .idle 0 0)).bindRecord 0 3 = some e → bindDevq e.2.2 = false)
    ∧ ((ringed user 0 .idle 0 0).queue 0 3).state = .idle ∧ (ringed user 0 .idle 0 0).quiesced 0 = false
    ∧ 2 ^ ((ringed user 0 .idle 0 0).queue 0 3).size.toNat < ((17 : BitVec 32) - 0).toNat
    ∧ ¬ 2 ^ ((ringed user 0 .idle 0 0).queue 0 3).size.toNat < ((16 : BitVec 32) - 0).toNat := by
  have h : (hosted (ringed user 0 .idle 0 0)).bindRecord 0 3 = some (0, 0, aBind 0) := by decide +kernel
  refine ⟨by decide +kernel, by decide +kernel, by decide +kernel, by decide +kernel, ?_, by decide +kernel⟩
  intro e he
  rw [h] at he
  cases he
  decide +kernel
/-- A grid of queue 3 in a state. -/
def aGrid (st : PState) : Grid := { placeGrid 0 with home := .vf 0 3, state := st }
/-- Queue 3 with the packets of two grids. -/
def serving (st : QState) (p q : PState) : State :=
  (({ ringed user 0 st 2 5 with grids := [(0, placeGrid 0), (1, aGrid p), (2, aGrid q)] } : State).modQueue 0 3 (fun u => { u with pkts := [1, 2] }))
theorem witness_QueueReset : ((serving .error .waiting .dispatching).queue 0 3).state = .error
    ∧ (hosted (serving .error .waiting .dispatching)).exposed (.vf 0) = true
    ∧ (serving .error .waiting .dispatching).exposed (.vf 0) = false
    ∧ (∀ d, d < 4 → ((serving .error .waiting .dispatching).die d).slotsNext = [])
    ∧ (aGrid .waiting).waits = true ∧ (aGrid .dispatching).waits = false
    ∧ Table.find (serving .error .waiting .dispatching).grids 1 = some (aGrid .waiting) := by decide +kernel
theorem witness_Preemption : ((serving .running .waiting .waiting).queue 0 3).state = .running
    ∧ (serving .running .waiting .waiting).inProgress (.vf 0 3) = false
    ∧ ((serving .idle .draining .waiting).queue 0 3).state = .idle ∧ (serving .idle .draining .waiting).inProgress (.vf 0 3) = true
    ∧ ((serving .error .draining .waiting).queue 0 3).state = .error
    ∧ (aGrid .draining).deadline = none ∧ ∀ d, d < 4 → ((serving .running .waiting .waiting).die d).slotsNext = [] := by decide +kernel
theorem witness_Destruction : Table.find (serving .running .waiting .dispatching).grids 1 = some (aGrid .waiting)
    ∧ (aGrid .waiting).producer = none ∧ Table.find (serving .running .waiting .dispatching).grids 2 = some (aGrid .dispatching)
    ∧ ((serving .running .waiting .dispatching).queue 0 3).pkts = [1, 2] := by decide +kernel
/-- Queue 3 running with the packet whose first word is given at index 15, and kernel 0 installed. -/
def packeted (w : Nat) (scopes : Nat) : State :=
  ((((ringed user 0 .running 15 16).placeWord64 (0x1C0000 + 64 * 15) w).modChip 0 (fun c => { c with kernels := [(0, placeRecord)] }))).modDev
    (fun d => { d with frec := Table.put d.frec 0 (BitVec.ofNat 256 (1 + scopes * 2 ^ 64 + 2 ^ 176)) })
/-- Whether the queue core can read it. -/
def packetReady (s : State) : Bool :=
  let u := s.queue 0 3
  let x := okD (s.translate 0 (s.die (s.queueDie (.vf 0 3))).tlb 90000 (u.slotAddr u.ridx) .read) noXlat
  s.coreActs (.vf 0 3) && decide (u.widx ≠ u.ridx) && decide (u.slotAddr u.ridx < 0x7FFFFF0000000000)
    && decide (s.translate 0 (s.die (s.queueDie (.vf 0 3))).tlb 90000 (u.slotAddr u.ridx) .read = .ok x) && !s.linePoisoned x.pa 64
theorem witness_PacketReads (s : State) (h : s ∈ [packeted 3 7, packeted 2 7, packeted (2 + 7 * 2 ^ 32) 1, packeted 4 7]) :
    packetReady s = true := by
  simp only [List.mem_cons, List.not_mem_nil, or_false] at h
  rcases h with rfl | rfl | rfl | rfl <;> decide +kernel
theorem witness_PacketReads_checks : (packeted 2 7).pktOk (.vf 0 3) 2 = true ∧ (packeted 2 7).scopesOk 0 2 0 = true
    ∧ (packeted 2 1).pktOk (.vf 0 3) (BitVec.ofNat 512 (2 + 7 * 2 ^ 32)) = true
    ∧ (packeted 2 1).scopesOk 0 (BitVec.ofNat 512 (2 + 7 * 2 ^ 32)) 0 = false
    ∧ (packeted 4 7).pktOk (.vf 0 3) 4 = false := by decide +kernel
theorem witness_PacketReads_steward :
    let s := user.modDie 3 (fun d => { d with steward := [2] })
    s.dev.shutdown = false ∧ s.bootFailed = false ∧ (s.die 3).steward = 2 :: [] ∧ (2 : BitVec 512) ≠ 3 := by decide +kernel
/-- A grid of queue 3 whose packet waits for a value of 0 or more at 0x180000, or of 1 or more. -/
def waitGrid (v : Nat) : Grid :=
  { aGrid .waiting with waitOk := false, pkt := BitVec.ofNat 512 (2 + 0x180000 * 2 ^ 192 + v * 2 ^ 256) }
def waitS (g : Grid) : State :=
  (({ ringed user 0 .running 2 2 with grids := [(0, placeGrid 0), (1, g)] } : State).modQueue 0 3 (fun u => { u with pkts := [1] }))
theorem witness_WaitLoads : pktWaitAddr (waitGrid 0).pkt = 0x180000 ∧ pktWaitVal (waitGrid 1).pkt = 1
    ∧ (waitGrid 0).waits = true ∧ (waitS (waitGrid 0)).coreActs (waitGrid 0).home = true
    ∧ (waitS (waitGrid 0)).scopesOk (waitGrid 0).ctx (waitGrid 0).pkt (waitGrid 0).lrec = true
    ∧ (let s := waitS (waitGrid 1)
       let x := okD (s.translate 0 (s.die (s.queueDie (.vf 0 3))).tlb 91000 0x180000 .read) noXlat
       s.translate 0 (s.die (s.queueDie (.vf 0 3))).tlb 91000 0x180000 .read = .ok x ∧ s.linePoisoned x.pa 8 = false) := by decide +kernel
theorem witness_WaitLoads_refused :
    let g := { waitGrid 0 with pkt := (waitGrid 0).pkt ||| BitVec.ofNat 512 (7 * 2 ^ 32) }
    let s := (waitS g).modDev (fun d => { d with frec := Table.put d.frec 0 (BitVec.ofNat 256 (1 + 1 * 2 ^ 64 + 2 ^ 176)) })
    Table.find s.grids 1 = some g ∧ g.waits = true ∧ s.coreActs g.home = true ∧ pktWaitAddr g.pkt ≠ 0
    ∧ s.scopesOk g.ctx g.pkt g.lrec = false := by decide +kernel
/-- A grid whose WAITADDR no table maps. -/
def lostGrid : Grid := { aGrid .waiting with waitOk := false, pkt := BitVec.ofNat 512 (2 + 0x7FFF00000000 * 2 ^ 192) }
theorem witness_WaitLoads_unmapped :
    let g := lostGrid
    let s := waitS g
    Table.find s.grids 1 = some g ∧ g.waits = true ∧ s.coreActs g.home = true ∧ pktWaitAddr g.pkt ≠ 0
    ∧ s.scopesOk g.ctx g.pkt g.lrec = true ∧ pktWaitAddr g.pkt < 0x7FFFFF0000000000
    ∧ (match s.translate g.ctx (s.die (s.queueDie g.home)).tlb 91000 (pktWaitAddr g.pkt) .read with
        | .error (.stage1 _) => true
        | _ => false) = true := by decide +kernel
/-- A grid of queue 3 that may start, of a BARRIER or a LAUNCH with a record. -/
def startGrid (type : Nat) (r : BitVec 1024) : Grid := { aGrid .waiting with pkt := BitVec.ofNat 512 type, lrec := r }
theorem witness_PacketStarts : (waitS (startGrid 2 0)).mayStart 1 (startGrid 2 0) = true
    ∧ (waitS (startGrid 2 0)).scopesOk 0 (startGrid 2 0).pkt 0 = true ∧ pktType (startGrid 2 0).pkt = 2
    ∧ (waitS (startGrid 1 placeRecord)).mayStart 1 (startGrid 1 placeRecord) = true ∧ recSplice placeRecord = 0
    ∧ (waitS (startGrid 1 placeRecord)).scopesOk 0 (startGrid 1 placeRecord).pkt placeRecord = true
    ∧ (let g := startGrid 1 placeRecord
       let s := waitS g
       s.placeable { g with podChips := s.podChipsFor g } = true)
    ∧ (let r := placeRecord ||| BitVec.ofNat 1024 (3 * 2 ^ 535 + 2 * 2 ^ 532 + 6 * 2 ^ 528 + 1 * 2 ^ 512 + 0xFFFF0 * 2 ^ 384)
       (waitS (startGrid 1 r)).mayStart 1 (startGrid 1 r) = true
       ∧ (waitS (startGrid 1 r)).placeable { startGrid 1 r with podChips := (waitS (startGrid 1 r)).podChipsFor (startGrid 1 r) } = false) := by
  decide +kernel

/-! ### Blocks, joins, completions, watchdogs -/

/-- Queue 3 running with one grid whose undispatched blocks on each die are given, on a bind record. -/
def spread (more : Nat) (r : BitVec 1024) (us : Table (List (Nat × Nat))) : State :=
  ({ ringed user more .running 2 2 with grids := [(0, placeGrid 0), (1, { aGrid .dispatching with lrec := r, undisp := us })] } : State).modQueue
    0 3 (fun u => { u with pkts := [1] })
/-- The grid. -/
def spreadGrid (r : BitVec 1024) (us : Table (List (Nat × Nat))) : Grid := { aGrid .dispatching with lrec := r, undisp := us }
/-- A place on core 1. -/
def onCore1 : Placement := ⟨1, [63], [0x10000], 0⟩
theorem witness_Dispatch :
    let s := spread 0 placeRecord [(0, [(0, 1), (7, 9)])]
    let g := spreadGrid placeRecord [(0, [(0, 1), (7, 9)])]
    Table.find s.grids 1 = some g ∧ s.mayDispatch g = true ∧ s.isGang g.home = false ∧ s.prioOk g 0 = true
    ∧ Table.getD g.undisp 0 [] = (0, 1) :: [(7, 9)] ∧ g.together = 1 ∧ coreDie onCore1.core = 0
    ∧ s.turnOk g 0 = true ∧ (s.chipClusters g (g.chipOf 0)).contains (coreCluster onCore1.core) = true ∧ s.placeOk g (g.block 1 0 onCore1) onCore1 = true
    ∧ s.setOk g 0 onCore1.core = true ∧ s.chipsRun g [0] = true ∧ s.startKept 1 g = true := by decide +kernel
/-- A bind record on clusters 0 and 5, of dies 0 and 1. -/
def twoDies : Nat := 2 ^ 105
theorem witness_Steal (us : Table (List (Nat × Nat))) (h : us ∈ [[(1, [(0, 1)])], [(0, []), (1, [(0, 4), (9, 10)])]]) :
    let s := spread twoDies placeRecord us
    let g := spreadGrid placeRecord us
    Table.find s.grids 1 = some g ∧ s.mayDispatch g = true ∧ s.isGang g.home = false ∧ (s.diesFor g).contains 0 = true
    ∧ rangeCount (Table.getD g.undisp 0 []) = 0
    ∧ ((s.diesFor g).filter (fun e => decide (0 < e)) ++ (s.diesFor g).filter (fun e => decide (e < 0))).find?
      (fun e => decide (0 < rangeCount (Table.getD g.undisp e []))) = some 1
    ∧ max 1 (chunkUnit g.lrec) = 1 ∧ (Table.getD g.undisp 1 []).Pairwise (fun a b => a.2 ≤ b.1)
    ∧ ∀ p ∈ g.parts, 0 ∈ diesWith (s.chipClusters g p.1) := by
  simp only [List.mem_cons, List.not_mem_nil, or_false] at h
  rcases h with rfl | rfl <;> decide +kernel
theorem witness_Gang (ps : List Placement) (b : Bool) (h : (ps, b) ∈ [([onCore1], true), ([⟨0, [63], [0x10000], 0⟩], false)]) :
    let g := { spreadGrid placeRecord [(0, [(0, 1)])] with ticket := some 5 }
    let s := (spread (2 ^ 31) placeRecord [(0, [(0, 1)])]).modGrid 1 (fun _ => g)
    Table.find s.grids 1 = some g ∧ s.mayDispatch g = true ∧ s.isGang g.home = true ∧ s.gangTurn g = true
    ∧ s.chipsRun g [] = true ∧ (∀ d ∈ s.diesFor g, s.prioOk g d = true)
    ∧ (let ns := g.locals.filter (fun b => g.undisp.any (fun e => holdsBlock e.2 b))
       let paid := (s.diesFor g).foldl (fun t d => t.spend 1 d (rangeCount (Table.getD g.undisp d [])) g) s
       s.gangFits g (s.roomOn g) = true ∧ ps.length = ns.length ∧ (∀ d ∈ s.diesFor g, s.turnOk g d = true) ∧ s.startKept 1 g = true
       ∧ (∀ e ∈ ns.zip ps, holdsBlock (Table.getD (s.sharesOf g) (coreDie e.2.core) []) e.1 = true)
       ∧ unitsTogether g.lrec ps.length g.together ps = true ∧ (paid.placeAll 1 (ns.zip ps)).isSome = b) := by
  simp only [List.mem_cons, List.not_mem_nil, or_false, Prod.mk.injEq] at h
  rcases h with ⟨rfl, rfl⟩ | ⟨rfl, rfl⟩ <;> decide +kernel
/-- The same gang launch while every core of the module is retired. -/
theorem witness_Gang_full :
    let g := { spreadGrid placeRecord [(0, [(0, 1)])] with ticket := some 5 }
    let s := (List.range 8).foldl (fun t n => t.modCore n (fun k => { k with retired := true }))
      ((spread (2 ^ 31) placeRecord [(0, [(0, 1)])]).modGrid 1 (fun _ => g))
    Table.find s.grids 1 = some g ∧ s.mayDispatch g = true ∧ s.isGang g.home = true ∧ s.gangTurn g = true
    ∧ s.chipsRun g [] = true ∧ (∀ d ∈ s.diesFor g, s.prioOk g d = true) ∧ s.gangFits g (s.roomOn g) = false := by decide +kernel
theorem witness_BlockEnds :
    let s := userBlock (fun b => { b with killed := true })
    let t := userSlice (fun x => { x with ended := true })
    Table.find s.blocks 0 = some (blockOf s) ∧ (blockOf s).killed = true
    ∧ (∀ e ∈ s.slices, keyBlock e.1 = 0 → ∀ o ∈ e.2.ops, o.kind.isSt = false)
    ∧ Table.find t.blocks 0 = some (blockOf t) ∧ (blockOf t).killed = false ∧ t.blockDone 0 (blockOf t) = true := by decide +kernel
/-- A spliced pair of the placed grid with itself, and its slice's part. -/
def aSplice : Splice := ⟨0, placeRecord, 0, 0, [], []⟩
def partAt (n : Nat) : SpliceSlice := ⟨n, ⟨0xF, Vector.replicate 4 0, 0⟩, false⟩
def spliced (n : Nat) : State :=
  ((userSlice (fun x => { x with splice := some (partAt n) })).modBlock 0 (fun b => { b with splice := some ⟨0, [], [], [], []⟩ })).modGrid 0
    (fun g => { g with splice := some aSplice })
/-- With a second slice that may still arrive. -/
def splicedPair : State :=
  { spliced 3 with slices := Table.put (spliced 3).slices 1 { Slice.start (BitVec.ofNat 64 placeCode) 0xF 0 with splice := some (partAt 1) } }
theorem witness_Joins (s : State) (h : s ∈ [spliced 3, spliced 5, splicedPair]) :
    s.ctx 0 = some (ctx s) ∧ (ctx s).atJoin = true ∧ s.ready 0 = true ∧ (ctx s).x.ops = [] ∧ (ctx s).x.dropped = []
    ∧ (ctx s).b.splice = some ⟨0, [], [], [], []⟩ ∧ ((Table.find s.grids (ctx s).b.gid).map (fun g => g.splice)) = some (some aSplice)
    ∧ (ctx s).x.splice.isSome = true := by
  simp only [List.mem_cons, List.not_mem_nil, or_false] at h
  rcases h with rfl | rfl | rfl <;> decide +kernel
theorem witness_Joins_cases : (∃ e ∈ splicedPair.slices, keyBlock e.1 = keyBlock 0 ∧ e.1 ≠ 0 ∧ e.2.pastJoins = false ∧ e.1 ∉ ([] : List Nat))
    ∧ ∀ e ∈ (spliced 5).slices, keyBlock e.1 = keyBlock 0 → e.1 = 0 ∨ e.2.pastJoins = true := by decide +kernel
/-- A slice held alone at a join after the last of the others has ended. -/
def heldAlone : State :=
  ((spliced 3).modSlice 0 (fun x => { x with hold := .join })).modBlock 0 (fun b => { b with splice := some ⟨0, [], [], [], [0]⟩ })
theorem witness_Joins_left : heldAlone.ctx 0 = some (ctx heldAlone) ∧ (ctx heldAlone).atJoin = true ∧ heldAlone.ready 0 = true
    ∧ (ctx heldAlone).x.ops = [] ∧ (ctx heldAlone).x.dropped = [] ∧ (ctx heldAlone).b.splice = some ⟨0, [], [], [], [0]⟩
    ∧ ((Table.find heldAlone.grids (ctx heldAlone).b.gid).map (fun g => g.splice)) = some (some aSplice)
    ∧ (ctx heldAlone).x.splice = some (partAt 3) ∧ (ctx heldAlone).x.hold = .join := by decide +kernel
/-- A grid of queue 3 that drains, or was killed with a fault, with SIGADDR 0x180000. -/
def drainGrid (st : PState) (f : Option GridFault) : Grid :=
  { aGrid st with pkt := BitVec.ofNat 512 (1 + 0x180000 * 2 ^ 128), status := if st = .killing then 3 else 0, fault := f }
theorem witness_PacketEnds (g : Grid) (h : g ∈ [drainGrid .draining none, drainGrid .killing (some ⟨8, 5, 0x98⟩)]) :
    let s := waitS g
    let x := okD (s.translate g.ctx (s.die (s.queueDie g.home)).tlb 93000 (pktSig g.pkt) .write) noXlat
    Table.find s.grids 1 = some g ∧ s.drained 1 g = true ∧ g.producer = none ∧ g.home = .vf 0 3 ∧ g.splice = none
    ∧ s.timeSliced 0 = false ∧ (s.chip 0).migrating = false ∧ pktType g.pkt ≠ 3 ∧ pktIrq g.pkt = false
    ∧ pktSig g.pkt ≠ 0 ∧ pktSig g.pkt % 32 = 0 ∧ pktSig g.pkt < 0x7FFFFF0000000000 ∧ s.dev.steward.gid ≠ some 1
    ∧ s.translate g.ctx (s.die (s.queueDie g.home)).tlb 93000 (pktSig g.pkt) .write = .ok x
    ∧ (∀ d, d < 4 → (s.die d).slotsNext = []) ∧ s.stillHeld 1 g.home = [] := by
  simp only [List.mem_cons, List.not_mem_nil, or_false] at h
  rcases h with rfl | rfl <;> decide +kernel
/-- A run limit of one microsecond. -/
def limited : Nat := 2 ^ 48
theorem witness_RunLimit :
    let s := { spread limited placeRecord [] with now := 2500 }
    let g := spreadGrid placeRecord []
    let lim := bindRunLimit (((s.bindRecord 0 3).map (fun e => e.2.2)).getD 0)
    Table.find s.grids 1 = some g ∧ g.home = .vf 0 3 ∧ lim ≠ 0 ∧ g.startedAt + lim ≤ s.now ∧ g.state = .dispatching ∧ g.deadline = none := by
  decide +kernel
theorem witness_KernelWatchdog :
    let g := { aGrid .draining with deadline := some 7 }
    let s : State := { user with now := 7, grids := [(0, g)] }
    Table.find s.grids 0 = some g ∧ g.deadline = some 7 ∧ 7 ≤ s.now ∧ g.state = .draining ∧ g.destroyed = false := by decide +kernel
theorem witness_HandlerWatchdog :
    let s := { handler with now := 2500000 }
    s.ctx 0 = some (ctxAt s 0) ∧ (ctxAt s 0).x.ended = false ∧ (ctxAt s 0).b.killed = false ∧ (ctxAt s 0).x.priv = 1
    ∧ s.chipRuns (ctxAt s 0).b.vf = true
    ∧ (ctxAt s 0).x.enteredAt + (s.chip (ctxAt s 0).b.vf).hwdog.toNat * 2500 ≤ s.now
    ∧ Table.find s.grids (ctxAt s 0).b.gid = some (placeGrid 0) ∧ (placeGrid 0).state = .draining := by decide +kernel

/-! ### Time slices and migration -/

/-- Function 0 as a time-sliced chip, in a time slice or not. -/
def sharedCore (run : Bool) (i : Option Image) : State :=
  (user.modDev (fun d => { d with frec := Table.put d.frec 0 (BitVec.ofNat 256 (3 + 7 * 2 ^ 64 + 2 ^ 176)) })).modChip 0 (fun c =>
    { c with running := run, committed := i })
/-- Its image. -/
def imaged : Image := (sharedCore true none).image 0
theorem witness_CutBegins :
    let s := { sharedCore true (some imaged) with now := 500000 }
    s.timeSliced 0 = true ∧ s.mayRun 0 = true ∧ s.checkpointDue 0 = true
    ∧ ∀ e ∈ s.slices, e.2.ops = [] ∧ e.2.dropped = [] := by decide +kernel
theorem witness_CutCommits :
    let s := (sharedCore true (some imaged)).modChip 0 (fun c => { c with cut := true })
    s.timeSliced 0 = true ∧ s.chipRuns 0 = true ∧ (s.chip 0).cut = true ∧ s.cutFormed 0 = true ∧ (s.chip 0).forcing = [] := by
  decide +kernel
theorem witness_RollsBack :
    let r := (sharedCore true (some imaged)).modChip 0 (fun c => { c with undo := [⟨0x3000, List.replicate 128 5, none, false⟩] })
    let s : State := { r with slices := Table.put r.slices 1 (Slice.start 0 0xF 0), blocks := Table.put r.blocks 5 placeBlock }
    s.timeSliced 0 = true ∧ s.chipRuns 0 = true ∧ (s.chip 0).committed.isSome = true ∧ s.dev.shutdown = false
    ∧ (imaged.slices.map Prod.fst).Nodup ∧ (imaged.blocks.map Prod.fst).Nodup ∧ (s.blocks.map Prod.fst).Nodup
    ∧ 1 ∉ imaged.slices.map Prod.fst ∧ (Table.find s.blocks (keyBlock 1)).isSome = true
    ∧ 5 ∉ imaged.blocks.map Prod.fst ∧ Table.find s.blocks 5 = some placeBlock := by decide +kernel
/-- Whether a time slice may start. -/
def maySlice (s : State) : Bool :=
  s.timeSliced 0 && (s.frec 0).getLsbD 0 && !s.chipRuns 0 && !(s.chip 0).migrating && !s.dev.shutdown && !s.quiesced 0 && s.outsideDone 0
    && (s.chip 0).pending.isEmpty && (s.chip 0).shape.isNone
theorem witness_SliceStarts_first : maySlice (sharedCore false none) = true ∧ ((sharedCore false none).slices.map Prod.fst).Nodup ∧ ((sharedCore false none).chip 0).committed = none := by decide +kernel
/-- The chip rolled back, its queue bound to cluster 0. -/
def rolled : State := ((sharedCore false (some imaged)).modDie 0 (fun d => { d with slots := [(0, BitVec.ofNat 128 (1 + 2 ^ 32 + 2 ^ 100))] }))
theorem witness_SliceStarts_later :
    let places : List (Nat × Placement) := [(0, ⟨1, [9], [0], 0x20000⟩)]
    let mine := rolled.blocks.filter (fun e => e.2.vf == 0)
    maySlice rolled = true ∧ (rolled.slices.map Prod.fst).Nodup ∧ (rolled.chip 0).committed = some imaged ∧ places.length = mine.length
    ∧ (∀ e ∈ mine, (places.filter (fun p => p.1 == e.1)).length = 1)
    ∧ (((rolled.modChip 0 (fun c => { c with running := true })).unplace 0).resumeAll 0 imaged places).isSome = true := by decide +kernel
theorem witness_MigrationImage : rolled.atRest 0 = true ∧ rolled.quiesced 0 = false ∧ (rolled.modDie 0 (fun d => { d with quiesced := true })).quiesced 0 = true
    ∧ (rolled.frec 0).getLsbD 0 = true ∧ (rolled.chip 0).migrating = false := by
  decide +kernel
/-- A header with a compatibility key and a magic number. -/
def migHead (key : BitVec 384) (magic : Nat) : BitVec 1024 := BitVec.ofNat 1024 (magic + 2 ^ 32 + 128 * 2 ^ 64 + key.toNat * 2 ^ 128)
/-- An image of function 0 for function 1, which has one cluster set, with a compatibility key and a magic number. -/
def anImage (key : BitVec 384) (magic : Nat) : MigImage where
  header := migHead key magic
  intact := true
  src := 0
  layout := 0
  sets := 1
  chips := 1
  commitAt := 0
  body := imaged
  mem := []
  gen := 0
  pending := []
  recipes := []
  linkKeys := []
  signKeys := []
  acceptCount := []
  sendCount := []
  kernels := []
  kmeas := []
/-- The destination. -/
def accepting (key : BitVec 384) (magic : Nat) : State :=
  user.modDev (fun d => { d with frec := Table.put d.frec 1 (BitVec.ofNat 256 (3 + 2 ^ 176)), images := [anImage key magic] })
theorem compat_mod (k : BitVec 384) (m : Nat) : (accepting k m).compat = user.compat := by
  simp only [State.compat, accepting, State.modDev]
theorem head_key (k : BitVec 384) (m : Nat) (h : m < 2 ^ 32) : (migHead k m).extractLsb' 128 384 = k := by
  have e := k.isLt
  apply BitVec.eq_of_toNat_eq
  rw [BitVec.extractLsb'_toNat, migHead, BitVec.toNat_ofNat, Nat.shiftRight_eq_div_pow]
  generalize k.toNat = n at *
  omega
theorem witness_MigrationAccept :
    let s := accepting user.compat 0x47494D4B
    s.dev.images[0]? = some (anImage user.compat 0x47494D4B) ∧ (anImage user.compat 0x47494D4B).header.extractLsb' 128 384 = s.compat :=
  ⟨rfl, (head_key _ _ (by decide)).trans (compat_mod _ _).symm⟩
set_option exponentiation.threshold 1100 in
theorem header_ok (k : BitVec 384) (m : Nat) (h : m < 2 ^ 32) : migHeaderOk (migHead k m) = decide (m = 0x47494D4B) := by
  have e := k.isLt
  simp only [migHeaderOk, fld, bits, migHead, BitVec.toNat_ofNat]
  generalize k.toNat = n at *
  have f1 : (m + 2 ^ 32 + 128 * 2 ^ 64 + n * 2 ^ 128) % 2 ^ 1024 / 2 ^ 0 % 2 ^ (31 - 0 + 1) = m := by omega
  have f2 : (m + 2 ^ 32 + 128 * 2 ^ 64 + n * 2 ^ 128) % 2 ^ 1024 / 2 ^ 32 % 2 ^ (63 - 32 + 1) = 1 := by omega
  have f3 : (m + 2 ^ 32 + 128 * 2 ^ 64 + n * 2 ^ 128) % 2 ^ 1024 / 2 ^ 576 % 2 ^ (1023 - 576 + 1) = 0 := by omega
  have f4 : (m + 2 ^ 32 + 128 * 2 ^ 64 + n * 2 ^ 128) % 2 ^ 1024 / 2 ^ 64 % 2 ^ (127 - 64 + 1) = 128 := by omega
  rw [f1, f2, f3, f4]
  by_cases q : m = 0x47494D4B <;> simp [q]
theorem witness_MigrationAccept_taken :
    let m := anImage user.compat 0x47494D4B
    let s := accepting user.compat 0x47494D4B
    (migHeaderOk m.header && m.intact && s.canAccept 1 m) = true ∧ ((s.adopt 1 m).slices.map Prod.fst).Nodup := by
  refine ⟨?_, ?_⟩
  · simp only [State.canAccept, State.timeSliced, State.chipRuns, State.chip, State.frec, State.setCount, State.layout, State.die, accepting,
      State.modDev, anImage, header_ok _ _ (by decide : 0x47494D4B < 2 ^ 32)]
    decide +kernel
  · simp only [State.adopt, State.coresOf, State.clusters, State.coreId, State.frec, accepting, State.modDev, anImage]
    decide +kernel
theorem witness_MigrationAccept_malformed :
    let m := anImage user.compat 0x47494D4C
    let s := accepting user.compat 0x47494D4C
    s.dev.images[0]? = some m ∧ m.header.extractLsb' 128 384 = s.compat
    ∧ (migHeaderOk m.header && m.intact && s.canAccept 1 m) = false := by
  refine ⟨rfl, (head_key _ _ (by decide)).trans (compat_mod _ _).symm, ?_⟩
  simp [anImage, header_ok _ _ (by decide : 0x47494D4C < 2 ^ 32)]
theorem witness_MigrationAccept_other :
    let s := accepting (user.compat + 1) 0x47494D4B
    (anImage (user.compat + 1) 0x47494D4B).header.extractLsb' 128 384 ≠ s.compat := by
  intro s h
  have e : user.compat + 1 = user.compat := (head_key _ _ (by decide)).symm.trans (h.trans (compat_mod _ _))
  have := congrArg (fun z => z - user.compat) e
  simp at this

/-! ### Management tables, layouts, the Windlass -/

/-- A valid bind record of function 0's queue 3: weight 1, cluster 0. -/
def okBind : BitVec 128 := BitVec.ofNat 128 (1 + 3 * 2 ^ 12 + 2 ^ 40 + 2 ^ 100)
theorem witness_BindWrites : user.bindRefused 0 0 1 = true ∧ user.bindRefused 0 0 okBind = false ∧ (user.queue 0 3).pkts = []
    ∧ bindTarget 0 okBind = (0, 3)
    ∧ (waitS (waitGrid 0)).bindRefused 0 0 okBind = false ∧ ((waitS (waitGrid 0)).queue 0 3).pkts = [1]
    ∧ bindTarget (Table.getD ((waitS (waitGrid 0)).die 0).slots 0 0) okBind = (0, 3) ∧ bindValid okBind = true
    ∧ ((waitS (waitGrid 0)).queue 0 3).state = .running := by decide +kernel
/-- An invalidation of the queue's record, while its packet waits, and while one drains. -/
theorem witness_BindWrites_invalid :
    let s := waitS (waitGrid 0)
    let t := waitS (aGrid .draining)
    let old (u : State) := Table.getD (u.die 0).slots 0 0
    bindTarget (old s) 0 = (0, 3) ∧ bindValid (old s) = true ∧ bindValid 0 = false ∧ s.inProgress (.vf 0 3) = false
    ∧ (s.queue 0 3).pkts = [1] ∧ (s.queue 0 3).state = .running ∧ (∀ d, d < 4 → (s.die d).slotsNext = [])
    ∧ t.bindRefused 0 0 0 = false ∧ bindTarget (old t) 0 = (0, 3) ∧ bindValid (old t) = true ∧ t.inProgress (.vf 0 3) = true
    ∧ (t.queue 0 3).pkts = [1] ∧ (t.queue 0 3).state = .running := by decide +kernel
/-- `user` with function 0's interface locked. -/
def lockedUser : State := user.modChip 0 (fun c => { c with tdisp := .locked })
theorem witness_RecordWrites :
    let bad : BitVec 256 := 1
    let r : BitVec 256 := BitVec.ofNat 256 (1 + 3 * 2 ^ 64 + 2 ^ 176)
    BitVec.ofNat 256 (bad.toNat &&& frecMask) = bad ∧ bad.getLsbD 0 = true ∧ user.frecKeeps 0 bad = false
    ∧ BitVec.ofNat 256 (r.toNat &&& frecMask) = r ∧ user.frecKeeps 0 r = true ∧ user.frozen 0 = false
    ∧ lockedUser.frecKeeps 0 r = true ∧ lockedUser.frozen 0 = true ∧ r ≠ lockedUser.frec 0 := by decide +kernel
theorem witness_EntryWrites :
    let r : BitVec 128 := BitVec.ofNat 128 (1 + 0x40000 + 0x20000 * 2 ^ 64)
    lockedUser.frozen 0 = true ∧ lockedUser.rootChange (Table.getD lockedUser.dev.asids 0 0) r 0 = true
    ∧ (∀ f : Fin 64, user.frozen f.val = false) ∧ asidVmid r = 0 ∧ user.pagesFree 0 (user.entryPages r) = true := by decide +kernel
/-- Function 0 holds the leaf's page, so an entry of function 1 that maps it is refused, on a device whose first line is not host memory
(log entry 6 leaves open which lines are). -/
theorem witness_EntryWrites_taken (h : Config.isHostMemory 0 = false) :
    let r : BitVec 128 := BitVec.ofNat 128 (1 + 0x40000 + 0x10000 * 2 ^ 64 + 2 ^ 6)
    (∀ f : Fin 64, user.frozen f.val = false) ∧ asidVmid r = 1 ∧ user.pagesFree 1 (user.entryPages r) = false := by
  refine ⟨by decide +kernel, by decide +kernel, ?_⟩
  have e : user.leaves [0, 1, 2, 3] 0x10000 0 = [(0, 0, 2 ^ 29)] := by decide +kernel
  have p : parseAsid (BitVec.ofNat 128 (1 + 0x40000 + 0x10000 * 2 ^ 64 + 2 ^ 6)) = some (0x10000, 0x40000, 1) := by decide +kernel
  have q : user.rootOf 0 = some 0x10000 := by decide +kernel
  have hs : user.share 0 = [(0, 0, 2 ^ 29)] := by simp [State.share, q, e, lineOf, h]
  have hp : user.entryPages (BitVec.ofNat 128 (1 + 0x40000 + 0x10000 * 2 ^ 64 + 2 ^ 6)) = [(0, 2 ^ 29)] := by
    unfold State.entryPages
    rw [p]
    simp [e, lineOf, h]
  rw [hp, State.pagesFree, Bool.and_eq_false_iff]
  left
  rw [List.all_eq_false]
  exact ⟨0, by simp, by simp [hs, rangesMeet]⟩
/-- `user` with a commit to the layout of one die per partition in a step, every die taking part. -/
def laying (step : JStep) : State :=
  (List.range 4).foldl (fun t d => t.modDie d (fun x => { x with quiesced := true, shadow := some (partcfgOf 0xE4 d), acked := true }))
    (user.modDev (fun d => { d with journal := some ⟨1, 0xE4, step⟩ }))
theorem witness_LayoutRequests : layoutOk 1 = false ∧ layoutOk 0xE4 = true ∧ (laying .prepare).layoutBusy = true
    ∧ user.layoutBusy = false ∧ (ringed user 0 .running 2 5).layoutBusy = false
    ∧ (ringed user 0 .running 2 5).partsIdle ((ringed user 0 .running 2 5).affected 0xE4) = false
    ∧ user.partsIdle (user.affected 0xE4) = true ∧ (user.die 3).partcfg ≠ partcfgOf 0xE4 3 ∧ (user.die 3).partcfg = partcfgOf 0 3 := by
  decide +kernel
theorem witness_LayoutCommits (step : JStep) (h : step ∈ [JStep.prepare, .commit]) :
    (laying step).dev.journal = some ⟨1, 0xE4, step⟩ ∧ (laying step).dev.windlassQueue = [] ∧ ∀ d, d < 4 → ((laying step).die d).shadow.isSome = true ∧ ((laying step).die d).acked = true := by
  simp only [List.mem_cons, List.not_mem_nil, or_false] at h
  rcases h with rfl | rfl <;> decide +kernel
/-- A paused guest 0 with one staged entry: half of multicast set 63 of chip 0. -/
def paused : State :=
  user.modDev (fun d => { d with windlass := some ⟨0, [⟨0, 2, 63, true, 5⟩], 0x180060⟩, paused := [0] })
/-- `user` with a script of four commands at 0x180000, and with one of END alone. -/
def scripted : State :=
  (((user.placeWord64 0x180000 1).placeWord64 0x180020 2).placeWord64 0x180040 3).placeWord64 0x180060 4
def endOnly : State := user.placeWord64 0x180000 4
theorem witness_WindlassScripts : paused.dev.windlass = some ⟨0, [⟨0, 2, 63, true, 5⟩], 0x180060⟩ ∧ paused.dev.windlassQueue = []
    ∧ paused.carrier 0 0 = some 0
    ∧ scripted.dev.windlass = none ∧ scripted.dev.windlassQueue = [] ∧ scripted.readScript 65536 0x180000 = some ([1, 2, 3, 4], 0x180060)
    ∧ scriptOk [1, 2, 3, 4] = true ∧ scripted.podQuiesced 0 = false ∧ (scripted.modDie 0 (fun d => { d with quiesced := true })).podQuiesced 0 = true
    ∧ endOnly.dev.windlass = none ∧ endOnly.dev.windlassQueue = [] ∧ endOnly.readScript 65536 0x180000 = some ([4], 0x180000)
    ∧ scriptOk [4] = false := by decide +kernel

/-! ### Requests of the host -/

theorem witness_EventLogWrites : (hosted user).exposed (.vf 0) = true ∧ (user.chip 0).pending = [] ∧ user.exposed .pf = true
    ∧ (0x1000 : BitVec 64).getLsbD 0 = false ∧ (0x1001 : BitVec 64).getLsbD 0 = true
    ∧ (user.logOf (.vf 0)).en = false ∧ ((0x1001 : BitVec 64).extractLsb' 8 5).toNat = 16 ∧ (logged true 0 0).logOf (.vf 0) ≠ EventLog.reset := by
  decide +kernel
/-- `user` after a boot that failed. -/
def failedBoot : State := (hosted user).modDev (fun d => { d with devstat := devstatOf 0 1 0 0 })
theorem witness_RegisterWrites : (hosted user).exposed (.vf 63) = true ∧ user.exposed (.vf 63) = false ∧ failedBoot.exposed (.vf 63) = false
    ∧ user.dev.devstat.extractLsb' 16 8 = 0 := by decide +kernel
/-- A running time-sliced chip whose undo log holds one line. -/
def undoing : State := (sharedCore true (some imaged)).modChip 0 (fun c => { c with undo := [⟨0x3000, List.replicate 128 5, none, false⟩] })
theorem witness_HostAccesses : (∀ v, v < 64 → user.inUndo v 0x180000 8 = false) ∧ user.linePoisoned 0x180000 8 = false
    ∧ undoing.inUndo 0 (0x3000 * 128 + 127) 1 = true ∧ ∀ v, v < 64 → undoing.inUndo v 0x180080 8 = false := by decide +kernel
theorem witness_LoaderRequests : (hosted user).exposed (.vf 0) = true
    ∧ ((user.modChip 0 (fun c => { c with loader := ⟨1, 2, 3, some (4, 5, 6)⟩ })).chip 0).loader.job = some (4, 5, 6) := by decide +kernel

/-- A container of one empty code segment, and the key that signs it: the signature is made by hand with the base point as its
random point, for the secret that the FIPS 186 equations then give. -/
def aContainer : List Byte :=
  leBytes 40 0x9e878010bcc37425bf01a08561866ed96a6b122272fb34c40000000000000140000100014d535254
  ++ leBytes 40 0xeea935fe0847df1fc35e997e24909c1f793d3c939b4d3f11
  ++ leBytes 40 0
  ++ leBytes 40 0x14000000010000000010000000000000000
  ++ leBytes 40 0x1ec66487ab551a2764b11a222186d3d5817c97befd22f69642c7b806e22d9ccd5a38f93d2bcdf84e
  ++ leBytes 40 0x382a5482e041f759989ba78b623b1d6e74ad20f31ec7b18e37058bbe22ca87aa3992382c0ed5dc8f
  ++ leBytes 40 0x989ba78b623b1d6e74ad20f31ec7b18e37058bbe22ca87aab70a7672385e543a6c2955bf5df20255
  ++ leBytes 40 0xb70a7672385e543a6c2955bf5df20255382a5482e041f759
def aKey : List Byte :=
  leBytes 40 0xf21d861e992b871745b1601986051191e298977fb524a8415b539f49cde1cbd9f6fbe95d39661f04
  ++ leBytes 40 0xbe338f123df705643db825aa5cdc6bcbdfcc30d6bd5f49c88dae0d7678286c3418179959c66b75b8
  ++ leBytes 17 0xe4c7af3361b2240c76c98e01b2768f9072
/-- A load of n bytes of memory at 0x180000 that hold a text, with its result at 0x1A0000. -/
def containerS (c : List Byte) (n : Nat) : State :=
  ({ user with mem := Memory.put user.mem 0x180000 c } : State).modChip 0 (fun h =>
    { h with signKeys := [aKey], loader := { h.loader with job := some (0x180000, BitVec.ofNat 64 n, 0x1A0000) } })
/-- Where the code segment goes. -/
def codePlace : List (Nat × Nat) := [(0x1000000, 0x400000)]
theorem witness_ContainerLoads_bad :
    let s := containerS [] 128
    let s0 := s.modChip 0 (fun h => { h with loader := { h.loader with job := none } })
    let x := okD (s0.translate 0 (s0.die ((s0.diesOf 0).headD 0)).tlb 99200 0x1A0000 .write) noXlat
    (s.chip 0).loader.job = some (0x180000, 128, 0x1A0000) ∧ s.readContainer 0 0x180000 128 = some (List.replicate 128 0)
    ∧ checkContainer (s.chip 0).signKeys (List.replicate 128 0) = 1
    ∧ s0.translate 0 (s0.die ((s0.diesOf 0).headD 0)).tlb 99200 0x1A0000 .write = .ok x := by decide +kernel
theorem witness_ContainerLoads_read : (containerS aContainer 320).readContainer 0 0x180000 320 = some aContainer
    ∧ (containerS aContainer 320).reserveOk 0 (entriesOf aContainer) codePlace (recordsOf (entriesOf aContainer) aContainer).length = true
    ∧ ((containerS aContainer 320).chip 0).signKeys = [aKey] := by decide +kernel
theorem witness_ContainerLoads_key : headerOk aContainer = true ∧ entriesOk aContainer = true
    ∧ Sha.sha384 aKey = (aContainer.drop 16).take 48 := by decide +kernel
theorem witness_ContainerLoads_measured : (entriesOf aContainer).map (fun e => e.measure aContainer == e.meas) = [true] := by decide +kernel
theorem witness_ContainerLoads_signed : (entriesOf aContainer).map (fun e => e.signed aKey) = [true] := by decide +kernel
theorem witness_ContainerLoads_code : checkContainer [aKey] aContainer = 0 := by
  obtain ⟨h1, h2, h3⟩ := witness_ContainerLoads_key
  have hm := witness_ContainerLoads_measured
  have hs := witness_ContainerLoads_signed
  unfold checkContainer
  simp only [h1, h2, h3, List.find?_cons, beq_self_eq_true, Bool.not_true, Bool.or_self, Bool.false_eq_true, if_false]
  cases he : entriesOf aContainer with
  | nil => rfl
  | cons e es =>
    rw [he] at hm hs
    simp only [List.map_cons, List.cons.injEq, beq_iff_eq, List.map_eq_nil_iff] at hm hs
    simp [checkSegments, hm.1, hm.2, hs.1]
/-- A steward request for entry 3 of the firmware's kernel table, which it holds. -/
def askSteward (busy : Bool) (fw : Table (BitVec 1024)) : State :=
  user.modDev (fun d => { d with firmware := fw, steward := { d.steward with fkidx := 3, ctx := 0x80, busy := busy } })
theorem witness_StewardRequests : (askSteward true []).dev.steward.busy = true
    ∧ (askSteward false []).dev.steward.busy = false ∧ (askSteward false []).stewardRefused = true
    ∧ (askSteward false [(3, placeRecord)]).dev.steward.busy = false ∧ (askSteward false [(3, placeRecord)]).stewardRefused = false := by
  decide +kernel

/-! ### Resets, sessions, errors, power -/

theorem witness_FunctionReset : (∀ d, d < 4 → (user.die d).slotsNext = []) ∧ user.frozen 0 = false ∧ lockedUser.frozen 0 = true
    ∧ (∀ d, d < 4 → (lockedUser.die d).slotsNext = []) ∧ user.dev.devstat.extractLsb' 16 8 = 0
    ∧ failedBoot.dev.devstat.extractLsb' 16 8 ≠ 0 := by decide +kernel
/-- A boot image that the key of `aContainer` signs: the bytes of its segment entry up to the signature. -/
def bootEntry : List Byte := (aContainer.drop 128).take 192
def anBoot : BootImage where
  image := bootEntry.take 80
  key := aKey
  sig := (bootEntry.drop 80).take 96
  diesStart := true
  ksmTrains := true
  config := []
  configSig := []
theorem witness_ModuleReset : user.dev.pfLoader.job = none ∧ user.dev.minSecurity = 0
    ∧ user.dev.minSecurity ≤ Config.imageSecurity anBoot.image ∧ layoutOk 0xE4 = true := by
  have h : user.dev.minSecurity = 0 := by decide +kernel
  exact ⟨by decide +kernel, h, by rw [h]; exact Nat.zero_le _, by decide +kernel⟩
/-- The signature holds; whether the key's digest is the fused one (R432) the manual leaves to each module. -/
theorem witness_ModuleReset_signed : Ecdsa.verify anBoot.key anBoot.image anBoot.sig = true := by
  have h := witness_ContainerLoads_signed
  have e : (entriesOf aContainer).map (fun e => (e.raw.take 80, (e.raw.drop 80).take 96)) = [(anBoot.image, anBoot.sig)] := by decide +kernel
  cases he : entriesOf aContainer with
  | nil => rw [he] at e; cases e
  | cons x xs =>
    rw [he] at e h
    simp only [List.map_cons, List.cons.injEq, Prod.mk.injEq] at e h
    rw [← e.1.1, ← e.1.2]
    exact h.1
theorem witness_SpdmResponses : ∃ y r, user.spdmRule (.getVersion .pf) = some (.pf, true, y, r) ∧ user.exposed .pf = true
    ∧ (hosted user).exposed (.vf 0) = true ∧ failedBoot.exposed (.vf 0) = false := ⟨_, _, rfl, rfl, by decide +kernel⟩
/-- `user` with a secure session of function 0 and its interface in a state. -/
def inSession (x : Tdisp) : State :=
  ((hosted user).modChip 0 (fun c => { c with tdisp := x })).withSpdm (.vf 0) ⟨some 0x13, true, true, false, true, []⟩
theorem witness_TdispRequests (x : Tdisp) (h : x ∈ [Tdisp.unlocked, .locked, .run, .error]) : (inSession x).exposed (.vf 0) = true
    ∧ ((inSession x).spdm (.vf 0)).session = true ∧ ((inSession x).chip 0).tdisp = x ∧ (user.spdm (.vf 0)).session = false
    ∧ ((inSession x).chip 0).signKeys = [] := by
  simp only [List.mem_cons, List.not_mem_nil, or_false] at h
  rcases h with rfl | rfl | rfl | rfl <;> decide +kernel
theorem witness_StorageErrors : (∀ e ∈ user.slices, ∀ o ∈ e.2.ops, o.isUnbound = false) ∧ user.ctx 0 = some (ctxAt user 0) ∧ 255 < (ctxAt user 0).squad.vcount ∧ (ctxAt user 0).b.core < 160
    ∧ Table.find user.blocks 0 = some (blockOf user) ∧ 4095 * 16 < (blockOf user).scratchSize ∧ (blockOf user).core < 160 := by
  decide +kernel
/-- A lane of a bridge with one error, awaiting its self-test. -/
def testing : State := user.modDev (fun d => { d with commitsLeft := 1, tests := [.bridgeLane 3 0], errors := [(.bridgeLane 3 0, 1)] })
theorem witness_Maintenance : (user.modDev (fun d => { d with commitsLeft := 0 })).dev.commitsLeft = 0 ∧ testing.dev.commitsLeft ≠ 0
    ∧ Structure.bridgeLane 3 0 ∈ testing.dev.tests ∧ Structure.bridgeLane 3 1 ∉ testing.dev.tests
    ∧ (testing.dev.errors.filter (fun e => e.1 == Structure.bridgeLane 3 0)).length = 1
    ∧ countOf (spareGroup (.bridgeLane 3 0)) testing.dev.spared < spares (spareGroup (.bridgeLane 3 0)) := by decide +kernel
theorem witness_Power : (255 : BitVec 9).toNat < govCap (user.core 159).govNext ∧ 16 ≤ (16 : BitVec 9).toNat
    ∧ (16 : BitVec 9).toNat < govCap (user.core 159).govNext := by decide +kernel

/-! ### What is known of replaced values -/

theorem witness_WrittenBytes : leBytes 8 0x1122334455667788 ≠ [] := by decide
/-- A write to the scratchpad's first byte by slice `key` of the block. -/
def aWrite (stamp key old : Nat) (path : EClass) (scope : Scope) (rels : List Msg) : Past :=
  ⟨.scratch 0 0, old, stamp, path, ⟨key, 0, 0, 0, 0⟩, 0, scope, 0, Vector.replicate 4 0, rels⟩
/-- `user` after its own write and then one of the block's next slice, which it need not see. -/
def rewritten : State := { user with past := [aWrite 1 1 5 .ls .slice [], aWrite 0 0 0 .ls .slice []], stamp := 2 }
theorem witness_ReadValues : rewritten.past.filter (fun p => p.loc == .scratch 0 0) =
      [aWrite 1 1 5 .ls .slice []] ++ aWrite 0 0 0 .ls .slice [] :: []
    ∧ rewritten.mustSee ((ctx rewritten).reader .ls .core 5) (aWrite 0 0 0 .ls .slice []) = true
    ∧ rewritten.mustSee ((ctx rewritten).reader .ls .core 5) (aWrite 1 1 5 .ls .slice []) = false := by decide +kernel
/-- A write of die 1, the first that it emits. -/
def farWrite : Past := ⟨.mem 0x180000, 0, 0, .ls, ⟨1, 0, 40, 1, 0⟩, 0, .tenant, 1, #v[0, 1, 0, 0], []⟩
theorem witness_AppliedInOrder : farWrite.loc = .mem 0x180000 ∧ farWrite.site.die ≠ 0 ∧ farWrite.site.die < 4
    ∧ farWrite.emit ≤ (farWrite.clock.toList.getD farWrite.site.die 0).toNat ∧ user.applied farWrite 0 = false := by decide +kernel
/-- The same with the bridges of every die closed. -/
def split : State := (List.range 4).foldl (fun t d => t.modDie d (fun x => { x with partcfg := partcfgOf 0xE4 d })) user
theorem witness_AppliedInOrder_closed : user.joined 0 1 = true ∧ split.joined 0 1 = false ∧ farWrite.site.die = 1 := by decide +kernel
theorem joined_user : ∀ h, h < 4 → user.joined h ((h + 1) % 4) = true := by decide +kernel
/-- Whichever die is the home of the line, a write of the next one leaves its die. -/
theorem witness_WritesLeave : ∃ (w : Writer) (h : Nat), w.site.die < 4 ∧ h < 4 ∧ user.homeDie (0x180000 / 128) = h ∧ h ≠ w.site.die
    ∧ user.joined h w.site.die = true ∧ user.keyOfLine (0x180000 / 128) = none
    ∧ ((user.die w.site.die).clock.toList.getD w.site.die 0).toNat < 2 ^ 64 - 1 := by
  have h4 : user.homeDie (0x180000 / 128) < 4 := by
    have party : ∀ d : Fin 4, user.partyOf d.val = [0, 1, 2, 3] := by decide +kernel
    unfold State.homeDie
    split
    · decide
    · simp only [party, List.length_cons, List.length_nil]
      generalize (Config.interleave _ _ _).1 % _ / 3 = n
      match n with
      | 0 | 1 | 2 | 3 => decide
      | _ + 4 => exact (Config.bankDie _).isLt
  have clocks : ∀ d, d < 4 → ((user.die d).clock.toList.getD d 0).toNat < 2 ^ 64 - 1 := by decide +kernel
  refine ⟨⟨⟨0, 0, 0, (user.homeDie (0x180000 / 128) + 1) % 4, 0⟩, .ls, 0, .tenant, []⟩, _, Nat.mod_lt _ (by decide : 0 < 4), h4, rfl, ?_,
    joined_user _ h4, by decide +kernel, clocks _ (Nat.mod_lt _ (by decide : 0 < 4))⟩
  show _ ≠ (_ + 1) % 4
  omega
/-- A store that is a release. -/
def relStore : MemOp := { oneOp (.store .w64 .none false) (padLane (leBytes 8 5)) with rels := [(.block, 0)] }
theorem witness_ReleaseCarries : Alone (busy relStore) 0 (ctxAt (busy relStore) 0) relStore ∧ relStore.kind = .store .w64 .none false
    ∧ relStore.lanes = [padLane (leBytes 8 5)] ∧ (padLane (leBytes 8 5)).got = none ∧ (padLane (leBytes 8 5)).pa = none
    ∧ (padLane (leBytes 8 5)).addr.toNat = 0x7FFFFF0000000000 + 0 ∧ 7 < (padLane (leBytes 8 5)).data.length
    ∧ (Scope.block, 0) ∈ relStore.rels := ⟨alone_of _ _ _ (by decide +kernel), rfl, rfl, rfl, rfl, by decide, by decide, by decide⟩
/-- What the next slice's release makes known, and its write. -/
def aMsg : Msg := ⟨.block, ⟨1, 0, 0, 0, 0⟩, [⟨7, .ls, 0, .system, ⟨1, 0, 0, 0, 0⟩⟩]⟩
def relWrite : Past := aWrite 0 1 0 .ls .block [aMsg]
/-- A load of it that is an acquire, outstanding. -/
def acqLoad : MemOp := { oneOp (.load (.vreg 1) .w32 .none) (padLane []) with acq := true }
def acquiring : State := { busy acqLoad with past := [relWrite], stamp := 1 }
theorem witness_AcquireLearns : Alone acquiring 0 (ctxAt acquiring 0) acqLoad ∧ acqLoad.kind = .load (.vreg 1) .w32 .none
    ∧ acqLoad.lanes = [padLane []] ∧ (ctxAt acquiring 0).Readable (padLane []) 4 ∧ acqLoad.acq = true
    ∧ relWrite ∈ ((ctxAt acquiring 0).loadSeen acqLoad.scope acqLoad.seq (padLane []) 4).2 ∧ aMsg ∈ relWrite.rels
    ∧ acquiring.shares aMsg.site (ctxAt acquiring 0).site aMsg.scope = true
    ∧ acquiring.shares aMsg.site (ctxAt acquiring 0).site acqLoad.scope = true
    ∧ ∃ p ∈ aMsg.knows, acquiring.shares p.site (ctxAt acquiring 0).site p.scope = true :=
  ⟨alone_of _ _ _ (by decide +kernel), rfl, rfl, readable_of _ _ _ (by decide +kernel), rfl, by decide +kernel, by decide, by decide +kernel,
    by decide +kernel, by decide +kernel⟩
/-- `user` after a write of its own completed CPCOPY, and with a read of its own kept. -/
def copied : State :=
  { userSlice (fun x => { x with reads := [⟨0, .ls, 0, .system, ⟨1, 0, 0, 0, 0⟩⟩], seq := 3 }) with
    past := [aWrite 1 0 0 .cp .tenant [], aWrite 0 0 0 .ls .core []], stamp := 2 }
theorem witness_WaitCompletes_known : AtRest copied (ctx copied) ∧ (ctx copied).x.guardScalar always.guard = true
    ∧ (ctx copied).x.cnt = Counters.zero ∧ aWrite 1 0 0 .cp .tenant [] ∈ copied.past ∧ copied.cur = 0
    ∧ ∀ d ∈ (copied.core (ctx copied).b.core).cmdq ++ (copied.core (ctx copied).b.core).copyq, d.slice = copied.cur → d.seq ≠ 0 :=
  ⟨atRest_of _ (by decide +kernel), by decide +kernel⟩
theorem witness_Fences_known : AtRest copied (ctx copied) ∧ (ctx copied).x.reads ≠ []
    ∧ aWrite 0 0 0 .ls .core [] ∈ copied.past ∧ (aWrite 0 0 0 .ls .core []).seq < (ctx copied).x.seq :=
  ⟨atRest_of _ (by decide +kernel), by decide +kernel⟩
/-- `user` after a write of its own PODST. -/
def podded1 : State := { userSlice (fun x => { x with seq := 3 }) with past := [aWrite 1 0 0 .fb .pod []], stamp := 2 }
theorem witness_WaitCompletes_fabric : AtRest podded1 (ctx podded1) ∧ (ctx podded1).x.guardScalar always.guard = true
    ∧ (ctx podded1).x.cnt = Counters.zero ∧ aWrite 1 0 0 .fb .pod [] ∈ podded1.past ∧ podded1.cur = 0 :=
  ⟨atRest_of _ (by decide +kernel), by decide +kernel⟩
/-- `scratched` at an object whose completed phase makes something known. -/
def phased : State := scratched.modBlock 0 (fun b => { b with phases := [⟨0, [], [aMsg]⟩] })
theorem witness_BarrierObjectTests_known : AtRest phased (ctx phased) ∧ aMsg ∈ (ctx phased).b.phaseDone 0
    ∧ phased.shares aMsg.site (ctx phased).site aMsg.scope = true
    ∧ ∃ p ∈ aMsg.knows, phased.shares p.site (ctx phased).site p.scope = true := ⟨atRest_of _ (by decide +kernel), by decide +kernel⟩

end Sys2Proof.Tests
end

