-- ==== Sys2Proof/Tests/Slice0.lean ====
section
/-! SUPPORT. Tests: a word for every constructor that has one, written from its encoding in the manual; a term that each check of
well-formedness refuses; words that are no instruction; and single steps whose results the manual gives or that follow from its
rules by hand. -/

open Sys2Proof Sys2Proof.Machine

namespace Sys2Proof.Tests

set_option Elab.async false

/-! ### Words from the encodings of chapter 03 and of the entries -/

/-- A word of sub-format RR or MO (R56, R59): opcode, D, A, B, C and MOD. -/
def rr (op d a b c md : Nat) : Word64 := BitVec.ofNat 64 (op * 2 ^ 52 + d * 2 ^ 39 + a * 2 ^ 31 + b * 2 ^ 23 + c * 2 ^ 15 + md)
/-- Sub-format SI (R59): opcode, D, A, K16 and MOD. -/
def si (op d a k md : Nat) : Word64 := BitVec.ofNat 64 (op * 2 ^ 52 + d * 2 ^ 39 + a * 2 ^ 31 + k * 2 ^ 15 + md)
/-- Sub-formats KI and BR (R59): opcode, D, the 32-bit field and the low seven bits. -/
def ki (op d k km : Nat) : Word64 := BitVec.ofNat 64 (op * 2 ^ 52 + d * 2 ^ 39 + k * 2 ^ 7 + km)
/-- Whether a word decodes to an instruction. -/
def is (w : Word64) (i : Instr) : Bool :=
  match decodeWord w with
  | .ok j => j == i
  | .error _ => false
/-- Whether every word of a list decodes to its instruction. -/
def reads (l : List (Word64 × Instr)) : Bool := l.all (fun p => is p.1 p.2)

/-- R71 (0x000–0x01E), R93–R98: scalar words; SAT is MOD<11>, XM is MOD<7:0>, the condition MOD<3:0>. -/
theorem test_words_scalar : reads
    [(rr 0x000 0 0 0 0 0, .nop always), (rr 0x001 3 1 2 0 0x800, .sadd always true 3 (.s 1) (.s 2)),
     (rr 0x002 3 1 2 0 0, .ssub always false 3 (.s 1) (.s 2)), (rr 0x003 3 1 0x58 0 0, .smul always false 3 (.s 1) (.sp (.level 4))),
     (rr 0x004 63 1 2 0 0, .smulh always 63 (.s 1) (.s 2)), (rr 0x005 3 1 2 0 0, .smulhn always 3 (.s 1) (.s 2)),
     (rr 0x006 3 1 2 0 0, .smin always 3 (.s 1) (.s 2)), (rr 0x007 3 1 2 0 0, .smax always 3 (.s 1) (.s 2)),
     (rr 0x008 3 1 2 0 0, .sminn always 3 (.s 1) (.s 2)), (rr 0x009 3 1 2 0 0, .smaxn always 3 (.s 1) (.s 2)),
     (rr 0x00A 3 0x40 2 0 0, .sand always 3 (.sp .laneId) (.s 2)), (rr 0x00B 3 1 2 0 0, .sor always 3 (.s 1) (.s 2)),
     (rr 0x00C 3 1 2 0 0, .sxor always 3 (.s 1) (.s 2)), (rr 0x00D 3 1 2 0 0, .sandn always 3 (.s 1) (.s 2)),
     (rr 0x00E 3 1 2 0 0, .sshl always 3 (.s 1) (.s 2)), (rr 0x00F 3 1 2 0 0, .sshr always 3 (.s 1) (.s 2)),
     (rr 0x010 3 1 2 0 0, .ssra always 3 (.s 1) (.s 2)), (rr 0x011 3 1 2 0 0, .srot always 3 (.s 1) (.s 2)),
     (rr 0x012 3 1 0 0 0, .sclz always 3 (.s 1)), (rr 0x013 3 1 0 0 0, .sctz always 3 (.s 1)),
     (rr 0x014 3 1 0 0 0, .spopc always 3 (.s 1)), (rr 0x015 3 1 0 0 0, .sbrev always 3 (.s 1))] = true
  ∧ reads
    [(rr 0x016 3 1 2 5 1, .sbfx always true 3 (.s 1) (.s 2) (.s 5)), (rr 0x017 3 1 2 5 0, .sbfi always 3 (.s 1) (.s 2) (.s 5)),
     (rr 0x018 3 1 0 0 (0x80 + 16), .ssext always true 16 3 (.s 1)), (rr 0x019 3 1 2 0 7, .slea always false 7 3 (.s 1) (.s 2)),
     (rr 0x019 3 1 2 0 8, .slea always true 0 3 (.s 1) (.s 2)), (rr 0x01A 3 1 2 5 0, .sselz always 3 (.s 1) (.s 2) (.s 5)),
     (rr 0x01B 3 0x50 0 0 0, .smov always 3 (.sp .clock)), (rr 0x01C 0 3 26 0 9, .scmp always .gen (.s 3) (.s 26)),
     (rr 0x01D 3 1 0 0 0x800, .sabs always true 3 (.s 1)), (rr 0x01E 3 1 2 5 1, .sclamp always true 3 (.s 1) (.s 2) (.s 5))] = true := by
  decide +kernel
/-- R71 (0x020–0x049), R60, R99–R102: immediates, EXEC, Q and mode words. -/
theorem test_words_immediate : reads
    [(si 0x020 3 3 0xFFF8 0, .saddi always false 3 (.s 3) 0xFFF8), (si 0x021 3 1 7 0x800, .smuli always true 3 (.s 1) 7),
     (si 0x022 3 1 0xFF 0, .sandi always 3 (.s 1) 0xFF), (si 0x023 3 1 0xFF 0, .sori always 3 (.s 1) 0xFF),
     (si 0x024 3 1 0xFF 0, .sxori always 3 (.s 1) 0xFF), (si 0x025 3 1 63 0, .sshli always 3 (.s 1) 63),
     (si 0x026 3 1 63 0, .sshri always 3 (.s 1) 63), (si 0x027 3 1 63 0, .ssrai always 3 (.s 1) 63),
     (si 0x028 3 1 63 0, .sroti always 3 (.s 1) 63), (si 0x029 0 0x43 3 0, .scmpi always .eq (.sp .squadId) 3),
     (si 0x02A 3 1 0x8000 0, .smini always 3 (.s 1) 0x8000), (si 0x02B 3 1 0x8000 0, .smaxi always 3 (.s 1) 0x8000),
     (ki 0x030 3 0xFFFFFFFF 0, .smovk always 3 0xFFFFFFFF), (ki 0x031 3 0x12345678 0, .smovkh always 3 0x12345678),
     (ki 0x032 3 0x80000000 0, .saddk always 3 0x80000000), (ki 0x033 3 0x40 0, .sleapc always 3 0x40),
     (rr 0x040 3 0 0 0 0, .exsave always 3), (rr 0x041 0 1 0 0 0, .exload always (.s 1)), (rr 0x042 3 1 0 0 0, .exand always 3 (.s 1)),
     (rr 0x043 3 1 0 0 0, .exandn always 3 (.s 1)), (rr 0x044 3 0 0 0 13, .exfromq always true 5 3), (rr 0x045 3 0 0 0 0, .qsave always 3),
     (rr 0x046 0 1 0 0 0, .qload always (.s 1)), (rr 0x047 3 0 0 0 0, .moderd always 3), (rr 0x048 0 1 0 0 0, .modewr always (.s 1)),
     (rr 0x049 0 0 0 0 0x3000, .moderm always .rup)] = true := by decide +kernel
/-- R61, R104–R116, R181: control words; the worked words of chapters 04, 11, 17 and 24. -/
theorem test_words_control : reads
    [(0x0800007FFFFFFE40, .bra always true 0xFFFFFFFC), (0x0808000000000600, .bra ⟨false, .q false 0⟩ false 12),
     (0x0808007FFFFFFC80, .bra ⟨false, .q false 0⟩ false 0xFFFFFFF9), (ki 0x081 0 5 0x40, .bexz always true 5),
     (ki 0x082 0 5 0, .bexnz always false 5), (ki 0x083 3 5 0, .call always 3 5), (rr 0x084 0 1 0 0 0, .ret always (.s 1)),
     (rr 0x085 0 1 0 0 0, .brs always (.s 1)), (rr 0x086 0 0x41 0 0 0, .brix always (.sp .tid)), (rr 0x087 3 255 0 0 0, .brixl always 3 255),
     (rr 0x088 0 0 0 0 0, .exit always), (0x8890000000007FF8, .wait ⟨true, .always⟩ 7 7 7 7 0), (rr 0x089 0 0 0 0 0x0A9C, .wait always 0 5 2 3 4),
     (rr 0x08A 0 0 0 0 (0x81 * 128), .regang always 0x81)] = true := by decide +kernel
/-- R62, R123, R126–R134: vector words; the worked words of chapters 03, 05, 11 and 20. -/
theorem test_words_vector : reads
    [(rr 0x100 4 0 2 0 0x4000, .vadd always .f32 .dflt false 4 0 (.v 2)), (rr 0x101 4 6 3 0 (0x400 + 16), .vsub always .f64 .rne false 4 6 (.s (.s 3))),
     (rr 0x102 4 6 3 0 0x0D0, .vmul always .i32 .rne false 4 6 (.v 3)), (0x903D050183861000, .vfma ⟨true, .q true 2⟩ .f32 .rtz false 10 3 (.v 7) (.v 12)),
     (rr 0x104 4 6 3 5 0x2A20, .vfms always .f16 .rdn true 4 6 (.v 3) (.s (.s 5))), (rr 0x105 4 6 3 5 0x3120, .vfnma always .f16x2 .rup false 4 6 (.v 3) (.v 5)),
     (rr 0x106 4 6 3 0 0x031, .vmin always .bf16 true 4 6 (.v 3)), (rr 0x107 4 6 3 0 0x0A0, .vmax always .n8 false 4 6 (.v 3)),
     (rr 0x108 4 6 0 0 0x890, .vabs always .i8 true 4 6), (rr 0x109 4 6 0 0 0x110, .vneg always .bf16x2 false 4 6),
     (rr 0x10A 4 6 3 0 0x001, .vcpsgn always .f32 true 4 6 (.v 3)), (rr 0x10B 0 6 3 0 0x00D, .vcmp always .f32 .or 6 (.v 3)),
     (rr 0x10C 4 6 3 0 0x0DF, .vsel always .i32 true 7 4 6 (.v 3)), (0x90D00000208004E0, .vmov ⟨true, .always⟩ .n32 0 (.s (.sp .tid))),
     (0x10E0028100000850, .vcvt always .e4m3 .f32 .rne true 5 2), (rr 0x10F 4 6 0 0 0x1000, .vrnd always .f32 .rtz 4 6),
     (rr 0x110 4 6 3 0 0x0800, .vfdiv always .f32 .rne true 4 6 (.v 3)), (rr 0x111 4 6 0 0 0x060, .vclass always .e5m3 4 6),
     (rr 0x112 4 6 3 0 0, .vscalb always .f32 .rne false 4 6 (.v 3)), (rr 0x113 4 6 3 0 0x0C0, .vabsd always .n16 4 6 (.v 3)),
     (rr 0x114 4 6 2 8 (0x800 + 16 * 15), .vmad always .i64 true 4 6 (.v 2) (.v 8)), (rr 0x115 4 6 2 0 0x100, .vmulh always .n64 4 6 (.v 2))] = true
  ∧ reads
    [(rr 0x116 4 6 3 0 0x0E0, .vand always .n32 4 6 (.v 3)), (rr 0x117 4 6 3 0 0x0E0, .vor always .n32 4 6 (.v 3)),
     (rr 0x118 4 6 3 0 0x0E0, .vxor always .n32 4 6 (.v 3)), (rr 0x119 4 6 3 0 0x0E0, .vandn always .n32 4 6 (.v 3)),
     (rr 0x11A 4 6 0 0 0x0E0, .vnot always .n32 4 6), (rr 0x11B 4 6 3 0 0x0E0, .vshl always .n32 4 6 (.v 3)),
     (rr 0x11C 4 6 3 0 0x4E0, .vshr always .n32 4 6 (.s (.s 3))), (rr 0x11D 4 6 3 0 0x0D0, .vsra always .i32 4 6 (.v 3)),
     (rr 0x11E 4 6 0 0 0x010, .vclz always .f64 4 6), (rr 0x11F 4 6 0 0 0x0E0, .vpopc always .n32 4 6),
     (rr 0x120 4 6 0 0 0x0E0, .vbrev always .n32 4 6), (rr 0x121 4 6 3 5 0x0D1, .vbfx always .i32 true 4 6 (.v 3) (.v 5)),
     (rr 0x122 4 6 3 5 0x6D0, .vbfi always .i32 4 6 (.s (.s 3)) (.s (.s 5))), (rr 0x123 4 6 3 5 0x120, .vdot2 always .f16x2 .rne false 4 6 (.v 3) (.v 5)),
     (rr 0x124 4 6 3 0 0x0B0, .vpack always .i16 .rne false 4 6 (.v 3)), (rr 0x125 4 6 0 0 0x0C0, .vunpkl always .n16 4 6),
     (rr 0x126 4 6 0 0 0x110, .vunpkh always .bf16x2 4 6), (rr 0x127 4 6 3 0 0x070, .vkbenc always .kb8 4 6 (.v 3)),
     (rr 0x128 4 6 0 0 0x081, .vkbdec always .kb4 true 4 6), (ki 0x129 4 0xDEADBEEF 0, .vmovk always 4 0xDEADBEEF),
     (rr 0x12A 4 6 3 5 0x001, .vclamp always .f32 true 4 6 (.v 3) (.v 5)), (rr 0x12B 4 0 0 0 0, .vmovq always 4)] = true := by decide +kernel
/-- R135, R138–R142: special functions, the activation table, emulated words; the worked words of chapter 20. -/
theorem test_words_special : reads
    [(rr 0x140 4 6 0 0 0x4000, .vrcp always .f32 .dflt false 4 6), (rr 0x141 4 6 0 0 0x0820, .vrsq always .f16 .rne true 4 6),
     (rr 0x142 4 6 0 0 0x1030, .vsqrt always .bf16 .rtz false 4 6), (rr 0x143 4 6 0 0 0, .vexp2 always .f32 .rne false 4 6),
     (rr 0x144 4 6 0 0 0, .vlog2 always .f32 .rne false 4 6), (rr 0x145 4 6 0 0 0, .vsin always .f32 .rne false 4 6),
     (rr 0x146 4 6 0 0 0, .vcos always .f32 .rne false 4 6), (rr 0x147 4 6 0 0 0, .vtanh always .f32 .rne false 4 6),
     (rr 0x150 0 1 0 0 0, .actld always (.s 1)), (rr 0x151 0 0 0 0 1, .actsel always true), (rr 0x152 4 6 0 0 0x3800, .vact always .rup true 4 6),
     (0x1600018081000000, .vdivI32 always 3 1 (.v 2)), (rr 0x161 4 6 3 0 0x400, .vdivN32 always 4 6 (.s (.s 3))),
     (0x9620020081000000, .vremI32 ⟨true, .always⟩ 4 1 (.v 2)), (rr 0x163 4 6 3 0 0, .vremN32 always 4 6 (.v 3))] = true := by decide +kernel
/-- R173–R182: cross-lane words: XSM in MOD<14:7>, KEEP MOD<6>, BSEL MOD<5>, FMT MOD<4:0>, the register mask in C. -/
theorem test_words_cross : reads
    [(rr 0x180 5 2 3 0 0x000E, .vshfl always .n32 false ⟨0, none⟩ 5 2 (.v 3)), (rr 0x181 5 2 3 0xBF 0x000D, .vshflup always .i32 false ⟨0, some 63⟩ 5 2 (.v 3)),
     (0x182002810180002E, .vshfldn always .n32 false ⟨0, none⟩ 5 2 (.s (.s 3))), (rr 0x183 5 2 3 0 (0xF0 * 128 + 0x60), .vshflx always .f32 true ⟨0xF0, none⟩ 5 2 (.s (.s 3))),
     (rr 0x184 6 2 0 0 1, .vbcast always .f64 ⟨0, none⟩ 6 2), (rr 0x185 0 2 0 0 14, .voteany always .n32 ⟨0, none⟩ 2),
     (rr 0x186 0 2 0 0 14, .voteall always .n32 ⟨0, none⟩ 2), (rr 0x187 0 2 0 0 14, .voteuni always .n32 ⟨0, none⟩ 2),
     (rr 0x188 63 2 0 0 14, .vballot always .n32 ⟨0, none⟩ 63 2), (rr 0x189 5 2 0 0 16, .vmatchany always .n64 ⟨0, none⟩ 5 2),
     (rr 0x18A 5 2 0 0 15, .vmatchall always .i64 ⟨0, none⟩ 5 2), (rr 0x18B 5 2 0 0 0, .vredadd always .f32 ⟨0, none⟩ 5 2),
     (rr 0x18C 5 2 0 0 13, .vredmin always .i32 ⟨0, none⟩ 5 2), (rr 0x18D 5 2 0 0 14, .vredmax always .n32 ⟨0, none⟩ 5 2),
     (rr 0x18E 5 2 0 0 14, .vredand always .n32 ⟨0, none⟩ 5 2), (rr 0x18F 5 2 0 0 13, .vredor always .i32 ⟨0, none⟩ 5 2),
     (rr 0x190 5 2 0 0 14, .vredxor always .n32 ⟨0, none⟩ 5 2), (rr 0x191 5 2 0 0 0, .vscanadd always .f32 ⟨0, none⟩ 5 2),
     (rr 0x250 0 0 0 0 15, .bar always 15 none), (rr 0x250 0 1 0 0 0x13, .bar always 3 (some (.s 1))), (rr 0x251 0 1 2 0 0, .abwait always (.s 1) (.s 2)),
     (rr 0x252 0 1 2 0 0, .abtest always (.s 1) (.s 2)), (rr 0x253 0 1 2 0 0, .abinit always (.s 1) (.s 2)),
     (0x2540000607001100, .abarr always .block false (.s 12) (some (.s 14))), (rr 0x254 0 1 0 0 0x2400, .abarr always .cluster true (.s 1) none),
     (rr 0x255 0 1 2 0 0, .abexp always (.s 1) (.s 2))] = true := by decide +kernel
/-- A memory operand of one base register, without offset register. -/
def at_ (base : SReg) (off : BitVec 8) (scope : Scope) (ord : Ord) : MemArg := ⟨base, none, off, scope, ord, false⟩
/-- R64, R215–R240, R415: memory, atomic, well, fence and pod words; the worked words of chapters 09, 11, 15, 17 and 20. -/
theorem test_words_memory : reads
    [(0xA000008380001920, .vld ⟨true, .always⟩ ⟨7, some 0, 0, .core, .none, false⟩ .none .w32 1),
     (0xA000048784001920, .vld ⟨true, .always⟩ ⟨15, some 8, 0, .core, .none, false⟩ .none .w32 9),
     (0x2010008300001922, .vst always ⟨6, some 0, 0, .core, .none, false⟩ .none .w32 true 1),
     (0x2020040180072A20, .sld always (at_ 3 14 .die .acq) .none .w32 8), (0x20200400001B1808, .sld always (at_ 0 0x36 .core .none) .none .n8 8),
     (0x2030068600001808, .sst always (at_ 12 0 .core .none) .none .n8 false 13), (0x20300D0100001820, .sst always (at_ 2 0 .core .none) .none .w32 false 26),
     (rr 0x200 8 1 0 0xFF (0x1800 + 0x80 + 48 + 4), .vld always ⟨1, none, 0xFF, .core, .none, true⟩ .waitfClr .w128 8),
     (rr 0x204 4 1 2 0 (0x1800 + 0x140 + 24), .vldtr always ⟨1, some 2, 0, .core, .none, false⟩ .waitf .n16 4),
     (rr 0x205 0 1 0 0 0x1800, .pref always (at_ 1 0 .core .none)), (rr 0x206 0 1 0 0 0x1C30, .feset always (at_ 1 0 .core .rel)),
     (rr 0x207 0 1 0 0 0x1830, .feclr always (at_ 1 0 .core .none)), (0x2100048200002420, .atadd always (at_ 4 0 .cluster .rel) .w32 false 9),
     (rr 0x211 4 1 0 0 0x2829, .atmin always (at_ 1 0 .die .none) .w64 true 4), (rr 0x212 4 1 0 0 0x2820, .atminn always (at_ 1 0 .die .none) .w32 false 4),
     (rr 0x213 4 1 0 0 0x2820, .atmax always (at_ 1 0 .die .none) .w32 false 4), (rr 0x214 4 1 0 0 0x2820, .atmaxn always (at_ 1 0 .die .none) .w32 false 4),
     (rr 0x215 4 1 0 0 0x2820, .atand always (at_ 1 0 .die .none) .w32 false 4), (rr 0x216 4 1 0 0 0x2820, .ator always (at_ 1 0 .die .none) .w32 false 4),
     (rr 0x217 4 1 0 0 0x2820, .atxor always (at_ 1 0 .die .none) .w32 false 4), (rr 0x218 4 1 0 0 0x2E21, .atxchg always (at_ 1 0 .die .ar) .w32 true 4),
     (rr 0x219 4 1 0 0 0x2829, .atcas always (at_ 1 0 .die .none) .w64 4), (rr 0x21A 4 1 0 0 0x2820, .atfadd always (at_ 1 0 .die .none) false 4)] = true
  ∧ reads
    [(0x21B0030101812920, .atbadd2 always ⟨2, some 3, 2, .die, .none, false⟩ false 6), (0x21B0010181802920, .atbadd2 always ⟨3, some 3, 0, .die, .none, false⟩ false 2),
     (0xA200038B00822120, .wld ⟨true, .always⟩ ⟨22, some 1, 4, .cluster, .none, false⟩ .w32 .push 7), (rr 0x220 7 1 0 0 0x281A, .wld always (at_ 1 0 .die .none) .n16 .trap 7),
     (0x2210000A0A800000, .wdset always (.s 20) (.s 21)), (rr 0x222 0 1 2 0 0, .wdget always (.s 1) (.s 2)),
     (rr 0x230 0 0 0 0 0x1E00, .fence always .core .ar), (rr 0x231 0 0 0 0 0x2100, .xfence always .cluster .cp .ls),
     (rr 0x232 0 1 2 0 0x2800, .icinv always .die false (.s 1) (.s 2)), (rr 0x232 0 0 0 0 0x1C00, .icinv always .core true (.s 0) (.s 0)),
     (rr 0x240 4 1 0 0 0x3828, .podld always (at_ 1 0 .pod .none) .w64 4), (rr 0x241 4 1 0 0 0x4418, .podst always (at_ 1 0 .system .rel) .n16 4),
     (rr 0x242 4 1 0 0 0x38A1, .podred always (at_ 1 0 .pod .none) .w32 .badd2 4)] = true := by decide +kernel
/-- R237: `.SC` is MOD<8>, at SYSTEM scope with both orderings or as the entry gives it. -/
theorem test_words_fence_sc : ∃ md, is (rr 0x230 0 0 0 0 md) (.fenceSc always) = true ∧ md / 256 % 2 = 1 := ⟨0x3700, by decide +kernel⟩
/-- R281, R282, R286, R300: engine words; the worked words of chapters 13 and 14. -/
theorem test_words_engine : reads
    [(0x3000000180000C07, .ldstat always true .kb8 .n48 .kb8 3 (.s 0) none), (rr 0x300 9 3 4 0 0x0069, .ldstat always false .i8 .n36 .i8 3 (.s 4) (some (.s 9))),
     (rr 0x301 9 0 0 0 0x20, .pswap always (some (.s 9))), (rr 0x302 0 15 4 0 0x1200, .mx always .rtz .f16 15 (.s 4) none),
     (rr 0x303 0 1 4 0 0x0080, .mxsp always .rne .i8 .n24 1 (.s 4) none), (0x3040000002000400, .mxb always .kb8 0 (.s 4) none),
     (0x3040048082000420, .mxb always .kb8 1 (.s 4) (some (.s 9))), (rr 0x305 0 1 4 0 0x0580, .mxbsp always .kb4 1 (.s 4) none),
     (0x306005828303C020, .scacc always .dflt (.s 5) (.s 6) (.s 7) (some (.s 11))), (rr 0x307 0 1 0 0 0, .accclr always (.s 1) none),
     (0x3080060202004020, .accrd always .dflt false false 4 (.s 4) (some (.s 12))), (rr 0x308 0 4 5 0 0x0801, .accrd always .rne true true 4 (.s 5) none),
     (rr 0x309 0 4 5 0 0, .accwr always 4 (.s 5) none), (rr 0x30A 0 1 2 3 0, .accmv always (.s 1) (.s 2) (.s 3) none),
     (rr 0x30B 0 1 2 3 0x4100, .mxtile always .dflt .f8 1 2 (.s 3) none), (rr 0x30C 0 1 2 0 0, .cptile always 1 2 none),
     (rr 0x30D 0 1 2 3 0x4000, .sctile always .dflt (.s 1) 2 3 none), (rr 0x30E 0 1 2 3 0, .cpcopy always (.s 1) (.s 2) (.s 3) none),
     (rr 0x30F 0 1 2 0 0, .cptr always 1 2 none), (rr 0x310 5 1 2 3 0, .cpmcast always 5 (.s 1) 2 (.s 3)),
     (rr 0x311 15 1 2 0 0, .tdset always 15 (.s 1) (.s 2)), (rr 0x312 5 15 0 0 1, .tdget always true 5 15)] = true := by decide +kernel
/-- R343, R344, R352, R384, R402, R412, R418, R420: system, fabric and queue words; the worked words of chapters 18 and 20–24. -/
theorem test_words_system : reads
    [(rr 0x340 0 0 0 0 0xFF, .trap always 0xFF), (0x3410000000000000, .tret always), (0x3420018000000001, .sysrd always .tfbase 3),
     (rr 0x342 3 0 0 0 0x011, .sysrd always .partcfg 3), (rr 0x343 0 1 0 0 0x010, .syswr always .govcfg 1),
     (0x3440000200003500, .tlbinv always .tenant true (.s 4) (.s 0)), (rr 0x344 0 4 5 0 0x2900, .tlbinv always .die false (.s 4) (.s 5)),
     (rr 0x344 0 4 0 0 0x2600, .tlbinvS2 always .cluster (.s 4)), (0x3450000000000000, .brk always 0),
     (0x3600030182800000, .fsend always 6 (.s 3) (.s 5)), (rr 0x360 6 3 5 0 1, .fsendLaunch always 6 (.s 3) (.s 5)),
     (0x3610030182800000, .frecv always 6 (.s 3) (.s 5)), (0x3620010082028000, .allreduce always 2 1 (.s 4) (.s 5)),
     (rr 0x363 6 3 5 0 0, .cgrp always 6 (.s 3) (.s 5)), (0x3700018202800000, .qenq always 3 (.s 4) (.s 5)),
     (0x3710010182003000, .evpost always .tenant 2 (.s 3) (.s 4))] = true := by decide +kernel
/-- R65–R68: the worked paired word, and one of every other kind of half. -/
theorem test_words_paired : reads
    [(0xD0008000A2024102, .pairedWord true ⟨.vaddF32, 0, 4, 0, 1⟩ ⟨.vmulF32, 0, 9, 2, 2⟩),
     (BitVec.ofNat 64 (2 ^ 62 + 0x2D * 2 ^ 55 + 7 * 2 ^ 52 + 127 * 2 ^ 45 + 63 * 2 ^ 38 + 0x07 * 2 ^ 24 + 5 * 2 ^ 21 + 3 * 2 ^ 14 + 4 * 2 ^ 7 + 0x7F),
       .pairedWord false ⟨.vmovS, 7, 127, 63, 0⟩ ⟨.saddi, 5, 3, 4, 0x7F⟩),
     (BitVec.ofNat 64 (2 ^ 62 + 0x32 * 2 ^ 24 + 1 * 2 ^ 14 + 2 * 2 ^ 7), .pairedWord false ⟨.nop, 0, 0, 0, 0⟩ ⟨.vcvtF32I32, 0, 1, 2, 0⟩)] = true := by
  decide +kernel

/-- How a word is refused. -/
def refusal (w : Word64) : Option DecodeError :=
  match decodeWord w with
  | .ok _ => none
  | .error e => some e
/-- R57, R58, R62, R64, R69, R72, R73: words that are no instruction. -/
theorem test_words_refused :
    (refusal (rr 0x3FF 0 0 0 0 0)).isSome && (refusal (rr 0x01F 0 0 0 0 0)).isSome  -- undefined opcodes
    && (refusal (rr 0x001 3 1 2 0 1)).isSome                                          -- a reserved MOD bit
    && (refusal (rr 0x001 64 1 2 0 0)).isSome && (refusal (rr 0x001 3 0x59 2 0 0)).isSome -- a reserved operand code
    && (refusal (rr 0x012 3 1 2 0 0)).isSome                                          -- an unused operand field
    && (refusal (BitVec.ofNat 64 (2 ^ 50))).isSome                                    -- GN with GE = 0
    && (refusal (rr 0x100 4 0 2 0 0x5000)).isSome                                     -- rounding code 5
    && (refusal (rr 0x100 5 0 2 0 0x0010)).isSome                                     -- an odd register pair
    && (refusal (rr 0x200 4 1 0 0 0x1838)).isSome                                     -- SZ 7
    && (refusal (rr 0x01C 0 3 26 0 12)).isSome                                        -- a condition that SCMP does not accept
    && (refusal (BitVec.ofNat 64 (2 ^ 62 + 0x0D * 2 ^ 24))).isSome                    -- a reserved pair opcode
    && (refusal (BitVec.ofNat 64 (2 ^ 62 + 0x20010001 * 2 ^ 31 + 0x22024184))).isSome = true := by decide +kernel -- two reads in one bank quartet

/-! ### One ill-formed term for each check -/

/-- Formats, rounding and saturation that the opcode does not accept (R121–R123, R128, R132–R135). -/
theorem test_wf_formats :
    [Instr.vadd always .i32 .rtz false 4 6 (.v 3), .vadd always .e4m3 .rne false 4 6 (.v 3), .vfma always .i32 .rne false 4 6 (.v 3) (.v 5),
     .vmin always .i32 true 4 6 (.v 3), .vabs always .f32 true 4 6, .vabs always .n32 false 4 6, .vcpsgn always .i32 false 4 6 (.v 3),
     .vcmp always .i32 .un 6 (.v 3), .vcmp always .f32 .tst 6 (.v 3), .vsel always .f16 false 0 4 6 (.v 3), .vmov always .i8 4 (.v 3),
     .vcvt always .f32 .f32 .rne false 4 6, .vcvt always .kb8 .f32 .rne false 4 6, .vrnd always .i32 .rne 4 6, .vclass always .i8 4 6,
     .vabsd always .f32 4 6 (.v 3), .vmad always .i16 false 4 6 (.v 3) (.v 5), .vmulh always .i8 4 6 (.v 3), .vdot2 always .i16 .rtz false 4 6 (.v 3) (.v 5),
     .vpack always .f32 .rne false 4 6 (.v 3), .vunpkl always .i32 4 6, .vkbenc always .f32 4 6 (.v 3), .vrcp always .f64 .rne false 4 6,
     .vredadd always .f64 ⟨0, none⟩ 4 6, .vredand always .f32 ⟨0, none⟩ 4 6, .scmp always .un (.s 1) (.s 2), .ssext always false 65 3 (.s 1),
     .ssext always false 0 3 (.s 1), .slea always true 1 3 (.s 1) (.s 2)].all (fun i => !i.wf) = true := by decide +kernel
/-- Register pairs and quads (R17, R214, R215, R222, R224, R226). -/
theorem test_wf_registers :
    [Instr.vadd always .f64 .rne false 5 6 (.v 2), .vadd always .f64 .rne false 4 7 (.v 2), .vadd always .f64 .rne false 4 6 (.v 3),
     .vfma always .f64 .rne false 4 6 (.v 2) (.v 9), .vcvt always .f32 .f64 .rne false 4 7, .vshfl always .n64 false ⟨0, none⟩ 5 6 (.v 3),
     .vld always (at_ 1 0 .core .none) .none .w128 6, .vldtr always (at_ 1 0 .core .none) .none .n16 5, .atadd always (at_ 1 0 .die .none) .w64 false 5,
     .atcas always (at_ 1 0 .die .none) .w32 5].all (fun i => !i.wf) = true := by decide +kernel
/-- Orderings, qualifiers, sizes, scopes and offset registers that the opcode does not accept (R215, R237, R240, R352, R402, R415). -/
theorem test_wf_memory :
    [Instr.vld always (at_ 1 0 .core .rel) .none .w32 4, .vld always (at_ 1 0 .core .none) .setf .w32 4, .vst always (at_ 1 0 .core .acq) .none .w32 false 4,
     .vst always (at_ 1 0 .core .none) .waitf .w32 false 4, .sld always (at_ 1 0 .core .none) .none .w128 4,
     .sld always ⟨1, some 0, 0, .core, .none, false⟩ .none .w32 4, .vldtr always (at_ 1 0 .core .none) .waitfClr .n8 4,
     .vldtr always (at_ 1 0 .core .none) .none .w32 4, .pref always (at_ 1 0 .core .acq), .feset always (at_ 1 0 .core .ar),
     .atadd always (at_ 1 0 .die .none) .n16 false 4, .wld always (at_ 1 0 .block .none) .w32 .push 4, .wld always (at_ 1 0 .die .none) .w64 .push 4,
     .podld always (at_ 1 0 .die .none) .w32 4, .podred always (at_ 1 0 .pod .none) .w64 .fadd 4, .fence always .core .none,
     .icinv always .pod false (.s 1) (.s 2), .icinv always .core true (.s 1) (.s 0), .tlbinv always .block false (.s 1) (.s 2),
     .tlbinv always .die true (.s 1) (.s 2), .tlbinvS2 always .system (.s 1), .evpost always .block 2 (.s 1) (.s 2)].all (fun i => !i.wf) = true := by
  decide +kernel
/-- Guards that must be absent (R104, R110, R237–R240, R342, R343, R352). -/
theorem test_wf_guards :
    [Instr.bexz never false 0, .bexnz never false 0, .brixl never 3 4, .fence never .core .ar, .fenceSc never, .xfence never .die .cp .ls,
     .icinv never .core false (.s 1) (.s 2), .tret never, .tlbinv never .die false (.s 1) (.s 2), .tlbinvS2 never .die (.s 1), .brk never 0].all
      (fun i => !i.wf) = true := by decide +kernel
/-- Engine modes, sparsity and rounding (R281, R282). -/
theorem test_wf_engine :
    [Instr.ldstat always false .kb8 .n36 .kb8 3 (.s 4) none, .ldstat always false .i8 .n48 .i8 3 (.s 4) none, .mx always .rne .kb8 1 (.s 4) none,
     .mx always .rtz .i8 1 (.s 4) none, .mxsp always .rne .f16 .n48 1 (.s 4) none, .mxb always .f16 1 (.s 4) none, .mxbsp always .i8 1 (.s 4) none,
     .mxtile always .rne .kb4 1 2 (.s 4) none].all (fun i => !i.wf) = true := by decide +kernel
/-- Halves and pairs (R67–R69): a scalar field above 63, a field that must be zero, a shift count of 64, four registers read, two in
one quartet, and a second half that reads what the first writes. -/
theorem test_wf_pairs :
    [Instr.pairedWord false ⟨.sadd, 0, 64, 1, 2⟩ ⟨.nop, 0, 0, 0, 0⟩, .pairedWord false ⟨.nop, 1, 0, 0, 0⟩ ⟨.nop, 0, 0, 0, 0⟩,
     .pairedWord false ⟨.scmpEq, 0, 1, 1, 2⟩ ⟨.nop, 0, 0, 0, 0⟩, .pairedWord false ⟨.sshli, 0, 1, 1, 64⟩ ⟨.nop, 0, 0, 0, 0⟩,
     .pairedWord false ⟨.vaddF32, 0, 4, 0, 1⟩ ⟨.vaddF32, 0, 5, 2, 3⟩, .pairedWord false ⟨.vaddF32, 0, 4, 0, 1⟩ ⟨.vmov, 0, 9, 5, 0⟩,
     .pairedWord false ⟨.vaddF32, 0, 4, 0, 1⟩ ⟨.vmov, 0, 9, 4, 0⟩, .pairedWord false ⟨.smov, 0, 4, 1, 0⟩ ⟨.sadd, 0, 9, 4, 2⟩].all
      (fun i => !i.wf) = true := by decide +kernel

/-! ### Single steps -/

/-- `user` with S1, S2 and S5 set, one bit on top of Q in lane 0, and lanes 0–3 of V2 and V3 as given. -/
def regs (s1 s2 s5 : Word64) (v2 v3 : List Word32) : State :=
  userSlice (fun x =>
    { x with
      s := ((x.s.set 1 s1).set 2 s2).set 5 s5
      q := #v[1, 0, 0, 0]
      v := (List.range 4).foldl (fun v l => Sparse.set 0 (Sparse.set 0 v (2 * 4 + l) (v2.getD l 0)) (3 * 4 + l) (v3.getD l 0)) x.v })
/-- The slice after a step, whatever it holds being a result already computed (R31). -/
def slice (s : State) (i : Instr) : Slice :=
  match exec i s with
  | .next t => (Table.find t.slices 0).getD (Slice.start 0 0 0)
  | _ => Slice.start 0 0 0
/-- What scalar register n comes to hold. -/
def sr (s : State) (i : Instr) (n : Nat) : Word64 := ((slice s i).pendOf (.s n)).headD ((slice s i).sreg n)
/-- What the four lanes of vector register n come to hold. -/
def vr (s : State) (i : Instr) (n : Nat) : List Word64 :=
  (List.range 4).map (fun l => ((slice s i).pendOf (.v n l)).headD ((slice s i).getElem (.v n l)))

/-- R94: SADD wraps at 2^64, and with .SAT clamps the signed sum. -/
theorem test_sadd : sr (regs 0xFFFFFFFFFFFFFFFF 2 0 [] []) (.sadd always false 3 (.s 1) (.s 2)) 3 = 1
    ∧ sr (regs 0x7FFFFFFFFFFFFFFF 2 0 [] []) (.sadd always true 3 (.s 1) (.s 2)) 3 = 0x7FFFFFFFFFFFFFFF := by decide +kernel
/-- R94: SMULH is the high half of the signed product, SMULHN of the unsigned one. -/
theorem test_smulh : sr (regs 0xFFFFFFFFFFFFFFFF 2 0 [] []) (.smulh always 3 (.s 1) (.s 2)) 3 = 0xFFFFFFFFFFFFFFFF
    ∧ sr (regs 0xFFFFFFFFFFFFFFFF 2 0 [] []) (.smulhn always 3 (.s 1) (.s 2)) 3 = 1 := by decide +kernel
/-- R94: only b<5:0> counts. R95: the field ends at bit 63. -/
theorem test_shift_and_field : sr (regs 0x8000000000000000 65 0 [] []) (.ssra always 3 (.s 1) (.s 2)) 3 = 0xC000000000000000
    ∧ sr (regs 0xA000000000000000 60 7 [] []) (.sbfx always true 3 (.s 1) (.s 2) (.s 5)) 3 = 0xFFFFFFFFFFFFFFFA := by decide +kernel
/-- R96: the pod address of offset a in chip b. -/
theorem test_slea_pod : sr (regs 0xFFF0123456789ABC 0x12345 0 [] []) (.slea always true 0 3 (.s 1) (.s 2)) 3 = 0x8034523456789ABC := by decide +kernel
/-- R98: −1 extends to the largest unsigned number; every lane receives the bit. -/
theorem test_scmpi : (slice (regs 5 0 0 [] []) (.scmpi always .ltn (.s 1) 0xFFFF)).q = #v[3, 1, 1, 1] := by decide +kernel
/-- R61, R104: a call saves the address of the next word and jumps by words. -/
theorem test_call : sr user (.call always 7 0xFFFFFFFE) 7 = BitVec.ofNat 64 (placeCode + 8)
    ∧ (slice user (.call always 7 0xFFFFFFFE)).pc = BitVec.ofNat 64 (placeCode - 16) := by decide +kernel
/-- R101: EXFROMQ keeps the lanes whose bit is 1, and delivers the old mask. -/
theorem test_exfromq : (slice (regs 0 0 0 [] []) (.exfromq always false 0 3)).exec = 1 ∧ sr (regs 0 0 0 [] []) (.exfromq always false 0 3) 3 = 15 := by
  decide +kernel
/-- R124: 1.0 + 2^-24 rounds to even, up to the next number with RUP; −0 + 0 is +0. -/
theorem test_vadd : vr (regs 0 0 0 [0x3F800000, 0x80000000] [0x33800000, 0]) (.vadd always .f32 .rne false 4 2 (.v 3)) 4 = [0x3F800000, 0, 0, 0]
    ∧ vr (regs 0 0 0 [0x3F800000, 0x80000000] [0x33800000, 0]) (.vadd always .f32 .rup false 4 2 (.v 3)) 4 = [0x3F800001, 0, 0, 0] := by
  decide +kernel
/-- R132: the table of chapter 05 for VCVT.E4M3.F32.RNE.SAT V5, V2. -/
theorem test_vcvt : vr (regs 0 0 0 [0x3F800000, 0x43EB0000, 0xC47A0000, 0x7F800001] []) (.vcvt always .e4m3 .f32 .rne true 5 2) 5
    = [0x38, 0x7E, 0xFE, 0x7F] := by decide +kernel
/-- R132, R43: the same word without SAT gives the canonical NaN in lanes 1 and 2. -/
theorem test_vcvt_unsaturated : vr (regs 0 0 0 [0x3F800000, 0x43EB0000, 0xC47A0000, 0x7F800001] []) (.vcvt always .e4m3 .f32 .rne false 5 2) 5
    = [0x38, 0x7F, 0x7F, 0x7F] := by decide +kernel
/-- R23, R128: an inactive lane pushes 0. -/
theorem test_vcmp : (slice (regs 0 0 0 [1, 5, 3, 4] [1, 2, 3, 4]) (.vcmp ⟨false, .q true 0⟩ .i32 .eq 2 (.v 3))).q = #v[2, 0, 1, 1] := by decide +kernel
/-- R28, R68: both halves read before either writes, and VFMA.F32 adds its destination: 2 × 3 + 1. -/
theorem test_paired : vr (regs 0 0 0 [0x40000000] [0x3F800000]) (.pairedWord false ⟨.vmov, 0, 2, 3, 0⟩ ⟨.vmov, 0, 3, 3, 0⟩) 2
    = [0x3F800000, 0, 0, 0] := by decide +kernel
/-- R339: a trap enters handler level at TRAPVEC with S0 the frame's address. -/
theorem test_trap : (slice user (.trap always 7)).priv = 1 ∧ (slice user (.trap always 7)).pc = 0x200000
    ∧ some ((slice user (.trap always 7)).sreg 0) = (slice user (.trap always 7)).frame := by decide +kernel
/-- R112, R20: EXIT under a guard ends its lanes alone. -/
theorem test_exit : (slice (regs 0 0 0 [] []) (.exit ⟨false, .q false 0⟩)).live = 14 ∧ (slice (regs 0 0 0 [] []) (.exit ⟨false, .q false 0⟩)).ended = false := by
  decide +kernel
/-- R114, R220: a store of two lanes of one word: the last lane that covers a byte supplies it. -/
theorem test_store_order : storedOver [(100, leBytes 4 0x11111111), (102, leBytes 4 0x22222222)] 101 0 = 0x11
    ∧ storedOver [(100, leBytes 4 0x11111111), (102, leBytes 4 0x22222222)] 102 0 = 0x22
    ∧ storedOver [(100, leBytes 4 0x11111111), (102, leBytes 4 0x22222222)] 106 7 = 7 := by decide +kernel
/-- FIPS 180-4's example: SHA-384 of "abc" (R86). -/
theorem test_sha : (Sha.sha384 [0x61, 0x62, 0x63]).take 8 = [0xcb, 0x00, 0x75, 0x3f, 0x45, 0xa3, 0x5e, 0x8b] := by decide +kernel
/-- A placed word runs in the very next step: SMOVK S3, −1 (R100; log entry 19). -/
theorem test_placed : (match step (State.reset.withFetchWord 64 (ki 0x030 3 0xFFFFFFFF 0).toNat) with
    | .next t => ((Table.find t.slices 0).map (fun x => (x.sreg 3, x.pc)))
    | _ => none) = some (0xFFFFFFFFFFFFFFFF, BitVec.ofNat 64 (placeCode + 8)) := by decide +kernel

end Sys2Proof.Tests
end

