-- ==== Sys2Proof/Tests/WitnessMore.lean ====
section
/-! SUPPORT. More states and operands that meet the hypotheses of statements: traps, joined barriers and instances, memory atomics, copies
with memory, and pod accesses. -/

open Sys2Proof Sys2Proof.Machine

namespace Sys2Proof.Tests

set_option Elab.async false

/-! ### The step -/

/-- A turn of the slice at a word that no row of the table has, and one at an address that no fetch may have. -/
def undecodable : State := State.reset.placeProgram 0x3FF0000000000000
def unfetchable : State := stepping.modSlice 0 (fun x => { x with pc := 0x7FFFFF0000000000 })
theorem witness_StepElse_undecodable : ∃ c w s1 e,
    undecodable.turns = ⟨1, .slice 0⟩ :: []
    ∧ (undecodable.advance undecodable.nextTurn).ctx 0 = some c ∧ (undecodable.advance undecodable.nextTurn).ready 0 = true
    ∧ c.atJoin = false ∧ c.fetch = .word w s1 ∧ decodeWord w = .error e := by
  have h : (match (undecodable.advance undecodable.nextTurn).ctx 0 with
      | some c => !c.atJoin && (match c.fetch with
        | .word w _ => (decodeWord w).toOption.isNone
        | _ => false)
      | none => false) = true := by decide +kernel
  have h1 : undecodable.turns = [⟨1, .slice 0⟩] := by decide +kernel
  have h2 : (undecodable.advance undecodable.nextTurn).ready 0 = true := by decide +kernel
  split at h
  · rename_i c hc
    simp only [Bool.and_eq_true, Bool.not_eq_true'] at h
    obtain ⟨hj, h⟩ := h
    split at h
    · rename_i w s1 hf
      cases hd : decodeWord w with
      | ok i => rw [hd] at h; cases h
      | error e => exact ⟨c, w, s1, e, h1, hc, h2, hj, hf, hd⟩
    · cases h
  · cases h
theorem witness_StepElse_trap : ∃ c t s1,
    unfetchable.turns = ⟨1, .slice 0⟩ :: []
    ∧ (unfetchable.advance unfetchable.nextTurn).ctx 0 = some c ∧ (unfetchable.advance unfetchable.nextTurn).ready 0 = true
    ∧ c.atJoin = false ∧ c.fetch = .trap t s1 := by
  have h : (match (unfetchable.advance unfetchable.nextTurn).ctx 0 with
      | some c => !c.atJoin && (match c.fetch with
        | .trap _ _ => true
        | _ => false)
      | none => false) = true := by decide +kernel
  have h1 : unfetchable.turns = [⟨1, .slice 0⟩] := by decide +kernel
  have h2 : (unfetchable.advance unfetchable.nextTurn).ready 0 = true := by decide +kernel
  split at h
  · rename_i c hc
    simp only [Bool.and_eq_true, Bool.not_eq_true'] at h
    obtain ⟨hj, h⟩ := h
    split at h
    · rename_i t s1 hf
      exact ⟨c, t, s1, h1, hc, h2, hj, hf⟩
    · cases h
  · cases h
/-- `stepping` without a schedule. -/
def unscheduled : State := { stepping with turns := [] }
theorem witness_StepElse_default : unscheduled.turns = [] ∧ unscheduled.slices = [] ++ (0, (ctxAt unscheduled 0).x) :: []
    ∧ unscheduled.ready 0 = true ∧ ({ State.reset with turns := [] } : State).slices = [] := by decide +kernel

/-! ### Traps that end the grid -/

/-- `user` whose kernel has no handler, and whose function has no frame area. -/
def handlerless : State := user.modGrid 0 (fun g => { g with lrec := g.lrec &&& BitVec.ofNat 1024 (2 ^ 1024 - 1 - (2 ^ 192 - 2 ^ 128)) })
def frameless : State := user.modChip 0 (fun c => { c with tfbase := 0 })
theorem witness_TrapsThatEnd : AtRest handlerless (ctx handlerless) ∧ (ctx handlerless).x.priv = 0
    ∧ (ctx handlerless).trapRule (.trap always 7) = some { cause := .software, aux := 7 } ∧ fld (ctx handlerless).lrec 191 128 = 0
    ∧ AtRest frameless (ctx frameless) ∧ (ctx frameless).x.priv = 0
    ∧ (ctx frameless).trapRule (.brk always 0) = some { cause := .breakpoint }
    ∧ fld (ctx frameless).lrec 191 128 ≠ 0 ∧ (frameless.chip (ctx frameless).b.vf).tfbase = 0 :=
  ⟨atRest_of _ (by decide +kernel), by decide +kernel, by decide +kernel, by decide +kernel, atRest_of _ (by decide +kernel),
    by decide +kernel, by decide +kernel, by decide +kernel, by decide +kernel⟩
theorem witness_TrapsThatEnd_levels : AtRest handler (ctx handler) ∧ (ctx handler).x.priv = 1
    ∧ AtRest steward (ctx steward) ∧ 2 ≤ (ctx steward).x.priv
    ∧ AtRest user (ctx user) ∧ (ctx user).x.priv = 0 ∧ Cause.delivered .stage2Fault = false :=
  ⟨atRest_of _ (by decide +kernel), by decide +kernel, atRest_of _ (by decide +kernel), by decide +kernel, rest_user, by decide +kernel, rfl⟩
/-- A slice at steward level in the management complex's own context. -/
def management : State := steward.modBlock 0 (fun b => { b with vf := 64 })
theorem witness_SystemPrivileges : AtRest handler (ctx handler) ∧ (ctx handler).x.priv = 1
    ∧ AtRest steward (ctx steward) ∧ 2 ≤ (ctx steward).x.priv
    ∧ AtRest management (ctx management) ∧ 2 ≤ (ctx management).x.priv ∧ 64 ≤ (ctx management).b.vf :=
  ⟨atRest_of _ (by decide +kernel), by decide +kernel, atRest_of _ (by decide +kernel), by decide +kernel,
    atRest_of _ (by decide +kernel), by decide +kernel, by decide +kernel⟩

/-! ### Words that wait -/

/-- A slice with one load outstanding. -/
def awaiting : State := (busy memLoad).modSlice 0 (fun x => { x with cnt := { x.cnt with ld := 1 } })
theorem witness_WaitHolds : awaiting.ctx awaiting.cur = some (ctx awaiting) ∧ (ctx awaiting).x.dropDue = false
    ∧ (ctx awaiting).x.poisonDue = [] ∧ (ctx awaiting).x.engFail = [] ∧ (ctx awaiting).x.guardScalar always.guard = true
    ∧ (ctx awaiting).x.cnt.st.toNat ≤ 0 ∧ ¬ (ctx awaiting).x.cnt.ld.toNat ≤ 0 ∧ (ctx awaiting).x.cnt.ld.toNat ≤ 6 := by decide +kernel

/-- `user` with 2 in S1, and `pairUp` with its other slice held at barrier 0. -/
def outOfMask : State := userSlice (fun x => { x with s := (Vector.replicate 64 (0 : Word64)).set 1 2 })
def heldThere : Arrival := ⟨1, 1, false, 0⟩
def meeting : State := (pairUp.modSlice 1 (fun x => { x with hold := .barrier 0 })).modBlock 0 (fun b => { b with bars := [(0, [heldThere])] })
theorem witness_BarrierJoined_outside : ∃ at_ after,
    (((ctx outOfMask).val (.s 1)).setWidth 32 &&& BitVec.ofNat 32 (2 ^ (ctx outOfMask).b.squads.length - 1)).getLsbD (keySquad outOfMask.cur) = false
    ∧ (ctx outOfMask).x.guardScalar always.guard = true ∧ (ctx outOfMask).x.ended = false
    ∧ keySquad outOfMask.cur < (ctx outOfMask).b.squads.length
    ∧ TrapReady outOfMask (ctx outOfMask) { cause := .groupSync } 0x200000 at_ after := by
  obtain ⟨x, y, h⟩ := trapReady_of outOfMask { cause := .groupSync } 0x200000 (by decide +kernel)
  exact ⟨x, y, by decide +kernel, by decide +kernel, by decide +kernel, by decide +kernel, h⟩
/-- BAR 0 without a register: the squads of the block. -/
theorem witness_BarrierJoined_open : AtRest pairUp (ctx pairUp) ∧ (ctx pairUp).x.priv ≠ 1 ∧ (ctx pairUp).x.guardScalar always.guard = true
    ∧ keySquad pairUp.cur < (ctx pairUp).b.squads.length ∧ (ctx pairUp).x.ended = false
    ∧ (let named : BitVec 32 := 0xFFFFFFFF &&& BitVec.ofNat 32 (2 ^ (ctx pairUp).b.squads.length - 1)
       let all : List Arrival := Table.getD (ctx pairUp).b.bars 0 [] ++ [⟨pairUp.cur, named, false, pairUp.ir⟩]
       named.getLsbD (keySquad pairUp.cur) = true
       ∧ ∃ q sl, q < (ctx pairUp).b.squads.length ∧ sl < 8 ∧ (∃ a ∈ all, a.mask.getLsbD q = true)
        ∧ (∀ a ∈ all, a.slice ≠ keyOf (keyBlock pairUp.cur) q sl) ∧ pairUp.mayCome (keyOf (keyBlock pairUp.cur) q sl) = true) :=
  ⟨atRest_of _ (by decide +kernel), by decide +kernel, by decide +kernel, by decide +kernel, by decide +kernel, by decide +kernel,
    0, 1, by decide +kernel⟩
theorem witness_BarrierJoined_complete : AtRest meeting (ctx meeting) ∧ (ctx meeting).x.priv ≠ 1
    ∧ (ctx meeting).x.guardScalar always.guard = true ∧ keySquad meeting.cur < (ctx meeting).b.squads.length ∧ (ctx meeting).x.ended = false
    ∧ (let named : BitVec 32 := 0xFFFFFFFF &&& BitVec.ofNat 32 (2 ^ (ctx meeting).b.squads.length - 1)
       let held : List Arrival := Table.getD (ctx meeting).b.bars 0 []
       let all : List Arrival := held ++ [⟨meeting.cur, named, false, meeting.ir⟩]
       named.getLsbD (keySquad meeting.cur) = true
       ∧ (∀ q, q < (ctx meeting).b.squads.length → ∀ sl, sl < 8 → (∃ a ∈ all, a.mask.getLsbD q = true) →
          (∀ a ∈ all, a.slice ≠ keyOf (keyBlock meeting.cur) q sl) → meeting.mayCome (keyOf (keyBlock meeting.cur) q sl) = false)
       ∧ held = [heldThere] ∧ (∀ a ∈ held, a.mask = named) ∧ (all.map (fun a => a.slice)).Nodup
       ∧ ∀ a ∈ held, keyBlock a.slice = keyBlock meeting.cur ∧ (Table.find meeting.slices a.slice).isSome = true
          ∧ ∀ y ∈ (Table.find meeting.slices a.slice).toList, y.splice = none ∧ y.ops = [] ∧ y.pend = [] ∧ y.poisonDue = []) :=
  ⟨atRest_of _ (by decide +kernel), by decide +kernel⟩

/-! ### Cross-lane words of two slices -/

/-- A sum over the slices of the squad. -/
def squadSum : Instr := .vredadd always .i32 ⟨0, none⟩ 255 2
/-- What a slice brings to it. -/
def memberOf (c : Ctx) : Member := (c.joins squadSum).getD ⟨0, squadSum, 0, 0, false, [], [], []⟩
/-- `pairUp` with the other slice held at the sum. -/
def gathered : State :=
  let s := pairUp.modSlice 1 (fun x => { x with hold := .inst (ctx pairUp).x.pc })
  s.modBlock 0 (fun b => { b with squads := b.squads.map (fun q => { q with insts := [⟨(ctx pairUp).x.pc, [memberOf (ctxAt s 1)]⟩] }) })
/-- The slice that it holds. -/
def gatheredHeld : List (Ctx × Member) := [(ctxAt gathered 1, memberOf (ctxAt gathered 1))]
theorem witness_CrossLaneTogether : GroupReady gathered (ctx gathered) squadSum 0xFF gatheredHeld
    ∧ ((ctx gathered).soloRule squadSum).isSome = true
    ∧ ((ctx gathered).soloRule squadSum).all (fun r => r.uses.all (fun u => decide (u.n + u.count ≤ (ctx gathered).squad.vcount))) = true
    ∧ ((ctx gathered).groupRule (gatheredHeld.map Prod.fst ++ [ctx gathered]) squadSum).isSome = true := by
  have hv : (ctxAt gathered 1).x.vpoison = [] := by decide +kernel
  refine ⟨⟨atRest_of _ (by decide +kernel), by decide +kernel, by decide +kernel, by decide +kernel, by decide +kernel, ?_, by decide +kernel,
    ?_, ?_⟩, by decide +kernel, by decide +kernel, by decide +kernel⟩
  · exact ⟨by decide +kernel, by decide +kernel⟩
  · intro e he
    rw [gatheredHeld, List.mem_singleton] at he
    subst he
    refine ⟨by decide +kernel, by decide +kernel, by decide +kernel, by decide +kernel, by decide +kernel, by decide +kernel,
      by decide +kernel, by decide +kernel, by decide +kernel, by decide +kernel, fun n => ?_⟩
    simp only [hv]
    rfl
  · decide +kernel

/-! ### Atomics on memory, and memory words that trap -/

/-- An atomic without return and one with, on memory. -/
def memAtomic : MemOp := oneOp (.atomic .add .w64 none) (memLane (leBytes 8 5))
def memReturn : MemOp := oneOp (.atomic .max .w32 (some 254)) (memLane (leBytes 4 5))
theorem witness_AtomicMemory :
    let s := busy memAtomic
    let a := memLane (leBytes 8 5)
    Alone s 0 (ctxAt s 0) memAtomic ∧ memAtomic.lanes = [a] ∧ a.got = none ∧ a.fwd = [] ∧ memAtomic.kind = .atomic .add .w64 none
    ∧ a.pa.isSome = true
    ∧ (s.translate (ctxAt s 0).b.vf (s.tlbOf (ctxAt s 0).b.core) (laneSite a.lane + 1024 * (memAtomic.seq + 1)) a.addr.toNat .atomic).isOk = true :=
  ⟨alone_of _ _ _ (by decide +kernel), rfl, rfl, rfl, rfl, rfl, by decide +kernel⟩
theorem witness_AtomicMemory_return :
    let s := busy memReturn
    let a := memLane (leBytes 4 5)
    Alone s 0 (ctxAt s 0) memReturn ∧ memReturn.lanes = [a] ∧ a.got = none ∧ a.fwd = [] ∧ memReturn.kind = .atomic .max .w32 (some 254)
    ∧ a.pa = some 0x180000 ∧ (ctxAt s 0).Readable a Sz.w32.bytes :=
  ⟨alone_of _ _ _ (by decide +kernel), rfl, rfl, rfl, rfl, rfl, readable_of _ _ _ (by decide +kernel)⟩

/-- `user` with an address in S1 alone, and under a policy that permits no scope wider than TENANT. -/
def addressing (a : Nat) : State := userSlice (fun x => { x with s := (Vector.replicate 64 (0 : Word64)).set 1 (BitVec.ofNat 64 a) })
def confined : State := (addressing 0x180000).modDev (fun d => { d with frec := Table.put d.frec 0 (BitVec.ofNat 256 (1 + 2 ^ 64 + 2 ^ 176)) })
/-- Loads: of pairs of registers at POD scope, and of a word of form .WAITF. -/
def podLoadWord : Instr := .vld always (atS1 .pod) .none .w64 254
def waitfLoad : Instr := .vld always (atS1 .block) .waitf .w32 255
theorem witness_MemoryTraps_scope :
    let m := memOf confined podLoadWord
    AtRest confined (ctx confined) ∧ (ctx confined).memRule podLoadWord = some (m.1, m.2.1, m.2.2) ∧ (ctx confined).fits m.2.1
    ∧ m.2.2.kind.full (ctx confined).x.cnt = false ∧ confined.scopeDenied (ctx confined).b.vf m.2.2.mem.scope = true
    ∧ (ctx confined).memAccesses m.1 m.2.2 ≠ []
    ∧ ∃ at_ after, TrapReady confined (ctx confined) { cause := .scopePolicy } 0x200000 at_ after :=
  ⟨atRest_of _ (by decide +kernel), rfl, by unfold Ctx.fits; decide +kernel, by decide +kernel, by decide +kernel, by decide +kernel,
    trapReady_of _ _ _ (by decide +kernel)⟩
theorem witness_MemoryTraps_form :
    let s := addressing 0x7FFFFF0100100000
    let m := memOf s pairLoad
    AtRest s (ctx s) ∧ (ctx s).memRule pairLoad = some (m.1, m.2.1, m.2.2) ∧ (ctx s).fits m.2.1
    ∧ m.2.2.kind.full (ctx s).x.cnt = false ∧ s.scopeDenied (ctx s).b.vf m.2.2.mem.scope = false
    ∧ ((ctx s).memAccesses m.1 m.2.2).find? (fun p => decide (0x7FFFFF0100100000 ≤ p.2)) = some (0, 0x7FFFFF0100100000)
    ∧ m.2.2.ask.want.writes = false
    ∧ ∃ at_ after, TrapReady s (ctx s)
        { cause := .addressForm, addr := BitVec.ofNat 64 0x7FFFFF0100100000, lane := 0, level := 0, wr := false } 0x200000 at_ after :=
  ⟨atRest_of _ (by decide +kernel), rfl, by unfold Ctx.fits; decide +kernel, by decide +kernel, by decide +kernel, by decide +kernel,
    rfl, trapReady_of _ _ _ (by decide +kernel)⟩
/-- Whether lane 0's place of a memory word is the first to fail. -/
def failsFirst (s : State) (i : Instr) (a lv : Nat) : Bool :=
  let m := memOf s i
  restful s && !m.2.2.kind.full (ctx s).x.cnt && !s.scopeDenied (ctx s).b.vf m.2.2.mem.scope
    && ((ctx s).memAccesses m.1 m.2.2).all (fun p => decide (p.2 < 0x7FFFFF0100100000) && p.2 % m.2.2.ask.size == 0)
    && ((ctx s).memAccesses m.1 m.2.2).head? == some (0, a) && ((ctx s).resolveAll m.2.2.ask []).isOk
    && !m.2.2.ask.want.writes
    && trapsAt s { cause := .dataFault, addr := BitVec.ofNat 64 a, lane := 0, level := lv, wr := false } 0x200000
/-- A place beyond the scratchpad's 64 KiB. -/
theorem witness_MemoryTraps_scratch :
    failsFirst (addressing 0x7FFFFF0000010000) pairLoad 0x7FFFFF0000010000 0 = true
    ∧ (ctx (addressing 0x7FFFFF0000010000)).b.scratchSize = 0x10000 :=
  ⟨by decide +kernel, by decide +kernel⟩
/-- The register window. -/
theorem witness_MemoryTraps_window : failsFirst (addressing 0x7FFFFF0100000000) pairLoad 0x7FFFFF0100000000 0 = true := by
  decide +kernel
/-- A full-empty load of memory. -/
theorem witness_MemoryTraps_granule : failsFirst (addressing 0x180000) waitfLoad 0x180000 0 = true
    ∧ (memOf (addressing 0x180000) waitfLoad).2.2.ask.granule = true :=
  ⟨by decide +kernel, by decide +kernel⟩
/-- An unmapped page. -/
theorem witness_MemoryTraps_unmapped :
    ∃ lv, lv < 4
      ∧ (addressing 0x7FFF00000000).translate (ctx (addressing 0x7FFF00000000)).b.vf
          ((addressing 0x7FFF00000000).tlbOf (ctx (addressing 0x7FFF00000000)).b.core) (laneSite 0) 0x7FFF00000000 .read = .error (.stage1 lv)
      ∧ failsFirst (addressing 0x7FFF00000000) pairLoad 0x7FFF00000000 lv = true := by
  decide +kernel

theorem witness_WellAndPodTraps_well :
    let s := addressing 0x180000
    AtRest s (ctx s) ∧ (ctx s).fits (memUses (atS1 .block) [⟨255, 1, false⟩])
    ∧ (ctx s).x.cnt.wl ≠ 63 ∧ s.scopeDenied (ctx s).b.vf .block = false
    ∧ ((ctx s).memAccesses always ⟨atS1 .block, true, { want := .read, size := 4, well := true }, .well 255 .w32 [] .noq,
        fun _ _ => ([], [])⟩).find? (fun p => !decide (0x7FFFFF0200000000 ≤ p.2 ∧ p.2 < 0x7FFFFF0204000000)) = some (0, 0x180000)
    ∧ ∃ at_ after, TrapReady s (ctx s) { cause := .addressForm, addr := BitVec.ofNat 64 0x180000, lane := 0 } 0x200000 at_ after :=
  ⟨atRest_of _ (by decide +kernel), by unfold Ctx.fits; decide +kernel, by decide +kernel, by decide +kernel, by decide +kernel,
    trapReady_of _ _ _ (by decide +kernel)⟩
/-- Whether a PODLD of a state's slice gets past its operands, with its lanes at one address, and a trap there has its handler. -/
def podTraps (s : State) (cause : Cause) (a : Nat) : Bool :=
  let m := podOf s (.podld always (atS1 .pod) .w64 254)
  restful s && decide ((ctx s).x.cnt.fb ≠ 63) && !s.scopeDenied (ctx s).b.vf m.2.2.mem.scope
    && ((ctx s).memAccesses m.1 m.2.2).all (fun p => p.2 == a) && ((ctx s).memAccesses m.1 m.2.2).head? == some (0, a)
    && !m.2.2.ask.want.writes && trapsAt s { cause := cause, addr := BitVec.ofNat 64 a, lane := 0, wr := false } 0x200000
theorem witness_WellAndPodTraps_pod : podTraps (addressing 0x180000) .addressForm 0x180000 = true
    ∧ podTraps (addressing (2 ^ 63 + 2 ^ 56 + 0x180000)) .addressForm (2 ^ 63 + 2 ^ 56 + 0x180000) = true
    ∧ podTraps (addressing (2 ^ 63 + 2 ^ 44 + 0x180000)) .podMember (2 ^ 63 + 2 ^ 44 + 0x180000) = true
    ∧ entryValid ((addressing (2 ^ 63 + 2 ^ 44 + 0x180000)).chipEntry 0 1) = false
    ∧ podTraps (podded (addressing (2 ^ 63 + 0x180004))) .misalignedData (2 ^ 63 + 0x180004) = true
    ∧ entryValid ((podded (addressing (2 ^ 63 + 0x180004))).chipEntry 0 0) = true :=
  ⟨by decide +kernel, by decide +kernel, by decide +kernel, by decide +kernel, by decide +kernel, by decide +kernel⟩

/-! ### Engine commands that read and write elsewhere -/

/-- A command that no cycle has reached yet. -/
def early : State := queued false { swapCmd with at_ := 1 }
def earlyCopy : State := queued true { copyCmd with at_ := 1 }
theorem witness_EngineOrder : (early.core 0).cmdq = { swapCmd with at_ := 1 } :: [] ∧ early.now < 1
    ∧ (earlyCopy.core 0).copyq = { copyCmd with at_ := 1 } :: [] ∧ earlyCopy.now < 1 := by decide +kernel
/-- Copies of 16 bytes from memory to the scratchpad and back. -/
def copyIn : Cmd := aCmd (.cpcopy 0x7FFFFF0000000040 0x180000 16) 0
def copyOut : Cmd := aCmd (.cpcopy 0x180000 0x7FFFFF0000000040 16) 0
/-- What a step of a command at the head of core 0's copy queue reads. -/
def stepBytes (c : Cmd) (src n : Nat) : List Byte :=
  okD ((queued true c).engRead (c.reader (blockOf (queued true c))) (blockOf (queued true c)).vf 0 (blockOf (queued true c)) 70000 src n) []
theorem witness_EngineReads :
    let s := queued true copyIn
    let b := blockOf s
    let x := okD (s.translate b.vf (s.tlbOf b.core) 70000 0x180000 .read) noXlat
    regionOf 0x180000 = .virt ∧ 0x180000 % 65536 + 16 ≤ 65536 ∧ s.translate b.vf (s.tlbOf b.core) 70000 0x180000 .read = .ok x
    ∧ s.linePoisoned x.pa 16 = false ∧ s.past = [] ∧ (∀ g, g < 2 → Sparse.get false b.poison g = false) := by decide +kernel
theorem witness_MemoryCopies_in :
    let s := queued true copyIn
    AtHead s 0 true copyIn [] (blockOf s) ∧ copyIn.next < copyIn.kind.total ∧ noPod 0x180000 16
    ∧ s.engRead (copyIn.reader (blockOf s)) (blockOf s).vf 0 (blockOf s) 70000 0x180000 16 = .ok (stepBytes copyIn 0x180000 16)
    ∧ copyIn.kind = .cpcopy 0x7FFFFF0000000040 0x180000 16 ∧ (0x180000 : Word64).toNat + copyIn.next * 2048 = 0x180000
    ∧ (0x7FFFFF0000000040 : Word64).toNat + copyIn.next * 2048 = 0x7FFFFF0000000000 + 64 ∧ 16 = min 2048 (16 - copyIn.next * 2048) :=
  ⟨atHead_of _ _ _ (by decide +kernel), by decide, by unfold noPod; decide +kernel, by decide +kernel, rfl, by decide, by decide, by decide⟩
theorem witness_MemoryCopies_out :
    let s := queued true copyOut
    AtHead s 0 true copyOut [] (blockOf s) ∧ copyOut.next < copyOut.kind.total ∧ noPod 0x7FFFFF0000000040 16
    ∧ s.engRead (copyOut.reader (blockOf s)) (blockOf s).vf 0 (blockOf s) 70000 0x7FFFFF0000000040 16
      = .ok (stepBytes copyOut 0x7FFFFF0000000040 16)
    ∧ copyOut.kind = .cpcopy 0x180000 0x7FFFFF0000000040 16 ∧ regionOf 0x180000 = .virt ∧ 0x180000 % 65536 + 16 ≤ 65536
    ∧ (s.translate (blockOf s).vf (s.tlbOf 0) 80000 0x180000 .write).isOk = true :=
  ⟨atHead_of _ _ _ (by decide +kernel), by decide, by unfold noPod; decide +kernel, by decide +kernel, rfl, by decide, by decide, by decide +kernel⟩
/-- A transpose of two rows of four bytes, one row of it written, and a multicast of two rows to cores 0 and 1. -/
def turnCmd : Cmd := aCmd (.cptr (padTile .i8 4 2 64) (padTile .i8 2 4 0)) 1
def sendCmd : Cmd := aCmd (.cpmcast 2 (BitVec.ofNat 64 (0xFFFFFFFF * 2 ^ 32)) (padTile .i8 2 4 0) 3 64) 0
theorem witness_TransposeSteps :
    let s := queued true turnCmd
    let u := theTile .i8 2 4 0
    AtHead s 0 true turnCmd [] (blockOf s) ∧ tileOf (padTile .i8 4 2 64) = some (theTile .i8 4 2 64) ∧ tileOf (padTile .i8 2 4 0) = some u
    ∧ turnCmd.next < (theTile .i8 4 2 64).rows
    ∧ ∀ i, i < u.rows → noPod (u.addr i turnCmd.next) 1
      ∧ (s.engRead (turnCmd.reader (blockOf s)) (blockOf s).vf 0 (blockOf s) (70000 + 1024 * i) (u.addr i turnCmd.next) 1).isOk = true :=
  ⟨atHead_of _ _ _ (by decide +kernel), by decide +kernel, by decide +kernel, by decide, by unfold noPod; decide +kernel⟩
theorem witness_MulticastSteps :
    let s := queued true sendCmd
    let u := theTile .i8 2 4 0
    AtHead s 0 true sendCmd [] (blockOf s) ∧ tileOf (padTile .i8 2 4 0) = some u
    ∧ (BitVec.ofNat 64 (0xFFFFFFFF * 2 ^ 32)).toNat / 2 ^ 32 = 0xFFFFFFFF ∧ (3 : BitVec 8) ≠ 0 ∧ sendCmd.next < u.rows
    ∧ s.engRead (sendCmd.reader (blockOf s)) (blockOf s).vf 0 (blockOf s) 70000 (u.row sendCmd.next) u.rb
      = .ok (stepBytes sendCmd (u.row 0) u.rb)
    ∧ s.mcastDests 0 (blockOf s).gid 3 = [(0, 0)] :=
  ⟨atHead_of _ _ _ (by decide +kernel), by decide +kernel⟩

/-! ### Pod accesses -/

/-- A pod access of lane 3 to chip 0's byte 0x180000, checked, with data. -/
def podLaneOf (bs : List Byte) (pa : Option Nat) : LaneAcc := ⟨3, 2 ^ 63 + 0x180000, pa, bs, [], [], false, none, false⟩
def podAccess (kind : OpKind) (bs : List Byte) (pa : Option Nat) : MemOp := { oneOp kind (podLaneOf bs pa) with checked := true }
/-- Whether it may be performed. -/
def podPerforms (kind : OpKind) (bs : List Byte) (pa : Option Nat) (want : Want) : Bool :=
  let o := podAccess kind bs pa
  let s := podded (busy o)
  lonely s 0 o && decide ((ctxAt s 0).podBlocked o = none) && decide (s.target (ctxAt s 0).b.vf 0 = .here 0)
    && (s.translate 0 (s.chipTlb 0) (laneSite 3 + 128) 0x180000 want).isOk
theorem witness_PodPerformed : (podLaneOf [] none).addr.toNat / 2 ^ 44 % 2 ^ 12 = 0 ∧ (podLaneOf [] none).addr.toNat % 2 ^ 44 = 0x180000
    ∧ podPerforms (.podStore .w64) (leBytes 8 0x1122334455667788) none .write = true
    ∧ podPerforms (.podRed .add .w32) (leBytes 4 5) none .atomic = true
    ∧ podPerforms (.podLoad 254 .w64) [] (some 0x180000) .read = true
    ∧ (podded (busy (podAccess (.podLoad 254 .w64) [] (some 0x180000)))).linePoisoned 0x180000 8 = false
    ∧ (podded (busy (podAccess (.podLoad 254 .w64) [] (some 0x180000)))).past = [] := by decide +kernel

/-! ### Migration, the Windlass, and the host -/

/-- An image for function 1, offered on a module. -/
def offered (m : MigImage) : State :=
  user.modDev (fun d => { d with frec := Table.put d.frec 1 (BitVec.ofNat 256 (3 + 2 ^ 176)), images := [m] })
theorem offered_compat (m : MigImage) : (offered m).compat = user.compat := by simp only [State.compat, offered, State.modDev]
theorem witness_Migration_keys :
    let m := { anImage user.compat 0x47494D4B with linkKeys := [(0, 0x123)] }
    (offered m).dev.images[0]? = some m ∧ m.header.extractLsb' 128 384 = (offered m).compat ∧ m.linkKeys ≠ []
    ∧ ((offered m).chip 1).tdisp ≠ .run :=
  ⟨rfl, (head_key _ _ (by decide)).trans (offered_compat _).symm, by simp, by simp only [State.chip, offered, State.modDev]; decide +kernel⟩
/-- A pod of two chips on the destination, where the image comes from one. -/
def pair2 (m : MigImage) : State := (offered m).modChip 1 (fun c => { c with chipTab := [(0, 1), (1, 1)] })
theorem witness_Migration_shape :
    let m := anImage user.compat 0x47494D4B
    (pair2 m).dev.images[0]? = some m ∧ m.header.extractLsb' 128 384 = (pair2 m).compat
    ∧ m.chips ≠ (pair2 m).podSize 1 ∧ (pair2 m).podSize 1 ≠ 1 := by
  refine ⟨rfl, (head_key _ _ (by decide)).trans ?_, by decide +kernel, by decide +kernel⟩
  simp only [State.compat, pair2, offered, State.modChip, State.modDev]
/-- A script of guest 0 while a checked pod access of its has left, and with two entries of one place staged. -/
def underway : State :=
  (podded (busy (podAccess (.podStore .w64) (leBytes 8 5) none))).modDev (fun d => { d with windlass := some ⟨0, [], 0x180060⟩, paused := [0] })
def twice : State :=
  user.modDev (fun d => { d with windlass := some ⟨0, [⟨0, 1, 7, false, 5⟩, ⟨0, 1, 7, false, 6⟩, ⟨0, 0, 3, false, 9⟩], 0x180060⟩, paused := [0] })
theorem witness_WindlassScripts_resume : underway.podUnderway 0 = true ∧ twice.podUnderway 0 = false ∧ paused.podUnderway 0 = false
    ∧ twice.dev.windlassQueue = [] ∧ twice.carrier 0 0 = some 0 ∧ scripted.bootFailed = false ∧ failedBoot.bootFailed = true := by
  decide +kernel
theorem witness_AfterFailedBoot : failedBoot.bootFailed = true ∧ user.bootFailed = false ∧ (askSteward false []).bootFailed = false := by
  decide +kernel
/-- `user` with an address space of function 1 whose stage-2 table at 0x200000 is empty. -/
def unmapped : State := user.modDev (fun d => { d with
  asids := Table.put d.asids 1 (BitVec.ofNat 128 (1 + 0x40000 + 0x200000 * 2 ^ 64 + 2 ^ 6)) })
/-- The entry of function 0's table. -/
def itsEntry : List Byte := user.readRaw 0x10000 8
theorem witness_HostAccesses_mapping : (∀ v, v < 64 → user.inUndo v 0x180000 3 = false)
    ∧ ∀ v, v < 64 → ∀ x ∈ (user.writePhys none true 0x180000 [1, 2, 3]).mapping v, x ∈ user.mapping v := by decide +kernel
theorem witness_HostAccesses_refused (h : Config.isHostMemory 0 = false) :
    (∀ u, u < 64 → unmapped.inUndo u 0x200000 itsEntry.length = false)
    ∧ (0, 0, 2 ^ 29) ∈ (unmapped.writePhys none true 0x200000 itsEntry).mapping 1 ∧ (0, 0, 2 ^ 29) ∉ unmapped.mapping 1
    ∧ Config.isHostMemory (0 / 128) = false ∧ unmapped.pagesFree 1 [(0, 2 ^ 29)] = false := by
  refine ⟨by decide +kernel, by decide +kernel, by decide +kernel, h, ?_⟩
  have e : unmapped.leaves [0, 1, 2, 3] 0x10000 0 = [(0, 0, 2 ^ 29)] := by decide +kernel
  have q : unmapped.rootOf 0 = some 0x10000 := by decide +kernel
  have hs : unmapped.share 0 = [(0, 0, 2 ^ 29)] := by simp [State.share, q, e, lineOf, h]
  rw [State.pagesFree, Bool.and_eq_false_iff]
  left
  rw [List.all_eq_false]
  exact ⟨0, by simp, by simp [hs, rangesMeet]⟩
theorem witness_ContainerLoads_result :
    let s := containerS aContainer 320
    let s0 := s.modChip 0 (fun h => { h with loader := { h.loader with job := none } })
    let u := s0.install 0 aContainer (entriesOf aContainer) codePlace
    (u.translate 0 (u.die ((u.diesOf 0).headD 0)).tlb 99200 0x1A0000 .write).isOk = true := by decide +kernel

end Sys2Proof.Tests
end

/-! Proofs: writing memory and translating neither look at nor change the slices, the slice that issues, and the time. -/

namespace Sys2Proof.Machine

/-- `s` with what neither memory nor translation looks at taken from another state: the slices, the slice that issues, and the time. -/
def State.withRun (s u : State) : State := { s with slices := u.slices, cur := u.cur, now := u.now }

theorem State.withRun_self (s : State) : s.withRun s = s := rfl
theorem State.withSlice_eq_withRun (s : State) (y : Slice) : s.withSlice y = s.withRun (s.withSlice y) := rfl

/-! ### Translation -/

theorem State.walk2_withRun (s u : State) (tlb : List TlbEntry) (site vmid addr : Nat) (want : Want) (ls : List Nat) (base : Nat)
    (used : List TlbEntry) :
    (s.withRun u).walk2 tlb site vmid addr want ls base used = s.walk2 tlb site vmid addr want ls base used := by
  induction ls generalizing base used with
  | nil => rfl
  | cons l ls ih => simp only [State.walk2, ih]; rfl

theorem State.stage2_withRun (s u : State) (tlb : List TlbEntry) (site vmid root ipa : Nat) (want : Want) :
    (s.withRun u).stage2 tlb site vmid root ipa want = s.stage2 tlb site vmid root ipa want := by
  simp only [State.stage2, State.walk2_withRun]; rfl

theorem State.walk1_withRun (s u : State) (key : Option Nat) (tlb : List TlbEntry) (site asid vmid root2 addr : Nat) (want : Want)
    (ls : List Nat) (base : Nat) (used : List TlbEntry) :
    (s.withRun u).walk1 key tlb site asid vmid root2 addr want ls base used
      = s.walk1 key tlb site asid vmid root2 addr want ls base used := by
  induction ls generalizing base used with
  | nil => rfl
  | cons l ls ih => simp only [State.walk1, State.stage2_withRun, ih]; rfl

theorem State.translate_withRun (s u : State) (v : Nat) (tlb : List TlbEntry) (site addr : Nat) (want : Want) :
    (s.withRun u).translate v tlb site addr want = s.translate v tlb site addr want := by
  simp only [State.translate, State.walkBoth, State.walk1_withRun]; rfl

/-! ### Writing memory -/

theorem State.modDie_withRun (s u : State) (d : Nat) (f : Die → Die) : (s.withRun u).modDie d f = (s.modDie d f).withRun u := by
  unfold State.modDie; split <;> rfl

theorem State.fillTlb_withRun (s u : State) (core : Nat) (used : List TlbEntry) :
    (s.withRun u).fillTlb core used = (s.fillTlb core used).withRun u :=
  State.modDie_withRun (s.modCore core (fun c => { c with tlb := addTlb c.tlb used })) u _ _

theorem State.undoLine_withRun (s u : State) (v : Nat) (bound : Bool) (a : Nat) (bs : List Byte) (l : Nat) :
    (s.withRun u).undoLine v bound a bs l = (s.undoLine v bound a bs l).withRun u := by
  unfold State.undoLine
  split
  · rfl
  · split <;> rfl

theorem State.rekeyLine_withRun (s u : State) (key : Option Nat) (l : Nat) :
    (s.withRun u).rekeyLine key l = (s.rekeyLine key l).withRun u := by
  have e : (s.withRun u).keyOfLine l = s.keyOfLine l := rfl
  unfold State.rekeyLine
  rw [e]
  split
  · rfl
  · split <;> rfl

theorem State.putPhys_withRun (s u : State) (vf : Option Nat) (bound : Bool) (a : Nat) (bs : List Byte) :
    (s.withRun u).putPhys vf bound a bs = (s.putPhys vf bound a bs).withRun u := by
  have undo (v : Nat) (ls : List Nat) : ls.foldl (fun t l => t.undoLine v bound a bs l) (s.withRun u)
      = (ls.foldl (fun t l => t.undoLine v bound a bs l) s).withRun u :=
    List.foldl_hom (fun t : State => t.withRun u) (fun t l => State.undoLine_withRun t u v bound a bs l)
  have rekey (t : State) (key : Option Nat) (ls : List Nat) : ls.foldl (fun t l => t.rekeyLine key l) (t.withRun u)
      = (ls.foldl (fun t l => t.rekeyLine key l) t).withRun u :=
    List.foldl_hom (fun t : State => t.withRun u) (fun t l => State.rekeyLine_withRun t u key l)
  unfold State.putPhys
  split
  · rfl
  · cases vf with
    | none => simp only [rekey]; rfl
    | some v =>
      have e : (s.withRun u).timeSliced v = s.timeSliced v := rfl
      have k : (s.withRun u).keyTag v = s.keyTag v := rfl
      simp only [e, k, undo]
      split <;> simp only [rekey] <;> rfl

theorem State.mergeClock_withRun (s u : State) (d src : Nat) (clock : Vector Word64 4) :
    (s.withRun u).mergeClock d src clock = (s.mergeClock d src clock).withRun u := by
  have e : (s.withRun u).joined = s.joined := rfl
  unfold State.mergeClock
  rw [e]
  split
  · rfl
  · exact State.modDie_withRun _ u _ _

theorem State.noteWrite_withRun (s u : State) (w : Writer) (cells : List (Loc × Nat)) (homes : List Nat) :
    (s.withRun u).noteWrite w cells homes = (s.noteWrite w cells homes).withRun u := by
  have merge (t : State) (clock : Vector Word64 4) (ds : List Nat) :
      ds.foldl (fun t h => t.mergeClock h w.site.die clock) (t.withRun u)
        = (ds.foldl (fun t h => t.mergeClock h w.site.die clock) t).withRun u :=
    List.foldl_hom (fun t : State => t.withRun u) (fun t h => State.mergeClock_withRun t u h w.site.die clock)
  have tick (d : Nat) : (s.withRun u).tick d = (s.tick d).withRun u := State.modDie_withRun _ u _ _
  unfold State.noteWrite
  split
  · rfl
  · have f : (s.withRun u).flip = s.flip := rfl
    have j : (s.withRun u).joined = s.joined := rfl
    have g : (s.withRun u).stamp = s.stamp := rfl
    simp only [f, j, g, tick]
    split <;> simp only [merge] <;> rfl

theorem State.writeMem_withRun (s u : State) (w : Writer) (v : Nat) (bound : Bool) (a : Nat) (bs : List Byte) :
    (s.withRun u).writeMem w v bound a bs = (s.writeMem w v bound a bs).withRun u := by
  simp only [State.writeMem, State.putPhys_withRun, State.noteWrite_withRun]; rfl

end Sys2Proof.Machine

/-! Proofs: what taking a trap does to a slice that is ready to trap (R334–R339). -/

namespace Sys2Proof.Machine

/-- Changing the issuing slice of a state whose slices are those of another with that slice replaced. -/
theorem State.withRun_modSlice (s t : State) (y : Slice) (f : Slice → Slice) :
    (t.withRun (s.withSlice y)).modSlice s.cur f = t.withRun (s.withSlice (f y)) := by
  simp [State.modSlice, State.withRun, State.withSlice, Table.put_put]

variable {s : State} {c : Ctx} {t : TrapInfo} {vec : Nat} {at_ : Xlat} {after : State}

/-- Writing the frame leaves the slices, the issuing slice and the time alone. -/
theorem TrapReady.after_withRun (h : TrapReady s c t vec at_ after) : after.withRun s = after := by
  rw [h.written]
  conv_rhs => rw [← State.withRun_self s, State.fillTlb_withRun, State.writeMem_withRun]
  rfl

/-- The slice after its frame has been written has entered its handler. -/
theorem AtRest.atHandler_eq (h : AtRest s c) (t : TrapInfo) (vec : Nat) :
    let x : Slice := { c.x with hold := .none, seq := c.x.seq + 1 }
    { (x.putS 0 (BitVec.ofNat 64 c.frameAddr)).putS 1 (BitVec.ofNat 64 (infoWord c.x t)) with
      smode := smodeSetPriv c.x.smode 1, exec := c.x.live, pc := BitVec.ofNat 64 vec
      hold := .none, frame := some (BitVec.ofNat 64 c.frameAddr), enteredAt := c.s.now } = c.atHandler t vec := by
  have hs := h.noStale
  simp [Slice.putS, Slice.setS, Ctx.atHandler, hs]

/-- The issuing slice, held no longer. -/
def Ctx.unheld (c : Ctx) : Ctx :=
  let x : Slice := { c.x with hold := .none }
  ⟨c.s.withSlice x, c.k, x, c.b⟩

/-- A delivered cause of a slice at rest at user level is delivered at once (R31, R334). -/
theorem AtRest.trap_deliver (h : AtRest s c) (hu : c.x.priv = 0) (hd : t.cause.delivered = true) :
    c.trap t = c.unheld.deliver t s.ir := by
  obtain ⟨hs, hk, hx, hb⟩ := State.ctx_eq h.here
  have hl : c.x.longOut = false := by simp [Slice.longOut, h.noOps]
  have hm : s.modSlice s.cur (fun x => { s.settle x with hold := .none }) = c.unheld.s := by
    simp [State.modSlice, hx, State.settle, h.noPend, Ctx.unheld, State.withSlice, hs]
  have hc : c.unheld.s.ctx s.cur = some c.unheld := by
    have hb' : Table.find c.unheld.s.blocks (keyBlock s.cur) = some c.b := by simpa [Ctx.unheld, hs] using hb
    rw [State.ctx_of (x := c.unheld.x) (by simp [Ctx.unheld, hs]) hb']
    simp [Ctx.unheld, hk]
  have hp : c.unheld.x.priv = 0 := hu
  simp [Ctx.trap, State.takeTrap, hs, hk, hx, hl, State.enterTrap, hm, hc, hp, hd]

/-- The issuing word once its frame has been written, in the state that this leaves. -/
def Ctx.framed (c : Ctx) (after : State) : Ctx :=
  let x : Slice := { c.x with hold := .none, seq := c.x.seq + 1 }
  { c.unheld with s := after.withRun (c.s.withSlice x) }

/-- The frame is written, and the handler is entered from there (R334, R335). -/
theorem TrapReady.deliver_framed (h : TrapReady s c t vec at_ after) :
    c.unheld.deliver t s.ir = (c.framed after).enterHandler t c.frameAddr vec := by
  obtain ⟨hv, -, -⟩ := h.aligned
  have hvec : fld c.unheld.lrec 191 128 = vec := h.vector
  have ha : c.unheld.frameAddr = c.frameAddr := rfl
  have hr : c.unheld.s = s.withRun c.unheld.s := by rw [← h.rest.state]; rfl
  have hbase : (c.unheld.s.chip c.unheld.b.vf).tfbase ≠ 0 := by rw [hr]; exact h.base
  have hi : isVirtual c.frameAddr = true := by simpa [isVirtual] using h.inRange
  have hmap : c.unheld.s.translate c.unheld.b.vf (c.unheld.s.tlbOf c.unheld.b.core) 24000 c.frameAddr .write = .ok at_ := by
    rw [hr, State.translate_withRun]
    exact h.mapped
  have hwrite : (c.unheld.s.fillTlb c.unheld.b.core at_.used).writeMem (c.unheld.writer .ls c.unheld.x.seq .core []) c.unheld.b.vf
      false at_.pa (c.unheld.frameBytes t s.ir) = after.withRun c.unheld.s := by
    rw [h.written, hr, State.fillTlb_withRun, State.writeMem_withRun]
    rfl
  have hcount : (after.withRun c.unheld.s).modSlice c.unheld.k Slice.wrote = (c.framed after).s := by
    have hk : c.unheld.k = c.s.cur := by rw [h.rest.state]; exact h.rest.key
    rw [hk]
    exact State.withRun_modSlice c.s after _ _
  simp only [Ctx.deliver, hvec, hv, if_false, ha, hbase, hi, Bool.not_true, Bool.false_eq_true, or_self, hmap, hwrite, hcount]
  rfl

/-- From there the slice enters its handler (R339). -/
theorem TrapReady.enterHandler_framed (h : TrapReady s c t vec at_ after) :
    (c.framed after).enterHandler t c.frameAddr vec = after.withSlice (c.atHandler t vec) := by
  obtain ⟨-, hv8, hvw⟩ := h.aligned
  obtain ⟨x, hx⟩ := h.handler
  have hi : isVirtual vec = true := by simpa [isVirtual] using hvw
  have hmap : (c.framed after).s.translate (c.framed after).b.vf ((c.framed after).s.tlbOf (c.framed after).b.core) 22000 vec .fetch
      = .ok x := (State.translate_withRun after _ _ _ _ _ _).trans hx
  have hp (n : Nat) : (c.framed after).physS n = n := h.rest.physS n
  have hk : (c.framed after).k = c.s.cur := by rw [h.rest.state]; exact h.rest.key
  have hnow : (c.framed after).s.now = c.s.now := rfl
  simp only [Ctx.enterHandler, hv8, ne_eq, not_true_eq_false, if_false, hi, if_true, hmap, hp, hk, hnow]
  have hs : after.withRun c.s = after := by rw [h.rest.state]; exact h.after_withRun
  calc _ = after.withRun (c.s.withSlice (c.atHandler t vec)) := by
        rw [← h.rest.atHandler_eq t vec]
        exact State.withRun_modSlice c.s after _ _
    _ = (after.withRun c.s).withSlice (c.atHandler t vec) := rfl
    _ = after.withSlice (c.atHandler t vec) := by rw [hs]

/-- A delivered cause enters the handler of a slice that is ready to trap (R334–R339). -/
theorem TrapReady.trap_atHandler (h : TrapReady s c t vec at_ after) (hd : t.cause.delivered = true) :
    c.trap t = after.withSlice (c.atHandler t vec) := by
  rw [h.rest.trap_deliver h.user hd, h.deliver_framed, h.enterHandler_framed]

end Sys2Proof.Machine

/-! Proofs: the common checks that stop a word of a slice at rest, and the vector and engine words that they stop (R17, R283). -/

namespace Sys2Proof.Machine

variable {s : State} {c : Ctx}

/-! ### What stops a word of a slice at rest (R17, R74, R283) -/

theorem AtRest.dropReport (h : AtRest s c) : c.dropReport = none := by simp [Ctx.dropReport, h.noDropDue]
theorem AtRest.poisonReport (h : AtRest s c) : c.poisonReport = none := by simp [Ctx.poisonReport, h.noReport]
theorem AtRest.engineReport (h : AtRest s c) : c.engineReport = none := by simp [Ctx.engineReport, h.noFail]

theorem AtRest.outOfRange_iff (h : AtRest s c) (w : WordChk) : c.outOfRange w = true ↔ ¬ c.fits w.regs := by
  simp [Ctx.outOfRange, Ctx.fits, Ctx.vcount, h.unspliced]

/-- A word that its level permits takes the register-range trap when an operand passes VCOUNT. -/
theorem AtRest.stops_range (h : AtRest s c) (w : WordChk) (hi : w.illegal = false) (hp : w.permits c.x.priv = true)
    (hr : ¬ c.fits w.regs) : c.stops w = some (c.trap { cause := .registerRange }) := by
  simp [Ctx.stops, h.dropReport, h.poisonReport, hi, hp, (h.outOfRange_iff w).mpr hr]

/-- A word that its level permits is an illegal instruction when its block lacks the reservation it needs. -/
theorem AtRest.stops_unreserved (h : AtRest s c) (w : WordChk) (hi : w.illegal = false) (hp : w.permits c.x.priv = true)
    (hr : c.fits w.regs) (hu : w.unreserved = true) : c.stops w = some (c.trap { cause := .illegalInstruction }) := by
  have ho : c.outOfRange w = false := by
    rw [Bool.eq_false_iff, Ne, h.outOfRange_iff, not_not]
    exact hr
  simp [Ctx.stops, h.dropReport, h.poisonReport, h.engineReport, hi, hp, ho, hu]

/-- A word that the common checks stop has no other effect. -/
theorem AtRest.issue_stopped (h : AtRest s c) {chk : Ctx → WordChk} {t : State} (hs : c.stops (chk c) = some t) (body : Ctx → State) :
    issue s chk body = .next t := by
  rw [issue_next chk body h.here, hs]
  rfl

/-- Every level permits a word that its entry does not restrict (R26). -/
theorem WordChk.permits_unrestricted (w : WordChk) (n : Nat) (hu : w.user = true) (hh : w.handler = true) (hs : w.steward = true) :
    w.permits n = true := by
  unfold WordChk.permits
  split_ifs <;> assumption

/-- A word that checks its register operands alone, whose operands lie within VCOUNT, has its own effect. -/
theorem AtRest.issue_fits (h : AtRest s c) {uses : List VUse} (hf : c.fits uses) (body : Ctx → State) :
    issue s (chkRegs uses) body = .next (body c) :=
  issue_rest h _ _ rfl rfl (WordChk.permits_unrestricted _ _ rfl rfl rfl) hf

/-! ### Vector words -/

/-! Each word that a rule describes issues with the rule's register operands. -/

theorem intRule_issue {i : Instr} {r : VecRule} (hr : c.intRule i = some r) (s : State) :
    ∃ body, exec i s = issue s (chkRegs r.uses) body := by
  unfold Ctx.intRule intsRule at hr
  split at hr
  all_goals
    simp only [Option.ite_none_right_eq_some, Option.some.injEq, reduceCtorEq, ← and_assoc] at hr
  all_goals
    obtain ⟨-, rfl⟩ := hr
    exact ⟨_, rfl⟩

theorem bitRule_issue {i : Instr} {r : VecRule} (hr : c.bitRule i = some r) (s : State) :
    ∃ body, exec i s = issue s (chkRegs r.uses) body := by
  unfold Ctx.bitRule bitsRule at hr
  split at hr
  all_goals
    cases hr
  all_goals exact ⟨_, rfl⟩

theorem floatRule_issue {i : Instr} {r : VecRule} (hr : c.floatRule i = some r) (s : State) :
    ∃ body, exec i s = issue s (chkRegs r.uses) body := by
  unfold Ctx.floatRule floatsRule at hr
  split at hr
  all_goals
    simp only [Option.ite_none_left_eq_some, Option.some.injEq, reduceCtorEq] at hr
  all_goals
    obtain ⟨-, rfl⟩ := hr
    exact ⟨_, rfl⟩

theorem elementRule_issue {i : Instr} {r : VecRule} (hr : c.elementRule i = some r) (s : State) :
    ∃ body, exec i s = issue s (chkRegs r.uses) body := by
  unfold Ctx.elementRule floatsRule at hr
  split at hr
  all_goals
    simp only [Option.ite_none_left_eq_some, Option.some.injEq, reduceCtorEq] at hr
  case h_1 | h_2 | h_3 | h_4 | h_5 =>
    obtain ⟨-, rfl⟩ := hr
    exact ⟨_, rfl⟩
  all_goals
    subst hr
    exact ⟨_, rfl⟩

theorem registerRange : Claims.RegisterRange := by
  intro s c i r vec at_ t hr hf ht
  have hi : ∃ body, exec i s = issue s (chkRegs r.uses) body := by
    rcases hr with hr | hr | hr | hr
    · exact intRule_issue hr s
    · exact bitRule_issue hr s
    · exact floatRule_issue hr s
    · exact elementRule_issue hr s
  obtain ⟨body, hi⟩ := hi
  have hs := ht.rest.stops_range (chkRegs r.uses c) rfl (WordChk.permits_unrestricted _ _ rfl rfl rfl) hf
  rw [hi, ht.rest.issue_stopped hs, ht.trap_atHandler rfl]

/-! ### Engine words: the checks of one that needs the matrix reservation -/

theorem matrixRule_issue {i : Instr} {r : EngRule} (hr : c.matrixRule i = some r) (s : State) :
    ∃ body, exec i s = issue s (engChk true) body := by
  unfold Ctx.matrixRule at hr
  split at hr
  case h_12 => cases hr
  all_goals exact ⟨_, rfl⟩

theorem pumpRule_issue {i : Instr} {r : EngRule} (hr : c.pumpRule i = some r) (hm : r.matrix = true) (s : State) :
    ∃ body, exec i s = issue s (engChk true) body := by
  unfold Ctx.pumpRule at hr
  split at hr
  case h_1 | h_2 | h_3 => exact ⟨_, rfl⟩
  case h_7 => cases hr
  case h_4 =>
    simp only [Option.ite_none_right_eq_some, Option.some.injEq] at hr
    obtain ⟨-, rfl⟩ := hr
    cases hm
  case h_5 =>
    simp only [Option.bind_eq_some_iff, Option.ite_none_right_eq_some, Option.some.injEq] at hr
    obtain ⟨_, -, _, -, -, rfl⟩ := hr
    cases hm
  case h_6 =>
    simp only [Option.bind_eq_some_iff, Option.ite_none_right_eq_some, Option.some.injEq] at hr
    obtain ⟨_, -, -, rfl⟩ := hr
    cases hm

theorem engineReservation : Claims.EngineReservation := by
  intro s c i r vec at_ after hr hm hb ht
  have hi : ∃ body, exec i s = issue s (engChk true) body := hr.elim (matrixRule_issue · s) (pumpRule_issue · hm s)
  obtain ⟨body, hi⟩ := hi
  have hs := ht.rest.stops_unreserved (engChk true c) rfl (WordChk.permits_unrestricted _ _ rfl rfl rfl) (by simp [Ctx.fits, engChk])
    (by simp [engChk, hb])
  rw [hi, ht.rest.issue_stopped hs, ht.trap_atHandler rfl]

end Sys2Proof.Machine

/-! Proofs: the checks of a memory word and the places that addresses lead to (R192, R216, R217). -/

namespace Sys2Proof.Machine

variable {s : State} {c : Ctx}

/-! ### Memory words (R214–R217) -/

/-- What a memory word of a slice at rest asks is what its rule says; its data alone is read when the operation is formed. -/
theorem AtRest.memRule_exec (h : AtRest s c) {i : Instr} {k : Ctl} {uses : List VUse} {w : MemWord}
    (hr : c.memRule i = some (k, uses, w)) :
    ∃ f : Ctx → MemWord, exec i s = memWord s k uses f ∧ f c = { w with data := (f c).data } := by
  unfold Ctx.memRule Ctx.memRule.atomic at hr
  split at hr
  all_goals cases hr
  all_goals
    refine ⟨_, rfl, ?_⟩
    simp [h.physV, h.physS, Nat.mul_comm]

theorem memRule_not_well {i : Instr} {k : Ctl} {uses : List VUse} {w : MemWord} (hr : c.memRule i = some (k, uses, w)) :
    w.ask.well = false := by
  unfold Ctx.memRule Ctx.memRule.atomic at hr
  split at hr
  all_goals cases hr
  all_goals rfl

/-- A signed sum modulo 2^64, as a sum of words (R64). -/
theorem wrap_address (b x : Word64) (o : BitVec 8) (n : Nat) :
    wrap (b.toNat + x.toNat + o.toInt * n) 64 = (b + x + o.signExtend 64 * BitVec.ofNat 64 n).toNat := by
  have e : b + x + o.signExtend 64 * BitVec.ofNat 64 n = BitVec.ofInt 64 (b.toNat + x.toNat + o.toInt * n) := by
    simp [BitVec.ofInt_add, BitVec.ofInt_mul, BitVec.signExtend]
  rw [e, BitVec.toNat_ofInt]
  rfl

theorem AtRest.memAccesses_eq (h : AtRest s c) (k : Ctl) (w : MemWord) :
    (c.memLanes w.vec k.guard).map (fun l => (l, c.address w.mem w.ask.size l)) = c.memAccesses k w := by
  unfold Ctx.memAccesses
  refine List.map_congr_left fun l _ => ?_
  cases hi : w.mem.idx with
  | none => simpa [Ctx.address, hi, h.rdS] using wrap_address (c.x.sreg w.mem.base.val) 0 w.mem.off w.ask.size
  | some v =>
    have e : ((c.x.vreg v.val l).setWidth 64).toNat = (c.x.vreg v.val l).toNat := BitVec.toNat_setWidth_of_le (by decide)
    have a := wrap_address (c.x.sreg w.mem.base.val) ((c.x.vreg v.val l).setWidth 64) w.mem.off w.ask.size
    rw [e] at a
    simpa [Ctx.address, hi, h.rdS, h.rdV] using a

theorem AtRest.isEmpty_memLanes_iff (h : AtRest s c) (k : Ctl) (w : MemWord) :
    (c.memLanes w.vec k.guard).isEmpty = true ↔ c.memAccesses k w = [] := by
  rw [← h.memAccesses_eq, List.isEmpty_iff, List.map_eq_nil_iff]

/-- A denied scope traps where a lane is active or the word has an ordering (R217, R243). -/
theorem AtRest.memIssueTo_scope (h : AtRest s c) {k : Ctl} {w : MemWord} (hfull : w.kind.full c.x.cnt = false)
    (hd : s.scopeDenied c.b.vf w.mem.scope = true) (ha : c.memAccesses k w ≠ [] ∨ w.mem.ord ≠ .none) (noLane : Ctx → State)
    (next : State → State) : c.memIssueTo w k noLane next = c.trap { cause := .scopePolicy } := by
  have hl : (!(c.memLanes w.vec k.guard).isEmpty || w.mem.ord != .none) = true := by
    rwa [Bool.or_eq_true, Bool.not_eq_true', bne_iff_ne, Bool.eq_false_iff, Ne, h.isEmpty_memLanes_iff]
  simp [Ctx.memIssueTo, hfull, hl, h.state, hd]

/-- A memory word whose checks fail takes the trap that they give (R217). -/
theorem AtRest.memIssueTo_fails (h : AtRest s c) {k : Ctl} {w : MemWord} {t : TrapInfo} (hfull : w.kind.full c.x.cnt = false)
    (hd : s.scopeDenied c.b.vf w.mem.scope = false) (hc : c.check w.ask (c.memAccesses k w) = .error t) (noLane : Ctx → State)
    (next : State → State) : c.memIssueTo w k noLane next = c.trapX t := by
  have hl : (c.memLanes w.vec k.guard).isEmpty = false := by
    rw [Bool.eq_false_iff, Ne, h.isEmpty_memLanes_iff]
    intro e
    simp [e, Ctx.check, Ctx.resolveAll] at hc
  rw [← h.memAccesses_eq] at hc
  simp [Ctx.memIssueTo, hfull, hl, h.state, hd, hc]

/-! ### The checks of a memory word, in their order (R217) -/

theorem Ctx.check_badForm {q : Ask} {ls : List (Nat × Nat)} {l a : Nat} (hf : ls.find? (fun p => badForm q p.2) = some (l, a)) :
    c.check q ls = .error (faultAt .addressForm l a q.want.writes) := by
  simp [Ctx.check, hf]

theorem Ctx.check_misaligned {q : Ask} {ls : List (Nat × Nat)} {l a : Nat} (hb : ∀ p ∈ ls, badForm q p.2 = false)
    (hf : ls.find? (fun p => p.2 % q.size != 0) = some (l, a)) :
    c.check q ls = .error (faultAt .misalignedData l a q.want.writes) := by
  have hn : ls.find? (fun p => badForm q p.2) = none := by simpa [List.find?_eq_none] using hb
  simp only [Ctx.check, hn, hf]

theorem Ctx.check_resolve {q : Ask} {ls : List (Nat × Nat)} (hb : ∀ p ∈ ls, badForm q p.2 = false)
    (ha : ∀ p ∈ ls, p.2 % q.size = 0) : c.check q ls = c.resolveAll q ls := by
  have hn : ls.find? (fun p => badForm q p.2) = none := by simpa [List.find?_eq_none] using hb
  have hm : ls.find? (fun p => p.2 % q.size != 0) = none := by simpa [List.find?_eq_none] using ha
  simp only [Ctx.check, hn, hm]

/-- The lowest lane whose place fails is reported. -/
theorem Ctx.resolveAll_first {q : Ask} {before rest : List (Nat × Nat)} {l a : Nat} {t : TrapInfo}
    (hb : ∃ r, c.resolveAll q before = .ok r) (ht : c.resolve q l a = .error t) :
    c.resolveAll q (before ++ (l, a) :: rest) = .error t := by
  induction before with
  | nil => simp [Ctx.resolveAll, ht]
  | cons p ps ih =>
    obtain ⟨r, hr⟩ := hb
    simp only [Ctx.resolveAll] at hr
    cases hp : c.resolve q p.1 p.2 with
    | error e => simp [hp] at hr
    | ok x =>
      cases hps : c.resolveAll q ps with
      | error e => simp [hp, hps] at hr
      | ok r' => simp [Ctx.resolveAll, hp, ih ⟨r', hps⟩]

/-! ### Address forms and places (R8, R192, R194) -/

theorem regionOf_pod {a : Nat} (h : 2 ^ 63 ≤ a) : regionOf a = .pod := by
  unfold regionOf
  rw [if_pos h]

theorem regionOf_virt {a : Nat} (h : a < 0x7FFFFF0000000000) : regionOf a = .virt := by
  unfold regionOf windowBase
  rw [if_neg (by omega), if_pos h]

theorem regionOf_window {a : Nat} (hl : 0x7FFFFF0000000000 ≤ a) (hh : a < 2 ^ 63) :
    regionOf a =
      if (a - windowBase) / 2 ^ 32 = 0 then .scratch (a - windowBase)
      else if (a - windowBase) / 2 ^ 32 = 1 then .reg ((a - windowBase) % 2 ^ 32)
      else if (a - windowBase) / 2 ^ 32 = 2 then .well ((a - windowBase) % 2 ^ 32)
      else .reserved := by
  unfold regionOf
  rw [if_neg (by omega), if_neg (by unfold windowBase; omega)]

theorem regionOf_scratch {a : Nat} (hl : 0x7FFFFF0000000000 ≤ a) (hh : a < 0x7FFFFF0100000000) :
    regionOf a = .scratch (a - 0x7FFFFF0000000000) := by
  rw [regionOf_window hl (by omega), if_pos (by unfold windowBase; omega)]
  rfl

theorem regionOf_reg {a : Nat} (hl : 0x7FFFFF0100000000 ≤ a) (hh : a < 0x7FFFFF0200000000) :
    regionOf a = .reg (a - 0x7FFFFF0100000000) := by
  have h1 : (a - windowBase) / 2 ^ 32 = 1 := by unfold windowBase; omega
  have h2 : (a - windowBase) % 2 ^ 32 = a - 0x7FFFFF0100000000 := by unfold windowBase; omega
  rw [regionOf_window (by omega) (by omega), h1, h2]
  rfl

theorem regionOf_well {a : Nat} (hl : 0x7FFFFF0200000000 ≤ a) (hh : a < 0x7FFFFF0300000000) :
    regionOf a = .well (a - 0x7FFFFF0200000000) := by
  have h1 : (a - windowBase) / 2 ^ 32 = 2 := by unfold windowBase; omega
  have h2 : (a - windowBase) % 2 ^ 32 = a - 0x7FFFFF0200000000 := by unfold windowBase; omega
  rw [regionOf_window (by omega) (by omega), h1, h2]
  rfl

theorem regionOf_reserved {a : Nat} (hl : 0x7FFFFF0300000000 ≤ a) (hh : a < 2 ^ 63) : regionOf a = .reserved := by
  have h1 : 3 ≤ (a - windowBase) / 2 ^ 32 := by unfold windowBase; omega
  rw [regionOf_window (by omega) hh, if_neg (by omega), if_neg (by omega), if_neg (by omega)]

/-- Where an address leads, by its range (R192, R205). -/
theorem regionOf_cases (a : Nat) :
    (a < 0x7FFFFF0000000000 ∧ regionOf a = .virt)
    ∨ (0x7FFFFF0000000000 ≤ a ∧ a < 0x7FFFFF0100000000 ∧ regionOf a = .scratch (a - 0x7FFFFF0000000000))
    ∨ (0x7FFFFF0100000000 ≤ a ∧ a < 0x7FFFFF0200000000 ∧ regionOf a = .reg (a - 0x7FFFFF0100000000))
    ∨ (0x7FFFFF0200000000 ≤ a ∧ a < 0x7FFFFF0300000000 ∧ regionOf a = .well (a - 0x7FFFFF0200000000))
    ∨ (0x7FFFFF0300000000 ≤ a ∧ a < 2 ^ 63 ∧ regionOf a = .reserved)
    ∨ (2 ^ 63 ≤ a ∧ regionOf a = .pod) := by
  rcases Nat.lt_or_ge a 0x7FFFFF0000000000 with h | h0
  · exact .inl ⟨h, regionOf_virt h⟩
  rcases Nat.lt_or_ge a 0x7FFFFF0100000000 with h | h1
  · exact .inr (.inl ⟨h0, h, regionOf_scratch h0 h⟩)
  rcases Nat.lt_or_ge a 0x7FFFFF0200000000 with h | h2
  · exact .inr (.inr (.inl ⟨h1, h, regionOf_reg h1 h⟩))
  rcases Nat.lt_or_ge a 0x7FFFFF0300000000 with h | h3
  · exact .inr (.inr (.inr (.inl ⟨h2, h, regionOf_well h2 h⟩)))
  rcases Nat.lt_or_ge a (2 ^ 63) with h | h4
  · exact .inr (.inr (.inr (.inr (.inl ⟨h3, h, regionOf_reserved h3 h⟩))))
  · exact .inr (.inr (.inr (.inr (.inr ⟨h4, regionOf_pod h4⟩))))

theorem regionOf_eq_pod_iff (a : Nat) : regionOf a = .pod ↔ 2 ^ 63 ≤ a := by
  rcases regionOf_cases a with ⟨h, e⟩ | ⟨h, h', e⟩ | ⟨h, h', e⟩ | ⟨h, h', e⟩ | ⟨h, h', e⟩ | ⟨h, e⟩ <;> simp [e] <;> omega

/-- A word other than WLD may not go beyond the register window's first MiB (R8, R192). -/
theorem badForm_iff {q : Ask} (hq : q.well = false) (a : Nat) : badForm q a = true ↔ 0x7FFFFF0100100000 ≤ a := by
  rcases regionOf_cases a with ⟨h, e⟩ | ⟨h, h', e⟩ | ⟨h, h', e⟩ | ⟨h, h', e⟩ | ⟨h, h', e⟩ | ⟨h, e⟩ <;> simp [badForm, e, hq] <;> omega

/-- WLD goes to the well window alone (R192, R234). -/
theorem badForm_well_iff {q : Ask} (hq : q.well = true) (a : Nat) :
    badForm q a = true ↔ ¬ (0x7FFFFF0200000000 ≤ a ∧ a < 0x7FFFFF0204000000) := by
  rcases regionOf_cases a with ⟨h, e⟩ | ⟨h, h', e⟩ | ⟨h, h', e⟩ | ⟨h, h', e⟩ | ⟨h, h', e⟩ | ⟨h, e⟩ <;> simp [badForm, e, hq] <;> omega

/-- A scratchpad access that passes SCRATCH (R192, R198). -/
theorem Ctx.resolve_scratch {q : Ask} {l a : Nat} (hl : 0x7FFFFF0000000000 ≤ a) (hh : a < 0x7FFFFF0100000000)
    (hs : 0x7FFFFF0000000000 + c.b.scratchSize < a + q.size) : c.resolve q l a = .error (faultAt .dataFault l a q.want.writes) := by
  unfold Ctx.resolve
  rw [regionOf_scratch hl hh]
  exact if_pos (by omega)

/-- The register window at user level (R194). -/
theorem Ctx.resolve_register {q : Ask} {l a : Nat} (hu : c.x.priv = 0) (hl : 0x7FFFFF0100000000 ≤ a) (hh : a < 0x7FFFFF0200000000) :
    c.resolve q l a = .error (faultAt .dataFault l a q.want.writes) := by
  simp [Ctx.resolve, regionOf_reg hl hh, Ctx.regWindowBad, hu]

/-- A full-empty qualifier outside the scratchpad (R196, R198). -/
theorem Ctx.resolve_granule {q : Ask} {l a : Nat} (hl : a < 0x7FFFFF0000000000) (hg : q.granule = true) :
    c.resolve q l a = .error (faultAt .dataFault l a q.want.writes) := by
  simp [Ctx.resolve, regionOf_virt hl, hg]

/-- A translation that fails (R349). -/
theorem Ctx.resolve_unmapped {q : Ask} {l a : Nat} {e : XErr} (hl : a < 0x7FFFFF0000000000) (hg : q.granule = false)
    (ht : c.s.translate c.b.vf (c.s.tlbOf c.b.core) (laneSite l) a q.want = .error e) :
    c.resolve q l a = .error (trapOfXErr e l a q.want.writes) := by
  simp [Ctx.resolve, regionOf_virt hl, hg, ht]

/-- A memory word takes a trap that a handler receives as any word does: only a stage-2 fault is reported besides (R349). -/
theorem Ctx.trapX_delivered {t : TrapInfo} (hd : t.cause.delivered = true) : c.trapX t = c.trap t := by
  refine if_neg fun e => ?_
  rw [e] at hd
  cases hd

end Sys2Proof.Machine

/-! Proofs: memory words and WLD whose checks fail (R216, R217, R234). -/

namespace Sys2Proof.Machine

variable {s : State} {c : Ctx}

/-- A memory word within VCOUNT does what its rule's word does. -/
theorem AtRest.memRule_issue (h : AtRest s c) {i : Instr} {k : Ctl} {uses : List VUse} {w : MemWord}
    (hr : c.memRule i = some (k, uses, w)) (hf : c.fits uses) :
    ∃ d, exec i s = .next (c.memIssue { w with data := d } k) := by
  obtain ⟨f, hi, hw⟩ := h.memRule_exec hr
  exact ⟨(f c).data, by rw [hi, memWord, h.issue_fits hf, hw]⟩

/-- A memory word whose checks fail takes the trap that they give (R217). -/
theorem TrapReady.memRule_fails {t : TrapInfo} {vec : Nat} {at_ : Xlat} {after : State} (h : TrapReady s c t vec at_ after)
    {i : Instr} {k : Ctl} {uses : List VUse} {w : MemWord} (hr : c.memRule i = some (k, uses, w)) (hf : c.fits uses)
    (hfull : w.kind.full c.x.cnt = false) (hd : s.scopeDenied c.b.vf w.mem.scope = false) (hdel : t.cause.delivered = true)
    (hc : c.check w.ask (c.memAccesses k w) = .error t) : exec i s = .next (after.withSlice (c.atHandler t vec)) := by
  obtain ⟨d, hi⟩ := h.rest.memRule_issue hr hf
  have hm : c.memIssue { w with data := d } k = c.trapX t :=
    h.rest.memIssueTo_fails (w := { w with data := d }) hfull hd hc _ _
  rw [hi, hm, Ctx.trapX_delivered hdel, h.trap_atHandler hdel]

theorem memoryMisaligned : Claims.MemoryMisaligned := by
  intro s c i k uses w l a vec at_ after hr hf hfull hd hb hm t ht
  exact ht.memRule_fails hr hf hfull hd rfl (Ctx.check_misaligned hb hm)

/-- The checks of a memory word fail at the first lane whose place does, once every lane's form and alignment has passed (R217). -/
theorem Ctx.check_place {q : Ask} {ls before rest : List (Nat × Nat)} {l a : Nat} {t : TrapInfo}
    (hok : ∀ p ∈ ls, badForm q p.2 = false ∧ p.2 % q.size = 0) (hsplit : ls = before ++ (l, a) :: rest)
    (hbefore : ∃ r, c.resolveAll q before = .ok r) (hres : c.resolve q l a = .error t) : c.check q ls = .error t := by
  rw [Ctx.check_resolve (fun p hp => (hok p hp).1) (fun p hp => (hok p hp).2), hsplit]
  exact Ctx.resolveAll_first hbefore hres

theorem memoryTraps : Claims.MemoryTraps := by
  intro s c i k uses w h hr hf hfull takes fault bad
  obtain rfl := h.state
  have hbad (a : Nat) : badForm w.ask a = bad a := by
    rw [Bool.eq_iff_iff, badForm_iff (memRule_not_well hr), decide_eq_true_iff]
  refine ⟨fun hd ha vec at_ after ht => ?_, fun hd => ?_⟩
  · obtain ⟨d, hi⟩ := h.memRule_issue hr hf
    have hm : c.memIssue { w with data := d } k = c.trap { cause := .scopePolicy } :=
      h.memIssueTo_scope (w := { w with data := d }) hfull hd ha _ _
    rw [hi, hm, ht.trap_atHandler rfl]
  have fails {t : TrapInfo} (hdel : t.cause.delivered = true) (hc : c.check w.ask (c.memAccesses k w) = .error t) : takes t :=
    fun vec at_ after ht => ht.memRule_fails hr hf hfull hd hdel hc
  refine ⟨fun l a hfind => fails rfl (Ctx.check_badForm (by simpa only [hbad] using hfind)), fun hok before l a rest hsplit hbefore => ?_⟩
  have place {t : TrapInfo} (hdel : t.cause.delivered = true) (hres : c.resolve w.ask l a = .error t) : takes t :=
    fails hdel (Ctx.check_place (by simpa only [hbad] using hok) hsplit hbefore hres)
  have hlow : a < 0x7FFFFF0100100000 := by
    have hform := (hok (l, a) (by simp [hsplit])).1
    simpa [bad] using hform
  refine ⟨fun h0 h1 h2 => place rfl (Ctx.resolve_scratch h0 h1 h2), fun h0 vec at_ after ht => ?_,
    fun h0 hg => place rfl (Ctx.resolve_granule h0 hg), fun lv h0 hg hx => place rfl (Ctx.resolve_unmapped h0 hg hx)⟩
  exact place rfl (Ctx.resolve_register ht.user h0 (by omega)) vec at_ after ht

/-! ### WLD -/

/-- A WLD as it issues: where its lanes deliver, and the descriptors that they read (R234). -/
def wldWord (m : MemArg) (sz : Sz) (pr : PoisonReport) (n : Nat) (descs : List (Nat × BitVec 512)) : MemWord :=
  ⟨m, true, { want := .read, size := sz.bytes, well := true }, .well n sz descs pr, fun _ _ => ([], [])⟩

/-- A WLD whose checks fail takes the trap that they give (R217). -/
theorem TrapReady.wld_fails {t : TrapInfo} {vec : Nat} {at_ : Xlat} {after : State} (h : TrapReady s c t vec at_ after)
    {k : Ctl} {m : MemArg} {sz : Sz} {pr : PoisonReport} {d : VReg} (hf : c.fits (memUses m [⟨d.val, 1, false⟩]))
    (hwl : c.x.cnt.wl ≠ 63) (hd : s.scopeDenied c.b.vf m.scope = false) (hdel : t.cause.delivered = true)
    (hc : c.check (wldWord m sz pr d.val []).ask (c.memAccesses k (wldWord m sz pr d.val [])) = .error t) :
    exec (.wld k m sz pr d) s = .next (after.withSlice (c.atHandler t vec)) := by
  have hacq : c.x.acquiring = false := by simp [Slice.acquiring, h.rest.noOps]
  have hfull (descs : List (Nat × BitVec 512)) : (wldWord m sz pr (c.physV d.val) descs).kind.full c.x.cnt = false := by
    simpa [wldWord, OpKind.full] using hwl
  have hm (descs : List (Nat × BitVec 512)) (noLane : Ctx → State) (next : State → State) :
      c.memIssueTo (wldWord m sz pr (c.physV d.val) descs) k noLane next = c.trapX t :=
    h.rest.memIssueTo_fails (hfull descs) hd hc noLane next
  have he : exec (.wld k m sz pr d) s = .next (c.trapX t) := by
    show execWld k m sz pr d s = _
    unfold wldWord at hm
    rw [execWld, h.rest.issue_fits hf]
    cases pr <;> simp [hacq, Ctx.memIssue, hm]
  rw [he, Ctx.trapX_delivered hdel, h.trap_atHandler hdel]

end Sys2Proof.Machine

/-! Proofs: pod words whose first checks fail (R217, R416), and the statement about operands. -/

namespace Sys2Proof.Machine

variable {s : State} {c : Ctx}

/-! ### Pod words (R8, R217, R416) -/

theorem AtRest.podRule_exec (h : AtRest s c) {i : Instr} {k : Ctl} {uses : List VUse} {w : MemWord}
    (hr : c.podRule i = some (k, uses, w)) :
    ∃ f : Ctx → MemWord, exec i s = podWord s k uses f ∧ f c = { w with data := (f c).data } := by
  unfold Ctx.podRule at hr
  split at hr
  all_goals cases hr
  all_goals
    refine ⟨_, rfl, ?_⟩
    simp [h.physV]

/-- Every pod word is of class FB (R114). -/
theorem podRule_full {i : Instr} {k : Ctl} {uses : List VUse} {w : MemWord} (hr : c.podRule i = some (k, uses, w)) (n : Counters) :
    w.kind.full n = (n.fb == 63) := by
  unfold Ctx.podRule at hr
  split at hr
  all_goals cases hr
  all_goals rfl

/-- Whether an address has the form of a pod address (R8). -/
def podFormed (a : Nat) : Prop := 2 ^ 63 ≤ a ∧ a / 2 ^ 56 % 128 = 0
/-- Whether an address names a member of the pod (R416). -/
def Ctx.namesMember (c : Ctx) (a : Nat) : Prop := entryValid (c.s.chipEntry c.b.vf (a / 2 ^ 44 % 4096)) = true

/-- Whether an address has another form than that of a pod address, as the machine tests it. -/
def podFormBad (a : Nat) : Bool := regionOf a != .pod || bits a 56 7 != 0
/-- Whether the first check of a pod word refuses an address. -/
def Ctx.podRefuses (c : Ctx) (a : Nat) : Bool := podFormBad a || !entryValid (c.s.chipEntry c.b.vf (bits a 44 12))

theorem podFormBad_iff (a : Nat) : podFormBad a = true ↔ ¬ podFormed a := by
  rw [podFormed, ← regionOf_eq_pod_iff, not_and_or]
  simp [podFormBad, bits]

theorem Ctx.podRefuses_iff (c : Ctx) (a : Nat) : c.podRefuses a = true ↔ ¬ (podFormed a ∧ c.namesMember a) := by
  rw [Ctx.podRefuses, Bool.or_eq_true, podFormBad_iff, Bool.not_eq_true', not_and_or, ← Bool.not_eq_true]
  rfl

/-- The first check of a pod word reports the lowest lane whose address it refuses. -/
theorem Ctx.podForm_refused {q : Ask} {before rest : List (Nat × Nat)} {l a : Nat}
    (hb : ∀ p ∈ before, podFormed p.2 ∧ c.namesMember p.2) (ha : ¬ (podFormed a ∧ c.namesMember a)) :
    c.podForm q (before ++ (l, a) :: rest)
      = .error (faultAt (if podFormBad a then .addressForm else .podMember) l a q.want.writes) := by
  have hfind : (before ++ (l, a) :: rest).find? (fun p => c.podRefuses p.2) = some (l, a) := by
    rw [List.find?_eq_some_iff_append]
    refine ⟨(c.podRefuses_iff a).mpr ha, before, rest, rfl, fun p hp => ?_⟩
    rw [Bool.not_eq_true', ← Bool.not_eq_true, c.podRefuses_iff, not_not]
    exact hb p hp
  unfold Ctx.podRefuses podFormBad at hfind
  simp only [Ctx.podForm, hfind]
  rfl

theorem Ctx.podForm_form {q : Ask} {before rest : List (Nat × Nat)} {l a : Nat}
    (hb : ∀ p ∈ before, podFormed p.2 ∧ c.namesMember p.2) (ha : ¬ podFormed a) :
    c.podForm q (before ++ (l, a) :: rest) = .error (faultAt .addressForm l a q.want.writes) := by
  rw [Ctx.podForm_refused hb (fun h => ha h.1), if_pos ((podFormBad_iff a).mpr ha)]

theorem Ctx.podForm_member {q : Ask} {before rest : List (Nat × Nat)} {l a : Nat}
    (hb : ∀ p ∈ before, podFormed p.2 ∧ c.namesMember p.2) (hf : podFormed a) (hm : ¬ c.namesMember a) :
    c.podForm q (before ++ (l, a) :: rest) = .error (faultAt .podMember l a q.want.writes) := by
  rw [Ctx.podForm_refused hb (fun h => hm h.2), if_neg (fun h => (podFormBad_iff a).mp h hf)]

/-- The second check of a pod word reports the lowest misaligned lane (R216). -/
theorem Ctx.podForm_misaligned {q : Ask} {before rest : List (Nat × Nat)} {l a : Nat}
    (hb : ∀ p ∈ before ++ (l, a) :: rest, podFormed p.2 ∧ c.namesMember p.2) (hl : ∀ p ∈ before, p.2 % q.size = 0)
    (ha : a % q.size ≠ 0) : c.podForm q (before ++ (l, a) :: rest) = .error (faultAt .misalignedData l a q.want.writes) := by
  have hnone : (before ++ (l, a) :: rest).find? (fun p => c.podRefuses p.2) = none := by
    rw [List.find?_eq_none]
    intro p hp
    rw [c.podRefuses_iff, not_not]
    exact hb p hp
  have hfind : (before ++ (l, a) :: rest).find? (fun p => p.2 % q.size != 0) = some (l, a) := by
    rw [List.find?_eq_some_iff_append]
    exact ⟨bne_iff_ne.mpr ha, before, rest, rfl, fun p hp => by simp [hl p hp]⟩
  unfold Ctx.podRefuses podFormBad at hnone
  simp only [Ctx.podForm, hnone, hfind]

/-- A pod word whose first checks fail takes the trap that they give (R217, R416). -/
theorem TrapReady.podRule_fails {t : TrapInfo} {vec : Nat} {at_ : Xlat} {after : State} (h : TrapReady s c t vec at_ after)
    {i : Instr} {k : Ctl} {uses : List VUse} {w : MemWord} (hr : c.podRule i = some (k, uses, w)) (hf : c.fits uses)
    (hfb : c.x.cnt.fb ≠ 63) (hd : s.scopeDenied c.b.vf w.mem.scope = false) (hdel : t.cause.delivered = true)
    (hc : c.podForm w.ask (c.memAccesses k w) = .error t) : exec i s = .next (after.withSlice (c.atHandler t vec)) := by
  obtain ⟨f, hi, hw⟩ := h.rest.podRule_exec hr
  have hfull : w.kind.full c.x.cnt = false := by simpa [podRule_full hr] using hfb
  have hl : (c.memLanes w.vec k.guard).isEmpty = false := by
    rw [Bool.eq_false_iff, Ne, h.rest.isEmpty_memLanes_iff]
    intro e
    simp [e, Ctx.podForm] at hc
  rw [← h.rest.memAccesses_eq] at hc
  have hp : c.podIssue (f c) k = c.trap t := by
    rw [hw]
    simp [Ctx.podIssue, hfull, hl, h.rest.state, hd, hc]
  rw [hi, podWord, h.rest.issue_fits hf, hp, h.trap_atHandler hdel]

theorem wellAndPodTraps : Claims.WellAndPodTraps := by
  intro s c h takes
  obtain rfl := h.state
  constructor
  · intro k m sz pr d l a hf hwl hd hfind vec at_ after ht
    refine ht.wld_fails hf hwl hd rfl (Ctx.check_badForm (l := l) (a := a) ?_)
    rw [← hfind]
    congr 1
    funext p
    rw [Bool.eq_iff_iff, badForm_well_iff rfl, Bool.not_eq_true', decide_eq_false_iff_not]
  · intro i k uses w before rest l a hr hf hfb hd hsplit form member fault
    have fails {t : TrapInfo} (hdel : t.cause.delivered = true)
        (hc : c.podForm w.ask (before ++ (l, a) :: rest) = .error t) : takes i t :=
      fun vec at_ after ht => ht.podRule_fails hr hf hfb hd hdel (hsplit ▸ hc)
    rw [hsplit]
    exact ⟨fun hb => ⟨fun ha => fails rfl (Ctx.podForm_form hb ha), fun ha hm => fails rfl (Ctx.podForm_member hb ha hm)⟩,
      fun hb hl ha => fails rfl (Ctx.podForm_misaligned hb hl ha)⟩

/-- Settles O33: each operand check that fails gives the trap of its rule, and a trap leaves the slice at its handler and nothing else
changed but the frame. -/
theorem operandTraps : Obligations.OperandTraps :=
  ⟨registerRange, memoryMisaligned, memoryTraps, wellAndPodTraps, engineReservation⟩

end Sys2Proof.Machine

/-! Proofs: the step runs what its turn decodes (R27, R73, R345). -/

namespace Sys2Proof.Machine

/-! ### Turns -/

theorem State.nextTurn_cons {s : State} {t : Turn} {ts : List Turn} (h : s.turns = t :: ts) : s.nextTurn = (t, ts) := by
  simp [State.nextTurn, h]

/-- A turn that the schedule gives to a slice is that slice's step, in the state in which the turn is taken. -/
theorem step_of_slice {s : State} {k dt : Nat} {ts : List Turn} (h : s.turns = ⟨dt, .slice k⟩ :: ts) :
    step s = stepSlice (s.advance s.nextTurn) k := by
  simp only [step, State.nextTurn_cons h]

section
variable {s s1 : State} {k : Nat} {c : Ctx} (hc : s.ctx k = some c) (hr : s.ready k = true) (hj : c.atJoin = false)
include hc hr hj

/-- The turn of a ready slice that stands at no join is the instruction that its fetched word stands for. -/
theorem stepSlice_word {w : Word64} (hf : c.fetch = .word w s1) :
    let s2 := { s1.modSlice k (fun x => { x with last := x.pc }) with cur := k, ir := w }
    stepSlice s k = exec (s2.issued k w) s2 := by
  simp only [stepSlice, hc, hr, hj, hf, if_true, Bool.false_eq_true, if_false]

/-- A fetch that faults takes its trap. -/
theorem stepSlice_trap {t : TrapInfo} (hf : c.fetch = .trap t s1) : stepSlice s k = .next (s1.takeTrap k t s.noWord) := by
  simp only [stepSlice, hc, hr, hj, hf, if_true, Bool.false_eq_true, if_false]

end

theorem instrOf_ok {w : Word64} {i : Instr} (h : decodeWord w = .ok i) : instrOf w = i := by simp [instrOf, h]
theorem instrOf_error {w : Word64} {e : DecodeError} (h : decodeWord w = .error e) : instrOf w = .illegalInstruction w := by
  simp [instrOf, h]

/-- Without a schedule the next turn is that of the first ready slice, one cycle later. -/
theorem State.nextTurn_first {s : State} {k : Nat} {x : Slice} {before after : List (Nat × Slice)} (ht : s.turns = [])
    (hs : s.slices = before ++ (k, x) :: after) (hb : ∀ e ∈ before, s.ready e.1 = false) (hr : s.ready k = true) :
    s.nextTurn = (⟨1, .slice k⟩, []) := by
  have hf : s.slices.find? (fun e => s.ready e.1) = some (k, x) := by
    rw [hs, List.find?_append, List.find?_eq_none.mpr (by simpa using hb)]
    simp [hr]
  simp [State.nextTurn, ht, hf]

theorem State.nextTurn_none {s : State} (ht : s.turns = []) (hr : ∀ e ∈ s.slices, s.ready e.1 = false) :
    s.nextTurn = (⟨1, .slice 0⟩, []) := by
  have hf : s.slices.find? (fun e => s.ready e.1) = none := List.find?_eq_none.mpr (by simpa using hr)
  simp [State.nextTurn, ht, hf]

/-- A step takes its turn from the schedule, or the same one where the schedule names none. -/
theorem step_scheduled {s : State} {t : Turn} (h : s.nextTurn = (t, [])) : step s = step { s with turns := [t] } := by
  have hn : ({ s with turns := [t] } : State).nextTurn = (t, []) := rfl
  have ha : ({ s with turns := [t] } : State).advance (t, []) = s.advance (t, []) := rfl
  simp only [step, h, hn, ha]

theorem stepRunsDecoded : Claims.StepRunsDecoded := by
  intro s k dt ts c w s1 i ht hc hr hj hf hd _
  refine ⟨by rw [State.nextTurn_cons ht]; rfl, ?_⟩
  rw [step_of_slice ht, stepSlice_word hc hr hj hf]
  simp only [State.issued, instrOf_ok hd]
  split <;> simp_all only

theorem stepElse : Claims.StepElse := by
  refine ⟨?_, ?_, ?_, ?_⟩
  · intro s k dt ts c w s1 e ht hc hr hj hf hd
    rw [step_of_slice ht, stepSlice_word hc hr hj hf]
    simp only [State.issued, instrOf_error hd]
    split <;> rfl
  · intro s k dt ts c t s1 ht hc hr hj hf
    rw [step_of_slice ht, stepSlice_trap hc hr hj hf]
  · intro s k x before after ht hs hb hr
    exact step_scheduled (State.nextTurn_first ht hs hb hr)
  · intro s ht hr
    exact step_scheduled (State.nextTurn_none ht hr)

theorem stepRunsEvent : Claims.StepRunsEvent := by
  intro s dt i ts ht hi
  simp only [step, State.nextTurn_cons ht, hi, Bool.false_eq_true, if_false]
  rfl

/-- Settles O4: a step is the step of the slice whose turn it is, which is what its fetch gives, or the event's row. -/
theorem aStepRuns : Obligations.AStepRuns := ⟨stepRunsDecoded, stepElse, stepRunsEvent⟩

end Sys2Proof.Machine

/-! Proofs: what a fetch from memory gives (R27, R240). -/

namespace Sys2Proof.Machine

/-- A free choice is one of the values it is made among. -/
theorem State.pickFrom_mem {α : Type} [DecidableEq α] (s : State) (site : Nat) (d a : α) (as : List α) :
    s.pickFrom site d (a :: as) ∈ a :: as := by
  simp only [State.pickFrom]
  split_ifs
  · exact List.mem_cons_self
  · have hp : s.pick site (as.length + 1) < (a :: as).length := by
      unfold State.pick
      split_ifs
      · simp
      · exact Nat.mod_lt _ (by simp)
    rw [List.getD_eq_getElem _ _ hp]
    exact List.getElem_mem hp

/-- Filling TLBs changes them alone. -/
theorem State.fillTlb_frame (s : State) (core : Nat) (used : List TlbEntry) :
    (s.fillTlb core used).mem = s.mem ∧ (s.fillTlb core used).slices = s.slices ∧ (s.fillTlb core used).blocks = s.blocks := by
  simp [State.fillTlb]

/-- A slice outside a spliced grid fetches from memory. -/
theorem Ctx.fetch_unspliced {c : Ctx} (h : c.x.splice = none) : c.fetch = c.fetchMem := by
  simp [Ctx.fetch, h]

/-- No older word may be fetched where every write of the place lies before what the slice's fetches must see (R240). -/
theorem Ctx.olderWords_nil {c : Ctx} {pc pa : Nat}
    (h : ∀ p ∈ c.s.past, p.loc.inBytes pa 8 = true → p.stamp < c.fetchFrom pc) : c.olderWords pc pa = [] := by
  have hw : c.s.past.filter (fun w => w.loc.inBytes pa 8 && decide (c.fetchFrom pc ≤ w.stamp)) = [] := by
    rw [List.filter_eq_nil_iff]
    intro p hp
    simpa using h p hp
  simp [Ctx.olderWords, hw]

/-- Settles O5: the fetch keeps one of the word that memory holds, the cached one and the older ones. -/
theorem fetchReadsMemory : Obligations.FetchReadsMemory := by
  intro s c x hs hsp hal hv htr hp cached fresh
  subst hs
  have hvirt : isVirtual c.x.pc.toNat = true := by simpa [isVirtual] using hv
  obtain ⟨hmem, hsl, hbl⟩ := c.s.fillTlb_frame c.b.core x.used
  let word := c.s.pickFrom 50101 fresh (fresh :: (cached.toList ++ c.olderWords c.x.pc.toNat x.pa))
  have hfetch : c.fetch = .word word ((c.s.fillTlb c.b.core x.used).modCore c.b.core (fun k =>
      { k with icache := Table.put k.icache (icKey c.b.vf c.x.pc.toNat) word })) := by
    rw [Ctx.fetch_unspliced hsp]
    simp only [Ctx.fetchMem, hal, ne_eq, not_true_eq_false, if_false, hvirt, if_true, htr, hp, Bool.false_eq_true]
    rfl
  refine ⟨_, _, hfetch, hmem, hsl, hbl, ?_, ?_⟩
  · have hm := c.s.pickFrom_mem 50101 fresh fresh (cached.toList ++ c.olderWords c.x.pc.toNat x.pa)
    simpa using hm
  · intro hc hpast
    simp [word, hc, Ctx.olderWords_nil hpast]

end Sys2Proof.Machine

/-! Proofs: the effect of a register word on a slice at rest, and where its long results land (R28–R31). -/

namespace Sys2Proof.Machine

variable {s : State} {c : Ctx}

/-! ### Bits -/

theorem testBit_eq (n i : Nat) : testBit n i = n.testBit i := by
  simp [testBit, Nat.testBit_eq_decide_div_mod_eq]
  rfl

/-- Replacing a field changes the bits of the field alone. -/
theorem testBit_setBits (w lo len v i : Nat) :
    (setBits w lo len v).testBit i = if lo ≤ i ∧ i < lo + len then v.testBit (i - lo) else w.testBit i := by
  have hL : w % 2 ^ lo < 2 ^ lo := Nat.mod_lt _ (by positivity)
  have hv : v % 2 ^ len < 2 ^ len := Nat.mod_lt _ (by positivity)
  have hw : w = 2 ^ lo * (2 ^ len * (w / 2 ^ lo / 2 ^ len) + bits w lo len) + w % 2 ^ lo := by
    rw [bits, Nat.div_add_mod, Nat.div_add_mod]
  have hs : setBits w lo len v = 2 ^ lo * (2 ^ len * (w / 2 ^ lo / 2 ^ len) + v % 2 ^ len) + w % 2 ^ lo := by
    have hb : bits w lo len * 2 ^ lo ≤ w := (Nat.mul_le_mul_right _ (Nat.mod_le _ _)).trans (Nat.div_mul_le_self _ _)
    unfold setBits
    generalize bits w lo len = m at hw hb ⊢
    generalize w % 2 ^ lo = l at hw ⊢
    generalize w / 2 ^ lo / 2 ^ len = u at hw ⊢
    generalize v % 2 ^ len = x
    have e : w - m * 2 ^ lo = 2 ^ lo * (2 ^ len * u) + l := by
      rw [hw]
      have : 2 ^ lo * (2 ^ len * u + m) + l = 2 ^ lo * (2 ^ len * u) + l + m * 2 ^ lo := by ring
      omega
    rw [e]
    ring
  conv_rhs => rw [hw]
  have hb : bits w lo len < 2 ^ len := Nat.mod_lt _ (by positivity)
  rw [hs, Nat.testBit_two_pow_mul_add _ hL, Nat.testBit_two_pow_mul_add _ hL, Nat.testBit_two_pow_mul_add _ hv,
    Nat.testBit_two_pow_mul_add _ hb]
  rcases Nat.lt_or_ge i lo with h | h
  · simp [h, h.not_ge]
  · by_cases h2 : i < lo + len
    · simp [h, h2, h.not_gt, show i - lo < len by omega, Nat.testBit_mod_two_pow]
    · simp [h2, h.not_gt, show ¬ i - lo < len by omega]

theorem laneMask_getLsbD (p : Nat → Bool) {l : Nat} (h : l < 4) : (laneMask p).getLsbD l = p l := by
  have key : ∀ b0 b1 b2 b3 : Bool, let m := BitVec.ofNat 4 (bitOf b0 + bitOf b1 * 2 + bitOf b2 * 4 + bitOf b3 * 8)
      m.getLsbD 0 = b0 ∧ m.getLsbD 1 = b1 ∧ m.getLsbD 2 = b2 ∧ m.getLsbD 3 = b3 := by decide
  obtain ⟨h0, h1, h2, h3⟩ := key (p 0) (p 1) (p 2) (p 3)
  interval_cases l <;> assumption

theorem Slice.qLane_get (x : Slice) (l : Fin 4) : x.qLane l = x.q[l] := by
  simp [Slice.qLane]

/-- A bit of a lane's Q (R22). -/
theorem Slice.qBit_eq (x : Slice) (l d : Nat) : x.qBit l d = (x.qLane l).getLsbD d := by
  rw [Slice.qBit, testBit_eq]
  rfl

/-- Q with bits pushed by lane (R23). -/
def pushedBits (q : Vector (BitVec 8) 4) (b : BitVec 4) : Vector (BitVec 8) 4 :=
  Vector.ofFn (fun l : Fin 4 => (q[l] <<< 1) ||| (if b.getLsbD l.val then 1#8 else 0#8))

theorem Slice.push_eq (x : Slice) (b : BitVec 4) : x.push (fun l => testBit b.toNat l) = { x with q := pushedBits x.q b } := by
  have hb (p : Bool) : BitVec.ofNat 8 (bitOf p) = if p then 1#8 else 0#8 := by cases p <;> rfl
  simp only [Slice.push, pushedBits, hb, Slice.qLane_get, testBit_eq, BitVec.getLsbD]

theorem pushedBits_laneMask (q : Vector (BitVec 8) 4) (p : Nat → Bool) :
    pushedBits q (laneMask p) = Vector.ofFn (fun l : Fin 4 => (q[l] <<< 1) ||| (if p l.val then 1#8 else 0#8)) := by
  simp only [pushedBits, laneMask_getLsbD p (Fin.isLt _)]

/-! ### Going on, and moving on after a change -/

theorem smodeRaise_none (w : Word64) : smodeRaise w Flags.none = w := by
  simp [smodeRaise, Flags.none, Flags.toNat, bitOf]

/-- A word that only goes on (R27). -/
theorem AtRest.finish_next (h : AtRest s c) (m : Bool) : c.s.finish c.k m = s.withSlice c.next := by
  obtain ⟨hs, hk, hx, hb⟩ := State.ctx_eq h.here
  rw [hs, hk, State.finish_plain m hx hb h.unspliced h.noOps h.noPend h.noReport]
  rfl

/-- A word without an effect only goes on. -/
theorem AtRest.done_nothing (h : AtRest s c) (m : Bool) : c.done {} m = s.withSlice c.next := by
  rw [h.done _ c.x (by simp [Ctx.applyTo, fullWrites]) h.unspliced h.noOps h.noPend h.noReport]
  rfl

/-- What lands at a parking point leaves the reports of poisoned loads alone. -/
theorem State.settle_poisonDue (s : State) (x : Slice) : (s.settle x).poisonDue = x.poisonDue := by
  have key (f : Elem → Word64) (es : List Elem) (w : Slice) : (es.foldl (fun u e => u.land e (f e)) w).poisonDue = w.poisonDue := by
    induction es generalizing w with
    | nil => rfl
    | cons e es ih =>
      rw [List.foldl_cons, ih]
      cases e <;> simp [Slice.land, Slice.putS]
  unfold State.settle
  split_ifs
  · rfl
  · exact key _ _ _

theorem Slice.readyPoison_quiet {x : Slice} (h : x.poisonDue = []) : x.readyPoison = x := by
  cases x
  simp_all [Slice.readyPoison]

theorem Slice.longOut_of_noOps {x : Slice} (h : x.ops = []) : x.longOut = false := by simp [Slice.longOut, h]

/-- A slice that long results are still due to goes on, and parks when M = 1 (R27, R30). -/
theorem AtRest.finish_slice (h : AtRest s c) (m : Bool) {y : Slice} (hs : y.splice = none) (hl : y.longOut = false) (hd : y.poisonDue = []) :
    let z : Slice := { y with pc := y.pc + 8, issued := y.issued + 1 }
    (s.withSlice y).finish s.cur m = s.withSlice (if m then s.settle z else z) := by
  intro z
  obtain ⟨-, -, -, hb⟩ := State.ctx_eq h.here
  have hz : (s.withSlice y).parkSlice z = s.settle z := by
    simp only [State.parkSlice, show z.longOut = false from hl, Bool.false_eq_true, if_false]
    exact Slice.readyPoison_quiet ((s.settle_poisonDue z).trans hd)
  unfold State.finish
  rw [State.withSlice_find_self]
  simp only [State.goto_plain (s := s.withSlice y) (k := s.cur) (x := y) (b := c.b) (y.pc + 8) true m (by simp) (by simpa using hb) hs]
  rw [show ({ y with pc := y.pc + 8, issued := y.issued + 1 } : Slice) = z from rfl, hz]
  simp [State.withSlice, Table.put_put]

/-! ### The effect on a slice -/

/-- The lane writes of an effect as long results of a slice outside a spliced grid. -/
def Fx.due (fx : Fx) : List PendWrite :=
  fx.vLong.map (fun w => ⟨.v w.1 w.2.1, w.2.2.setWidth 64, if fx.fp then .fp else .plain⟩)

/-- Q after an effect on a slice whose Q is given (R23). -/
def Fx.qAfter (fx : Fx) (q : Vector (BitVec 8) 4) : Vector (BitVec 8) 4 :=
  match fx.push with
  | none => fx.q.getD q
  | some b => pushedBits (fx.q.getD q) b

/-- A short result of a slice to whose register nothing is due (R29). -/
theorem State.wrShort_undue (s : State) (x : Slice) (n : Nat) (v : Word64) (hp : ∀ p ∈ x.pend, p.elem ≠ .s n) (hs : x.stale = []) :
    s.wrShort x n v = x.setS n v := by
  have hf : s.overtaken (3000 + n) (.s n) x.pend = x.pend := by
    rw [State.overtaken, List.filter_eq_self]
    intro p h
    simp [hp p h]
  cases x
  simp only at hp hs hf
  subst hs
  unfold State.wrShort Slice.putS Slice.setS
  split <;> simp [hf]

/-- The long results due to a slice are elements of vector registers, each of 32 bits in one of the four lanes. -/
def Slice.vectorsDue (x : Slice) : Prop := ∀ p ∈ x.pend, ∃ n l, ∃ w : Word32, l < 4 ∧ p.elem = .v n l ∧ p.val = w.setWidth 64

theorem Slice.vectorsDue_setS {x : Slice} (h : x.vectorsDue) (n : Nat) (v : Word64) : (x.setS n v).vectorsDue := by
  simpa [Slice.vectorsDue] using h

/-- What a word's effect without long scalar results makes of a slice to which only elements of vector registers are due (R28, R29). -/
theorem AtRest.applyTo_eq (h : AtRest s c) (fx : Fx) (x : Slice) (hl : fx.sLong = []) (hs : x.stale = []) (hd : x.vectorsDue) :
    c.applyTo fx x = { x with
      s := (fx.sShort.foldl (fun y w => y.setS w.1 w.2) x).s
      exec := (fx.exec.map (fun m => m &&& x.live)).getD x.exec
      q := fx.qAfter x.q
      smode := smodeRaise (fx.smode.getD x.smode) fx.flags
      pend := x.pend ++ fx.due
      vpoison := (fullWrites fx.vLong).foldl (fun p n => Sparse.set false p n false) x.vpoison } := by
  have hshort (ws : List (Nat × Word64)) (y : Slice) (hy : y.stale = []) (hv : y.vectorsDue) :
      ws.foldl (fun y w => c.s.wrShort y (c.physS w.1) w.2) y = { y with s := (ws.foldl (fun y w => y.setS w.1 w.2) y).s } := by
    induction ws generalizing y with
    | nil => rfl
    | cons w ws ih =>
      have hw : ∀ p ∈ y.pend, p.elem ≠ .s w.1 := by
        intro p hp
        obtain ⟨n, l, -, -, he, -⟩ := hv p hp
        simp [he]
      rw [List.foldl_cons, List.foldl_cons, h.physS, State.wrShort_undue _ _ _ _ hw hy,
        ih _ (by simpa using hy) (y.vectorsDue_setS hv _ _)]
      unfold Slice.setS
      split <;> rfl
  obtain ⟨sShort, sLong, vLong, push, exec, q, smode, flags, fp⟩ := fx
  subst hl
  have hf : flags = Flags.none ∨ ¬ flags = Flags.none := em _
  unfold Ctx.applyTo
  simp only [hshort _ _ hs hd, h.physV, Fx.due, Slice.push_eq, Fx.qAfter]
  rcases hf with rfl | hf
  · cases exec <;> cases q <;> cases push <;> cases smode <;> simp [smodeRaise_none, Slice.setExec]
  · cases exec <;> cases q <;> cases push <;> cases smode <;> simp [hf, Slice.setExec]

/-! ### Where long results land (R30, R31) -/

theorem Slice.mem_pendElems {x : Slice} {e : Elem} : e ∈ x.pendElems ↔ ∃ p ∈ x.pend, p.elem = e := by
  simp [Slice.pendElems]

theorem Slice.pendOf_eq_nil {x : Slice} {e : Elem} : x.pendOf e = [] ↔ e ∉ x.pendElems := by
  simp [Slice.pendOf, Slice.mem_pendElems]

/-- Landing results in vector registers changes vector registers alone, and each that is landed in holds its result. -/
theorem Slice.land_vectors (f : Elem → Word64) (es : List Elem) (he : ∀ e ∈ es, ∃ n l, l < 4 ∧ e = .v n l) (x : Slice) :
    es.foldl (fun y e => y.land e (f e)) x = { x with v := (es.foldl (fun y e => y.land e (f e)) x).v }
    ∧ ∀ n l, l < 4 → (es.foldl (fun y e => y.land e (f e)) x).vreg n l
        = if .v n l ∈ es then (f (.v n l)).setWidth 32 else x.vreg n l := by
  induction es generalizing x with
  | nil => simp
  | cons e es ih =>
    obtain ⟨n, l, hl, rfl⟩ := he e List.mem_cons_self
    obtain ⟨h1, h2⟩ := ih (fun e h => he e (List.mem_cons_of_mem _ h)) (x.land (.v n l) (f (.v n l)))
    refine ⟨h1, fun i j hj => ?_⟩
    rw [List.foldl_cons, h2 i j hj]
    by_cases hm : Elem.v i j ∈ es
    · simp [hm]
    · simp only [hm, if_false, List.mem_cons, or_false, Slice.land, Slice.vreg_setV _ _ _ _ _ _ hl hj, Elem.v.injEq]
      split_ifs with hij
      · rw [hij.1, hij.2]
      · rfl

/-- Parking lands what is due to vector registers there, and changes nothing else. -/
theorem State.settle_vectors (s : State) {x : Slice} (h : x.vectorsDue) :
    s.settle x = { x with v := (s.settle x).v, pend := [] } := by
  have he : ∀ e ∈ x.pendElems, ∃ n l, l < 4 ∧ e = .v n l := by
    intro e he
    obtain ⟨p, hp, rfl⟩ := Slice.mem_pendElems.mp he
    obtain ⟨n, l, -, hl, hv, -⟩ := h p hp
    exact ⟨n, l, hl, hv⟩
  unfold State.settle
  split_ifs with hn
  · cases x
    simp_all
  · rw [(Slice.land_vectors _ _ he x).1]

/-- What an element will hold at the next parking point it holds there. -/
theorem State.settle_lands (s : State) {x : Slice} (h : x.vectorsDue) {n l : Nat} {v : Word64} (hl : l < 4)
    (hx : x.lands (.v n l) v) : (s.settle x).lands (.v n l) v := by
  have he : ∀ e ∈ x.pendElems, ∃ n l, l < 4 ∧ e = .v n l := by
    intro e he
    obtain ⟨p, hp, rfl⟩ := Slice.mem_pendElems.mp he
    obtain ⟨n, l, -, hl, hv, -⟩ := h p hp
    exact ⟨n, l, hl, hv⟩
  unfold State.settle
  split_ifs with hn
  · exact hx
  · refine .inl ⟨rfl, ?_⟩
    have hv := (Slice.land_vectors (fun e => s.pickFrom (4096 + elemSite e) 0 (x.pendOf e)) _ he x).2 n l hl
    change (Slice.vreg _ n l).setWidth 64 = v
    change Slice.vreg (x.pendElems.foldl _ x) n l = _ at hv
    refine (congrArg (BitVec.setWidth 64) hv).trans ?_
    rcases hx with ⟨hp, hg⟩ | hp
    · rw [if_neg (Slice.pendOf_eq_nil.mp hp)]
      exact hg
    · have hm : Elem.v n l ∈ x.pendElems := by
        rw [← not_not (a := _ ∈ _), ← Slice.pendOf_eq_nil, hp]
        simp
      obtain ⟨w, hw⟩ : ∃ w : Word32, v = w.setWidth 64 := by
        have : v ∈ x.pendOf (.v n l) := by simp [hp]
        simp only [Slice.pendOf, List.mem_map, List.mem_filter] at this
        obtain ⟨p, ⟨hm, -⟩, rfl⟩ := this
        obtain ⟨-, -, w, -, -, hw⟩ := h p hm
        exact ⟨w, hw⟩
      rw [if_pos hm, hp, State.pickFrom_one, hw]
      simp

/-! ### The slice after its word -/

/-- An effect without long scalar results, whose vector results lie in the four lanes. -/
def Fx.inLanes (fx : Fx) : Prop := fx.sLong = [] ∧ ∀ w ∈ fx.vLong, w.2.1 < 4

/-- The values that an effect writes to a lane of a vector register. -/
def Fx.at (fx : Fx) (n l : Nat) : List Word64 := (fx.vLong.filter (fun w => w.1 == n && w.2.1 == l)).map (fun w => w.2.2.setWidth 64)

theorem Fx.due_vectors {fx : Fx} (h : fx.inLanes) :
    ∀ p ∈ fx.due, ∃ n l, ∃ w : Word32, l < 4 ∧ p.elem = .v n l ∧ p.val = w.setWidth 64 := by
  intro p hp
  obtain ⟨w, hw, rfl⟩ := List.mem_map.mp hp
  exact ⟨w.1, w.2.1, w.2.2, h.2 w hw, rfl, rfl⟩

theorem Fx.due_at (fx : Fx) (n l : Nat) : (fx.due.filter (fun p => p.elem == .v n l)).map (fun p => p.val) = fx.at n l := by
  have hb (i j : Nat) : (Elem.v i j == Elem.v n l) = (i == n && j == l) := by
    rw [Bool.eq_iff_iff]
    simp
  simp only [Fx.due, Fx.at, List.filter_map, List.map_map, Function.comp_def, hb]

/-- The issuing slice once its word's effect has been applied and it has gone on (R27). -/
def Ctx.applied (c : Ctx) (fx : Fx) : Slice := { c.applyTo fx c.x with pc := c.x.pc + 8, issued := c.x.issued + 1 }

theorem AtRest.nothingDue (h : AtRest s c) : c.x.vectorsDue := by simp [Slice.vectorsDue, h.noPend]

theorem AtRest.applied_eq (h : AtRest s c) {fx : Fx} (hl : fx.sLong = []) :
    c.applied fx = { c.next with
      s := (fx.sShort.foldl (fun y w => y.setS w.1 w.2) c.x).s
      exec := (fx.exec.map (fun m => m &&& c.x.live)).getD c.x.exec
      q := fx.qAfter c.x.q
      smode := smodeRaise (fx.smode.getD c.x.smode) fx.flags
      pend := fx.due
      vpoison := (fullWrites fx.vLong).foldl (fun p n => Sparse.set false p n false) c.x.vpoison } := by
  rw [Ctx.applied, h.applyTo_eq fx c.x hl h.noStale h.nothingDue, h.noPend]
  rfl

theorem AtRest.applied_vectorsDue (h : AtRest s c) {fx : Fx} (hf : fx.inLanes) : (c.applied fx).vectorsDue := by
  rw [Slice.vectorsDue, h.applied_eq hf.1]
  exact Fx.due_vectors hf

/-- A word's effect without long scalar results, and the next word (R27, R30). -/
theorem AtRest.done_applied (h : AtRest s c) {fx : Fx} (hl : fx.sLong = []) (m : Bool) :
    c.done fx m = s.withSlice (if m then s.settle (c.applied fx) else c.applied fx) := by
  obtain ⟨hs, hk, hx, hb⟩ := State.ctx_eq h.here
  have he := h.applyTo_eq fx c.x hl h.noStale h.nothingDue
  have hm : c.s.modSlice c.k (c.applyTo fx) = s.withSlice (c.applyTo fx c.x) := by
    simp [State.modSlice, State.withSlice, hs, hk, hx]
  rw [Ctx.done, hm, hk, h.finish_slice m (by rw [he]; exact h.unspliced) (Slice.longOut_of_noOps (by rw [he]; exact h.noOps))
    (by rw [he]; exact h.noReport)]
  have ha : c.applied fx = { c.applyTo fx c.x with pc := (c.applyTo fx c.x).pc + 8, issued := (c.applyTo fx c.x).issued + 1 } := by
    rw [Ctx.applied, he]
  rw [ha]

/-- A word to which nothing is due afterwards parks as it is, whatever M holds. -/
theorem AtRest.done_short (h : AtRest s c) {fx : Fx} (hl : fx.sLong = []) (hv : fx.vLong = []) (m : Bool) :
    c.done fx m = s.withSlice (c.applied fx) := by
  have hp : (c.applied fx).pend = [] := by rw [h.applied_eq hl]; simp [Fx.due, hv]
  have hs : s.settle (c.applied fx) = c.applied fx := by simp [State.settle, hp]
  rw [h.done_applied hl, hs, ite_self]

/-- A vector register of which a full write has been made is as clean as it was. -/
theorem Sparse.clean_foldl (ns : List Nat) (p : Sparse Bool) (h : ∀ n, Sparse.get false p n = false) (n : Nat) :
    Sparse.get false (ns.foldl (fun p n => Sparse.set false p n false) p) n = false := by
  induction ns generalizing p with
  | nil => exact h n
  | cons i ns ih =>
    refine ih _ fun j => ?_
    rw [Sparse.get_set, h j, ite_self]

end Sys2Proof.Machine

/-! Proofs: the words that move EXEC, Q and SMODE, and scalar words whose guard fails (R20, R22, R101, R102). -/

namespace Sys2Proof.Machine

variable {s : State} {c : Ctx}

/-! ### EXEC, Q and SMODE -/

/-- The lanes whose bit of Q at a depth is not `neg` (R22). -/
theorem Slice.laneMask_qBit (x : Slice) (d : Nat) (neg : Bool) :
    laneMask (fun l => x.qBit l d != neg) = BitVec.ofFnLE (fun l : Fin 4 => x.q[l].getLsbD d != neg) := by
  refine BitVec.eq_of_getLsbD_eq fun l hl => ?_
  rw [laneMask_getLsbD _ hl, x.qBit_eq, BitVec.getLsbD_ofFnLE, dif_pos hl]
  exact congrArg (fun b => b.getLsbD d != neg) (x.qLane_get ⟨l, hl⟩)

/-- Q as 32 bits (R101, R336). -/
theorem Slice.qWord_eq (x : Slice) : x.qWord = (x.q[3] ++ x.q[2] ++ x.q[1] ++ x.q[0] : BitVec 32).toNat := by
  have cat (u : Nat) (v : BitVec 8) : u <<< 8 ||| v.toNat = u * 2 ^ 8 + v.toNat := by
    rw [← Nat.shiftLeft_add_eq_or_of_lt v.isLt, Nat.shiftLeft_eq]
  simp only [BitVec.toNat_append, cat]
  rw [Slice.qWord, show x.qLane 0 = x.q[0] from x.qLane_get 0, show x.qLane 1 = x.q[1] from x.qLane_get 1,
    show x.qLane 2 = x.q[2] from x.qLane_get 2, show x.qLane 3 = x.q[3] from x.qLane_get 3]
  ring

/-- A register word whose effect leaves nothing due. -/
theorem AtRest.regWord_short (h : AtRest s c) {uses : List VUse} (hf : c.fits uses) (m : Bool) (fx : Ctx → Fx) (hl : (fx c).sLong = [])
    (hv : (fx c).vLong = []) : regWord s m (chkRegs uses) fx = .next (s.withSlice (c.applied (fx c))) := by
  rw [regWord, h.issue_fits hf, h.done_short hl hv]

theorem Ctx.fits_nil (c : Ctx) : c.fits [] := by simp [Ctx.fits]

theorem AtRest.applied_nothing (h : AtRest s c) : c.applied {} = c.next := by
  rw [h.applied_eq rfl, smodeRaise_none]
  simp [Fx.due, fullWrites, Fx.qAfter, Ctx.next, h.noPend]

/-- A word that changes EXEC and delivers its old value (R20, R101). -/
theorem AtRest.execWord_eq (h : AtRest s c) {k : Ctl} (hg : c.x.guardScalar k.guard = true) (d : Option SReg) (f : Ctx → BitVec 4) :
    execWord s k d f = .next (s.withSlice { (match d with
      | none => c.next
      | some r => c.next.withS r (c.x.exec.setWidth 64)) with exec := f c &&& c.x.live }) := by
  rw [execWord, h.regWord_short c.fits_nil _ _ (by simp [hg]) (by simp [hg])]
  simp only [hg, if_true]
  rw [h.applied_eq rfl]
  cases d <;> simp [smodeRaise_none, Fx.due, fullWrites, Fx.qAfter, Ctx.next, Slice.withS, Slice.setS, h.noPend]

theorem execWords : Claims.ExecWords := by
  refine ⟨?_, ?_⟩
  · intro s c i k d m h hr hg
    unfold Ctx.execRule at hr
    split at hr <;> cases hr
    · exact (h.execWord_eq hg _ _).trans (by rw [h.src])
    · exact (h.execWord_eq hg _ _).trans (by rw [h.src])
    · exact (h.execWord_eq hg _ _).trans (by rw [h.src])
    · exact (h.execWord_eq hg _ _).trans (by rw [Slice.laneMask_qBit])
  · intro s c k d h hg
    exact (h.scalarWord k d _).trans (by rw [if_pos hg])

/-- A slice at rest is at rest in the state that its own record is written into. -/
theorem AtRest.reseat (h : AtRest s c) : AtRest (s.withSlice c.x) { c with s := s.withSlice c.x } := by
  obtain ⟨-, hk, -, hb⟩ := State.ctx_eq h.here
  refine ⟨?_, h.unspliced, h.noOps, h.noPend, h.noStale, h.noDrops, h.noDropDue, h.noReport, h.noFail, h.clean⟩
  rw [show (s.withSlice c.x).cur = s.cur from rfl, State.ctx_of (State.withSlice_find_self s c.x) hb, hk]

/-- No floating-point result is due to a slice at rest (R103). -/
theorem AtRest.settledFp_eq (h : AtRest s c) : c.settledFp = { c with s := s.withSlice c.x } := by
  obtain ⟨hs, hk, hx, -⟩ := State.ctx_eq h.here
  simp [Ctx.settledFp, State.settleFp, h.noPend, State.modSlice, State.withSlice, hs, hk, hx]

/-- A mode word of a slice at rest has its effect as a register word has (R103). -/
theorem AtRest.settledFp_done (h : AtRest s c) {fx : Fx} (hl : fx.sLong = []) (hv : fx.vLong = []) (m : Bool) :
    c.settledFp.done fx m = s.withSlice (c.applied fx) := by
  rw [h.settledFp_eq, h.reseat.done_short hl hv, State.withSlice_withSlice, h.applied_eq hl, h.reseat.applied_eq hl]
  rfl

theorem AtRest.settledFp_src (h : AtRest s c) (a : SSrc) : c.settledFp.src a = c.val a := by
  rw [h.settledFp_eq, h.reseat.src, ← h.state]
  cases a with
  | s n => rfl
  | sp p => cases p <;> rfl

theorem smodeSetRM_eq (w : Word64) (r : RM) : smodeSetRM w r = (w &&& ~~~3#64) ||| BitVec.ofNat 64 (rmBits r) := by
  have hr (i : Nat) (hi : 2 ≤ i) : (rmBits r).testBit i = false :=
    Nat.testBit_lt_two_pow ((by cases r <;> decide : rmBits r < 2 ^ 2).trans_le (Nat.pow_le_pow_right (by decide) hi))
  refine BitVec.eq_of_getLsbD_eq fun i hi => ?_
  have h3 : (3#64).getLsbD i = decide (i < 2) := by
    rw [BitVec.getLsbD, show (3#64).toNat = 2 ^ 2 - 1 from rfl, Nat.testBit_two_pow_sub_one]
  rw [smodeSetRM, BitVec.getLsbD_ofNat, testBit_setBits, BitVec.getLsbD_or, BitVec.getLsbD_and, BitVec.getLsbD_not, h3,
    BitVec.getLsbD_ofNat]
  by_cases h : i < 2
  · simp [h, hi]
  · simp [h, hi, hr i (by omega), BitVec.getLsbD]

/-- Q as QLOAD takes it from a register (R101). -/
theorem qBytes_eq (v : Word64) : (Vector.ofFn fun l : Fin 4 => BitVec.ofNat 8 (v.toNat / 2 ^ (8 * l.val)))
    = #v[v.setWidth 8, (v >>> 8).setWidth 8, (v >>> 16).setWidth 8, (v >>> 24).setWidth 8] := by
  have hb (n : Nat) : BitVec.ofNat 8 (v.toNat / 2 ^ n) = (v >>> n).setWidth 8 :=
    BitVec.eq_of_toNat_eq (by simp [Nat.shiftRight_eq_div_pow])
  simp only [hb]
  ext i hi
  interval_cases i <;> simp

theorem queueAndModeWords : Claims.QueueAndModeWords := by
  intro s c k h hg
  refine ⟨fun d => ?_, fun a => ?_, fun d => ?_, fun a => ?_, fun r => ?_⟩
  · refine (h.scalarWord k d _).trans ?_
    rw [if_pos hg, Slice.qWord_eq]
    simp
  · rw [show exec (.qload k a) s = _ from h.regWord_short c.fits_nil _ _ (by simp [hg]) (by simp [hg])]
    simp only [hg, if_true]
    rw [h.applied_eq rfl, h.src]
    simp [smodeRaise_none, Fx.due, fullWrites, Fx.qAfter, Ctx.next, h.noPend, qBytes_eq]
  · rw [show exec (.moderd k d) s = _ from h.issue_fits c.fits_nil _]
    simp only [hg, if_true]
    rw [h.settledFp_done rfl rfl, h.applied_eq rfl]
    simp [smodeRaise_none, Fx.due, fullWrites, Fx.qAfter, Ctx.next, Slice.withS, Slice.setS, h.noPend]
  · rw [show exec (.modewr k a) s = _ from h.issue_fits c.fits_nil _]
    simp only [hg, if_true]
    rw [h.settledFp_done rfl rfl, h.applied_eq rfl, h.settledFp_src, h.settledFp_eq]
    simp [smodeRaise_none, Fx.due, fullWrites, Fx.qAfter, Ctx.next, h.noPend, smodeWrite, smodeUserMask]
  · rw [show exec (.moderm k r) s = _ from h.regWord_short c.fits_nil _ _ (by simp [hg]) (by simp [hg])]
    simp only [hg, if_true]
    rw [h.applied_eq rfl]
    simp [smodeRaise_none, Fx.due, fullWrites, Fx.qAfter, Ctx.next, h.noPend, smodeSetRM_eq]

/-- Settles O10: each word's effect is that of a register word to which nothing is due afterwards. -/
theorem stateWords : Obligations.StateWords := ⟨execWords, queueAndModeWords⟩

/-! ### Scalar words whose guard fails (R22) -/

/-- A word outside a spliced grid is no loop-back word (R317). -/
theorem Ctx.atLoopBack_unspliced (h : c.x.splice = none) : c.atLoopBack = false := by
  unfold Ctx.atLoopBack
  split
  · rfl
  · simp [Ctx.partNow, h]

/-- A scalar word whose guard fails issues with checks that stop nothing at user level, and then has the empty effect or goes on. -/
theorem skips_issue {i : Instr} {k : Ctl} (hk : Instr.skips i = some k) (hg : c.x.guardScalar k.guard = false) (hs : c.x.splice = none)
    (s : State) : ∃ chk body, exec i s = issue s chk body ∧ (chk c).illegal = false ∧ (chk c).unreserved = false ∧ (chk c).user = true
      ∧ (chk c).regs = [] ∧ (body c = c.done {} k.m ∨ body c = c.settledFp.done {} k.m ∨ body c = c.s.finish c.k k.m) := by
  unfold Instr.skips at hk
  split at hk <;> cases hk
  -- MODERD and MODEWR first settle what is due to SMODE.
  case h_52.refl | h_53.refl =>
    exact ⟨_, _, rfl, rfl, rfl, rfl, rfl, .inr (.inl (congrArg (c.settledFp.done · _) (if_neg (by simp [hg]))))⟩
  -- BRA, BEXZ and BEXNZ, which a loop-back word of a spliced grid would not skip.
  case h_55.refl | h_56.refl | h_57.refl =>
    exact ⟨_, _, rfl, rfl, rfl, rfl, rfl, .inr (.inr (by simp [hg, Ctx.atLoopBack_unspliced hs]))⟩
  -- CALL and the words after it have no register effect to leave out.
  case h_58.refl | h_59.refl | h_60.refl | h_61.refl | h_62.refl | h_63.refl | h_64.refl | h_65.refl | h_66.refl | h_67.refl | h_68.refl
      | h_69.refl | h_70.refl =>
    exact ⟨_, _, rfl, rfl, rfl, rfl, rfl, .inr (.inr (by simp [hg]))⟩
  -- The words with a register effect have the empty one.
  all_goals
    exact ⟨_, _, rfl, rfl, rfl, rfl, rfl, .inl (congrArg (c.done · _) (if_neg (by simp [hg])))⟩

/-- Settles O11: a scalar word whose guard fails passes the common checks and only goes on. -/
theorem guardFails : Obligations.GuardFails := by
  intro s c i k h hu hk hg
  obtain ⟨chk, body, he, hi, hr, hp, hn, hb⟩ := skips_issue hk hg h.unspliced s
  have hperm : (chk c).permits c.x.priv = true := by simp [WordChk.permits, hu, hp]
  rw [he, issue_rest h chk body hi hr hperm (by simp [hn])]
  rcases hb with hb | hb | hb <;> rw [hb]
  · rw [h.done_nothing]
  · rw [h.settledFp_done rfl rfl, h.applied_nothing]
  · rw [h.finish_next]

end Sys2Proof.Machine

/-! Proofs: what a vector word leaves of a slice at rest, and the words that push bits on Q (R21, R23, R120, R128, R134). -/

namespace Sys2Proof.Machine

variable {s : State} {c : Ctx}

/-! ### What an element writes (R120) -/

theorem sext_eq_toInt (x n : Nat) : sext x n = (BitVec.ofNat n x).toInt := by
  rw [sext, BitVec.toInt_eq_toNat_cond, BitVec.toNat_ofNat]
  cases n with
  | zero => simp [Nat.mod_one]
  | succ n =>
    have hp : 2 ^ (n + 1) = 2 * 2 ^ n := by ring
    simp only [Nat.add_sub_cancel, Nat.succ_ne_zero, if_false, Nat.cast_pow, Nat.cast_ofNat]
    by_cases hx : x % 2 ^ (n + 1) < 2 ^ n
    · rw [if_pos hx, if_pos (by omega)]
    · rw [if_neg hx, if_neg (by omega)]

theorem wrap_eq_toNat (v : Int) (n : Nat) : wrap v n = (BitVec.ofInt n v).toNat := by
  rw [wrap, BitVec.toNat_ofInt]
  simp

/-- The element of a narrow signed format fills its register sign-extended (R120). -/
theorem ofNat_wrap_sext (x n : Nat) : BitVec.ofNat 32 (wrap (sext x n) 32) = (BitVec.ofNat n x).signExtend 32 := by
  rw [wrap_eq_toNat, sext_eq_toInt, BitVec.ofNat_toNat, BitVec.setWidth_eq, BitVec.signExtend]

theorem deliveredTo_low {f : Fmt} (h : f.is64 = false) (x : Nat) : BitVec.ofNat 32 (widen f x) = deliveredTo f x false := by
  cases f
  case i8 | i16 => exact ofNat_wrap_sext x _
  all_goals rfl

theorem deliveredTo_pair {f : Fmt} (h : f.is64 = true) (x : Nat) :
    BitVec.ofNat 32 x = deliveredTo f x false ∧ BitVec.ofNat 32 (x / 2 ^ 32) = deliveredTo f x true := by
  cases f
  case f64 | i64 | n64 => exact ⟨rfl, rfl⟩
  all_goals cases h

/-- What lane l of register n receives from an element of D (R120). -/
def receives (f : Fmt) (d n x : Nat) : List Word64 :=
  if n = d then [(deliveredTo f x false).setWidth 64]
  else if f.is64 = true ∧ n = d + 1 then [(deliveredTo f x true).setWidth 64]
  else []

theorem elemWrites_receives (f : Fmt) (d n l j x : Nat) :
    ((elemWrites f d j x).filter (fun w => w.1 == n && w.2.1 == l)).map (fun w => w.2.2.setWidth 64)
      = if j = l then receives f d n x else [] := by
  unfold elemWrites receives
  by_cases hj : j = l
  · cases h : f.is64
    · by_cases hn : n = d
      · simp [hj, hn, deliveredTo_low h]
      · simp [hn, Ne.symm hn]
    · obtain ⟨h0, h1⟩ := deliveredTo_pair h x
      by_cases hn : n = d
      · simp [hj, hn, ← h0]
      · by_cases hn1 : n = d + 1
        · simp [hj, hn1, ← h1]
        · simp [hn, hn1, Ne.symm hn, Ne.symm hn1]
  · cases f.is64 <;> simp [hj]

theorem flatMap_single {α : Type} (ls : List Nat) (hn : ls.Nodup) (l : Nat) (f : Nat → List α) :
    ls.flatMap (fun j => if j = l then f j else []) = if l ∈ ls then f l else [] := by
  induction ls with
  | nil => simp
  | cons j ls ih =>
    obtain ⟨hj, hn⟩ := List.nodup_cons.mp hn
    rw [List.flatMap_cons, ih hn]
    by_cases e : j = l
    · subst e; simp [hj]
    · simp [e, Ne.symm e]

theorem Slice.mem_lanes {x : Slice} {g : Guard} {l : Nat} : l ∈ x.lanes g ↔ l < 4 ∧ x.active g l = true := by
  simp [Slice.lanes]

/-- What the effect of a vector word writes to a lane of a register (R21, R120). -/
theorem laneFx_at (c : Ctx) (g : Guard) (df : Fmt) (d : Nat) (r : Nat → Nat × Flags) (n : Nat) {l : Nat} (hl : l < 4) :
    (laneFx c g df d r).at n l = if c.x.active g l = true then receives df d n (r l).1 else [] := by
  have hn : (c.x.lanes g).Nodup := List.nodup_range.filter _
  simp only [laneFx, Fx.at, List.filter_flatMap, List.map_flatMap, elemWrites_receives]
  rw [flatMap_single _ hn l (fun j => receives df d n (r j).1)]
  simp [Slice.mem_lanes, hl]

theorem laneFx_inLanes (c : Ctx) (g : Guard) (df : Fmt) (d : Nat) (r : Nat → Nat × Flags) : (laneFx c g df d r).inLanes := by
  refine ⟨rfl, fun w hw => ?_⟩
  obtain ⟨l, hl, hw⟩ := List.mem_flatMap.mp hw
  have : w.2.1 = l := by
    unfold elemWrites at hw
    split_ifs at hw <;> simp only [List.mem_cons, List.not_mem_nil, or_false] at hw
    · rcases hw with rfl | rfl <;> rfl
    · rw [hw]
  rw [this]
  exact (Slice.mem_lanes.mp hl).1

/-! ### What a vector word leaves -/

/-- The effect of a word that writes its elements in the active lanes, and may push bits. -/
def vectorFx (c : Ctx) (r : VecRule) (fp : Bool) (push : Option (BitVec 4)) : Fx :=
  { laneFx c r.ctl.guard r.df r.d.val r.elem with fp := fp, push := push }

theorem vectorFx_inLanes (c : Ctx) (r : VecRule) (fp : Bool) (push : Option (BitVec 4)) : (vectorFx c r fp push).inLanes :=
  laneFx_inLanes c _ _ _ _

/-- An effect whose vector results are those of the rule: each lane will hold what the rule gives it. -/
theorem AtRest.vectorFx_lands (h : AtRest s c) (r : VecRule) (fp : Bool) (push : Option (BitVec 4)) (n : Nat) {l : Nat} (hl : l < 4) :
    (c.applied (vectorFx c r fp push)).lands (.v n l)
      ((if c.x.active r.ctl.guard l = true ∧ n = r.d.val then deliveredTo r.df (r.elem l).1 false
        else if c.x.active r.ctl.guard l = true ∧ r.df.is64 = true ∧ n = r.d.val + 1 then deliveredTo r.df (r.elem l).1 true
        else c.x.vreg n l).setWidth 64) := by
  have hp : (c.applied (vectorFx c r fp push)).pendOf (.v n l)
      = if c.x.active r.ctl.guard l = true then receives r.df r.d.val n (r.elem l).1 else [] := by
    rw [h.applied_eq rfl]
    exact (Fx.due_at _ n l).trans (laneFx_at c _ _ _ _ n hl)
  have hg : (c.applied (vectorFx c r fp push)).getElem (.v n l) = (c.x.vreg n l).setWidth 64 := by
    rw [h.applied_eq rfl]
    rfl
  rw [Slice.lands, hp, hg]
  unfold receives
  split_ifs <;> simp_all

/-- The slice after a vector word of a slice at rest (R21): parked where M = 1. -/
def Ctx.afterVector (c : Ctx) (r : VecRule) (fp : Bool) (push : Option (BitVec 4)) (m : Bool) : Slice :=
  let z := c.applied (vectorFx c r fp push)
  if m then c.s.settle z else z

theorem AtRest.afterVector_q (h : AtRest s c) (r : VecRule) (fp : Bool) (push : Option (BitVec 4)) (m : Bool) :
    (c.afterVector r fp push m).q = (vectorFx c r fp push).qAfter c.x.q := by
  have hz := h.applied_vectorsDue (vectorFx_inLanes c r fp push)
  have hq : (c.applied (vectorFx c r fp push)).q = (vectorFx c r fp push).qAfter c.x.q := by rw [h.applied_eq rfl]
  unfold Ctx.afterVector
  cases m
  · exact hq
  · simp only [if_true]
    rw [State.settle_vectors _ hz]
    exact hq

/-- Apart from bits pushed on Q, the slice after a vector word is what the word's rule leaves. -/
theorem AtRest.afterVector_leaves (h : AtRest s c) (r : VecRule) (fp : Bool) (push : Option (BitVec 4)) (m : Bool) :
    r.leaves c { c.afterVector r fp push m with q := c.x.q } := by
  have hz := h.applied_vectorsDue (vectorFx_inLanes c r fp push)
  have hl (n : Nat) {l : Nat} (hl : l < 4) := h.vectorFx_lands r fp push n hl
  have hd := fun p hp => Fx.due_vectors (vectorFx_inLanes c r fp push) p hp
  have he := h.applied_eq (fx := vectorFx c r fp push) rfl
  have hs := c.s.settle_vectors hz
  have hc := fun n => Sparse.clean_foldl (fullWrites (vectorFx c r fp push).vLong) _ h.clean n
  unfold Ctx.afterVector
  cases m
  · refine ⟨by rw [if_neg Bool.false_ne_true, he]; rfl, by rw [if_neg Bool.false_ne_true, he]; exact hc, fun n => ?_, fun n l h4 => hl n h4⟩
    rw [Slice.pendOf, List.map_eq_nil_iff, List.filter_eq_nil_iff, if_neg Bool.false_ne_true, he]
    intro p hp
    obtain ⟨i, l, -, -, e, -⟩ := hd p hp
    simp [e]
  · refine ⟨by rw [if_pos rfl, hs, he]; rfl, by rw [if_pos rfl, hs, he]; exact hc, fun n => ?_, fun n l h4 => ?_⟩
    · rw [if_pos rfl, hs]; rfl
    · exact c.s.settle_lands hz h4 (hl n h4)

/-- A word with the effect of a vector word. -/
theorem AtRest.regWord_vector (h : AtRest s c) {uses : List VUse} (hf : c.fits uses) (m : Bool) (fx : Ctx → Fx) (r : VecRule)
    (fp : Bool) (push : Option (BitVec 4)) (hfx : fx c = vectorFx c r fp push) :
    regWord s m (chkRegs uses) fx = .next (s.withSlice (c.afterVector r fp push m)) := by
  rw [regWord, h.issue_fits hf, hfx, h.done_applied rfl, ← h.state]
  rfl

/-- A vector word whose elements are those of its rule leaves what the rule says. -/
theorem AtRest.vecWord_leaves (h : AtRest s c) (r : VecRule) (hf : c.fits r.uses) (fp : Bool) (el : Ctx → Nat → Nat × Flags)
    (he : ∀ l, el c l = r.elem l) : ∃ y, vecWord s r.ctl r.uses r.df r.d fp el = .next (s.withSlice y) ∧ r.leaves c y := by
  refine ⟨_, h.regWord_vector hf _ _ r fp none ?_, ?_⟩
  · rw [funext he]; rfl
  · have hq := h.afterVector_q r fp none r.ctl.m
    have hl := h.afterVector_leaves r fp none r.ctl.m
    rwa [← show _ = c.x.q from hq] at hl

/-! ### Words that push bits -/

theorem vectorCompare : Claims.VectorCompare := by
  intro s c k f cond a b h hf r
  have he (l : Nat) : cmpElem cond f (c.elem f a.val l) (c.elemSrc f l b) = r l := by rw [h.elem, h.elemSrc]
  rw [show exec (.vcmp k f cond a b) s = _ from h.regWord_short hf _ _ rfl rfl, h.applied_eq rfl]
  simp only [vcmpFx, he]
  rw [← pushedBits_laneMask c.x.q (fun l => c.x.active k.guard l && (r l).1)]
  simp [Fx.due, fullWrites, Fx.qAfter, Ctx.next, h.noPend]

theorem decodedSelectors : Claims.DecodedSelectors := by
  intro s c k f q d a h hf v r
  refine ⟨_, h.regWord_vector hf _ _ r false
    (if q then some (laneMask (fun l => c.x.active k.guard l && (v l).1 == 1)) else none) ?_, h.afterVector_leaves r false _ _, ?_⟩
  · simp only [h.elem, wrap_eq_toNat]
    rfl
  · rw [h.afterVector_q]
    cases q
    · rfl
    · exact pushedBits_laneMask _ _

/-- Settles O16: VCMP pushes without a long result, and VKBDEC.Q pushes beside its vector results. -/
theorem vectorFlags : Obligations.VectorFlags := ⟨vectorCompare, decodedSelectors⟩

end Sys2Proof.Machine

/-! Proofs: the operations of vector words on one element are those that their rows give (R120–R135). -/

namespace Sys2Proof.Machine

/-! ### Integers of a format (R32, R33, R125) -/

theorem intAt_eq (f : Fmt) (x : Nat) : intAt f x = intOf f x := by
  unfold intAt intOf
  split_ifs
  · exact (sext_eq_toInt _ _).symm
  · simp [zext]

theorem intTo_eq (f : Fmt) (sat : Bool) (v : Int) : intTo f sat v = intResult f sat v := by
  unfold intTo intResult clampI clampN
  simp only [wrap_eq_toNat]
  cases sat <;> cases f.isSigned <;> rfl

theorem wrap_natCast (v n : Nat) : wrap v n = v % 2 ^ n := by
  rw [wrap, ← Nat.cast_ofNat, ← Nat.cast_pow, ← Int.natCast_mod, Int.toNat_natCast]

/-- Integer arithmetic on elements is exact, and then wrapped or clamped. -/
theorem arith_int {f : Fmt} (hf : f.isIN = true) (k : Arith) (rm : RM) (sat : Bool) (args : List Nat) :
    arith k f rm sat args = (intTo f sat (k.onI (args.map (intAt f))), Flags.none) := by
  rw [arith, if_pos hf, intTo_eq, show intAt f = intOf f from funext (intAt_eq f)]

theorem minMaxElem_int {f : Fmt} (hf : f.isIN = true) (isMax prop : Bool) (a b : Nat) :
    minMaxElem isMax f prop a b
      = (if (if isMax then decide (intAt f a < intAt f b) else decide (intAt f b < intAt f a)) = true then b else a, Flags.none) := by
  rw [minMaxElem, if_pos hf, intAt_eq, intAt_eq]

theorem absNeg_int {f : Fmt} (hf : f.isI = true) (neg sat : Bool) (a : Nat) :
    absNeg neg f sat a = (intTo f sat (if neg then -(intAt f a) else (intAt f a).natAbs), Flags.none) := by
  rw [absNeg, if_pos hf, intTo_eq, intAt_eq]

/-! ### Bits of an element (R129, R130) -/

theorem width_pos (f : Fmt) : 0 < f.width := by cases f <;> decide
theorem width_of_is64 {f : Fmt} (h : f.is64 = true) : f.width = 64 := by
  cases f
  case f64 | i64 | n64 => rfl
  all_goals cases h

theorem Ctx.at32_lt (c : Ctx) (f : Fmt) (n l : Nat) : c.at32 f n l < 2 ^ f.width := by
  unfold Ctx.at32
  split_ifs with h
  · rw [width_of_is64 h]
    omega
  · exact Nat.mod_lt _ (by positivity)

theorem Ctx.srcAt_lt (c : Ctx) (f : Fmt) (l : Nat) (b : VSrc) : c.srcAt f l b < 2 ^ f.width := by
  cases b with
  | v n => exact c.at32_lt f n.val l
  | s x =>
    unfold Ctx.srcAt
    split_ifs with h
    · rw [width_of_is64 h]
      exact Nat.mod_lt _ (by positivity)
    · exact Nat.mod_lt _ (by positivity)

variable {f : Fmt} {a b : Nat}

theorem bvAt_toNat (ha : a < 2 ^ f.width) : (bvAt f a).toNat = a := by
  rw [bvAt, BitVec.toNat_ofNat, Nat.mod_eq_of_lt ha]

theorem notElem_eq (ha : a < 2 ^ f.width) : notElem f a = (~~~(bvAt f a)).toNat := by
  rw [BitVec.toNat_not, bvAt_toNat ha, notElem]

theorem andn_eq (ha : a < 2 ^ f.width) (hb : b < 2 ^ f.width) : a &&& notElem f b = (bvAt f a &&& ~~~(bvAt f b)).toNat := by
  rw [BitVec.toNat_and, bvAt_toNat ha, notElem_eq hb]

theorem shlElem_eq (ha : a < 2 ^ f.width) (n : Nat) : shlElem f a n = (bvAt f a <<< n).toNat := by
  rw [BitVec.toNat_shiftLeft, bvAt_toNat ha, Nat.shiftLeft_eq, shlElem]

theorem shrElem_eq (ha : a < 2 ^ f.width) (n : Nat) : shrElem f a n = (bvAt f a >>> n).toNat := by
  rw [BitVec.toNat_ushiftRight, bvAt_toNat ha, Nat.shiftRight_eq_div_pow, shrElem]

theorem sraElem_eq (a n : Nat) : sraElem f a n = ((bvAt f a).sshiftRight n).toNat := by
  have h : sext a f.width / 2 ^ n = ((bvAt f a).sshiftRight n).toInt := by
    rw [BitVec.toInt_sshiftRight, sext_eq_toInt, Int.shiftRight_eq_div_pow]
    simp [bvAt]
  rw [sraElem, wrap_eq_toNat, h, BitVec.ofInt_toInt]

/-- A bit of an element. -/
theorem bvAt_getLsbD (f : Fmt) (a i : Nat) : (bvAt f a).getLsbD i = (decide (i < f.width) && a.testBit i) := by
  rw [bvAt, BitVec.getLsbD_ofNat]

theorem clz_eq (w x : Nat) : clz w x = ((List.range w).find? (fun i => (BitVec.ofNat w x).getMsbD i)).getD w := by
  have hm (i : Nat) : (BitVec.ofNat w x).getMsbD i = (decide (i < w) && (x % 2 ^ w).testBit (w - 1 - i)) := by
    rw [BitVec.getMsbD_eq_getLsbD, BitVec.getLsbD, BitVec.toNat_ofNat]
  simp only [hm]
  rw [clz]
  split_ifs with h0
  · rw [List.find?_eq_none.mpr (by simp [h0]), Option.getD_none]
  · have hlt : x % 2 ^ w < 2 ^ w := Nat.mod_lt _ (by positivity)
    generalize x % 2 ^ w = y at h0 hlt
    have hL : y.log2 < w := (Nat.log2_lt h0).mpr hlt
    have hf : (List.range w).find? (fun i => decide (i < w) && y.testBit (w - 1 - i)) = some (w - 1 - y.log2) := by
      rw [List.find?_range_eq_some]
      refine ⟨?_, by simp; omega, fun j hj => ?_⟩
      · rw [show w - 1 - (w - 1 - y.log2) = y.log2 by omega, Nat.testBit_log2 h0]
        simp; omega
      · rw [Nat.testBit_lt_two_pow ((Nat.log2_lt h0).mp (by omega))]
        simp
    rw [hf]
    rfl

theorem foldl_add_eq_sum (g : Nat → Nat) (w : Nat) : (List.range w).foldl (fun n i => n + g i) 0 = ∑ i ∈ Finset.range w, g i := by
  induction w with
  | zero => rfl
  | succ w ih => rw [List.range_succ, List.foldl_append, ih, Finset.sum_range_succ]; rfl

theorem div_pow_mod_two (x i : Nat) : x / 2 ^ i % 2 = if x.testBit i = true then 1 else 0 := by
  rw [Nat.testBit_eq_decide_div_mod_eq]
  rcases Nat.mod_two_eq_zero_or_one (x / 2 ^ i) with h | h <;> simp [h]

theorem popc_eq (w x : Nat) : popc w x = (List.range w).countP (fun i => (BitVec.ofNat w x).getLsbD i) := by
  have key (n : Nat) : popc n x = (List.range n).countP (fun i => x.testBit i) := by
    rw [popc, foldl_add_eq_sum]
    induction n with
    | zero => rfl
    | succ n ih =>
      rw [Finset.sum_range_succ, ih, List.range_succ, List.countP_append, List.countP_singleton, div_pow_mod_two]
  rw [key]
  refine List.countP_congr fun i hi => ?_
  rw [BitVec.getLsbD_ofNat, decide_eq_true (List.mem_range.mp hi), Bool.true_and]

/-- Reversing one bit more puts the new bit lowest. -/
theorem brev_succ (w x : Nat) : brev (w + 1) x = 2 * brev w x + x / 2 ^ w % 2 := by
  simp only [brev, foldl_add_eq_sum, Finset.sum_range_succ, Finset.mul_sum, Nat.add_sub_cancel, Nat.sub_self, pow_zero, mul_one]
  congr 1
  refine Finset.sum_congr rfl fun i hi => ?_
  have hi : w - i = w - 1 - i + 1 := by have := Finset.mem_range.mp hi; omega
  rw [hi, pow_succ]
  ring

theorem testBit_brev (w x j : Nat) : (brev w x).testBit j = (decide (j < w) && x.testBit (w - 1 - j)) := by
  induction w generalizing j with
  | zero => simp [brev]
  | succ w ih =>
    have hb : x / 2 ^ w % 2 < 2 ^ 1 := Nat.mod_lt _ (by decide)
    rw [brev_succ, show 2 * brev w x = 2 ^ 1 * brev w x by rw [pow_one], Nat.testBit_two_pow_mul_add _ hb]
    cases j with
    | zero => simp [Nat.testBit_eq_decide_div_mod_eq]
    | succ j =>
      rw [if_neg (by omega), Nat.add_sub_cancel, ih, show w - 1 - j = w + 1 - 1 - (j + 1) by omega]
      simp

theorem brev_eq (f : Fmt) (a : Nat) : brev f.width a = (bvAt f a).reverse.toNat := by
  refine Nat.eq_of_testBit_eq fun j => ?_
  have hj : (bvAt f a).reverse.toNat.testBit j = (bvAt f a).reverse.getLsbD j := rfl
  rw [testBit_brev, hj, BitVec.getLsbD_reverse, BitVec.getMsbD_eq_getLsbD, bvAt_getLsbD]
  by_cases h : j < f.width
  · simp [show f.width - 1 - j < f.width by omega]
  · simp [h]

/-- A field of an element (R130). -/
theorem bfx_eq (ha : a < 2 ^ f.width) (signed : Bool) (p len : Nat) :
    bfx f.width signed a p len = if signed then (((bvAt f a >>> p).setWidth (min len (f.width - p))).signExtend f.width).toNat
      else ((bvAt f a >>> p).setWidth (min len (f.width - p))).toNat := by
  unfold bfx
  generalize min len (f.width - p) = n
  have hx : bits a p n = ((bvAt f a >>> p).setWidth n).toNat := by
    rw [BitVec.toNat_setWidth, BitVec.toNat_ushiftRight, bvAt_toNat ha, Nat.shiftRight_eq_div_pow, bits]
  have hs : wrap (sext (bits a p n) n) f.width = (((bvAt f a >>> p).setWidth n).signExtend f.width).toNat := by
    rw [hx, wrap_eq_toNat, sext_eq_toInt, BitVec.ofNat_toNat, BitVec.setWidth_eq, BitVec.signExtend]
  dsimp only
  rw [hs, hx]
  cases n with
  | zero => simp [BitVec.eq_nil (BitVec.setWidth 0 (bvAt f a >>> p)), BitVec.signExtend]
  | succ n => simp

/-- The mask of n one bits from bit p on. -/
theorem maskAt_getLsbD {w n p i : Nat} (hi : i < w) :
    (((BitVec.ofNat w 1 <<< n) - BitVec.ofNat w 1) <<< p).getLsbD i = decide (p ≤ i ∧ i < p + n) := by
  have h1 : (BitVec.ofNat w 1 <<< n) - BitVec.ofNat w 1 = BitVec.ofNat w (2 ^ n - 1) := by
    have hs : BitVec.ofNat w 1 <<< n = BitVec.ofNat w (2 ^ n) :=
      BitVec.eq_of_toNat_eq (by simp [Nat.shiftLeft_eq, Nat.pow_mod])
    rw [hs, sub_eq_iff_eq_add, ← BitVec.ofNat_add, Nat.sub_add_cancel Nat.one_le_two_pow]
  rw [h1, BitVec.getLsbD_shiftLeft, BitVec.getLsbD_ofNat, Nat.testBit_two_pow_sub_one]
  rw [Bool.eq_iff_iff]
  simp
  omega

/-- A field of an element is replaced (R130). -/
theorem bfi_eq (a p len : Nat) (hb : b < 2 ^ f.width) (hp : p < f.width) :
    bfi f.width b a p len =
      ((bvAt f b &&& ~~~(((BitVec.ofNat f.width 1 <<< min len (f.width - p)) - BitVec.ofNat f.width 1) <<< p))
        ||| ((bvAt f a <<< p) &&& (((BitVec.ofNat f.width 1 <<< min len (f.width - p)) - BitVec.ofNat f.width 1) <<< p))).toNat := by
  refine Nat.eq_of_testBit_eq fun i => ?_
  change (setBits b p _ a).testBit i = BitVec.getLsbD _ i
  rw [testBit_setBits]
  rcases Nat.lt_or_ge i f.width with h | h
  · rw [BitVec.getLsbD_or, BitVec.getLsbD_and, BitVec.getLsbD_and, BitVec.getLsbD_not, maskAt_getLsbD h, BitVec.getLsbD_shiftLeft,
      bvAt_getLsbD, bvAt_getLsbD, decide_eq_true h]
    split_ifs with hm
    · simp [hm, Nat.not_lt.mpr hm.1, show i - p < f.width by omega]
    · simp [hm]
  · rw [if_neg (by omega), BitVec.getLsbD_of_ge _ _ h, Nat.testBit_lt_two_pow (hb.trans_le (Nat.pow_le_pow_right (by decide) h))]

/-! ### Operands of a slice at rest -/

section
variable {s : State} {c : Ctx}

theorem AtRest.elem_fun (h : AtRest s c) : c.elem = c.at32 := funext fun f => funext fun n => funext fun l => h.elem f n l
theorem AtRest.elemSrc_fun (h : AtRest s c) : c.elemSrc = c.srcAt := funext fun f => funext fun l => funext fun b => h.elemSrc f l b
theorem AtRest.word32Src_fun (h : AtRest s c) : c.word32Src = c.srcAt .n32 := by
  funext l b
  cases b with
  | v n =>
    simp only [Ctx.word32Src, h.rdV, Ctx.srcAt, Ctx.at32]
    exact (Nat.mod_eq_of_lt (BitVec.isLt _)).symm
  | s x => simp only [Ctx.word32Src, h.srcLane]; rfl

theorem Ctx.rm_fun (c : Ctx) : c.rm = c.mode := by
  funext r
  cases r <;> rfl

/-! ### Each word is a vector word with the elements of its rule -/

/-- An instruction is a vector word that delivers the elements of a rule. -/
def Delivers (s : State) (c : Ctx) (i : Instr) (r : VecRule) : Prop :=
  ∃ fp el, exec i s = vecWord s r.ctl r.uses r.df r.d fp el ∧ ∀ l, el c l = r.elem l

theorem intRule_delivers (h : AtRest s c) {i : Instr} {r : VecRule} (hr : c.intRule i = some r) : Delivers s c i r := by
  unfold Ctx.intRule intsRule at hr
  split at hr
  all_goals simp only [Option.ite_none_right_eq_some, Option.some.injEq, reduceCtorEq, ← and_assoc] at hr
  all_goals
    obtain ⟨hf, rfl⟩ := hr
    refine ⟨_, _, rfl, fun l => ?_⟩
  -- VADD, VSUB, VMUL and VMAD; VMULH; VMIN and VMAX; VCLAMP; VABS and VNEG; VABSD.
  case h_1 | h_2 | h_3 | h_4 =>
    simp only [h.elem_fun, h.elemSrc_fun, arith_int hf]
    rfl
  case h_5 => simp only [h.elem_fun, h.elemSrc_fun, mulhElem, intTo_eq, intAt_eq]; rfl
  case h_6 | h_7 => simp [h.elem_fun, h.elemSrc_fun, minMaxElem_int hf]
  case h_8 => simp [h.elem_fun, h.elemSrc_fun, clampElem, minMaxElem_int hf]; rfl
  case h_9 | h_10 => simp [h.elem_fun, absNeg_int hf.1]
  case h_11 => simp only [h.elem_fun, h.elemSrc_fun, absdElem, intAt_eq, wrap_natCast]

theorem bitRule_delivers (h : AtRest s c) {i : Instr} {r : VecRule} (hr : c.bitRule i = some r) : Delivers s c i r := by
  have hx := c.at32_lt
  have hy := c.srcAt_lt
  unfold Ctx.bitRule bitsRule at hr
  split at hr <;> cases hr
  all_goals refine ⟨_, _, rfl, fun l => ?_⟩
  -- VAND, VOR, VXOR and VMOV; then the other words in the order of the rule's rows.
  case h_1.refl | h_2.refl | h_3.refl | h_15.refl => simp only [h.elem_fun, h.elemSrc_fun]
  case h_4.refl => simp only [h.elem_fun, h.elemSrc_fun, andn_eq (hx _ _ _) (hy _ _ _)]
  case h_5.refl => simp only [h.elem_fun, notElem_eq (hx _ _ _)]
  case h_6.refl => simp only [h.elem_fun, h.word32Src_fun, vCount, shlElem_eq (hx _ _ _)]
  case h_7.refl => simp only [h.elem_fun, h.word32Src_fun, vCount, shrElem_eq (hx _ _ _)]
  case h_8.refl => simp only [h.elem_fun, h.word32Src_fun, vCount, sraElem_eq]
  case h_9.refl => simp only [h.elem_fun, clz_eq]; rfl
  case h_10.refl => simp only [h.elem_fun, popc_eq]; rfl
  case h_11.refl => simp only [h.elem_fun, brev_eq]
  case h_12.refl => simp only [h.elem_fun, h.word32Src_fun, vCount, bfx_eq (hx _ _ _)]
  case h_13.refl => simp only [h.elem_fun, h.word32Src_fun, vCount, bfi_eq _ _ _ (hx _ _ _) (Nat.mod_lt _ (width_pos _))]
  case h_14.refl => simp only [h.elem_fun, h.elemSrc_fun, Slice.qBit_eq]
  case h_16.refl | h_17.refl => rfl

theorem floatRule_delivers {i : Instr} {r : VecRule} (h : AtRest s c) (hr : c.floatRule i = some r) : Delivers s c i r := by
  unfold Ctx.floatRule floatsRule at hr
  split at hr
  all_goals simp only [Option.ite_none_left_eq_some, Option.some.injEq, reduceCtorEq] at hr
  all_goals
    obtain ⟨hf, rfl⟩ := hr
    refine ⟨_, _, rfl, fun l => ?_⟩
    simp only [h.elem_fun, h.elemSrc_fun, c.rm_fun, arith, if_neg hf]
    rfl

theorem elementRule_delivers {i : Instr} {r : VecRule} (h : AtRest s c) (hr : c.elementRule i = some r) : Delivers s c i r := by
  unfold Ctx.elementRule floatsRule at hr
  split at hr
  all_goals simp only [Option.ite_none_left_eq_some, Option.some.injEq, reduceCtorEq] at hr
  -- VMIN, VMAX, VCLAMP, VABS and VNEG are rows of this rule in floating point alone.
  case h_1 | h_2 | h_3 | h_4 | h_5 =>
    obtain ⟨-, rfl⟩ := hr
    refine ⟨_, _, rfl, fun l => ?_⟩
    simp only [h.elem_fun, h.elemSrc_fun, clampElem]
  all_goals
    subst hr
    refine ⟨_, _, rfl, fun l => ?_⟩
    simp only [h.elem_fun, h.elemSrc_fun, h.word32Src_fun, c.rm_fun, sext_eq_toInt]

/-- A vector word that delivers its rule's elements leaves what the rule says. -/
theorem Delivers.leaves (h : AtRest s c) {i : Instr} {r : VecRule} (hd : Delivers s c i r) (hf : c.fits r.uses) :
    ∃ y, exec i s = .next (s.withSlice y) ∧ r.leaves c y := by
  obtain ⟨fp, el, he, hl⟩ := hd
  rw [he]
  exact h.vecWord_leaves r hf fp el hl

end

/-- Settles O15: each word of a rule is a vector word that delivers the rule's elements. -/
theorem vectorResults : Obligations.VectorResults :=
  ⟨fun _ _ _ _ h hf hr => (hr.elim (intRule_delivers h) (bitRule_delivers h)).leaves h hf,
    fun _ _ _ _ h hf hr => (floatRule_delivers h hr).leaves h hf, fun _ _ _ _ h hf hr => (elementRule_delivers h hr).leaves h hf⟩

end Sys2Proof.Machine

/-! Proofs: a paired word does what the full-word instructions of its two halves do (R28, R66, R68). -/

namespace Sys2Proof.Machine

variable {s : State} {c : Ctx}

/-! ### One half -/

/-- The effect of a half by what it writes. -/
theorem Ctx.half_cases (c : Ctx) (h : Half) :
    (halfDest h = .nothing ∧ c.half h = {})
    ∨ (halfDest h = .scalar ∧ ∃ v, c.half h = c.halfS h v)
    ∨ (halfDest h = .vector ∧ ∃ fp r, c.half h = c.halfV h fp r)
    ∨ (halfDest h = .queue ∧ ∃ b fl fp, c.half h = { push := some b, flags := fl, fp := fp }) := by
  unfold halfDest Ctx.half
  cases h.pop
  case nop => exact .inl ⟨rfl, rfl⟩
  case sadd | ssub | sand | sor | sxor | smov | saddi | sshli | sshri => exact .inr (.inl ⟨rfl, _, rfl⟩)
  case scmpEq | scmpLt | scmpLtn | vcmpLtF32 | vcmpEqI32 => exact .inr (.inr (.inr ⟨rfl, _, _, _, rfl⟩))
  all_goals exact .inr (.inr (.inl ⟨rfl, _, _, rfl⟩))

/-- A half writes EXEC, Q and SMODE's mode in no way but by pushing, and delivers no long scalar result. -/
theorem Ctx.half_plain (c : Ctx) (h : Half) :
    (c.half h).inLanes ∧ (c.half h).exec = none ∧ (c.half h).q = none ∧ (c.half h).smode = none := by
  rcases c.half_cases h with ⟨-, e⟩ | ⟨-, v, e⟩ | ⟨-, fp, r, e⟩ | ⟨-, b, fl, fp, e⟩ <;> rw [e]
  · simp [Fx.inLanes]
  · unfold Ctx.halfS
    split_ifs <;> simp [Fx.inLanes]
  · exact ⟨laneFx_inLanes c _ _ _ _, rfl, rfl, rfl⟩
  · simp [Fx.inLanes]

theorem k16s_signExtend (v : BitVec 7) : k16s (v.signExtend 16) = BitVec.ofInt 64 (sext v.toNat 7) := by
  rw [k16s, BitVec.toInt_signExtend_of_le (by decide), sext_eq_toInt]
  simp

/-- A 32-bit element of a register is the register's lane. -/
theorem Ctx.elem_word (c : Ctx) {f : Fmt} (h64 : f.is64 = false) (hw : f.width = 32) (n l : Nat) : c.elem f n l = (c.rdV n l).toNat := by
  rw [Ctx.elem, h64, hw]
  exact Nat.mod_eq_of_lt (BitVec.isLt _)

theorem Flags.all_none (ls : List Nat) : Flags.all (ls.map (fun _ => Flags.none)) = Flags.none := by
  rw [Flags.all]
  induction ls with
  | nil => rfl
  | cons l ls ih => exact ih

/-- The 32-bit formats of halves deliver the element as it is (R120). -/
theorem elemWrites_f32 : elemWrites .f32 = elemWrites .n32 := by
  funext d l x
  simp [elemWrites, Fmt.is64, widen]
theorem elemWrites_i32 : elemWrites .i32 = elemWrites .n32 := by
  funext d l x
  simp [elemWrites, Fmt.is64, widen]

/-- Integer arithmetic rounds nothing. -/
theorem arith_i32 (k : Arith) (rm rm' : RM) (sat : Bool) (args : List Nat) : arith k .i32 rm sat args = arith k .i32 rm' sat args := by
  rw [arith_int rfl, arith_int rfl]

/-- A word with a half's operands and the half's effect. -/
theorem AtRest.regWord_half (h : AtRest s c) {hf : Half} {uses : List VUse} (hu : c.fits uses) (f : Ctx → Fx) (e : f c = c.half hf) :
    regWord s false (chkRegs uses) f = .next (c.done (c.half hf) false) := by
  rw [regWord, h.issue_fits hu, e]

/-- A vector word with a half's operands and the half's elements. -/
theorem AtRest.vecWord_half (h : AtRest s c) {hf : Half} {uses : List VUse} (hu : c.fits uses) {df : Fmt}
    (hdf : elemWrites df = elemWrites .n32) {d : VReg} (hd : d.val = hf.d.toNat) {fp : Bool} {el : Ctx → Nat → Nat × Flags}
    {r : Nat → Nat × Flags} (hr : c.half hf = c.halfV hf fp r) (he : ∀ l, el c l = r l) :
    vecWord s ⟨false, halfGuard hf.pg⟩ uses df d fp el = .next (c.done (c.half hf) false) := by
  refine h.regWord_half hu _ ?_
  rw [hr, Ctx.halfV, funext he, hd]
  simp only [laneFx, hdf]

/-- The full-word instruction of a half has the half's effect (R68). -/
theorem AtRest.halfAlone_done (h : AtRest s c) (hf : Half) (hu : c.fits (halfUses hf)) :
    exec (halfAlone hf) s = .next (c.done (c.half hf) false) := by
  have f32 := c.elem_word (f := .f32) rfl rfl
  have i32 := c.elem_word (f := .i32) rfl rfl
  have n32 := c.elem_word (f := .n32) rfl rfl
  obtain ⟨pop, pg, d, a, x⟩ := hf
  cases pop
  case nop | sadd | ssub | sand | sor | sxor | smov | scmpEq | scmpLt | scmpLtn => exact h.regWord_half c.fits_nil _ rfl
  case saddi => exact h.regWord_half c.fits_nil _ (by simp only [Ctx.half, k16s_signExtend]; rfl)
  case sshli | sshri => exact h.regWord_half c.fits_nil _ (by simp only [Ctx.half, BitVec.toNat_setWidth]; rfl)
  case vcmpEqI32 =>
    have hn (k : Cond) (y z : Nat) : (cmpElem k .i32 y z).2 = Flags.none := rfl
    refine h.regWord_half hu (fun c => vcmpFx c _ .i32 .eq _ _) ?_
    simp only [Ctx.half, vcmpFx, Ctx.elemSrc, i32, hn, Flags.all_none]
    rfl
  case vcmpLtF32 =>
    refine h.regWord_half hu (fun c => vcmpFx c _ .f32 .lt _ _) ?_
    simp only [Ctx.half, vcmpFx, Ctx.elemSrc, f32]
    rfl
  case vaddF32 | vsubF32 | vmulF32 | vminF32 | vmaxF32 =>
    exact h.vecWord_half hu elemWrites_f32 rfl rfl (fun l => by simp only [Ctx.elemSrc, f32])
  case vfmaF32 =>
    refine h.vecWord_half (hf := ⟨.vfmaF32, pg, d, a, x⟩) ?_ elemWrites_f32 rfl rfl (fun l => by simp only [Ctx.elemSrc, f32])
    simp_all [Ctx.fits, halfUses, useD, useA, useB, Fmt.is64]
  case vaddI32 | vsubI32 | vmulI32 =>
    exact h.vecWord_half hu elemWrites_i32 rfl rfl (fun l => by simp only [Ctx.elemSrc, i32, arith_i32 _ (c.rm .rne) (c.rm .dflt)])
  case vand | vor | vxor | vmov => exact h.vecWord_half hu rfl rfl rfl (fun l => by simp only [Ctx.elemSrc, n32])
  case vmovS => exact h.vecWord_half hu rfl rfl rfl (fun l => rfl)
  case vshl | vshr => exact h.vecWord_half hu rfl rfl rfl (fun l => by simp only [Ctx.word32Src, n32])
  case vcvtF32I32 => exact h.vecWord_half hu elemWrites_f32 rfl rfl (fun l => by simp only [i32])
  case vcvtI32F32 => exact h.vecWord_half hu elemWrites_i32 rfl rfl (fun l => by simp only [f32])

/-! ### Two halves -/

/-- An effect without the lanes of vector registers that another effect writes too (R28). -/
def Fx.without (f1 f2 : Fx) : Fx :=
  { f1 with vLong := f1.vLong.filter (fun w => !f2.vLong.any (fun u => u.1 == w.1 && u.2.1 == w.2.1)) }

theorem Fx.without_inLanes {f1 : Fx} (f2 : Fx) (h : f1.inLanes) : (f1.without f2).inLanes :=
  ⟨h.1, fun w hw => h.2 w (List.mem_of_mem_filter hw)⟩

theorem Fx.at_eq_nil {fx : Fx} {n l : Nat} : fx.at n l = [] ↔ ∀ w ∈ fx.vLong, (w.1 == n && w.2.1 == l) = false := by
  simp [Fx.at, List.filter_eq_nil_iff]

/-- Where the second effect writes, nothing of the first remains. -/
theorem Fx.without_at (f1 f2 : Fx) (n l : Nat) : (f1.without f2).at n l = if f2.at n l = [] then f1.at n l else [] := by
  have hw (w : Nat × Nat × Word32) (h : (w.1 == n && w.2.1 == l) = true) :
      f2.vLong.any (fun u => u.1 == w.1 && u.2.1 == w.2.1) = f2.vLong.any (fun u => u.1 == n && u.2.1 == l) := by
    rw [Bool.and_eq_true, beq_iff_eq, beq_iff_eq] at h
    rw [h.1, h.2]
  have h2 : f2.at n l = [] ↔ f2.vLong.any (fun u => u.1 == n && u.2.1 == l) = false := by
    rw [Fx.at_eq_nil, List.any_eq_false]
    simp only [Bool.not_eq_true]
  simp only [h2]
  simp only [Fx.at, Fx.without, List.filter_filter]
  cases ha : f2.vLong.any (fun u => u.1 == n && u.2.1 == l)
  · rw [if_pos rfl]
    congr 1
    refine List.filter_congr fun w _ => ?_
    cases h : (w.1 == n && w.2.1 == l)
    · rfl
    · simp [hw w h, ha]
  · rw [if_neg (by simp), List.map_eq_nil_iff, List.filter_eq_nil_iff]
    intro w _ h
    rw [Bool.and_eq_true] at h
    simp [hw w h.1, ha] at h

theorem Slice.pendOf_append (x : Slice) (p1 p2 : List PendWrite) (e : Elem) :
    ({ x with pend := p1 ++ p2 } : Slice).pendOf e = ({ x with pend := p1 } : Slice).pendOf e ++ ({ x with pend := p2 } : Slice).pendOf e := by
  simp [Slice.pendOf]

/-- The slice once both effects have been applied and it has gone on. -/
def Ctx.paired (c : Ctx) (f1 f2 : Fx) : Slice :=
  let y := c.applyTo f2 (c.applyTo (f1.without f2) c.x)
  { y with pc := y.pc + 8, issued := y.issued + 1 }

/-- What a half's effect writes to a lane of a vector register. -/
theorem Ctx.half_at (c : Ctx) (h : Half) (n : Nat) {l : Nat} (hl : l < 4) : (c.half h).at n l ≠ [] ↔ c.halfWritesV h n l := by
  unfold Ctx.halfWritesV
  rcases c.half_cases h with ⟨hd, e⟩ | ⟨hd, v, e⟩ | ⟨hd, fp, r, e⟩ | ⟨hd, b, fl, fp, e⟩ <;> rw [e, hd]
  · simp [Fx.at]
  · unfold Ctx.halfS
    split_ifs <;> simp [Fx.at]
  · rw [show (c.halfV h fp r).at n l = _ from laneFx_at c _ .n32 _ r n hl]
    unfold receives
    simp [Fmt.is64]
    tauto
  · simp [Fx.at]

/-- The slice after two effects that write EXEC, Q and SMODE in no way but by pushing and raising flags. -/
theorem AtRest.paired_eq (h : AtRest s c) {f1 f2 : Fx} (h1 : f1.inLanes ∧ f1.exec = none ∧ f1.q = none ∧ f1.smode = none)
    (h2 : f2.inLanes ∧ f2.exec = none ∧ f2.q = none ∧ f2.smode = none) :
    c.paired f1 f2 = { c.next with
      s := (f2.sShort.foldl (fun y w => y.setS w.1 w.2) (f1.sShort.foldl (fun y w => y.setS w.1 w.2) c.x)).s
      q := f2.qAfter (f1.qAfter c.x.q)
      smode := smodeRaise (smodeRaise c.x.smode f1.flags) f2.flags
      pend := (f1.without f2).due ++ f2.due
      vpoison := (c.paired f1 f2).vpoison } := by
  have hs (ws : List (Nat × Word64)) (y z : Slice) (e : y.s = z.s) :
      (ws.foldl (fun y w => y.setS w.1 w.2) y).s = (ws.foldl (fun y w => y.setS w.1 w.2) z).s := by
    induction ws generalizing y z with
    | nil => exact e
    | cons w ws ih =>
      refine ih _ _ ?_
      simp only [Slice.setS]
      split_ifs <;> simp only [e]
  obtain ⟨hl1, he1, hq1, hm1⟩ := h1
  obtain ⟨hl2, he2, hq2, hm2⟩ := h2
  have e1 := h.applyTo_eq (f1.without f2) c.x hl1.1 h.noStale h.nothingDue
  have d1 : (c.applyTo (f1.without f2) c.x).vectorsDue := h.applied_vectorsDue (Fx.without_inLanes f2 hl1)
  have e2 := h.applyTo_eq f2 (c.applyTo (f1.without f2) c.x) hl2.1 (by rw [e1]; exact h.noStale) d1
  rw [hs f2.sShort _ (f1.sShort.foldl (fun y w => y.setS w.1 w.2) c.x) ((congrArg Slice.s e1).trans rfl), e1] at e2
  unfold Ctx.paired
  rw [e1, e2]
  simp only [Fx.without, he1, he2, hm1, hm2, hq1, hq2, Option.map_none, Option.getD_none, Fx.qAfter, h.noPend, List.nil_append]
  rfl

/-- A half writes its scalar register with a value that does not depend on what the registers held, and no other (R28). -/
theorem Ctx.half_sreg (c : Ctx) (h : Half) (y : Slice) (n : Nat) :
    (c.halfWritesS h n → ((c.half h).sShort.foldl (fun y w => y.setS w.1 w.2) y).sreg n
      = ((c.half h).sShort.foldl (fun y w => y.setS w.1 w.2) c.x).sreg n)
    ∧ (¬ c.halfWritesS h n → ((c.half h).sShort.foldl (fun y w => y.setS w.1 w.2) y).sreg n = y.sreg n) := by
  unfold Ctx.halfWritesS
  rcases c.half_cases h with ⟨hd, e⟩ | ⟨hd, v, e⟩ | ⟨hd, fp, r, e⟩ | ⟨hd, b, fl, fp, e⟩ <;> rw [e, hd]
  · simp
  · unfold Ctx.halfS
    cases hg : c.x.guardScalar (halfGuard h.pg)
    · simp
    · simp only [if_true, List.foldl_cons, List.foldl_nil, Slice.sreg_setS]
      by_cases e : n = h.d.toNat % 64
      · simp [e, Nat.mod_lt]
      · simp [e]
  · simp [Ctx.halfV, laneFx]
  · simp

/-- The slice after one half alone. -/
theorem AtRest.half_applied (h : AtRest s c) (hf : Half) : c.applied (c.half hf) = { c.next with
    s := ((c.half hf).sShort.foldl (fun y w => y.setS w.1 w.2) c.x).s
    q := (c.half hf).qAfter c.x.q
    smode := smodeRaise c.x.smode (c.half hf).flags
    pend := (c.half hf).due
    vpoison := (c.applied (c.half hf)).vpoison } := by
  obtain ⟨hl, he, -, hm⟩ := c.half_plain hf
  rw [h.applied_eq hl.1, he, hm]
  rfl

/-- A paired word issues with the operands of its two halves (R28). -/
theorem AtRest.pairedWord_eq (h : AtRest s c) (m : Bool) (h1 h2 : Half) (hu : c.fits (halfUses h1 ++ halfUses h2)) :
    exec (.pairedWord m h1 h2) s
      = .next (s.withSlice (if m then s.settle (c.paired (c.half h1) (c.half h2)) else c.paired (c.half h1) (c.half h2))) := by
  obtain ⟨hs, hk, hx, hb⟩ := State.ctx_eq h.here
  have hp := h.paired_eq (c.half_plain h1) (c.half_plain h2)
  have hm : c.s.modSlice c.k (fun x => c.applyTo (c.half h2) (c.applyTo ((c.half h1).without (c.half h2)) x))
      = s.withSlice (c.applyTo (c.half h2) (c.applyTo ((c.half h1).without (c.half h2)) c.x)) := by
    simp [State.modSlice, State.withSlice, hs, hk, hx]
  refine (h.issue_fits hu _).trans (congrArg _ ?_)
  refine (congrArg (fun t : State => t.finish c.k m) hm).trans ?_
  rw [hk]
  exact h.finish_slice m (y := c.applyTo _ _) ((congrArg Slice.splice hp).trans h.unspliced)
    (Slice.longOut_of_noOps ((congrArg Slice.ops hp).trans h.noOps)) ((congrArg Slice.poisonDue hp).trans h.noReport)

/-- What is due to a lane after both halves: the second half's values where it writes, the first half's elsewhere (R28). -/
theorem AtRest.paired_pendOf (h : AtRest s c) (h1 h2 : Half) (n : Nat) {l : Nat} (hl : l < 4) :
    (c.halfWritesV h2 n l → (c.paired (c.half h1) (c.half h2)).pendOf (.v n l) = (c.half h2).at n l)
    ∧ (¬ c.halfWritesV h2 n l → (c.paired (c.half h1) (c.half h2)).pendOf (.v n l) = (c.half h1).at n l) := by
  have e : (c.paired (c.half h1) (c.half h2)).pendOf (.v n l) = ((c.half h1).without (c.half h2)).at n l ++ (c.half h2).at n l := by
    rw [h.paired_eq (c.half_plain h1) (c.half_plain h2), ← Fx.due_at, ← Fx.due_at]
    exact Slice.pendOf_append c.x _ _ (.v n l)
  rw [← c.half_at h2 n hl, e, Fx.without_at]
  exact ⟨fun hn => by rw [if_neg hn, List.nil_append], fun hn => by rw [not_not.mp hn, if_pos rfl, List.append_nil]⟩

/-- A lane lands what a word's effect writes to it, and else keeps what it holds. -/
theorem Slice.lands_of_pend {x y : Slice} {n l : Nat} (hv : x.v = y.v) (hp : x.pendOf (.v n l) = y.pendOf (.v n l)) {v : Word64}
    (h : x.lands (.v n l) v) : y.lands (.v n l) v := by
  have hg : x.getElem (.v n l) = y.getElem (.v n l) := by
    simp only [Slice.getElem, Slice.vreg, hv]
  rwa [Slice.lands, hp, hg] at h

/-- A half pushes one bit a lane or nothing, by its destination (R23, R68). -/
theorem Ctx.half_push (c : Ctx) (h : Half) :
    (c.half h).push = none ∧ halfDest h ≠ .queue ∨ (∃ b, (c.half h).push = some b) ∧ halfDest h = .queue := by
  rcases c.half_cases h with ⟨hd, e⟩ | ⟨hd, v, e⟩ | ⟨hd, fp, r, e⟩ | ⟨hd, b, fl, fp, e⟩ <;> rw [e, hd]
  · simp
  · unfold Ctx.halfS
    split_ifs <;> simp
  · simp [Ctx.halfV, laneFx]
  · simp

/-- The bit pushed last is the low bit of its lane's Q. -/
theorem pushedBits_last (p q : Vector (BitVec 8) 4) (b : BitVec 4) :
    pushedBits p b = Vector.ofFn (fun l : Fin 4 => (p[l] <<< 1) ||| ((pushedBits q b)[l] &&& 1#8)) := by
  have key (u : BitVec 8) (t : Bool) : ((u <<< 1) ||| (if t then 1#8 else 0#8)) &&& 1#8 = if t then 1#8 else 0#8 := by
    revert u t
    decide
  simp [pushedBits, key]

theorem smodeRaise_twice (w : Word64) (f g : Flags) : smodeRaise (smodeRaise w f) g = smodeRaise w f ||| smodeRaise w g := by
  unfold smodeRaise
  ext i hi
  simp only [BitVec.getElem_or]
  cases w[i] <;> simp

theorem AtRest.paired_smode (h : AtRest s c) (h1 h2 : Half) :
    (c.paired (c.half h1) (c.half h2)).smode = (c.applied (c.half h1)).smode ||| (c.applied (c.half h2)).smode := by
  rw [h.half_applied h1, h.half_applied h2, h.paired_eq (c.half_plain h1) (c.half_plain h2)]
  exact smodeRaise_twice _ _ _

theorem AtRest.paired_sreg (h : AtRest s c) (h1 h2 : Half) (n : Nat) :
    (c.halfWritesS h2 n → (c.paired (c.half h1) (c.half h2)).sreg n = (c.applied (c.half h2)).sreg n)
    ∧ (¬ c.halfWritesS h2 n → (c.paired (c.half h1) (c.half h2)).sreg n = (c.applied (c.half h1)).sreg n) := by
  rw [h.half_applied h1, h.half_applied h2, h.paired_eq (c.half_plain h1) (c.half_plain h2)]
  exact c.half_sreg h2 _ n

theorem AtRest.paired_lands (h : AtRest s c) (h1 h2 : Half) (n : Nat) {l : Nat} (hl : l < 4) (v : Word64) :
    (c.halfWritesV h2 n l → (c.applied (c.half h2)).lands (.v n l) v → (c.paired (c.half h1) (c.half h2)).lands (.v n l) v)
    ∧ (¬ c.halfWritesV h2 n l → (c.applied (c.half h1)).lands (.v n l) v → (c.paired (c.half h1) (c.half h2)).lands (.v n l) v) := by
  have ev (hf : Half) : (c.applied (c.half hf)).v = (c.paired (c.half h1) (c.half h2)).v := by
    rw [h.half_applied hf, h.paired_eq (c.half_plain h1) (c.half_plain h2)]
  have ep (hf : Half) : (c.applied (c.half hf)).pendOf (.v n l) = (c.half hf).at n l := by
    rw [h.half_applied hf, ← Fx.due_at]
    rfl
  obtain ⟨hw, hn⟩ := h.paired_pendOf h1 h2 n hl
  exact ⟨fun w => Slice.lands_of_pend (ev h2) ((ep h2).trans (hw w).symm), fun w => Slice.lands_of_pend (ev h1) ((ep h1).trans (hn w).symm)⟩

/-- The second half's bit goes above what the first half leaves on Q (R28). -/
theorem AtRest.paired_queue (h : AtRest s c) (h1 h2 : Half) :
    (halfDest h2 ≠ .queue → (c.paired (c.half h1) (c.half h2)).q = (c.applied (c.half h1)).q)
    ∧ (halfDest h2 = .queue → (c.paired (c.half h1) (c.half h2)).q
      = Vector.ofFn (fun l : Fin 4 => ((c.applied (c.half h1)).q[l] <<< 1) ||| ((c.applied (c.half h2)).q[l] &&& 1#8))) := by
  have hq : (c.half h2).q = none := (c.half_plain h2).2.2.1
  rw [h.half_applied h1, h.half_applied h2, h.paired_eq (c.half_plain h1) (c.half_plain h2)]
  obtain ⟨hp, hd⟩ | ⟨⟨b, hp⟩, hd⟩ := c.half_push h2
  · refine ⟨fun _ => ?_, fun e => absurd e hd⟩
    simp only [Fx.qAfter, hp, hq, Option.getD_none]
  · refine ⟨fun e => absurd hd e, fun _ => ?_⟩
    simp only [Fx.qAfter.eq_def (c.half h2), hp, hq, Option.getD_none]
    exact pushedBits_last _ _ b

theorem AtRest.paired_vectorsDue (h : AtRest s c) (h1 h2 : Half) : (c.paired (c.half h1) (c.half h2)).vectorsDue := by
  have p1 := c.half_plain h1
  have p2 := c.half_plain h2
  rw [Slice.vectorsDue, h.paired_eq p1 p2]
  intro p hp
  exact (List.mem_append.mp hp).elim (Fx.due_vectors (Fx.without_inLanes _ p1.1) p) (Fx.due_vectors p2.1 p)

/-- Settles O17: both halves read the slice that issues the word; where the second writes a register, nothing of the first remains. -/
theorem pairedWords : Obligations.PairedWords := by
  unfold Obligations.PairedWords
  intro s c m h1 h2 h hu
  have p1 := c.half_plain h1
  have p2 := c.half_plain h2
  have hd := h.paired_vectorsDue h1 h2
  have a1 := h.halfAlone_done h1 (fun r hr => hu r (List.mem_append_left _ hr))
  have a2 := h.halfAlone_done h2 (fun r hr => hu r (List.mem_append_right _ hr))
  rw [h.done_applied p1.1.1, if_neg Bool.false_ne_true] at a1
  rw [h.done_applied p2.1.1, if_neg Bool.false_ne_true] at a2
  refine ⟨_, _, _, a1, a2, h.pairedWord_eq m h1 h2 hu, ?_⟩
  generalize hy : (if m then s.settle (c.paired (c.half h1) (c.half h2)) else c.paired (c.half h1) (c.half h2)) = y
  have hf : y = { c.paired (c.half h1) (c.half h2) with v := y.v, pend := y.pend } := by
    subst hy
    split_ifs
    · have e := s.settle_vectors hd
      rw [show (s.settle (c.paired (c.half h1) (c.half h2))).pend = [] from congrArg Slice.pend e]
      exact e
    · rfl
  have hland (n l : Nat) (v : Word64) (hl : l < 4) (hp : (c.paired (c.half h1) (c.half h2)).lands (.v n l) v) : y.lands (.v n l) v := by
    subst hy
    split_ifs
    · exact s.settle_lands hd hl hp
    · exact hp
  have hs (n : Nat) : y.sreg n = (c.paired (c.half h1) (c.half h2)).sreg n := (congrArg (Slice.sreg · n) hf).trans rfl
  have hq : y.q = (c.paired (c.half h1) (c.half h2)).q := (congrArg Slice.q hf).trans rfl
  refine ⟨?_, (congrArg Slice.smode hf).trans (h.paired_smode h1 h2), fun n _ => ?_, fun n l v hl => ?_, ?_, ?_⟩
  · rw [hf, h.paired_eq p1 p2]
  · rw [hs]
    exact h.paired_sreg h1 h2 n
  · obtain ⟨hw, hn⟩ := h.paired_lands h1 h2 n hl v
    exact ⟨fun w hx => hland n l v hl (hw w hx), fun w hx => hland n l v hl (hn w hx)⟩
  · rw [hq]
    exact (h.paired_queue h1 h2).1
  · rw [hq]
    exact (h.paired_queue h1 h2).2

end Sys2Proof.Machine

/-! Proofs: the words that trap, and what a trap that ends the grid leaves (R26, R73, R332–R346). -/

namespace Sys2Proof.Machine

variable {s : State} {c : Ctx}

/-! ### The end of a grid (R167, R346) -/

theorem Table.find_map_if {α : Type} (m : Table α) (p : α → Prop) [DecidablePred p] (f : α → α) (n : Nat) :
    Table.find (m.map (fun e => if p e.2 then (e.1, f e.2) else e)) n = (Table.find m n).map (fun v => if p v then f v else v) := by
  induction m with
  | nil => rfl
  | cons e m ih =>
    obtain ⟨j, v⟩ := e
    by_cases hv : p v <;> by_cases hn : n = j <;> simp_all [Table.find]

theorem State.endInImages_blocks (s : State) (gid : Nat) (h : Grid → Grid) : (s.endInImages gid h).blocks = s.blocks := by
  unfold State.endInImages
  split <;> [rfl; split_ifs <;> rfl]
theorem State.endInImages_grids (s : State) (gid : Nat) (h : Grid → Grid) : (s.endInImages gid h).grids = s.grids := by
  unfold State.endInImages
  split <;> [rfl; split_ifs <;> rfl]

theorem State.endGrid_blocks (s : State) (gid : Nat) (f : GridFault) (status n : Nat) :
    Table.find (s.endGrid gid f status).blocks n
      = (Table.find s.blocks n).map (fun b => if b.gid = gid then { b with killed := true } else b) := by
  refine (Table.find_map_if _ (fun b : Block => b.gid = gid) (fun b => { b with killed := true }) n).trans ?_
  rw [State.modGrid_blocks, State.endInImages_blocks]

theorem State.endGrid_grids (s : State) (gid : Nat) (f : GridFault) (status n : Nat) :
    Table.find (s.endGrid gid f status).grids n
      = if n = gid then (Table.find s.grids gid).map (fun g => g.endBy f status) else Table.find s.grids n := by
  refine (State.modGrid_find _ _ _ _).trans ?_
  rw [State.endInImages_grids]

theorem Ctx.endGridAt_eq (c : Ctx) (pc : Word64) (cause : Cause) (handler : Bool) : c.endGridAt pc cause handler
    = c.s.endGrid c.b.gid ⟨pc, c.kidx, BitVec.ofNat 8 (cause.code + (if handler then 128 else 0))⟩ (if cause = .watchdog then 3 else 4) := by
  cases cause <;> rfl

/-- A fault that ends the grid of a slice, which is held no longer. -/
theorem AtRest.endsGrid (h : AtRest s c) (cause : Cause) (handler : Bool) :
    c.endsGrid (c.unheld.endGridAt c.x.pc cause handler) cause handler := by
  obtain ⟨hs, hk, hx, hb⟩ := State.ctx_eq h.here
  have hsl : (c.unheld.endGridAt c.x.pc cause handler).slices = Table.put s.slices s.cur { c.x with hold := .none } := by
    rw [Ctx.endGridAt_slices, Ctx.unheld, hs]
    rfl
  refine ⟨?_, ?_, fun j hj => ?_, fun n b hn => ?_, fun g hg hr _ => ?_, fun n hn => ?_⟩
  · rw [Ctx.endGridAt_mem]
    rfl
  · rw [hsl, hk, Table.find_put_self]
  · rw [hsl, hs, Table.find_put_other _ _ (hk ▸ hj)]
  · have hn' : Table.find c.unheld.s.blocks n = some b := hn
    rw [Ctx.endGridAt_eq, State.endGrid_blocks, hn']
    rfl
  · have hg' : Table.find c.unheld.s.grids c.b.gid = some g := hg
    rw [Ctx.endGridAt_eq, State.endGrid_grids, show c.unheld.b = c.b from rfl, if_pos rfl, hg', Option.map_some, Grid.endBy, if_pos hr]
    rfl
  · rw [Ctx.endGridAt_eq, State.endGrid_grids]
    exact if_neg hn

/-- A fault above user level, or of a cause that no handler receives, ends the grid (R332, R335). -/
theorem AtRest.takeTrap_ends (h : AtRest s c) (t : TrapInfo) (w : Word64) (hp : c.x.priv ≠ 0 ∨ t.cause.delivered = false) :
    s.takeTrap s.cur t w = c.unheld.endGridAt c.x.pc t.cause (c.x.priv == 1) := by
  obtain ⟨hs, hk, hx, hb⟩ := State.ctx_eq h.here
  have hl : c.x.longOut = false := by simp [Slice.longOut, h.noOps]
  have hm : s.modSlice s.cur (fun x => { s.settle x with hold := .none }) = c.unheld.s := by
    simp [State.modSlice, hx, State.settle, h.noPend, Ctx.unheld, State.withSlice, hs]
  have hc : c.unheld.s.ctx s.cur = some c.unheld := by
    have hb' : Table.find c.unheld.s.blocks (keyBlock s.cur) = some c.b := by simpa [Ctx.unheld, hs] using hb
    rw [State.ctx_of (x := c.unheld.x) (by simp [Ctx.unheld, hs]) hb']
    simp [Ctx.unheld, hk]
  have hpr : c.unheld.x.priv = c.x.priv := rfl
  have hpc : c.unheld.x.pc = c.x.pc := rfl
  by_cases h1 : c.x.priv = 1
  · simp [State.takeTrap, hx, hl, State.enterTrap, hm, hc, hpr, hpc, h1]
  · have hb1 : (c.x.priv == 1) = false := by simpa using h1
    simp [State.takeTrap, hx, hl, State.enterTrap, hm, hc, hpr, hpc, h1, hb1, hp]

theorem AtRest.trap_ends (h : AtRest s c) (t : TrapInfo) (hp : c.x.priv ≠ 0 ∨ t.cause.delivered = false) :
    c.endsGrid (c.trap t) t.cause (c.x.priv == 1) := by
  rw [Ctx.trap, h.state, h.key, h.takeTrap_ends t _ hp]
  exact h.endsGrid _ _

/-! ### The words that trap (R26, R73, R75, R343) -/

/-- A word that is no instruction (R73). -/
theorem AtRest.stops_illegal (h : AtRest s c) (w : WordChk) (hi : w.illegal = true) :
    c.stops w = some (c.trap { cause := .illegalInstruction }) := by
  simp [Ctx.stops, h.dropReport, h.poisonReport, hi]

/-- A word that the slice's level does not permit (R26). -/
theorem AtRest.stops_privilege (h : AtRest s c) (w : WordChk) (hi : w.illegal = false) (hp : w.permits c.x.priv = false) :
    c.stops w = some (c.trap { cause := .privilege }) := by
  simp [Ctx.stops, h.dropReport, h.poisonReport, hi, hp]

theorem AtRest.illegal_exec (h : AtRest s c) (w : Word64) :
    exec (.illegalInstruction w) s = .next (c.trap { cause := .illegalInstruction }) :=
  h.issue_stopped (h.stops_illegal _ rfl) _

/-- An emulation-defined word whose operands lie within VCOUNT (R75, R142). -/
theorem AtRest.emulated_eq (h : AtRest s c) (k : Ctl) (d a : VReg) (b : VSrc)
    (hf : (useD .n32 d :: useA .n32 a :: useB .n32 b).all (fun r => decide (r.n + r.count ≤ c.squad.vcount)) = true) :
    emulated s k d a b = .next (if (c.x.lanes k.guard).isEmpty then c.done {} k.m else c.trap { cause := .emulatedOpcode }) := by
  refine h.issue_fits (fun r hr => ?_) _
  obtain ⟨u, hu, rfl⟩ := List.mem_map.mp hr
  exact of_decide_eq_true (List.all_eq_true.mp hf u hu)

/-- A word whose own effect at user level is a trap takes that trap, which a handler receives. -/
theorem AtRest.trapRule_exec (h : AtRest s c) (hu : c.x.priv = 0) {i : Instr} {t : TrapInfo} (hr : c.trapRule i = some t) :
    exec i s = .next (c.trap t) ∧ t.cause.delivered = true := by
  have permits (w : WordChk) (hw : w.user = true) : w.permits c.x.priv = true := by
    rw [WordChk.permits, if_pos hu]
    exact hw
  unfold Ctx.trapRule at hr
  split at hr
  case h_1 k n =>
    obtain ⟨hg, e⟩ := Option.ite_none_right_eq_some.mp hr
    cases e
    refine ⟨(issue_rest h (fun _ => { handler := false, steward := false }) _ rfl rfl (permits _ rfl) c.fits_nil).trans ?_, rfl⟩
    rw [if_pos hg]
  case h_2 k n =>
    cases hr
    exact ⟨issue_rest h (fun _ => { handler := false, steward := false }) _ rfl rfl (permits _ rfl) c.fits_nil, rfl⟩
  case h_3 w =>
    cases hr
    exact ⟨h.illegal_exec w, rfl⟩
  case h_8 => cases hr
  all_goals
    obtain ⟨hf, e⟩ := Option.ite_none_right_eq_some.mp hr
    cases e
    rw [Bool.and_eq_true, Bool.not_eq_true'] at hf
    refine ⟨(h.emulated_eq _ _ _ _ hf.1).trans ?_, rfl⟩
    rw [hf.2]
    rfl

/-- The privileged words are refused at user level (R26, R342–R344, R352). -/
theorem AtRest.privileged_exec (h : AtRest s c) (hu : c.x.priv = 0) {i : Instr} (hi : isPrivileged i = true) :
    exec i s = .next (c.trap { cause := .privilege }) := by
  have denied (w : WordChk) (hl : w.illegal = false) (hw : w.user = false) : c.stops w = some (c.trap { cause := .privilege }) := by
    refine h.stops_privilege w hl ?_
    rw [WordChk.permits, if_pos hu]
    exact hw
  cases i
  case tret | sysrd | syswr | tlbinv | tlbinvS2 => exact h.issue_stopped (denied _ rfl rfl) _
  all_goals cases hi

/-- TRAP and BRK are words of user level (R26, R343). -/
theorem AtRest.trap_brk_above (h : AtRest s c) (hp : c.x.priv ≠ 0) (k : Ctl) (n : BitVec 8) :
    exec (.trap k n) s = .next (c.trap { cause := .privilege }) ∧ exec (.brk k n) s = .next (c.trap { cause := .privilege }) := by
  have denied : c.stops { handler := false, steward := false } = some (c.trap { cause := .privilege }) := by
    refine h.stops_privilege _ rfl ?_
    rw [WordChk.permits, if_neg hp, ite_self]
  exact ⟨h.issue_stopped denied _, h.issue_stopped denied _⟩

/-- A trap that finds no handler, or no place for its frame, ends the grid (R333–R335). -/
theorem AtRest.trap_unhandled (h : AtRest s c) (hu : c.x.priv = 0) {t : TrapInfo} (hd : t.cause.delivered = true) :
    (fld c.lrec 191 128 = 0 → c.trap t = c.unheld.endGridAt c.x.pc t.cause false)
    ∧ (fld c.lrec 191 128 ≠ 0 → (s.chip c.b.vf).tfbase = 0 → c.trap t = c.unheld.endGridAt c.x.pc .frameFault false) := by
  have hl : c.unheld.lrec = c.lrec := rfl
  have hc : (c.unheld.s.chip c.unheld.b.vf) = s.chip c.b.vf := by rw [← h.state]; rfl
  rw [h.trap_deliver hu hd, Ctx.deliver, hl, hc]
  refine ⟨fun h0 => if_pos h0, fun h0 hb => ?_⟩
  rw [if_neg h0]
  exact if_pos (.inl hb)

theorem trapEntry : Claims.TrapEntry := by
  intro s c i t vec at_ after hr h
  obtain ⟨he, hd⟩ := h.rest.trapRule_exec h.user hr
  rw [he, h.trap_atHandler hd]

theorem privilegedWords : Claims.PrivilegedWords := by
  intro s c i vec at_ after hi h
  rw [h.rest.privileged_exec h.user hi, h.trap_atHandler rfl]

theorem trapsThatEnd : Claims.TrapsThatEnd := by
  refine ⟨fun s c i t h hu hr => ?_, fun s c h hp => ?_, fun s c t w h hu hd => ?_⟩
  · obtain ⟨he, hd⟩ := h.trapRule_exec hu hr
    obtain ⟨hv, hb⟩ := h.trap_unhandled hu hd
    exact ⟨fun h0 => ⟨_, he, hv h0 ▸ h.endsGrid _ _⟩, fun h0 h1 => ⟨_, he, hb h0 h1 ▸ h.endsGrid _ _⟩⟩
  · have hp' : c.x.priv ≠ 0 := by omega
    exact ⟨fun w => ⟨_, h.illegal_exec w, h.trap_ends _ (.inl hp')⟩, fun k n => ⟨_, (h.trap_brk_above hp' k n).1, h.trap_ends _ (.inl hp')⟩,
      fun k n => ⟨_, (h.trap_brk_above hp' k n).2, h.trap_ends _ (.inl hp')⟩⟩
  · rw [h.takeTrap_ends t w (.inr hd), hu]
    exact h.endsGrid _ _

end Sys2Proof.Machine

/-! Proofs: what the trap frame and INFO hold (R336, R337). -/

namespace Sys2Proof.Machine

variable {s : State} {c : Ctx}

/-! ### Fields of a number's bytes (R9) -/

theorem length_leBytes (n x : Nat) : (leBytes n x).length = n := by
  induction n generalizing x with
  | zero => rfl
  | succ n ih => simp [leBytes, ih]

theorem leNat_leBytes (n x : Nat) : leNat (leBytes n x) = x % 256 ^ n := by
  induction n generalizing x with
  | zero => simp [leBytes, leNat, Nat.mod_one]
  | succ n ih =>
    rw [leBytes, leNat, ih, BitVec.toNat_ofNat, show (2 : Nat) ^ 8 = 256 from rfl, pow_succ', Nat.mod_mul]

theorem drop_leBytes (n o x : Nat) : (leBytes n x).drop o = leBytes (n - o) (x / 256 ^ o) := by
  induction o generalizing n x with
  | zero => simp
  | succ o ih =>
    cases n with
    | zero => simp [leBytes]
    | succ n => rw [leBytes, List.drop_succ_cons, ih, Nat.add_sub_add_right, Nat.div_div_eq_div_mul, pow_succ']

theorem take_leBytes {n k : Nat} (x : Nat) (h : k ≤ n) : (leBytes n x).take k = leBytes k x := by
  induction k generalizing n x with
  | zero => rfl
  | succ k ih =>
    obtain ⟨m, rfl⟩ : ∃ m, n = m + 1 := ⟨n - 1, by omega⟩
    rw [leBytes, leBytes, List.take_succ_cons, ih _ (by omega)]

/-- The k bytes from byte o of a number of n bytes, where other bytes may follow. -/
theorem leNat_leBytes_append {n o k : Nat} (x : Nat) (bs : List Byte) (h : o + k ≤ n) :
    leNat (((leBytes n x ++ bs).drop o).take k) = x / 256 ^ o % 256 ^ k := by
  rw [List.drop_append_of_le_length (by rw [length_leBytes]; omega), drop_leBytes,
    List.take_append_of_le_length (by rw [length_leBytes]; omega), take_leBytes _ (by omega), leNat_leBytes]

/-- Entry n of a table of entries of one size. -/
theorem take_drop_flatMap {α : Type} (f : α → List Byte) (k : Nat) (hf : ∀ a, (f a).length = k) (as : List α) (n : Nat) (h : n < as.length) :
    ((as.flatMap f).drop (k * n)).take k = f as[n] := by
  induction as generalizing n with
  | nil => exact absurd h (Nat.not_lt_zero n)
  | cons a as ih =>
    cases n with
    | zero => simp [hf]
    | succ n =>
      rw [List.flatMap_cons, Nat.mul_succ, Nat.add_comm, ← List.drop_drop, List.drop_append_of_le_length (hf a).ge,
        List.drop_eq_nil_of_le (hf a).le, List.nil_append, ih n (by simpa using h), List.getElem_cons_succ]

/-! ### INFO (R337) -/

theorem Cause.code_lt (a : Cause) : a.code < 256 := by cases a <;> decide
theorem bitOf_le (b : Bool) : bitOf b ≤ 1 := by cases b <;> decide

theorem infoWord_lt (x : Slice) (t : TrapInfo) : infoWord x t < 2 ^ 64 := by
  have := t.cause.code_lt
  have := bitOf_le t.defer
  have := bitOf_le t.wr
  have := x.exec.isLt
  have := x.live.isLt
  have := t.aux.isLt
  unfold infoWord
  omega

theorem toNat_extract_ofNat (N o n : Nat) (h : o + n ≤ 64) : ((BitVec.ofNat 64 N).extractLsb' o n).toNat = N / 2 ^ o % 2 ^ n := by
  have hp : (2 : Nat) ^ 64 = 2 ^ o * 2 ^ (64 - o) := by rw [← pow_add]; congr 1; omega
  rw [BitVec.extractLsb'_toNat, BitVec.toNat_ofNat, Nat.shiftRight_eq_div_pow, hp, Nat.mod_mul_right_div_self,
    Nat.mod_mod_of_dvd _ (pow_dvd_pow 2 (by omega))]

theorem infoWord_fields (x : Slice) (t : TrapInfo) :
    let info := BitVec.ofNat 64 (infoWord x t)
    (info.extractLsb' 0 8).toNat = t.cause.code ∧ info.getLsbD 8 = t.defer ∧ info.getLsbD 9 = t.wr
    ∧ info.extractLsb' 10 2 = BitVec.ofNat 2 t.level ∧ info.extractLsb' 12 4 = BitVec.ofNat 4 t.engerr
    ∧ info.extractLsb' 16 4 = x.exec ∧ info.extractLsb' 20 4 = x.live ∧ info.extractLsb' 24 2 = BitVec.ofNat 2 t.lane
    ∧ info.extractLsb' 26 6 = 0 ∧ info.extractLsb' 32 32 = t.aux := by
  have h1 := t.cause.code_lt
  have h2 := bitOf_le t.defer
  have h3 := bitOf_le t.wr
  have h4 := x.exec.isLt
  have h5 := x.live.isLt
  have h6 := t.aux.isLt
  have hbit (i : Nat) (hi : i < 64) (b : Bool) (h : infoWord x t / 2 ^ i % 2 = bitOf b) : (BitVec.ofNat 64 (infoWord x t)).getLsbD i = b := by
    rw [BitVec.getLsbD_ofNat, Nat.testBit_eq_decide_div_mod_eq, h, decide_eq_true hi]
    cases b <;> rfl
  have hfld (o n : Nat) (ho : o + n ≤ 64) (v : BitVec n) (h : infoWord x t / 2 ^ o % 2 ^ n = v.toNat) :
      (BitVec.ofNat 64 (infoWord x t)).extractLsb' o n = v :=
    BitVec.eq_of_toNat_eq ((toNat_extract_ofNat _ o n ho).trans h)
  refine ⟨(toNat_extract_ofNat _ 0 8 (by decide)).trans ?_, hbit 8 (by decide) _ ?_, hbit 9 (by decide) _ ?_, hfld 10 2 (by decide) _ ?_,
    hfld 12 4 (by decide) _ ?_, hfld 16 4 (by decide) _ ?_, hfld 20 4 (by decide) _ ?_, hfld 24 2 (by decide) _ ?_,
    hfld 26 6 (by decide) _ ?_, hfld 32 32 (by decide) _ ?_⟩
  all_goals
    simp only [infoWord, BitVec.toNat_ofNat, BitVec.ofNat_eq_ofNat]
    omega

/-! ### The frame (R336) -/

/-- The number that the first 512 bytes of a frame hold. -/
def Ctx.frameHead (c : Ctx) (t : TrapInfo) (word : Word64) : Nat :=
  c.x.pc.toNat + word.toNat * 2 ^ 64 + t.addr.toNat * 2 ^ 128 + infoWord c.x t * 2 ^ 192
    + c.x.smode.toNat * 2 ^ 256 + c.x.qWord * 2 ^ 320 + c.squad.vbase % 2 ^ 20 * 2 ^ 384 + c.squad.vcount % 2 ^ 9 * 2 ^ 404
    + keySquad c.k * 2 ^ 432 + keySlice c.k * 2 ^ 440 + c.kidx % 2 ^ 16 * 2 ^ 448 + t.pump.toNat * 2 ^ 512

theorem AtRest.frameBytes_eq (h : AtRest s c) (t : TrapInfo) (w : Word64) :
    c.frameBytes t w = leBytes 512 (c.frameHead t w) ++ (List.range 64).flatMap (fun n => leBytes 8 (c.x.sreg n).toNat) := by
  simp only [Ctx.frameBytes, Ctx.frameHead, Ctx.vbase, Ctx.vcount, h.inC, h.unspliced, h.physS, Bool.false_eq_true, if_false]

theorem trapFrame : Claims.TrapFrame := by
  intro s c t w h f at_
  have hhead (o k : Nat) (ho : o + k ≤ 512) : at_ o k = c.frameHead t w / 256 ^ o % 256 ^ k := by
    change leNat (((c.frameBytes t w).drop o).take k) = _
    rw [h.frameBytes_eq, leNat_leBytes_append _ _ ho]
  have h0 := c.x.pc.isLt
  have h1 := w.isLt
  have h2 := t.addr.isLt
  have h3 := infoWord_lt c.x t
  have h4 := c.x.smode.isLt
  have h5 : c.x.qWord < 2 ^ 32 := by
    rw [Slice.qWord_eq]
    exact BitVec.isLt _
  have h6 : keySquad c.k < 32 := Nat.mod_lt _ (by decide)
  have h7 : keySlice c.k < 8 := Nat.mod_lt _ (by decide)
  have h8 := t.pump.isLt
  have hinfo : at_ 24 8 = infoWord c.x t := by
    rw [hhead 24 8 (by decide)]
    unfold Ctx.frameHead
    omega
  rw [← Slice.qWord_eq]
  refine ⟨?_, ?_, ?_, ?_, hinfo, ?_, ?_, ?_, ?_, ?_, ?_, ?_, fun n hn => ?_, ?_, ?_, ?_, ?_, hinfo ▸ infoWord_fields c.x t⟩
  case refine_1 =>
    change (c.frameBytes t w).length = 1024
    simp [h.frameBytes_eq, length_leBytes]
  case refine_12 =>
    change leNat (((c.frameBytes t w).drop (512 + 8 * n)).take 8) = _
    rw [h.frameBytes_eq, ← List.drop_drop, List.drop_append_of_le_length (length_leBytes _ _).ge,
      List.drop_eq_nil_of_le (length_leBytes _ _).le, List.nil_append,
      take_drop_flatMap _ 8 (fun _ => length_leBytes 8 _) _ n (by simpa using hn), List.getElem_range, leNat_leBytes]
    exact Nat.mod_eq_of_lt (BitVec.isLt _)
  all_goals
    rw [hhead _ _ (by decide)]
    unfold Ctx.frameHead
    omega

/-- Settles O19: the words that trap and the privileged words, what the frame holds, and the traps that end the grid. -/
theorem traps : Obligations.Traps := ⟨trapEntry, privilegedWords, trapFrame, trapsThatEnd⟩

end Sys2Proof.Machine

/-! Proofs: the system registers (R26, R279, R344, R375). -/

namespace Sys2Proof.Machine

variable {s : State} {c : Ctx}

/-! ### Reading -/

/-- SCOPEPOL is a field of the function's record. -/
theorem scopepol_eq (w : BitVec 256) : BitVec.ofNat 64 (fld w 66 64) = ((w >>> 64) &&& 7).setWidth 64 := by
  refine BitVec.eq_of_toNat_eq ?_
  simp only [fld, bits, BitVec.toNat_ofNat, BitVec.toNat_setWidth, BitVec.toNat_and, BitVec.toNat_ushiftRight, Nat.shiftRight_eq_div_pow]
  exact congrArg (· % 2 ^ 64) (Nat.and_two_pow_sub_one_eq_mod _ 3).symm

theorem AtRest.sysread_eq (h : AtRest s c) (hv : c.b.vf < 64) (r : SysReg) : c.sysread r = sysValue s c r := by
  have hs := h.state
  cases r
  case vmid => simp [Ctx.sysread, sysValue, Ctx.vmid, hv]
  case scopepol => simp only [Ctx.sysread, sysValue, scopepol_eq, hs]
  all_goals simp only [Ctx.sysread, sysValue, hs]

/-- What SYSRD checks (R26, R344). -/
def sysrdChk (r : SysReg) : WordChk := { user := false, handler := r.forHandler }
/-- What SYSWR checks (R26, R344, R375). -/
def syswrChk (r : SysReg) (c : Ctx) : WordChk :=
  { user := false, handler := false, steward := r.writable && (!r.ofFunction || decide (c.b.vf < 64)) }

theorem sysrd_permits (r : SysReg) (p : Nat) : (sysrdChk r).permits p
    = decide (2 ≤ p ∨ p = 1 ∧ r ≠ .govcfg ∧ r ≠ .partcfg) := by
  obtain rfl | rfl | hp : p = 0 ∨ p = 1 ∨ 2 ≤ p := by omega
  · rfl
  · cases r <;> rfl
  · rw [WordChk.permits, if_neg (by omega), if_neg (by omega), decide_eq_true (.inl hp)]
    rfl

theorem systemReads : Claims.SystemReads := by
  intro s c k r d h hg hv hp
  have hok : (sysrdChk r).permits c.x.priv = true := by
    rw [sysrd_permits]
    exact decide_eq_true hp.symm
  refine (issue_rest h (fun _ => sysrdChk r) _ rfl rfl hok c.fits_nil).trans (congrArg _ ?_)
  rw [if_pos hg, h.done_short rfl rfl, h.applied_eq rfl, h.sysread_eq hv]
  simp [smodeRaise_none, Fx.due, fullWrites, Fx.qAfter, Ctx.next, Slice.withS, Slice.setS, h.noPend, d.isLt]

/-! ### Writing -/

/-- A slice at rest goes on in a state that differs in neither slices nor blocks. -/
theorem AtRest.finish_after (h : AtRest s c) {t : State} (hs : t.slices = s.slices) (hb : t.blocks = s.blocks) (hc : t.cur = s.cur)
    (m : Bool) : t.finish c.k m = t.withSlice c.next := by
  obtain ⟨-, hk, hx, hbl⟩ := State.ctx_eq h.here
  rw [hk, State.finish_plain m (hs ▸ hx) (hb ▸ hbl) h.unspliced h.noOps h.noPend h.noReport, State.withSlice, hc]
  rfl

/-- Writing a system register changes neither slices nor blocks. -/
theorem Ctx.syswrite_frame (c : Ctx) (r : SysReg) (v : Word64) :
    (c.syswrite r v).slices = c.s.slices ∧ (c.syswrite r v).blocks = c.s.blocks ∧ (c.syswrite r v).cur = c.s.cur := by
  unfold Ctx.syswrite
  cases r <;> dsimp only <;> try split_ifs
  all_goals exact ⟨rfl, rfl, rfl⟩

/-- SYSWR at steward level writes its register and goes on (R26, R344). -/
theorem AtRest.syswr_exec (h : AtRest s c) {k : Ctl} {r : SysReg} (a : SReg) (hg : c.x.guardScalar k.guard = true) (hv : c.b.vf < 64)
    (hp : 2 ≤ c.x.priv) (hr : r.writable = true) : exec (.syswr k r a) s = .next ((c.syswrite r (c.x.sreg a.val)).withSlice c.next) := by
  obtain ⟨hs, hb, hc⟩ := c.syswrite_frame r (c.x.sreg a.val)
  have hok : (syswrChk r c).permits c.x.priv = true := by
    rw [WordChk.permits, if_neg (by omega), if_neg (by omega), syswrChk, hr, decide_eq_true hv, Bool.or_true]
    rfl
  refine (issue_rest h (syswrChk r) _ rfl rfl hok c.fits_nil).trans (congrArg _ ?_)
  rw [if_pos hg, h.rdS]
  rw [h.state] at hs hb hc
  exact h.finish_after hs hb hc _

theorem setBits_lt {w n lo len : Nat} (v : Nat) (hw : w < 2 ^ n) (h : lo + len ≤ n) : setBits w lo len v < 2 ^ n := by
  refine Nat.lt_pow_two_of_testBit _ fun i hi => ?_
  rw [testBit_setBits, if_neg (by omega)]
  exact Nat.testBit_lt_two_pow (hw.trans_le (Nat.pow_le_pow_right (by decide) hi))

theorem systemWrites : Claims.SystemWrites := by
  intro s c k a h hg hv hp v done
  have hw (r : SysReg) (hr : r.writable = true) := h.syswr_exec a hg hv hp hr
  have hs := h.state
  refine ⟨(hw .tfbase rfl).trans ?_, (hw .ctbase rfl).trans ?_, (hw .hwdog rfl).trans ?_,
    ⟨s.pick 90001 (256 - (s.core c.b.core).active + 1), (hw .govcfg rfl).trans ?_⟩,
    ⟨_, hw .scopepol rfl, ?_, fun f hf => ?_, ?_, ?_⟩⟩
  · simp only [Ctx.syswrite, beq_iff_eq, hs]
    rfl
  · simp only [Ctx.syswrite, beq_iff_eq, hs]
    rfl
  · simp only [Ctx.syswrite, hs]
    rfl
  · simp only [Ctx.syswrite, hs]
    rfl
  · refine (congrArg BitVec.toNat (Table.getD_put_self _ _ _ _)).trans ?_
    rw [BitVec.toNat_ofNat, hs, Nat.mod_eq_of_lt (setBits_lt _ (BitVec.isLt _) (by decide))]
  · rw [← hs]
    exact congrArg (Option.getD · _) (Table.find_put_other _ _ hf)
  · rw [← hs]; rfl
  · rw [← hs]; rfl

/-! ### Where they are privilege traps -/

theorem systemPrivileges : Claims.SystemPrivileges := by
  intro s c k r d h
  have denied {i : Instr} {chk : Ctx → WordChk} {body : Ctx → State} (he : exec i s = issue s chk body) (hi : (chk c).illegal = false)
      (hp : (chk c).permits c.x.priv = false) (hn : c.x.priv ≠ 0) (handler : Bool) (hh : (c.x.priv == 1) = handler) :
      ∃ u, exec i s = .next u ∧ c.endsGrid u .privilege handler :=
    ⟨_, he.trans (h.issue_stopped (h.stops_privilege _ hi hp) _), hh ▸ h.trap_ends _ (.inl hn)⟩
  have rd : exec (.sysrd k r d) s = issue s (fun _ => sysrdChk r) _ := rfl
  have wr : exec (.syswr k r d) s = issue s (syswrChk r) _ := rfl
  refine ⟨fun hp => ⟨fun hr => denied rd rfl ?_ (by omega) true (by simp [hp]), denied wr rfl ?_ (by omega) true (by simp [hp])⟩,
    fun hp => ⟨fun hr => denied wr rfl ?_ (by omega) false (by simp; omega), fun hv hr => denied wr rfl ?_ (by omega) false (by simp; omega)⟩⟩
  · rw [hp]
    rcases hr with rfl | rfl <;> rfl
  · rw [hp]
    rfl
  · rw [WordChk.permits, if_neg (by omega), if_neg (by omega)]
    rcases hr with rfl | rfl | rfl <;> rfl
  · rw [WordChk.permits, if_neg (by omega), if_neg (by omega), syswrChk, decide_eq_false (by omega)]
    rcases hr with rfl | rfl | rfl | rfl <;> rfl

/-- Settles O21: the level that each word checks permits it or is the privilege trap; a permitted word reads or writes its register. -/
theorem systemRegisters : Obligations.SystemRegisters := ⟨systemReads, systemWrites, systemPrivileges⟩

end Sys2Proof.Machine

/-! Proofs: the words on barrier objects, and what an arrival does to one (R185–R187, R302, R303). -/

namespace Sys2Proof.Machine

variable {s : State} {c : Ctx}

/-! ### Release points of a slice with nothing outstanding (R241) -/

/-- The issuing word in a state that differs in neither slices nor blocks. -/
theorem AtRest.at_eq (h : AtRest s c) {t : State} (hs : t.slices = s.slices) (hb : t.blocks = s.blocks) : c.at t = { c with s := t } := by
  obtain ⟨-, hk, hx, hbl⟩ := State.ctx_eq h.here
  rw [Ctx.at, hk, State.ctx_of (hs ▸ hx) (hb ▸ hbl)]
  rfl

theorem AtRest.at_self (h : AtRest s c) : c.at s = c := by
  rw [h.at_eq rfl rfl, ← h.state]

/-- A slice that holds no write passes a release point as it is. -/
theorem AtRest.releaseAll_eq (h : AtRest s c) (go : Ctx → State) : c.releaseAll go = go c := by
  obtain ⟨hs, hk, hx, -⟩ := State.ctx_eq h.here
  have hd : c.s.drain c.k = s := by
    rw [hs, hk, State.drain, hx]
    simp [h.noOps, State.performHeld]
  have hr : c.x.dropReport = none := by simp [Slice.dropReport, h.noDrops]
  simp [Ctx.releaseAll, Ctx.release, hd, h.at_self, hr, h.noOps]

theorem AtRest.ordered_release (h : AtRest s c) (scope : Scope) (rel : Bool) :
    c.ordered scope false rel false = { c with s := if rel then s.widen s.cur c.x.seq scope else s } := by
  obtain ⟨hs, hk, -, -⟩ := State.ctx_eq h.here
  simp only [Ctx.ordered, Bool.and_false, Bool.false_eq_true, if_false, hs, hk]
  exact (h.at_eq (t := if rel then s.widen s.cur c.x.seq scope else s) (by cases rel <;> rfl) (by cases rel <;> rfl)).trans (by rw [hk])

/-- The ordering of a word without an acquire, of a slice with nothing outstanding (R238, R250). -/
theorem AtRest.fenced_eq (h : AtRest s c) (scope : Scope) (rel : Bool) (go : Ctx → State) :
    c.fenced scope false rel false go = go { c with s := if rel then s.widen s.cur c.x.seq scope else s } := by
  cases rel
  · simp only [Ctx.fenced, Bool.or_false, Bool.false_and, Bool.false_eq_true, if_false]
    rw [← h.state]
  · simp [Ctx.fenced, h.noOps, h.releaseAll_eq, h.ordered_release]

/-! ### The address of an object (R185) -/

theorem Ctx.abCheck_ok (c : Ctx) {a o : Nat} (wr reads : Bool) (ha : a = 0x7FFFFF0000000000 + o) (hal : o % 16 = 0)
    (hsz : o + 16 ≤ c.b.scratchSize) (ho : o < 2 ^ 32) (hp : c.b.isPoisoned o = false) : c.abCheck a wr reads = .ok o := by
  have hr : regionOf a = .scratch o := by
    rw [regionOf_scratch (by omega) (by omega), ha, Nat.add_sub_cancel_left]
  have hm : ¬ a % 16 ≠ 0 := by omega
  simp only [Ctx.abCheck, if_neg hm, hr, if_neg (show ¬ c.b.scratchSize < o + 16 by omega), hp, Bool.and_false, Bool.false_eq_true, if_false]

/-! ### ABARR whose guard fails (R22, R250) -/

theorem barrierArrivalSkipped : Claims.BarrierArrivalSkipped := by
  intro s c k a scope rel bytes h hg hst hd
  have hi : exec (.abarr k scope rel a bytes) s = _ := h.issue_fits c.fits_nil _
  refine hi.trans (congrArg _ ?_)
  have hden : (rel && c.s.scopeDenied c.b.vf scope) = false := by
    cases rel
    · rfl
    · rw [h.state]; exact hd rfl
  simp only [if_neg hst, hg, Bool.not_false, if_true, hden, Bool.false_eq_true, if_false, h.fenced_eq]
  refine (h.finish_after (by cases rel <;> rfl) (by cases rel <;> rfl) (by cases rel <;> rfl) _).trans ?_
  rfl

/-! ### ABWAIT and ABTEST (R185–R187) -/

theorem Slice.mem_learn {x : Slice} {ks : List Known} {p : Known} : p ∈ (x.learn ks).knows ↔ p ∈ x.knows ∨ p ∈ ks := by
  by_cases h : p ∈ x.knows <;> simp [Slice.learn, h]

/-- The slice once it has learned of writes, in the state that holds it. -/
def Ctx.learned (c : Ctx) (ks : List Known) : Ctx := { c with s := c.s.withSlice (c.x.learn ks), x := c.x.learn ks }

/-- Learning of writes leaves a slice at rest. -/
theorem AtRest.learned (h : AtRest s c) (ks : List Known) : AtRest (s.withSlice (c.x.learn ks)) (c.learned ks) := by
  obtain ⟨hs, hk, -, hb⟩ := State.ctx_eq h.here
  refine ⟨?_, h.unspliced, h.noOps, h.noPend, h.noStale, h.noDrops, h.noDropDue, h.noReport, h.noFail, h.clean⟩
  rw [show (s.withSlice (c.x.learn ks)).cur = s.cur from rfl, State.ctx_of (State.withSlice_find_self s _) hb, Ctx.learned, hk, hs]

/-- What a slice learns that sees the phase of an object completed (R187, R252). -/
def Ctx.phaseKnown (c : Ctx) (o : Nat) : List Known :=
  c.s.gains c.site .system c.x.seq (c.b.phaseDone o)
    ++ (if (c.b.phaseDone o).any (fun m => pastCore m.scope && c.s.shares m.site c.site m.scope) then
      c.s.arrived c.site .system c.x.seq else [])

theorem AtRest.observed_eq (h : AtRest s c) {a o : Nat} (ha : a = 0x7FFFFF0000000000 + o) : c.observed a = c.learned (c.phaseKnown o) := by
  obtain ⟨hs, hk, hx, -⟩ := State.ctx_eq h.here
  have ho : a - windowBase = o := by unfold windowBase; omega
  have hm (f : Slice → Slice) : c.s.modSlice c.k f = s.withSlice (f c.x) := by
    simp [State.modSlice, State.withSlice, hs, hk, hx]
  have hl : (s.withSlice (c.x.learn (c.phaseKnown o))).ctx s.cur = some (c.learned (c.phaseKnown o)) := (h.learned _).here
  simp only [Ctx.observed, ho, hm]
  rw [Ctx.at, hk]
  exact congrArg (Option.getD · _) hl

/-- Whoever sees the phase completed learns what its messages make known (R187). -/
theorem Ctx.mem_phaseKnown (c : Ctx) {o : Nat} {m : Msg} {p : Known} (hm : m ∈ c.b.phaseDone o) (hs : c.s.shares m.site c.site m.scope = true)
    (hp : p ∈ m.knows) (hps : c.s.shares p.site c.site p.scope = true) : { p with since := c.x.seq } ∈ c.phaseKnown o := by
  refine List.mem_append_left _ (List.mem_flatMap.mpr ⟨m, List.mem_filter.mpr ⟨hm, ?_⟩,
    List.mem_map.mpr ⟨p, List.mem_filter.mpr ⟨hp, hps⟩, rfl⟩⟩)
  rw [hs]
  rfl

/-- A bit pushed in every lane. -/
theorem pushedBits_all (x : Slice) (v : Bool) : pushedBits x.q (laneMask (fun _ => v)) = x.pushed v := by
  rw [pushedBits_laneMask, Slice.pushed]
  ext i hi
  simp

/-- A word that pushes one bit in every lane and goes on. -/
theorem AtRest.done_pushed (h : AtRest s c) (v m : Bool) :
    c.done { push := some (laneMask (fun _ => v)) } m = s.withSlice { c.next with q := c.x.pushed v } := by
  rw [h.done_short rfl rfl, h.applied_eq rfl]
  simp [Fx.due, fullWrites, Fx.qAfter, pushedBits_all, smodeRaise_none, Ctx.next, h.noPend]

/-- The phase bit that a word reads from an object of the scratchpad (R185). -/
theorem AtRest.abPhase_eq (h : AtRest s c) {a o : Nat} (ha : a = 0x7FFFFF0000000000 + o) (hal : o % 16 = 0)
    (hsz : o + 16 ≤ c.b.scratchSize) (ho : o < 2 ^ 32) (hp : c.b.isPoisoned o = false) (go : Ctx → Bool → State) :
    c.abPhase a go = go c ((Sparse.get 0 c.b.scratch o).getLsbD 0) := by
  have hd : c.drained true a 16 = c := by simp [Ctx.drained, Ctx.ownWrite, h.noOps]
  simp only [Ctx.abPhase, c.abCheck_ok false true ha hal hsz ho hp, hd, testBit_eq]
  rfl

theorem barrierObjectTests : Claims.BarrierObjectTests := by
  intro s c k a b o h hp hg ha hal hsz ho hpo passed
  have hok : WordChk.permits { handler := false } c.x.priv = true := by
    rw [WordChk.permits, if_neg hp, ite_self]
  have hown : c.ownWrite true (c.val a).toNat 16 = false := by simp [Ctx.ownWrite, h.noOps]
  have hacq : c.x.acquiring = false := by simp [Slice.acquiring, h.noOps]
  have hpass : ((Sparse.get 0 c.b.scratch o).getLsbD 0 != testBit (c.val b).toNat 0) = passed := by rw [testBit_eq]; rfl
  have hwait : exec (.abwait k a b) s = .next (if passed then (c.observed (c.val a).toNat).s.finish c.k k.m else s) := by
    refine (issue_rest h (fun _ => { handler := false }) _ rfl rfl hok c.fits_nil).trans (congrArg _ ?_)
    rw [if_pos hg, h.src, h.abPhase_eq ha hal hsz ho hpo, h.src, hpass, hown, hacq, Bool.not_false, Bool.and_true, Bool.and_true,
      Ctx.stay, h.state]
  have htest : exec (.abtest k a b) s = .next (if passed then (c.observed (c.val a).toNat).done { push := some (laneMask (fun _ => true)) } k.m
      else c.done { push := some (laneMask (fun _ => false)) } k.m) := by
    refine (issue_rest h (fun _ => { handler := false }) _ rfl rfl hok c.fits_nil).trans (congrArg _ ?_)
    dsimp only
    rw [if_pos hg, h.src, h.abPhase_eq ha hal hsz ho hpo, h.src, hpass]
  rw [hwait, htest, h.observed_eq ha]
  refine ⟨fun hf => ⟨by rw [hf]; rfl, ?_⟩,
    fun ht => ⟨(c.x.learn (c.phaseKnown o)).knows, fun p hp => Slice.mem_learn.mpr (.inl hp), ?_, ?_, ?_⟩⟩
  · rw [hf, if_neg Bool.false_ne_true, h.done_pushed]
  · intro m hm hs p hp hps
    rw [← h.state] at hs hps
    exact Slice.mem_learn.mpr (.inr (c.mem_phaseKnown hm hs hp hps))
  · rw [ht, if_pos rfl]
    exact congrArg _ (((h.learned _).finish_next k.m).trans (State.withSlice_withSlice _ _ _))
  · rw [ht, if_pos rfl, (h.learned _).done_pushed, State.withSlice_withSlice]
    rfl

/-! ### Operations on objects (R247, R303) -/

/-- A slice at rest once its word has put an operation on a barrier object on its list. -/
def Ctx.abQueued (c : Ctx) (a : Word64) (kind : OpKind) (data : List Byte) (rel : Option Scope) : Slice :=
  { c.next with
    ops := [{ c.freshOp kind [⟨0, a, none, data, [], [], false, none, false⟩] (rel.getD .block) false rel.isSome with outside := false }]
    seq := c.x.seq + 1, cnt := { c.x.cnt with st := c.x.cnt.st + 1 }, fences := [] }

/-- The operation may be the release write of the slice's earlier fences, and returns nothing for which the slice would park. -/
theorem AtRest.abIssue_eq (h : AtRest s c) (a : Word64) {kind : OpKind} (hc : kind.carries = true) (hl : kind.isLong = false)
    (data : List Byte) (rel : Option Scope) (m : Bool) : c.abIssue a.toNat kind data rel m = s.withSlice (c.abQueued a kind data rel) := by
  obtain ⟨hs, hk, hx, -⟩ := State.ctx_eq h.here
  have hm (f : Slice → Slice) : c.s.modSlice c.k f = s.withSlice (f c.x) := by
    simp [State.modSlice, State.withSlice, hs, hk, hx]
  have hr : c.x.carried kind rel = (if rel.isSome then [(rel.getD .block, c.x.seq)] else []) ++ (if kind.carries then c.x.fences else []) := by
    cases rel <;> rfl
  have hf {y : Slice} (hs : y.splice = none) (ho : y.longOut = false) (hd : y.poisonDue = []) (hp : y.pend = []) :
      (s.withSlice y).finish s.cur m = s.withSlice { y with pc := y.pc + 8, issued := y.issued + 1 } := by
    rw [h.finish_slice m hs ho hd]
    simp [State.settle, hp]
  unfold Ctx.abIssue
  dsimp only
  rw [hm, hk, hf ?_ ?_ ?_ ?_]
  · simp only [Slice.addOp, Ctx.newOp, Ctx.abQueued, Ctx.freshOp, abLane, h.noOps, hc, hr, BitVec.ofNat_toNat, BitVec.setWidth_eq]
    rfl
  · exact h.unspliced
  · simp [Slice.longOut, Slice.addOp, h.noOps, Ctx.newOp, hl]
  · exact h.noReport
  · exact h.noPend

/-- The byte count of an operand (R303). -/
theorem byteCount_eq (v : Word64) : sext v.toNat 40 = (v.setWidth 40).toInt := by
  rw [sext_eq_toInt, BitVec.ofNat_toNat]

theorem barrierObjectUpdates : Claims.BarrierObjectUpdates := by
  intro s c k a o h hg hst ha hal hsz ho hpo queued
  have hword (reads : Bool) (off : Ctx → State) (go : Ctx → Nat → State) : abWord s k a reads off go = .next (go c (c.val a).toNat) := by
    refine (h.issue_fits c.fits_nil _).trans (congrArg _ ?_)
    rw [if_neg hst, hg, h.src, c.abCheck_ok true reads ha hal hsz ho hpo]
    rfl
  refine ⟨fun b => ?_, fun scope rel bytes hd => ?_, fun b => ?_⟩
  · intro n hn
    change execAbinit k a b s = _
    rw [execAbinit, hword]
    refine congrArg _ ?_
    dsimp only
    rw [h.src b, show (c.val b).toNat % 2 ^ 16 = n from rfl, if_neg hn, h.abIssue_eq _ rfl rfl]
    rfl
  · have hden : (rel && c.s.scopeDenied c.b.vf scope) = false := by
      cases rel
      · rfl
      · rw [h.state]; exact hd rfl
    change execAbarr k scope rel a bytes s = _
    rw [execAbarr, hword]
    refine congrArg _ ?_
    dsimp only
    rw [hden, if_neg Bool.false_ne_true, h.releaseAll_eq, h.abIssue_eq _ rfl rfl, h.abIssue_eq _ rfl rfl]
    cases bytes <;> cases rel <;> simp only [h.src, byteCount_eq] <;> rfl
  · change execAbexp k a b s = _
    rw [execAbexp, hword]
    refine congrArg _ ?_
    rw [h.src b, byteCount_eq, h.abIssue_eq _ rfl rfl]
    rfl

/-! ### An arrival (R302) -/

theorem bits_eq_extract {w : Nat} (g : BitVec w) (lo len : Nat) : bits g.toNat lo len = (g.extractLsb' lo len).toNat := by
  rw [bits, BitVec.extractLsb'_toNat, Nat.shiftRight_eq_div_pow]

theorem wrap_eq_zero {v : Int} (hl : -(2 ^ 39) ≤ v) (hh : v < 2 ^ 39) : wrap v 40 = 0 ↔ v = 0 := by
  unfold wrap
  omega

/-- The byte count that an arrival with n bytes leaves. -/
def abBytes (g : BitVec 128) (n : Int) : Int := (g.extractLsb' 64 40).toInt + n
/-- Whether an arrival with n bytes completes the phase. -/
def abCompletes (g : BitVec 128) (n : Int) : Bool := decide ((g.extractLsb' 32 16).toNat = 1 ∧ abBytes g n = 0)
/-- The count of arrivals that an arrival leaves. -/
def abPending (g : BitVec 128) (n : Int) : BitVec 16 :=
  if abCompletes g n then g.extractLsb' 48 16 else BitVec.ofNat 16 ((g.extractLsb' 32 16).toNat - 1)

section
variable {g : BitVec 128} {n : Int} (hv : g.getLsbD 1 = true) (ha : 1 ≤ (g.extractLsb' 32 16).toNat)
  (hl : -(2 ^ 39) ≤ abBytes g n) (hh : abBytes g n < 2 ^ 39)
include hv ha hl hh

/-- An arrival that a valid object counts and that leaves its error bit alone. -/
theorem abUpdated_counted : abUpdated g.toNat true n =
    let g2 := setBits g.toNat 64 40 (BitVec.ofInt 40 (abBytes g n)).toNat
    setBits (if abCompletes g n then setBits g2 0 1 (1 - g.toNat % 2) else g2) 32 16 (abPending g n).toNat := by
  have hb : sext (bits g.toNat 64 40) 40 + n = abBytes g n := by
    rw [bits_eq_extract, sext_eq_toInt, BitVec.ofNat_toNat, BitVec.setWidth_eq, abBytes]
  have hx : (bits g.toNat 32 16 == 0) = false := by
    rw [bits_eq_extract]
    simpa using Nat.one_le_iff_ne_zero.mp ha
  have h1 : testBit g.toNat 1 = true := (testBit_eq _ _).trans hv
  have hlo : decide (abBytes g n < -(2 ^ 39)) = false := decide_eq_false (by omega)
  have hhi : decide (2 ^ 39 ≤ abBytes g n) = false := decide_eq_false (by omega)
  have hp : (BitVec.ofNat 16 ((g.extractLsb' 32 16).toNat - 1)).toNat = (g.extractLsb' 32 16).toNat - 1 := by
    have := (g.extractLsb' 32 16).isLt
    rw [BitVec.toNat_ofNat]
    omega
  have hz : ((g.extractLsb' 32 16).toNat - 1 = 0 ∧ (BitVec.ofInt 40 (abBytes g n)).toNat = 0) ↔ abCompletes g n = true := by
    rw [← wrap_eq_toNat, wrap_eq_zero hl hh, abCompletes, decide_eq_true_iff]
    omega
  simp only [abUpdated, h1, hx, hb, hlo, hhi, show bitOf true = 1 from rfl, Bool.not_true, Bool.and_false, Bool.or_false,
    Bool.false_eq_true, if_false, Bool.not_false, Bool.and_true]
  simp only [bits_eq_extract, hz, abPending, wrap_eq_toNat]
  split_ifs
  · rfl
  · rw [hp]

/-- The bits of a valid object after an arrival that is counted. -/
theorem abUpdated_testBit (i : Nat) : (abUpdated g.toNat true n).testBit i
    = if 32 ≤ i ∧ i < 48 then (abPending g n).getLsbD (i - 32)
      else if 64 ≤ i ∧ i < 104 then (BitVec.ofInt 40 (abBytes g n)).getLsbD (i - 64)
      else if i = 0 then g.getLsbD 0 != abCompletes g n else g.getLsbD i := by
  have h0 : (1 - g.toNat % 2).testBit 0 = !g.getLsbD 0 := by
    rw [BitVec.getLsbD, Nat.testBit_zero, Nat.testBit_zero]
    rcases Nat.mod_two_eq_zero_or_one g.toNat with e | e <;> rw [e] <;> rfl
  rw [abUpdated_counted hv ha hl hh]
  dsimp only
  rw [testBit_setBits]
  by_cases hr : 32 ≤ i ∧ i < 48
  · rw [if_pos (by omega), if_pos hr]
    rfl
  rw [if_neg (by omega), if_neg hr]
  have h64 : (setBits g.toNat 64 40 (BitVec.ofInt 40 (abBytes g n)).toNat).testBit i
      = if 64 ≤ i ∧ i < 104 then (BitVec.ofInt 40 (abBytes g n)).getLsbD (i - 64) else g.getLsbD i := testBit_setBits _ _ _ _ _
  cases abCompletes g n
  · rw [if_neg Bool.false_ne_true, h64, Bool.bne_false]
    split_ifs with h1 h2
    · rfl
    · rw [h2]
    · rfl
  · rw [if_pos rfl, testBit_setBits, h64]
    by_cases hi : i = 0
    · simp [hi, h0]
    · rw [if_neg (by omega), if_neg hi]

end

theorem barrierObjectArrival : Claims.BarrierObjectArrival := by
  intro g n arrivals bytes hv ha hl hh r zero
  have ht := abUpdated_testBit hv ha hl hh
  have hlt : abUpdated g.toNat true n < 2 ^ 128 := by
    refine Nat.lt_pow_two_of_testBit _ fun i hi => ?_
    rw [ht, if_neg (by omega), if_neg (by omega), if_neg (by omega)]
    exact BitVec.getLsbD_of_ge g i hi
  have hr (i : Nat) : r.getLsbD i = (abUpdated g.toNat true n).testBit i := by
    change (BitVec.ofNat 128 _).getLsbD i = _
    rw [BitVec.getLsbD, BitVec.toNat_ofNat, Nat.mod_eq_of_lt hlt]
  have hf (lo len : Nat) (v : BitVec len) (h : ∀ i, i < len → (abUpdated g.toNat true n).testBit (lo + i) = v.getLsbD i) :
      r.extractLsb' lo len = v := by
    refine BitVec.eq_of_getLsbD_eq fun i hi => ?_
    rw [BitVec.getLsbD_extractLsb', hr, h i hi, decide_eq_true hi, Bool.true_and]
  have hg (lo len i : Nat) (hi : i < len) : (g.extractLsb' lo len).getLsbD i = g.getLsbD (lo + i) := by
    rw [BitVec.getLsbD_extractLsb', decide_eq_true hi, Bool.true_and]
  refine ⟨hlt, ?_, ?_, ?_, hf 32 16 _ fun i hi => ?_, hf 48 16 _ fun i hi => ?_, hf 64 40 _ fun i hi => ?_, hf 104 24 _ fun i hi => ?_⟩
  · rw [hr, ht]
    rfl
  · rw [hr, ht]
    exact hv
  · rw [hr, ht]
    rfl
  · rw [ht, if_pos (by omega), Nat.add_sub_cancel_left, abPending, abCompletes]
    simp only [decide_eq_true_iff]
    rfl
  · rw [ht, if_neg (by omega), if_neg (by omega), if_neg (by omega), hg _ _ _ hi]
  · rw [ht, if_neg (by omega), if_pos (by omega), Nat.add_sub_cancel_left]
    rfl
  · rw [ht, if_neg (by omega), if_neg (by omega), if_neg (by omega), hg _ _ _ hi]

/-- Settles O40: the phase bit that a test reads, the operations that the other words queue, and the bits of an object after an arrival. -/
theorem barrierObjects : Obligations.BarrierObjects :=
  ⟨barrierObjectTests, barrierArrivalSkipped, barrierObjectUpdates, barrierObjectArrival⟩

end Sys2Proof.Machine

/-! Proofs: data written over a list, and the head command of an engine queue and its steps (R263, R272, R295). -/

namespace Sys2Proof

/-- Writes in the order of a list, when those at one key agree on its value. -/
theorem Sparse.get_foldl_set {α β : Type} [DecidableEq α] (d : α) (key : β → Nat) (val : β → α) (l : List β) (m : Sparse α) (j : Nat)
    (v : α) (h : ∀ w ∈ l, key w = j → val w = v) :
    Sparse.get d (l.foldl (fun m w => Sparse.set d m (key w) (val w)) m) j
      = if ∃ w ∈ l, key w = j then v else Sparse.get d m j := by
  induction l generalizing m with
  | nil => simp
  | cons w l ih =>
    rw [List.foldl_cons, ih _ fun x hx => h x (List.mem_cons_of_mem _ hx), Sparse.get_set]
    by_cases hw : key w = j
    · simp [hw, h w List.mem_cons_self hw]
    · simp [hw, Ne.symm hw]

/-- A table whose entries at a key all have one record gives that record. -/
theorem Table.find_of_mem {α : Type} {m : Table α} {k : Nat} {v : α} (hm : (k, v) ∈ m) (h : ∀ w, (k, w) ∈ m → w = v) :
    Table.find m k = some v := by
  induction m with
  | nil => cases hm
  | cons e m ih =>
    obtain ⟨j, w⟩ := e
    rw [Table.find]
    split
    case isTrue hk =>
      subst hk
      rw [h w List.mem_cons_self]
    case isFalse hk =>
      have hm' : (k, v) ∈ m := (List.mem_cons.mp hm).resolve_left fun e => hk (congrArg Prod.fst e)
      exact ih hm' fun x hx => h x (List.mem_cons_of_mem _ hx)

end Sys2Proof

namespace Sys2Proof.Machine

variable {s : State} {core : Nat} {copy : Bool} {cmd : Cmd} {rest : List Cmd} {b : Block}

/-! ### The head command of a queue (R263, R295) -/

/-- A command that must see every write to its block's scratchpad sees the block as it stands. -/
theorem AtHead.blockSeen (h : AtHead s core copy cmd rest b) : s.blockSeen (cmd.reader b) cmd.block b = b := by
  rw [State.blockSeen, State.seen_current s (cmd.reader b) 0 _ ?_, h.block]
  · rfl
  · intro w hw hl
    cases e : w.loc with
    | scratch u o =>
      rw [e] at hl
      exact h.current o w hw (by rw [e, beq_iff_eq.mp hl]; exact beq_self_eq_true _)
    | _ => rw [e] at hl; cases hl

theorem AtHead.headCmd (h : AtHead s core copy cmd rest b) : s.headCmd core copy = some (cmd, b) := by
  obtain ⟨hk, hr⟩ := h.runs
  simp [State.headCmd, h.queue, h.block, hk, hr, h.begun, h.blockSeen]

/-- No update of an object has to come before one of a command that has none (R304). -/
@[simp] theorem State.ownUpdatesAt_none (s : State) (cmd : Cmd) : s.ownUpdatesAt cmd none = some s := rfl

theorem AtHead.ownUpdates (h : AtHead s core copy cmd rest b) : s.ownUpdates cmd = some s := by
  rw [State.ownUpdates, h.noObject, State.ownUpdatesAt_none]

/-- A head command with steps left makes the step that stands there. -/
theorem AtHead.pumpStep_eq (h : AtHead s core false cmd rest b) (hn : cmd.next < cmd.kind.total) {go : Cmd → Block → Core → Option State}
    {t : State} (hg : go cmd b (s.core core) = some t) : pumpStep core s go = .next t := by
  simp [pumpStep, h.headCmd, h.ownUpdates, hn, hg]

/-- Whether the completion of a multicast delivers the rows of a destination: those of the first row's, and others by choice (R208). -/
def State.lateNow (s : State) (cmd : Cmd) (i : Nat) : Bool := s.flip (71000 + i) || cmd.late.head?.any (fun e => e.1 == i)

/-- A stepped command whose steps are done completes, or delivers the rows that its destinations have still to receive. -/
theorem AtHead.completion_eq (h : AtHead s core copy cmd rest b) (hk : copy = true ∨ cmd.kind.pump ≠ 0)
    (hn : cmd.next = cmd.kind.total) :
    exec (.engineCommandCompletion core copy) s = .next (if cmd.late.isEmpty then s.completeCmd core copy cmd
      else s.deliverLate core cmd b (s.lateNow cmd)) := by
  have hp : (!copy && cmd.kind.pump == 0) = false := by
    rcases hk with rfl | hk
    · rfl
    · simp [hk]
  change execEngineCommandCompletion core copy s = _
  simp [execEngineCommandCompletion, h.headCmd, h.ownUpdates, h.block, hp, hn]
  rfl

/-! ### Changing a core and the head of its queues -/

theorem State.modCore_modCore (s : State) (core : Nat) (f g : Core → Core) :
    (s.modCore core f).modCore core g = s.modCore core (fun k => g (f k)) := by
  simp [State.modCore, State.core, Table.put_put]

theorem State.setHead_core_other (s : State) {core n : Nat} (copy : Bool) (c : Option Cmd) (h : n ≠ core) :
    (s.setHead core copy c).core n = s.core n := State.modCore_core_other _ _ h

/-- A queue whose head has been changed, and the core's other parts as they were. -/
theorem State.setHead_cmdq (c : Option Cmd) (h : (s.core core).cmdq = cmd :: rest) :
    (s.setHead core false c).core core
      = { s.core core with cmdq := c.toList ++ rest, streamed := if c.isNone then 0 else (s.core core).streamed } := by
  cases c <;> simp [State.setHead, h]
theorem State.setHead_copyq (c : Option Cmd) (h : (s.core core).copyq = cmd :: rest) :
    (s.setHead core true c).core core = { s.core core with copyq := c.toList ++ rest } := by
  cases c <;> simp [State.setHead, h]

theorem State.setHead_queue (c : Option Cmd) (h : (if copy then (s.core core).copyq else (s.core core).cmdq) = cmd :: rest) :
    let k := (s.setHead core copy c).core core
    (if copy then k.copyq else k.cmdq) = c.toList ++ rest ∧ k.acc = (s.core core).acc := by
  cases copy with
  | false => rw [State.setHead_cmdq c h]; exact ⟨rfl, rfl⟩
  | true => rw [State.setHead_copyq c h]; exact ⟨rfl, rfl⟩

/-! ### A step of the head command (R272) -/

/-- A core's change that meets no failure is made. -/
theorem State.coreStep_ok (s : State) (core : Nat) (cmd : Cmd) {r : Nat × Core} {k : Core} (next : State → State) (h : r = (0, k)) :
    s.coreStep core cmd r next = next (s.modCore core (fun _ => k)) := by
  simp [State.coreStep, h]

/-- A core with another command queue. -/
def Core.withCmdq (k : Core) (q : List Cmd) : Core := { k with cmdq := q }

@[simp] theorem Core.withCmdq_cell (k : Core) (q : List Cmd) (r n : Nat) : (k.withCmdq q).cell r n = k.cell r n := rfl

/-- The head command has made a step that changed its core, but not the command queue. -/
theorem AtHead.stepped_modCore (h : AtHead s core false cmd rest b) (k : Core) (hq : k.cmdq = (s.core core).cmdq) :
    let t := (s.modCore core (fun _ => k)).stepped core false cmd
    t.core core = k.withCmdq ({ cmd with next := cmd.next + 1 } :: rest) ∧ Stepped s t core false cmd rest ∧ t.blocks = s.blocks := by
  intro t
  have hk : ((s.modCore core (fun _ => k)).core core).cmdq = cmd :: rest := by
    rw [State.modCore_core_self, hq]
    exact h.queue
  have ht : ((s.modCore core (fun _ => k)).stepped core false cmd).core core
      = k.withCmdq ({ cmd with next := cmd.next + 1 } :: rest) := by
    rw [State.stepped, State.setHead_cmdq _ hk, State.modCore_core_self]
    rfl
  exact ⟨ht, ⟨congrArg Core.cmdq ht, rfl, fun n hn =>
    (State.setHead_core_other _ _ _ hn).trans (State.modCore_core_other _ _ hn)⟩, rfl⟩

end Sys2Proof.Machine

/-! Proofs: the steps of MXTILE and SCTILE (R52, R265, R278, R287, R289, R291, R294). -/

namespace Sys2Proof.Machine

variable {s : State} {core : Nat} {cmd : Cmd} {rest : List Cmd} {b : Block} {mode : Mode} {rm : RM} {ta tb : BitVec 128} {sp : Word64}
  {a u : Tile} {p q j : Nat}

/-! ### FILL (R287, R294) -/

/-- The plane that a dense tile loads. -/
def Block.densePlane (b : Block) (mode : Mode) (xf : Fmt) (t : Tile) : Plane :=
  ⟨(List.range t.cols).flatMap (fun n => denseColumn b t (List.range t.rows) n n), some ⟨mode, xf, t.fmt, .n48, t.rows, t.cols⟩⟩

/-- The core with a plane loaded and swapped in. -/
def Core.withPlane (k : Core) (p : Plane) : Core := { k with stationary := p, shadow := k.stationary }

/-- A dense load that meets no poison loads the tile's plane into the shadow plane, or exchanges the planes. -/
theorem Core.loadPlane_dense (k : Core) (mode : Mode) (xf : Fmt) (ns : Bool) (t : Tile) (sm : Word64)
    (h : b.badTile t 0 t.rows 0 t.cols = false) :
    k.loadPlane b mode xf .n48 ns t sm = (0, if ns then { k with shadow := b.densePlane mode xf t }
      else k.withPlane (b.densePlane mode xf t)) := by
  simp [Core.loadPlane, h, Block.densePlane, Core.withPlane]

theorem Block.mem_densePlane (b : Block) (mode : Mode) (xf : Fmt) (t : Tile) (i : Nat) (v : BitVec 16) :
    (i, v) ∈ (b.densePlane mode xf t).elems
      ↔ ∃ n < t.cols, ∃ r < t.rows, n * 1024 + r = i ∧ BitVec.ofNat 16 (b.tileElem t r n) = v := by
  simp [Block.densePlane, denseColumn, List.zip, List.zipWith_self, List.mem_flatMap]

/-- A dense plane holds the tile's elements by column and row; a column's rows fit below the next column's. -/
theorem Block.densePlane_at (b : Block) (mode : Mode) (xf : Fmt) (t : Tile) {n r : Nat} (hrows : t.rows ≤ 1024) (hn : n < t.cols)
    (hr : r < t.rows) : (b.densePlane mode xf t).at? n r = some (b.tileElem t r n % 2 ^ 16) := by
  have hm : (n * 1024 + r, BitVec.ofNat 16 (b.tileElem t r n)) ∈ (b.densePlane mode xf t).elems :=
    (b.mem_densePlane mode xf t _ _).mpr ⟨n, hn, r, hr, rfl, rfl⟩
  have hu : ∀ w, (n * 1024 + r, w) ∈ (b.densePlane mode xf t).elems → w = BitVec.ofNat 16 (b.tileElem t r n) := by
    intro w hw
    obtain ⟨n', -, r', hr', hi, rfl⟩ := (b.mem_densePlane mode xf t _ _).mp hw
    obtain ⟨rfl, rfl⟩ : n' = n ∧ r' = r := by omega
    rfl
  rw [Plane.at?, Table.find_of_mem hm hu]
  simp

/-! ### STREAM (R265, R278, R289, R294) -/

@[simp] theorem Core.setCells_cmdq (k : Core) (ws : List (Nat × Nat)) : (k.setCells ws).cmdq = k.cmdq := rfl

theorem Core.streamRow_congr {k k' : Core} (hs : k'.stationary = k.stationary) (ha : k'.acc = k.acc) (hp : k'.accPoison = k.accPoison) :
    k'.streamRow = k.streamRow := by
  cases k
  cases k'
  cases hs
  cases ha
  cases hp
  rfl

/-- Streaming rows that fails leaves the core, and else sets cells. -/
theorem Core.streamRows_cases (k : Core) (b : Block) (mode : Mode) (rm : RM) (nc : NC) (t : Tile) (r0 n c0 row0 col0 kk : Nat) :
    ∃ ws, (k.streamRows b mode rm nc t r0 n c0 row0 col0 kk).2 = k.setCells ws := by
  unfold Core.streamRows
  split
  · exact ⟨[], rfl⟩
  · split
    · exact ⟨[], rfl⟩
    · split
      · exact ⟨[], rfl⟩
      · dsimp only
        split
        · exact ⟨[], rfl⟩
        · exact ⟨_, rfl⟩

/-- Whether streaming rows fails rests on the stationary plane and the accumulator alone. -/
theorem Core.streamRows_code {k k' : Core} (hs : k'.stationary = k.stationary) (ha : k'.acc = k.acc) (hp : k'.accPoison = k.accPoison)
    (b : Block) (mode : Mode) (rm : RM) (nc : NC) (t : Tile) (r0 n c0 row0 col0 kk : Nat) :
    (k'.streamRows b mode rm nc t r0 n c0 row0 col0 kk).1 = (k.streamRows b mode rm nc t r0 n c0 row0 col0 kk).1 := by
  simp only [Core.streamRows, hs, Core.streamRow_congr hs ha hp]
  split
  · rfl
  · split
    · rfl
    · split
      · rfl
      · split <;> rfl

theorem Core.streamRows_cmdq (k : Core) (b : Block) (mode : Mode) (rm : RM) (nc : NC) (t : Tile) (r0 n c0 row0 col0 kk : Nat) :
    (k.streamRows b mode rm nc t r0 n c0 row0 col0 kk).2.cmdq = k.cmdq := by
  obtain ⟨ws, h⟩ := k.streamRows_cases b mode rm nc t r0 n c0 row0 col0 kk
  rw [h, Core.setCells_cmdq]

/-- The governor changes no plane, cell or queue. -/
theorem Core.govern_keeps (k : Core) (now h : Nat) :
    (k.govern now h).stationary = k.stationary ∧ (k.govern now h).acc = k.acc ∧ (k.govern now h).accPoison = k.accPoison
      ∧ (k.govern now h).cmdq = k.cmdq := by
  unfold Core.govern
  dsimp only
  split <;> exact ⟨rfl, rfl, rfl, rfl⟩

theorem Core.streaming_keeps (k : Core) (now h n : Nat) :
    (k.streaming now h n).stationary = k.stationary ∧ (k.streaming now h n).acc = k.acc
      ∧ (k.streaming now h n).accPoison = k.accPoison ∧ (k.streaming now h n).cmdq = k.cmdq := k.govern_keeps now h

/-- How many held cycles the closing window counts decides nothing about the cycles that the next one gives. -/
theorem Core.govern_room (k : Core) (now h : Nat) :
    (k.govern now h).streamed = (k.govern now 0).streamed ∧ (k.govern now h).budget = (k.govern now 0).budget
      ∧ (k.govern now h).active = (k.govern now 0).active := by
  unfold Core.govern
  dsimp only
  split <;> exact ⟨rfl, rfl, rfl⟩

/-- How many held cycles the window before counts when streaming work asks for cycles, a free choice (log entry 29). -/
def State.heldNow (s : State) (core : Nat) : Nat := s.pick 90001 (256 - (s.core core).active + 1)

/-- Whether the window has the cycles, with its held cycles counted or not. -/
theorem State.streamFor_room (s : State) (core cycles : Nat) :
    (let k := (s.core core).govern s.now (s.heldNow core)
     cycles - k.streamed ≤ k.budget - k.active) ↔ (s.core core).mayStream s.now cycles := by
  obtain ⟨hs, hb, ha⟩ := (s.core core).govern_room s.now (s.heldNow core)
  simp only [hs, hb, ha, Core.mayStream]

/-- Streaming work that the governor gives its cycles uses them and is done. -/
theorem State.streamFor_given (s : State) {core cycles : Nat} (go : State → State) (h : (s.core core).mayStream s.now cycles) :
    s.streamFor core cycles go = go (s.modCore core (fun k => k.streaming s.now (s.heldNow core) cycles)) :=
  if_pos ((s.streamFor_room core cycles).mpr h)

/-- Streaming work that it does not give them is held. -/
theorem State.streamFor_held (s : State) {core cycles : Nat} (go : State → State) (h : ¬ (s.core core).mayStream s.now cycles) :
    s.streamFor core cycles go = s.modCore core (fun k => k.heldBack s.now (s.heldNow core)) :=
  if_neg (mt (s.streamFor_room core cycles).mp h)

theorem rowCycles_eq (mode : Mode) : rowCycles mode = if mode = .f16 ∨ mode = .bf16 then 2 else 1 := by
  cases mode <;> rfl

/-- A streaming step that meets no failure and is given its cycles leaves in the core what it computes from there. -/
theorem State.streamStep_given (s : State) {core : Nat} (cmd : Cmd) {mode : Mode} {rows : Nat} {f : Core → Nat × Core}
    (next : State → State) (h0 : (f (s.core core)).1 = 0)
    (h1 : (f ((s.core core).streaming s.now (s.heldNow core) (rowCycles mode * rows))).1 = 0)
    (h : (s.core core).mayStream s.now (rowCycles mode * rows)) :
    s.streamStep core cmd mode rows f next
      = next (s.modCore core (fun _ => (f ((s.core core).streaming s.now (s.heldNow core) (rowCycles mode * rows))).2)) := by
  rw [State.streamStep, if_neg (not_not.mpr h0), s.streamFor_given _ h, State.modCore_core_self, State.coreStep_ok _ _ _ _ (Prod.ext h1 rfl),
    State.modCore_modCore]

/-- A streaming step that meets no failure and is not given its cycles is held. -/
theorem State.streamStep_held (s : State) {core : Nat} (cmd : Cmd) {mode : Mode} {rows : Nat} {f : Core → Nat × Core}
    (next : State → State) (h0 : (f (s.core core)).1 = 0) (h : ¬ (s.core core).mayStream s.now (rowCycles mode * rows)) :
    s.streamStep core cmd mode rows f next = s.modCore core (fun k => k.heldBack s.now (s.heldNow core)) := by
  rw [State.streamStep, if_neg (not_not.mpr h0), s.streamFor_held _ h]

/-! ### MXTILE (R294) -/

/-- The sub-tile of B that MXTILE loads for a panel and a pass. -/
def mxtileSub (u : Tile) (p q : Nat) : Tile := u.part (192 * q) (min 192 (u.rows - 192 * q)) (96 * p) (min 96 (u.cols - 96 * p))

/-- What MXTILE streams at position j of a pass. -/
def mxtileRows (b : Block) (mode : Mode) (rm : RM) (a : Tile) (sp : Word64) (p q j : Nat) (k : Core) : Nat × Core :=
  k.streamRows b mode rm .n48 a (16 * (j - 1)) (min 16 (a.rows - 16 * (j - 1))) (192 * q) (posRow sp + a.rows * p) (posCol sp)
    (min 192 (a.cols - 192 * q))

theorem AtHead.fill_exec (h : AtHead s core false cmd rest b) (hk : cmd.kind = .mxtile mode rm ta tb sp) (ha : tileOf ta = some a)
    (hu : tileOf tb = some u) (hn : cmd.next < cmd.kind.total) (hi : mxtileStep a u cmd.next = (p, q, 0)) :
    exec (.fill core) s = .next (s.coreStep core cmd
      ((s.core core).loadPlane b mode a.fmt .n48 false (mxtileSub u p q) 0) (fun t => t.stepped core false cmd)) := by
  change execFill core s = _
  refine h.pumpStep_eq hn ?_
  simp only [hk, ha, hu, hi, if_true]
  rfl

theorem AtHead.stream_exec (h : AtHead s core false cmd rest b) (hk : cmd.kind = .mxtile mode rm ta tb sp) (ha : tileOf ta = some a)
    (hu : tileOf tb = some u) (hn : cmd.next < cmd.kind.total) (hi : mxtileStep a u cmd.next = (p, q, j)) (hj : j ≠ 0) :
    exec (.stream core) s = .next (s.streamStep core cmd mode (min 16 (a.rows - 16 * (j - 1))) (mxtileRows b mode rm a sp p q j)
      (fun t => t.stepped core false cmd)) := by
  change execStream core s = _
  refine h.pumpStep_eq hn ?_
  simp only [hk, ha, hu, hi, hj, if_false]
  rfl

/-- The governor's count changes nothing of what a streaming step computes. -/
theorem mxtileRows_streaming (b : Block) (mode : Mode) (rm : RM) (a : Tile) (sp : Word64) (p q j : Nat) (k : Core) (now h n : Nat) :
    (mxtileRows b mode rm a sp p q j (k.streaming now h n)).1 = (mxtileRows b mode rm a sp p q j k).1 := by
  obtain ⟨hs, ha, hp, -⟩ := k.streaming_keeps now h n
  unfold mxtileRows
  exact Core.streamRows_code hs ha hp ..

theorem mxtileRows_cmdq (b : Block) (mode : Mode) (rm : RM) (a : Tile) (sp : Word64) (p q j : Nat) (k : Core) (now h n : Nat) :
    (mxtileRows b mode rm a sp p q j (k.streaming now h n)).2.cmdq = k.cmdq :=
  (Core.streamRows_cmdq ..).trans (k.streaming_keeps now h n).2.2.2

theorem pumpedMultiply : Claims.PumpedMultiply := by
  intro s core cmd rest b mode rm ta tb sp a u h hk ha hu hn per passes panel pass j sub
  refine ⟨fun hj hb => ?_, fun hj => ?_⟩
  · have hi : mxtileStep a u cmd.next = (panel, pass, 0) := by rw [← hj]; rfl
    have hl : (s.core core).loadPlane b mode a.fmt .n48 false sub 0 = (0, (s.core core).withPlane (b.densePlane mode a.fmt sub)) :=
      (s.core core).loadPlane_dense mode a.fmt false sub 0 hb
    have hx := h.fill_exec hk ha hu hn hi
    rw [show mxtileSub u panel pass = sub from rfl, State.coreStep_ok _ _ _ _ hl] at hx
    obtain ⟨hc, hs, hbl⟩ := h.stepped_modCore ((s.core core).withPlane (b.densePlane mode a.fmt sub)) rfl
    refine ⟨_, hx, hs, hbl, by rw [hc]; rfl, by rw [hc]; rfl, fun n r hn' hr => ?_⟩
    have hrows : sub.rows ≤ 1024 := (min_le_left _ _).trans (by decide)
    rw [hc]
    exact b.densePlane_at mode a.fmt sub hrows hn' hr
  · intro rows cycles f hf
    have hx := h.stream_exec hk ha hu hn (p := panel) (q := pass) (j := j) rfl hj
    have hcy : cycles = rowCycles mode * rows := by rw [rowCycles_eq]
    rw [hcy]
    refine ⟨fun hg => ?_, fun hg => ?_⟩
    · have hf' := (mxtileRows_streaming b mode rm a sp panel pass j (s.core core) s.now (s.heldNow core) (rowCycles mode * rows)).trans hf
      obtain ⟨hc, hs, hbl⟩ := h.stepped_modCore _ (mxtileRows_cmdq b mode rm a sp panel pass j (s.core core) s.now (s.heldNow core)
        (rowCycles mode * rows))
      exact ⟨_, s.heldNow core, hx.trans (congrArg _ (s.streamStep_given cmd _ hf hf' hg)), hs, hbl, hc⟩
    · exact ⟨_, hx.trans (congrArg _ (s.streamStep_held cmd _ hf hg))⟩

/-! ### SCTILE (R52, R291) -/

/-- Cells set along a row of the accumulator, and the cells of every row after it. -/
theorem Core.setCells_row (k : Core) (d : Nat) (f : Nat → Nat) (r : Nat) {n : Nat} (hn : n < 128) :
    (k.setCells ((List.range 128).map (fun n => (d * 128 + n, f n)))).cell r n
      = if r = d then BitVec.ofNat 32 (f n) else k.cell r n := by
  have hu : ∀ w ∈ (List.range 128).map (fun n => (d * 128 + n, f n)), w.1 = r * 128 + n →
      BitVec.ofNat 32 w.2 = BitVec.ofNat 32 (f n) := by
    intro w hw he
    obtain ⟨m, hm, rfl⟩ := List.mem_map.mp hw
    rw [List.mem_range] at hm
    obtain rfl : m = n := by dsimp only at he; omega
    rfl
  have hr : (∃ w ∈ (List.range 128).map (fun n => (d * 128 + n, f n)), w.1 = r * 128 + n) ↔ r = d := by
    constructor
    · rintro ⟨w, hw, he⟩
      obtain ⟨m, hm, rfl⟩ := List.mem_map.mp hw
      rw [List.mem_range] at hm
      dsimp only at he
      omega
    · rintro rfl
      exact ⟨_, List.mem_map.mpr ⟨n, List.mem_range.mpr hn, rfl⟩, rfl⟩
  rw [Core.cell, Core.setCells, Sparse.get_foldl_set 0 _ _ _ _ _ _ hu]
  simp only [hr, Core.cell]

/-- The scale unit on rows without an uncorrectable cell. -/
theorem Core.scale_ok (k : Core) (rm : RM) (p t : Nat) (sa : Nat → Nat) (sb : Nat → Nat → Nat)
    (h : ∀ n, n < 128 → k.badCell t n = false ∧ ∀ i, i < 4 → k.badCell (p + i) n = false) :
    k.scale rm p t sa sb = (0, k.setCells ((List.range 128).map (fun n => (t * 128 + n,
      scaccCell rm (k.cell t n).toNat sa (sb n) (fun i => (k.cell (p + i) n).toInt))))) := by
  have hb : ¬ (List.range 128).any (fun n => k.badCell t n || (List.range 4).any (fun i => k.badCell (p + i) n)) = true := by
    simp only [List.any_eq_true, List.mem_range, Bool.or_eq_true, not_exists, not_and, not_or, Bool.not_eq_true]
    exact h
  rw [Core.scale, if_neg hb]
  simp only [sext_eq_toInt, BitVec.ofNat_toNat, BitVec.setWidth_eq]

theorem AtHead.scale_exec (h : AtHead s core false cmd rest b) {sc : Word64} (hk : cmd.kind = .sctile rm sc ta tb)
    (ha : tileOf ta = some a) (hu : tileOf tb = some u) (hn : cmd.next < cmd.kind.total) :
    exec (.scale core) s = .next (s.coreStep core cmd ((s.core core).sctileStep b rm sc a u cmd.next)
      (fun t => t.stepped core false cmd)) := by
  change execScale core s = _
  refine h.pumpStep_eq hn ?_
  simp only [hk, ha, hu]

theorem pumpedScale : Claims.PumpedScale := by
  intro s core cmd rest b rm sc ta tb a u h hk ha hu hn m cg nb row g j p d k hba hbu hc
  have hr : k.sctileStep b rm sc a u cmd.next = k.scale rm p d (fun x => b.tileElem a row (2 * j + x))
      (fun n x => b.tileElem u (128 * g + n) (2 * j + x)) := by
    have hb : ¬ (b.badTile a row 1 (2 * j) 2 = true ∨ b.badTile u (128 * g) 128 (2 * j) 2 = true) := by simp [hba, hbu]
    have h0 : fld sc 8 0 = sc.toNat % 512 := by simp [fld, bits]
    unfold Core.sctileStep
    rw [h0]
    exact if_neg hb
  rw [k.scale_ok rm p d _ _ hc] at hr
  have hx := h.scale_exec hk ha hu hn
  rw [State.coreStep_ok _ _ _ _ hr] at hx
  obtain ⟨ht, hs, hbl⟩ := h.stepped_modCore _ (k.setCells_cmdq _)
  exact ⟨_, hx, hs, hbl, fun r n hn => by
    rw [ht, Core.withCmdq_cell, k.setCells_row d _ r hn]⟩

end Sys2Proof.Machine

/-! Proofs: the late rows of a multicast and the end of a stepped command (R114, R196, R208, R263, R294–R299). -/

namespace Sys2Proof.Machine

variable {s t u : State} {core : Nat} {copy : Bool} {cmd : Cmd} {rest : List Cmd} {b : Block}

/-! ### What an engine writes to a scratchpad (R196) -/

/-- The bytes that an engine writes stand in the scratchpad. -/
theorem Block.engWrite_scratch (b : Block) (off : Nat) (bs : List Byte) (o : Nat) :
    Sparse.get 0 (b.engWrite off bs).scratch o = storedOver [(off, bs)] o (Sparse.get 0 b.scratch o) := by
  change Memory.get (Memory.put b.scratch off bs) o = if off ≤ o ∧ o < off + bs.length then _ else _
  rw [Memory.get_put]
  split
  case isTrue h =>
    have hl : o - off < bs.length := by omega
    rw [List.getD_eq_getElem _ _ hl, List.getD_eq_getElem _ _ hl]
  case isFalse h => rfl

/-- The granules that the bytes touch are full. -/
theorem Block.engWrite_full (b : Block) (off : Nat) (bs : List Byte) (g : Nat) :
    Sparse.get false (b.engWrite off bs).full g = (Sparse.get false b.full g
      || [(off, bs)].any (fun r => decide (0 < r.2.length ∧ r.1 / 16 ≤ g ∧ g ≤ (r.1 + r.2.length - 1) / 16))) := by
  cases bs with
  | nil => simp [Block.engWrite]
  | cons x xs =>
    have hg : (∃ w ∈ (List.range ((off + (x :: xs).length - 1) / 16 + 1 - off / 16)).map (fun i => off / 16 + i), w = g)
        ↔ off / 16 ≤ g ∧ g ≤ (off + (x :: xs).length - 1) / 16 := by
      simp only [List.mem_map, List.mem_range, exists_eq_right]
      exact ⟨by rintro ⟨i, hi, rfl⟩; omega, fun h => ⟨g - off / 16, by omega, by omega⟩⟩
    change Sparse.get false (List.foldl (fun f g => Sparse.set false f g true) b.full _) g = _
    rw [Sparse.get_foldl_set false (fun g => g) (fun _ => true) _ _ _ true fun _ _ _ => rfl]
    simp only [List.isEmpty_cons, Bool.false_eq_true, if_false, hg]
    by_cases h : off / 16 ≤ g ∧ g ≤ (off + (x :: xs).length - 1) / 16
    · rw [if_pos h, List.any_cons, decide_eq_true ⟨Nat.succ_pos _, h⟩, Bool.true_or, Bool.or_true]
    · rw [if_neg h, List.any_cons, decide_eq_false fun e => h e.2, List.any_nil, Bool.or_false, Bool.or_false]

theorem storedOver_append (l l' : List (Nat × List Byte)) (x : Nat) (v : Byte) :
    storedOver (l ++ l') x v = storedOver l' x (storedOver l x v) := List.foldl_append

theorem State.rowsReceived_nil (h : t.blocks = s.blocks) (v : Nat) : s.rowsReceived t v [] := by
  intro b hb
  exact ⟨b, h ▸ hb, fun _ => rfl, fun g => by simp⟩

/-- Rows received one list after another. -/
theorem State.rowsReceived_append {v : Nat} {l l' : List (Nat × List Byte)} (h : s.rowsReceived t v l) (h' : t.rowsReceived u v l') :
    s.rowsReceived u v (l ++ l') := by
  intro b hb
  obtain ⟨y, hy, ho, hg⟩ := h b hb
  obtain ⟨z, hz, ho', hg'⟩ := h' y hy
  refine ⟨z, hz, fun o => ?_, fun g => ?_⟩
  · rw [ho', ho, storedOver_append]
  · rw [hg', hg, List.any_append, Bool.or_assoc]

/-- A block receives the bytes that an engine writes to it, and no other block does. -/
theorem State.engStore_rowsReceived (s : State) (w : Writer) (uid off : Nat) (bs : List Byte) (v : Nat) :
    s.rowsReceived (s.engStore w uid off bs) v (if v = uid then [(off, bs)] else []) := by
  intro b hb
  have hf : Table.find (s.engStore w uid off bs).blocks v
      = if v = uid then (Table.find s.blocks uid).map (fun b => b.engWrite off bs) else Table.find s.blocks v := by
    simp [State.engStore, State.modBlock_find, State.noteScratch]
  by_cases e : v = uid
  · subst e
    rw [if_pos rfl] at hf ⊢
    exact ⟨b.engWrite off bs, by rw [hf, hb]; rfl, b.engWrite_scratch off bs, b.engWrite_full off bs⟩
  · rw [if_neg e] at hf ⊢
    exact ⟨b, hf.trans hb, fun _ => rfl, fun g => by simp⟩

theorem State.engStore_frame (s : State) (w : Writer) (uid off : Nat) (bs : List Byte) :
    (s.engStore w uid off bs).slices = s.slices ∧ (s.engStore w uid off bs).mem = s.mem
      ∧ (s.engStore w uid off bs).cores = s.cores := by
  obtain ⟨-, -, -, -, hc, -⟩ := s.noteWrite_frame w
    ((List.range bs.length).map (fun i => (Loc.scratch uid (off + i), s.atLoc (.scratch uid (off + i))))) []
  simp [State.engStore, State.noteScratch, hc]

/-! ### The late rows of a multicast (R208, R299) -/

/-- A multicast without an object delivers the rows that its destinations are to receive now, to each its own in order, keeps those that
they receive later, and drops those of no destination. -/
theorem State.deliverRows_noObject (s : State) (cmd : Cmd) (b : Block) (now : Nat → Bool) (late : List (Nat × Nat × List Byte)) :
    let r := s.deliverRows cmd b 0xFFFFFFFF now late
    r.2 = late.filter (fun e => (Table.find cmd.dests e.1).isSome && !now e.1)
      ∧ (∀ u, s.rowsReceived r.1 u ((late.filter (fun e => now e.1 && Table.find cmd.dests e.1 == some u)).map (fun e => e.2)))
      ∧ r.1.slices = s.slices ∧ r.1.mem = s.mem ∧ r.1.cores = s.cores := by
  induction late generalizing s with
  | nil => exact ⟨rfl, State.rowsReceived_nil rfl, rfl, rfl, rfl⟩
  | cons e late ih =>
    obtain ⟨i, off, bs⟩ := e
    cases hd : Table.find cmd.dests i with
    | none => simpa [State.deliverRows, hd] using ih s
    | some v =>
      cases hn : now i with
      | false => simpa [State.deliverRows, hd, hn] using ih s
      | true =>
        obtain ⟨hl, hr, hs, hm, hc⟩ := ih (s.engStore (cmd.writer b) v off bs)
        obtain ⟨hs', hm', hc'⟩ := s.engStore_frame (cmd.writer b) v off bs
        have hx : s.deliverRows cmd b 0xFFFFFFFF now ((i, off, bs) :: late)
            = (s.engStore (cmd.writer b) v off bs).deliverRows cmd b 0xFFFFFFFF now late := by
          simp [State.deliverRows, State.mcastRow, hd, hn]
        rw [hx]
        refine ⟨?_, fun u => ?_, hs.trans hs', hm.trans hm', hc.trans hc'⟩
        · rw [hl]
          simp [hd, hn]
        · have hu := State.rowsReceived_append (s.engStore_rowsReceived (cmd.writer b) v off bs u) (hr u)
          by_cases e : u = v
          · simpa [hd, hn, e] using hu
          · simpa [hd, hn, e, Ne.symm e] using hu

theorem State.core_of_cores (h : t.cores = s.cores) (n : Nat) : t.core n = s.core n := by rw [State.core, State.core, h]

theorem lateRows : Claims.LateRows := by
  intro s core cmd rest b d so ts mask base h hk hso hn hl
  have ho : mcastObj so base = 0xFFFFFFFF := by
    have hf : fld so 63 32 = 0xFFFFFFFF := by
      rw [fld, bits, hso]
      rfl
    exact if_pos hf
  have hx := h.completion_eq (.inl rfl) hn
  have hd : s.deliverLate core cmd b (s.lateNow cmd) = (s.deliverRows cmd b 0xFFFFFFFF (s.lateNow cmd) cmd.late).1.setHead core true
      (some { cmd with late := (s.deliverRows cmd b 0xFFFFFFFF (s.lateNow cmd) cmd.late).2 }) := by
    rw [State.deliverLate, hk, ← ho]
  rw [if_neg (by simpa using hl), hd] at hx
  obtain ⟨hleft, hrows, hs, hm, hc⟩ := s.deliverRows_noObject cmd b (s.lateNow cmd) cmd.late
  have hcore := State.core_of_cores hc
  refine ⟨_, s.lateNow cmd, hx, fun e he => ?_, ?_, hrows, hs, hm, fun n hn => ?_⟩
  · simp [State.lateNow, he]
  · rw [← hleft]
    exact (State.setHead_queue (copy := true) _ ((congrArg Core.copyq (hcore core)).trans h.queue)).1
  · rw [State.setHead_core_other _ _ _ hn, hcore]

/-! ### The end of a stepped command (R114, R263, R294–R299) -/

/-- The destination register of a multicast changes no counter. -/
theorem State.mcastResult_find (s : State) (core : Nat) (cmd : Cmd) (mask : BitVec 8) :
    (∀ x, Table.find s.slices cmd.slice = some x → ∃ y, Table.find (s.mcastResult core cmd mask).slices cmd.slice = some y ∧ y.cnt = x.cnt)
      ∧ (∀ k, k ≠ cmd.slice → Table.find (s.mcastResult core cmd mask).slices k = Table.find s.slices k)
      ∧ (s.mcastResult core cmd mask).blocks = s.blocks ∧ (s.mcastResult core cmd mask).mem = s.mem
      ∧ (s.mcastResult core cmd mask).cores = s.cores := by
  unfold State.mcastResult
  split
  · refine ⟨fun x hx => ?_, fun k hk => ?_, by simp⟩
    · exact ⟨_, by rw [State.modSlice_find, if_pos rfl, hx]; rfl, by simp [Slice.complete]⟩
    · rw [State.modSlice_find, if_neg hk]
  · exact ⟨fun x hx => ⟨x, hx, rfl⟩, fun k hk => rfl, rfl, rfl, rfl⟩

/-- EN of the issuing slice falls while the command is attached. -/
theorem State.enDown_find (s : State) (cmd : Cmd) :
    (∀ x, cmd.attached = true → Table.find s.slices cmd.slice = some x →
        Table.find (s.enDown cmd).slices cmd.slice = some { x with cnt := { x.cnt with en := x.cnt.en - 1 } })
      ∧ (∀ k, k ≠ cmd.slice → Table.find (s.enDown cmd).slices k = Table.find s.slices k)
      ∧ (s.enDown cmd).blocks = s.blocks ∧ (s.enDown cmd).mem = s.mem ∧ (s.enDown cmd).cores = s.cores := by
  unfold State.enDown
  split
  · refine ⟨fun x _ hx => ?_, fun k hk => ?_, by simp⟩
    · rw [State.modSlice_find, if_pos rfl, hx]
      rfl
    · rw [State.modSlice_find, if_neg hk]
  case isFalse ha => exact ⟨fun x hx => absurd hx ha, fun k hk => rfl, rfl, rfl, rfl⟩

/-- The head command of a queue, without an object, completes: nothing but its queue, its slice's EN and its result changes. -/
theorem State.completeCmd_completed (hq : (if copy then (s.core core).copyq else (s.core core).cmdq) = cmd :: rest) (hab : cmd.ab = none) :
    let t := s.completeCmd core copy cmd
    Completed s t core copy cmd rest ∧ t.mem = s.mem ∧ t.blocks = s.blocks ∧ (t.core core).acc = (s.core core).acc := by
  have ht : s.completeCmd core copy cmd = ((s.mcastResult core cmd cmd.undelivered).setHead core copy none).enDown cmd := by
    unfold State.completeCmd State.signal
    rw [hab]
    split
    · rfl
    · rw [ite_self]
  obtain ⟨hs, hk, hb, hm, hc⟩ := s.mcastResult_find core cmd cmd.undelivered
  obtain ⟨hs', hk', hb', hm', hc'⟩ := ((s.mcastResult core cmd cmd.undelivered).setHead core copy none).enDown_find cmd
  have hcore := State.core_of_cores hc
  have hcore' := State.core_of_cores hc'
  rw [ht]
  rw [← hcore] at hq ⊢
  obtain ⟨hrest, hacc⟩ := State.setHead_queue none hq
  refine ⟨⟨?_, fun x ha hx => ?_, fun k hne => (hk' k hne).trans (hk k hne), fun n hn => ?_⟩, hm'.trans hm, hb'.trans hb, ?_⟩
  · rw [hcore']
    exact hrest
  · obtain ⟨y, hy, hcnt⟩ := hs x hx
    exact ⟨_, hs' y ha hy, by rw [hcnt]⟩
  · rw [hcore', State.setHead_core_other _ _ _ hn, hcore]
  · rw [hcore']
    exact hacc

theorem steppedCompletion : Claims.SteppedCompletion := by
  intro s core copy cmd rest b h hk hn hl
  have hx := h.completion_eq hk hn
  rw [if_pos (by simp [hl])] at hx
  exact ⟨_, hx, State.completeCmd_completed h.queue h.noObject⟩

/-- Settles O37: a step changes its core and counts itself, and the last completion takes the command from its queue. -/
theorem pumpedCommands : Obligations.PumpedCommands := ⟨pumpedMultiply, pumpedScale, lateRows, steppedCompletion⟩

end Sys2Proof.Machine

/-! Proofs: the words of instructions decode to them (R56–R73). -/

namespace Sys2Proof

/-! ### Operands from their codes -/

@[simp] theorem ssrc?_code (a : SSrc) : ssrc? (ssrcCode a) = some a := by
  cases a with
  | s n => simp [ssrc?, ssrcCode]
  | sp x =>
    have h : ¬ specialCode x < 64 := by
      cases x with
      | level k => simp only [specialCode]; omega
      | _ => decide
    simp [ssrc?, ssrcCode, special?_code, h]

@[simp] theorem vsrc?_code (b : VSrc) : vsrc? (vsrcSel b) (vsrcCode b) = some b := by
  cases b <;> simp [vsrc?, vsrcSel, vsrcCode]

@[simp] theorem optsrc?_code (b : Option SSrc) : optsrc? (optSel b) (optCode b) = some b := by
  cases b <;> simp [optsrc?, optSel, optCode]

@[simp] theorem bitOf_beq_one (b : Bool) : (bitOf b == 1) = b := by cases b <;> rfl

/-- What the code of each operand is below. -/
theorem codes_lt : (∀ x, bitOf x ≤ 1) ∧ (∀ x : SReg, x.val < 256) ∧ (∀ x : VReg, x.val < 256) ∧ (∀ x : TReg, x.val < 256)
    ∧ (∀ x, ssrcCode x < 256) ∧ (∀ x, vsrcCode x < 256) ∧ (∀ x, vsrcSel x ≤ 1) ∧ (∀ x, optCode x < 256) ∧ (∀ x, optSel x ≤ 1)
    ∧ (∀ x, fmtCode x < 32) ∧ (∀ x, fmtCode x < 256) ∧ (∀ x, rndCode x < 8) ∧ (∀ x, rmCode x < 8) ∧ (∀ x, scopeCode x < 16)
    ∧ (∀ x, eclassCode x < 8) ∧ (∀ x, condCode x < 16) ∧ (∀ x, ordCode x < 4) ∧ (∀ x, feCode x < 4) ∧ (∀ x, szCode x < 8)
    ∧ (∀ x, modeCode x < 8) ∧ (∀ x, ncCode x < 4) ∧ (∀ x, prCode x < 4) ∧ (∀ x, sysregCode x < 4096) ∧ (∀ x, ropCode x / 4 < 4)
    ∧ (∀ x, maskC x < 256) ∧ (∀ x : Fin 8, x.val < 8) ∧ (∀ x : Fin 16, x.val < 16) ∧ (∀ x : BitVec 6, x.toNat < 64)
    ∧ (∀ x : BitVec 7, x.toNat < 128) ∧ (∀ x : BitVec 8, x.toNat < 256) ∧ (∀ x : BitVec 6, x.toNat < 65536)
    ∧ (∀ x : BitVec 16, x.toNat < 65536) ∧ ∀ x : BitVec 32, x.toNat < 4294967296 :=
  ⟨fun x => Nat.le_of_lt_succ (bitOf_lt x), fun x => by omega, fun x => x.isLt, fun x => by omega, ssrcCode_lt, vsrcCode_lt,
    fun x => Nat.le_of_lt_succ (vsrcSel_lt x), optCode_lt, fun x => Nat.le_of_lt_succ (optSel_lt x), fmtCode_lt,
    fun x => (fmtCode_lt x).trans (by decide), rndCode_lt, rmCode_lt, scopeCode_lt, eclassCode_lt, condCode_lt, ordCode_lt, feCode_lt,
    fun x => (szCode_lt x).trans (by decide), modeCode_lt, ncCode_lt, prCode_lt, fun x => (sysregCode_lt x).trans (by decide),
    fun x => by cases x <;> decide, maskC_lt, fun x => x.isLt, fun x => x.isLt, fun x => x.isLt, fun x => x.isLt, fun x => x.isLt,
    fun x => by omega, fun x => x.isLt, fun x => x.isLt⟩

/-! ### Fields side by side -/

/-- What stands above a field does not show in it. -/
theorem bits_add_high {q p n : Nat} (x k : Nat) (h : p + n ≤ q) : bits (x + 2 ^ q * k) p n = bits x p n := by
  have e : 2 ^ q = 2 ^ p * (2 ^ n * 2 ^ (q - p - n)) := by rw [← pow_add, ← pow_add]; congr 1; omega
  unfold bits
  rw [e, mul_assoc, mul_assoc, Nat.add_mul_div_left _ _ (Nat.two_pow_pos p), Nat.add_mul_mod_self_left]

/-- What stands below a field does not show in it. -/
theorem bits_add_low {q p n x : Nat} (k : Nat) (hx : x < 2 ^ q) (h : q ≤ p) : bits (x + 2 ^ q * k) p n = bits k (p - q) n := by
  have e : 2 ^ p = 2 ^ q * 2 ^ (p - q) := by rw [← pow_add]; congr 1; omega
  unfold bits
  rw [e, ← Nat.div_div_eq_div_mul, Nat.add_mul_div_left _ _ (Nat.two_pow_pos q), Nat.div_eq_of_lt hx, Nat.zero_add]

/-- The low bits of a field. -/
theorem bits_mod {w p n : Nat} (k : Nat) (h : k ≤ n) : bits w p n % 2 ^ k = bits w p k := Nat.mod_mod_of_dvd _ (pow_dvd_pow 2 h)

@[simp] theorem bits_zero (p n : Nat) : bits 0 p n = 0 := by simp [bits]

/-- A number in three parts: below a field, the field, and above it. -/
theorem eq_parts (s q m : Nat) : s = s % 2 ^ q + 2 ^ q * (bits s q m + 2 ^ m * (s / 2 ^ q / 2 ^ m)) := by
  unfold bits
  rw [Nat.mod_add_div, Nat.mod_add_div]

/-- A value written into an empty field. -/
theorem add_field (s q m v : Nat) (h : bits s q m = 0) :
    s + v * 2 ^ q = s % 2 ^ q + 2 ^ q * (v + 2 ^ m * (s / 2 ^ q / 2 ^ m)) := by
  conv_lhs => rw [eq_parts s q m, h]
  ring

theorem bits_add_field_self {s q m v : Nat} (h : bits s q m = 0) (hv : v < 2 ^ m) : bits (s + v * 2 ^ q) q m = v := by
  rw [add_field s q m v h, bits_add_low _ (Nat.mod_lt _ (Nat.two_pow_pos q)) le_rfl, Nat.sub_self]
  simp [bits, Nat.mod_eq_of_lt hv]

theorem bits_add_field_other {s q m v p n : Nat} (h : bits s q m = 0) (hv : v < 2 ^ m) (hd : p + n ≤ q ∨ q + m ≤ p) :
    bits (s + v * 2 ^ q) p n = bits s p n := by
  have hs : s % 2 ^ q < 2 ^ q := Nat.mod_lt _ (Nat.two_pow_pos q)
  have e : bits s p n = bits (s % 2 ^ q + 2 ^ q * (0 + 2 ^ m * (s / 2 ^ q / 2 ^ m))) p n := by rw [← h, ← eq_parts]
  rw [add_field s q m v h, e]
  rcases hd with hd | hd
  · rw [bits_add_high _ _ hd, bits_add_high _ _ hd]
  · rw [bits_add_low _ hs (by omega), bits_add_low _ hs (by omega), bits_add_low _ hv (by omega),
      bits_add_low _ (Nat.two_pow_pos m) (by omega)]

/-- A field: its lowest bit, its width and what it holds. -/
structure Field where
  pos : Nat
  width : Nat
  val : Nat

/-- What a field adds to the number it stands in. -/
def Field.term (f : Field) : Nat := if f.pos = 0 then f.val else f.val * 2 ^ f.pos

theorem Field.term_eq (f : Field) : f.term = f.val * 2 ^ f.pos := by
  unfold Field.term
  split
  next h => simp [h]
  · rfl

/-- The number in which the fields of a list stand, and nothing else. -/
def packed : List Field → Nat
  | [] => 0
  | f :: fs => fs.foldl (fun s g => s + g.term) f.term

/-- No two fields of a list share a bit, and none reaches past bit `top`. -/
def apart (top : Nat) : List Field → Bool
  | [] => true
  | f :: fs => decide (f.pos + f.width ≤ top) && fs.all (fun g => decide (f.pos + f.width ≤ g.pos) || decide (g.pos + g.width ≤ f.pos))
      && apart top fs

/-- The fields of a list hold their values in `w`. -/
def Reads (w : Nat) : List Field → Prop
  | [] => True
  | f :: fs => bits w f.pos f.width = f.val ∧ Reads w fs

theorem Reads.congr {w u : Nat} {fs : List Field} {top : Nat} (ha : apart top fs = true) (h : Reads u fs)
    (e : ∀ p n, p + n ≤ top → bits w p n = bits u p n) : Reads w fs := by
  induction fs with
  | nil => trivial
  | cons f fs ih =>
    simp only [apart, Bool.and_eq_true, decide_eq_true_eq] at ha
    exact ⟨(e _ _ ha.1.1).trans h.1, ih ha.2 h.2⟩

/-- Fields written one after another into bits of `s` that are empty: each reads back, and no other bit changes. -/
theorem reads_foldl {top : Nat} (fs : List Field) (s : Nat) (ha : apart top fs = true) (hv : ∀ f ∈ fs, f.val < 2 ^ f.width)
    (hz : ∀ f ∈ fs, bits s f.pos f.width = 0) :
    Reads (fs.foldl (fun s g => s + g.term) s) fs
      ∧ ∀ p n, (∀ f ∈ fs, p + n ≤ f.pos ∨ f.pos + f.width ≤ p) → bits (fs.foldl (fun s g => s + g.term) s) p n = bits s p n := by
  induction fs generalizing s with
  | nil => exact ⟨trivial, fun _ _ _ => rfl⟩
  | cons f fs ih =>
    simp only [apart, Bool.and_eq_true, decide_eq_true_eq, List.all_eq_true, Bool.or_eq_true] at ha
    obtain ⟨⟨-, hf⟩, ha⟩ := ha
    simp only [List.forall_mem_cons] at hv hz
    obtain ⟨hvf, hv⟩ := hv
    obtain ⟨hzf, hz⟩ := hz
    have other {p n : Nat} (hd : p + n ≤ f.pos ∨ f.pos + f.width ≤ p) : bits (s + f.term) p n = bits s p n :=
      f.term_eq ▸ bits_add_field_other hzf hvf hd
    obtain ⟨hr, ho⟩ := ih (s + f.term) ha hv fun g hg => (other (hf g hg).symm).trans (hz g hg)
    refine ⟨⟨?_, hr⟩, fun p n hd => ?_⟩
    · exact (ho _ _ hf).trans (f.term_eq ▸ bits_add_field_self hzf hvf)
    · rw [List.forall_mem_cons] at hd
      exact (ho _ _ hd.2).trans (other hd.1)

theorem foldl_term (fs : List Field) (s : Nat) : fs.foldl (fun s g => s + g.term) s = s + packed fs := by
  induction fs generalizing s with
  | nil => rfl
  | cons f fs ih => rw [List.foldl_cons, ih, packed, ih, Nat.add_assoc]

theorem packed_append (fs gs : List Field) : packed (fs ++ gs) = packed fs + packed gs := by
  cases fs with
  | nil => simp [packed]
  | cons f fs => rw [List.cons_append, packed, List.foldl_append, foldl_term, packed]

theorem Reads.append {w : Nat} {fs gs : List Field} (h : Reads w (fs ++ gs)) : Reads w fs ∧ Reads w gs := by
  induction fs with
  | nil => exact ⟨trivial, h⟩
  | cons f fs ih => exact ⟨⟨h.1, (ih h.2).1⟩, (ih h.2).2⟩

/-- Fields that share no bit read back from the number they stand in. -/
theorem reads_packed {top : Nat} (fs : List Field) (ha : apart top fs = true) (hv : ∀ f ∈ fs, f.val < 2 ^ f.width) :
    Reads (packed fs) fs ∧ packed fs < 2 ^ top := by
  have e : packed fs = fs.foldl (fun s g => s + g.term) 0 := by rw [foldl_term, Nat.zero_add]
  have hend : ∀ f ∈ fs, f.pos + f.width ≤ top := by
    clear hv e
    induction fs with
    | nil => simp
    | cons f fs ih =>
      simp only [apart, Bool.and_eq_true, decide_eq_true_eq] at ha
      exact List.forall_mem_cons.mpr ⟨ha.1.1, ih ha.2⟩
  obtain ⟨hr, ho⟩ := reads_foldl fs 0 ha hv fun _ _ => bits_zero _ _
  rw [e]
  refine ⟨hr, ?_⟩
  have h0 := ho top (fs.foldl (fun s g => s + g.term) 0) fun f hf => .inr (hend f hf)
  rw [bits_zero, bits, Nat.mod_eq_of_lt ((Nat.div_le_self _ _).trans_lt Nat.lt_two_pow_self)] at h0
  exact (Nat.div_eq_zero_iff_lt (Nat.two_pow_pos top)).mp h0

/-! ### Words that read back -/

/-- What a full word with opcode `op` names (R71). -/
def parseOp (op w : Nat) : Option Instr :=
  if op < 0x080 then parseScalar op w
  else if op < 0x100 then parseControl op w
  else if op < 0x140 then parseVector op w
  else if op < 0x180 then parseSpecial op w
  else if op < 0x200 then parseCross op w
  else if op < 0x240 then parseMemory op w
  else if op < 0x300 then parseSync op w
  else if op < 0x340 then parseEngine op w
  else parseSystem op w

theorem parseFull_eq (w : Nat) : parseFull w = parseOp (bits w 52 10) w := rfl

/-- The word `w` fits in 64 bits and its fields name `i`. -/
def Names (w : Nat) (i : Instr) : Prop :=
  w < 2 ^ 64 ∧ (bits w 62 1 = 1 ∨ knownOpcode (bits w 52 10) = true)
    ∧ (if bits w 62 1 == 1 then parsePair w else parseFull w) = some i

/-- A word that names a well-formed instruction, and is that instruction's word, decodes to it. -/
theorem Names.decodeWord {i : Instr} (h : Names (encodeNat i) i) (hw : i.wf = true) :
    decodeWord (BitVec.ofNat 64 (encodeNat i)) = .ok i := by
  obtain ⟨hlt, hop, hp⟩ := h
  have hn : (BitVec.ofNat 64 (encodeNat i)).toNat = encodeNat i := by rw [BitVec.toNat_ofNat, Nat.mod_eq_of_lt hlt]
  have hk : (bits (encodeNat i) 62 1 == 0 && !knownOpcode (bits (encodeNat i) 52 10)) = false := by
    rcases hop with h | h <;> simp [h]
  simp only [Sys2Proof.decodeWord, hn, hk, hp, hw]
  simp

theorem ctlOf_of_bits {w : Nat} {c : Ctl} (hm : bits w 63 1 = bitOf c.m) (hg : bits w 47 5 = guardBits c.guard) : ctlOf w = c := by
  obtain ⟨m, g⟩ := c
  cases g with
  | always =>
    have h : bits w 51 1 = 0 := by simp only [bits, guardBits] at hg ⊢; omega
    simp [ctlOf, hm, h]
  | q neg depth =>
    have := bitOf_lt neg
    have h : bits w 51 1 = 1 ∧ bits w 50 1 = bitOf neg ∧ bits w 47 3 = depth.val := by
      simp only [bits, guardBits] at hg ⊢
      omega
    simp [ctlOf, hm, h]

theorem knownOpcode_lt {op : Nat} (h : knownOpcode op = true) : op < 1024 := by
  simp [knownOpcode] at h
  omega

section
variable {i : Instr} {c : Ctl} {op d a b x md k : Nat}

/-- An RR word, the fields `fs` in its MOD, names what its fields name (R56, R59). -/
theorem names_rrWord (fs : List Field)
    (h : ∀ w, ctlOf w = c ∧ fD w = d ∧ fA w = a ∧ fB w = b ∧ fC w = x → Reads w fs → parseOp op w = some i)
    (hf : d < 256 ∧ a < 256 ∧ b < 256 ∧ x < 256 := by simp [codes_lt]) (hk : knownOpcode op = true := by rfl)
    (e : packed fs = md := by rfl) (ha : apart 15 fs = true := by rfl) (hv : ∀ f ∈ fs, f.val < 2 ^ f.width := by simp [codes_lt]) :
    Names (rrWord c op d a b x md) i := by
  subst e
  obtain ⟨hd, h1, h2, h3⟩ := hf
  obtain ⟨hr, hm⟩ := reads_packed fs ha hv
  have ho := knownOpcode_lt hk
  have hop := rrWord_op c op d a b x _ ho hd h1 h2 h3 hm
  have h62 : bits (rrWord c op d a b x (packed fs)) 62 1 = 0 := by
    have := guardBits_lt c.guard
    unfold bits rrWord
    omega
  refine ⟨rrWord_lt c op d a b x _ ho hd h1 h2 h3 hm, .inr (hop.symm ▸ hk), ?_⟩
  rw [h62, parseFull_eq, hop]
  exact h _ ⟨ctlOf_of_bits (rrWord_m c op d a b x _ ho hd h1 h2 h3 hm) (rrWord_guard c op d a b x _ hd h1 h2 h3 hm),
    rrWord_d c op d a b x _ hd h1 h2 h3 hm, rrWord_a c op d a b x _ h1 h2 h3 hm, rrWord_b c op d a b x _ h2 h3 hm,
    rrWord_c c op d a b x _ h3 hm⟩ (hr.congr ha (rrWord_md c op d a b x _))

/-- An SI word: its immediate stands where B and C of an RR word do (R59). -/
theorem names_siWord (fs : List Field)
    (h : ∀ w, ctlOf w = c ∧ fD w = d ∧ fA w = a ∧ bits w 15 16 = k → Reads w fs → parseOp op w = some i)
    (hf : d < 256 ∧ a < 256 ∧ k < 65536 := by simp [codes_lt]) (hk : knownOpcode op = true := by rfl)
    (e : packed fs = md := by rfl) (ha : apart 15 fs = true := by rfl) (hv : ∀ f ∈ fs, f.val < 2 ^ f.width := by simp [codes_lt]) :
    Names (siWord c op d a k md) i := by
  have hw : siWord c op d a k md = rrWord c op d a (k / 256) (k % 256) md := by
    unfold siWord rrWord
    omega
  rw [hw]
  refine names_rrWord fs (fun w ⟨hc, hd, h1, h2, h3⟩ => h w ⟨hc, hd, h1, ?_⟩) (by omega) hk e ha hv
  unfold fB bits at h2
  unfold fC bits at h3
  unfold bits
  omega

/-- A KI or BR word: its constant stands where A, B, C and the upper half of MOD of an RR word do (R59). -/
theorem names_kiWord (fs : List Field)
    (h : ∀ w, ctlOf w = c ∧ fD w = d ∧ bits w 7 32 = k → Reads w fs → parseOp op w = some i)
    (hf : d < 256 ∧ k < 4294967296 := by simp [codes_lt]) (hk : knownOpcode op = true := by rfl)
    (e : packed fs = md := by rfl) (ha : apart 7 fs = true := by rfl) (hv : ∀ f ∈ fs, f.val < 2 ^ f.width := by simp [codes_lt]) :
    Names (kiWord c op d k md) i := by
  obtain ⟨hr, hm⟩ := reads_packed fs ha hv
  have hw : kiWord c op d k md = rrWord c op d (k / 2 ^ 24) (k / 2 ^ 16 % 256) (k / 2 ^ 8 % 256) (md + k % 256 * 2 ^ 7) := by
    unfold kiWord rrWord
    omega
  rw [hw]
  refine names_rrWord [⟨0, 7, md⟩, ⟨7, 8, k % 256⟩] (fun w ⟨hc, hd, h1, h2, h3⟩ ⟨hlo, hhi, _⟩ => ?_) (by omega) hk
    (hv := by simp; omega)
  change bits w 0 7 = md at hlo
  change bits w 7 8 = k % 256 at hhi
  refine h w ⟨hc, hd, ?_⟩ (hr.congr ha fun p n hp => ?_)
  · unfold fA bits at h1
    unfold fB bits at h2
    unfold fC bits at h3
    unfold bits at hhi ⊢
    omega
  · have := eq_parts w 0 7
    simp only [hlo, pow_zero, Nat.mod_one, Nat.zero_add, Nat.one_mul, ← e] at this
    rw [this, bits_add_high _ _ hp]

/-- The fields of MOD that MO words share (R64). -/
def memFields (mem : MemArg) : List Field :=
  [⟨11, 4, scopeCode mem.scope⟩, ⟨9, 2, ordCode mem.ord⟩, ⟨8, 1, bitOf mem.idx.isSome⟩, ⟨2, 1, bitOf mem.nt⟩]

theorem memarg?_of_fields {w : Nat} (mem : MemArg) (hb : fA w = mem.base.val)
    (hi : fB w = match mem.idx with | some v => v.val | none => 0) (ho : fC w = mem.off.toNat) (h : Reads w (memFields mem)) :
    memarg? w = some mem := by
  obtain ⟨hs, hr, hx, hn, -⟩ := h
  obtain ⟨base, idx, off, scope, ord, nt⟩ := mem
  cases idx with
  | none => simp_all [memarg?, vreg?]
  | some v => simp_all [memarg?]

/-- An MO word: base, lane offset, OFF8 and four fields of MOD are its memory operand (R64). -/
theorem names_moWord {mem : MemArg} (fs : List Field)
    (h : ∀ w, ctlOf w = c ∧ fD w = d ∧ memarg? w = some mem → Reads w fs → parseOp op w = some i)
    (hf : d < 256 := by simp [codes_lt]) (hk : knownOpcode op = true := by rfl) (e : packed fs = md := by rfl)
    (ha : apart 15 (memFields mem ++ fs) = true := by rfl) (hv : ∀ f ∈ fs, f.val < 2 ^ f.width := by simp [codes_lt]) :
    Names (moWord c op d mem md) i := by
  have hi : (match mem.idx with | some v => v.val | none => 0) < 256 := by
    split
    · exact Fin.isLt _
    · decide
  have hm : ∀ f ∈ memFields mem, f.val < 2 ^ f.width := by simp [memFields, codes_lt]
  refine names_rrWord (memFields mem ++ fs) (fun w ⟨hc, hd, h1, h2, h3⟩ hr => ?_) ⟨hf, by simp [codes_lt], hi, mem.off.isLt⟩ hk ?_ ha
    fun f hf => (List.mem_append.mp hf).elim (hm f) (hv f)
  · obtain ⟨hs, hr⟩ := hr.append
    exact h w ⟨hc, hd, memarg?_of_fields mem h1 h2 h3 hs⟩ hr
  · rw [packed_append, e]
    rfl

/-- The mask fields of a cross-lane word (R173). -/
theorem slicemask?_of_fields {w : Nat} {m : SliceMask} (hc : fC w = maskC m) (hx : bits w 7 8 = m.xsm.toNat) :
    slicemask? w = some m := by
  obtain ⟨xsm, reg⟩ := m
  cases reg with
  | none => simp_all [slicemask?, maskC]
  | some r => simp_all [slicemask?, maskC]

end

/-! ### Paired words -/

theorem half?_halfNat (h : Half) : half? (halfNat h) = some h := by
  have hp : popCode h.pop < 64 := by cases h.pop <;> decide
  have := h.pg.isLt
  have := h.d.isLt
  have := h.a.isLt
  have := h.x.isLt
  have e : bits (halfNat h) 24 7 = popCode h.pop ∧ bits (halfNat h) 21 3 = h.pg.val ∧ bits (halfNat h) 14 7 = h.d.toNat
      ∧ bits (halfNat h) 7 7 = h.a.toNat ∧ bits (halfNat h) 0 7 = h.x.toNat := by
    unfold bits halfNat
    omega
  simp [half?, e]

/-- A paired word names its halves (R65). -/
theorem names_pairedWord (m : Bool) (h1 h2 : Half) : Names (encodeNat (.pairedWord m h1 h2)) (.pairedWord m h1 h2) := by
  have := bitOf_lt m
  have := halfNat_lt h1
  have := halfNat_lt h2
  have e : bits (encodeNat (.pairedWord m h1 h2)) 63 1 = bitOf m ∧ bits (encodeNat (.pairedWord m h1 h2)) 62 1 = 1
      ∧ bits (encodeNat (.pairedWord m h1 h2)) 31 31 = halfNat h1 ∧ bits (encodeNat (.pairedWord m h1 h2)) 0 31 = halfNat h2 := by
    simp only [encodeNat]
    unfold bits
    omega
  refine ⟨?_, .inl e.2.1, ?_⟩
  · simp only [encodeNat]
    omega
  · simp [e, parsePair, half?_halfNat]

/-! ### Every word, in the order of the opcode table -/

/-- Whether an instruction stands in rows `lo` to `hi - 1` of the opcode table and has a word that stands for it alone. -/
def Instr.wordIn (lo hi : Nat) (i : Instr) : Bool := decide (lo ≤ i.ctorIdx) && decide (i.ctorIdx < hi) && Instr.ownWord i

theorem names_scalarWord (i : Instr) (hrow : i.wordIn 0 70 = true) : Names (encodeNat i) i := by
  cases i with
  | nop c | smulh c d a b | smulhn c d a b | smin c d a b | smax c d a b | sminn c d a b | smaxn c d a b | sand c d a b | sor c d a b
  | sxor c d a b | sandn c d a b | sshl c d a b | sshr c d a b | ssra c d a b | srot c d a b | sclz c d a | sctz c d a | spopc c d a
  | sbrev c d a | sbfi c d a b x | sselz c d a b x | smov c d a | exsave c d | exload c a | exand c d a | exandn c d a | qsave c d
  | qload c a | moderd c d | modewr c a | ret c a | brs c a | brix c a | brixl c d va | exit c =>
    exact names_rrWord [] fun w h _ => by
      simp [parseOp, parseScalar, parseControl, h]
  | sadd c sat d a b | ssub c sat d a b | smul c sat d a b | sabs c sat d a =>
    exact names_rrWord [⟨11, 1, bitOf sat⟩] fun w h r => by
      simp [Reads] at r; simp [parseOp, parseScalar, h, r]
  | sbfx c signed d a b x =>
    exact names_rrWord [⟨0, 1, bitOf signed⟩] fun w h r => by
      simp [Reads] at r; simp [parseOp, parseScalar, h, r]
  | ssext c z n d a =>
    exact names_rrWord [⟨7, 1, bitOf z⟩, ⟨0, 7, n.toNat⟩] fun w h r => by
      simp [Reads] at r; simp [parseOp, parseScalar, h, r]
  | slea c pod k d a b =>
    exact names_rrWord [⟨3, 1, bitOf pod⟩, ⟨0, 3, k.val⟩] fun w h r => by
      simp [Reads] at r; simp [parseOp, parseScalar, h, r]
  | scmp c cond a b =>
    exact names_rrWord [⟨0, 4, condCode cond⟩] fun w h r => by
      simp [Reads] at r; simp [parseOp, parseScalar, h, r]
  | sclamp c n d a b x =>
    exact names_rrWord [⟨0, 1, bitOf n⟩] fun w h r => by
      simp [Reads] at r; simp [parseOp, parseScalar, h, r]
  | saddi c sat d a k | smuli c sat d a k =>
    exact names_siWord [⟨11, 1, bitOf sat⟩] fun w h r => by
      simp [Reads] at r; simp [parseOp, parseScalar, h, r]
  | sandi c d a k | sori c d a k | sxori c d a k | smini c d a k | smaxi c d a k =>
    exact names_siWord [] fun w h _ => by
      simp [parseOp, parseScalar, h]
  | sshli c d a k | sshri c d a k | ssrai c d a k | sroti c d a k =>
    refine names_siWord [] fun w h _ => ?_
    have hk : bits w 15 6 = k.toNat := by rw [← bits_mod 6 (show 6 ≤ 16 by decide), h.2.2.2, Nat.mod_eq_of_lt k.isLt]
    simp [parseOp, parseScalar, h, hk]
  | scmpi c cond a k =>
    exact names_siWord [⟨0, 4, condCode cond⟩] fun w h r => by
      simp [Reads] at r; simp [parseOp, parseScalar, h, r]
  | smovk c d k | smovkh c d k | saddk c d k | sleapc c d k | call c d disp =>
    exact names_kiWord [] fun w h _ => by
      simp [parseOp, parseScalar, parseControl, h]
  | exfromq c neg depth d =>
    exact names_rrWord [⟨3, 1, bitOf neg⟩, ⟨0, 3, depth.val⟩] fun w h r => by
      simp [Reads] at r; simp [parseOp, parseScalar, h, r]
  | moderm c rm =>
    exact names_rrWord [⟨12, 3, rmCode rm⟩] fun w h r => by
      simp [Reads] at r; simp [parseOp, parseScalar, h, r]
  | bra c pack disp | bexz c pack disp | bexnz c pack disp =>
    exact names_kiWord [⟨6, 1, bitOf pack⟩] fun w h r => by
      simp [Reads] at r; simp [parseOp, parseControl, h, r]
  | wait c ld st en wl fb =>
    exact names_rrWord [⟨12, 3, ld.val⟩, ⟨9, 3, st.val⟩, ⟨6, 3, en.val⟩, ⟨3, 3, wl.val⟩, ⟨0, 3, fb.val⟩] fun w h r => by
      simp [Reads] at r; simp [parseOp, parseControl, h, r]
  | regang c xsm =>
    exact names_rrWord [⟨7, 8, xsm.toNat⟩] fun w h r => by
      simp [Reads] at r; simp [parseOp, parseControl, h, r]
  | pairedWord m h1 h2 => exact names_pairedWord m h1 h2
  | _ => cases hrow

theorem names_vectorWord (i : Instr) (hrow : i.wordIn 70 147 = true) : Names (encodeNat i) i := by
  cases i with
  | vadd c f rnd sat d a b | vsub c f rnd sat d a b | vmul c f rnd sat d a b | vfdiv c f rnd sat d a b | vscalb c f rnd sat d a b
  | vpack c f rnd sat d a b =>
    exact names_rrWord [⟨4, 5, fmtCode f⟩, ⟨12, 3, rndCode rnd⟩, ⟨11, 1, bitOf sat⟩, ⟨10, 1, vsrcSel b⟩] fun w h r => by
      simp [Reads] at r; simp [parseOp, parseVector, h, r]
  | vfma c f rnd sat d a b x | vfms c f rnd sat d a b x | vfnma c f rnd sat d a b x | vdot2 c f rnd sat d a b x =>
    exact names_rrWord [⟨4, 5, fmtCode f⟩, ⟨12, 3, rndCode rnd⟩, ⟨11, 1, bitOf sat⟩, ⟨10, 1, vsrcSel b⟩, ⟨9, 1, vsrcSel x⟩] fun w h r => by
      simp [Reads] at r; simp [parseOp, parseVector, h, r]
  | vmin c f prop d a b | vmax c f prop d a b =>
    exact names_rrWord [⟨4, 5, fmtCode f⟩, ⟨0, 1, bitOf prop⟩, ⟨10, 1, vsrcSel b⟩] fun w h r => by
      simp [Reads] at r; simp [parseOp, parseVector, h, r]
  | vabs c f sat d a | vneg c f sat d a =>
    exact names_rrWord [⟨4, 5, fmtCode f⟩, ⟨11, 1, bitOf sat⟩] fun w h r => by
      simp [Reads] at r; simp [parseOp, parseVector, h, r]
  | vcpsgn c f xor d a b =>
    exact names_rrWord [⟨4, 5, fmtCode f⟩, ⟨0, 1, bitOf xor⟩, ⟨10, 1, vsrcSel b⟩] fun w h r => by
      simp [Reads] at r; simp [parseOp, parseVector, h, r]
  | vcmp c f cond a b =>
    exact names_rrWord [⟨4, 5, fmtCode f⟩, ⟨0, 4, condCode cond⟩, ⟨10, 1, vsrcSel b⟩] fun w h r => by
      simp [Reads] at r; simp [parseOp, parseVector, h, r]
  | vsel c f neg depth d a b =>
    exact names_rrWord [⟨4, 5, fmtCode f⟩, ⟨3, 1, bitOf neg⟩, ⟨0, 3, depth.val⟩, ⟨10, 1, vsrcSel b⟩] fun w h r => by
      simp [Reads] at r; simp [parseOp, parseVector, h, r]
  | vmov c f d b | vabsd c f d a b | vmulh c f d a b | vand c f d a b | vor c f d a b | vxor c f d a b | vandn c f d a b
  | vshl c f d a b | vshr c f d a b | vsra c f d a b | vkbenc c f d a b =>
    exact names_rrWord [⟨4, 5, fmtCode f⟩, ⟨10, 1, vsrcSel b⟩] fun w h r => by
      simp [Reads] at r; simp [parseOp, parseVector, h, r]
  | vcvt c f src rnd sat d a | vrcp c f rnd sat d a | vrsq c f rnd sat d a | vsqrt c f rnd sat d a | vexp2 c f rnd sat d a
  | vlog2 c f rnd sat d a | vsin c f rnd sat d a | vcos c f rnd sat d a | vtanh c f rnd sat d a =>
    exact names_rrWord [⟨4, 5, fmtCode f⟩, ⟨12, 3, rndCode rnd⟩, ⟨11, 1, bitOf sat⟩] fun w h r => by
      simp [Reads] at r; simp [parseOp, parseVector, parseSpecial, h, r]
  | vrnd c f rnd d a =>
    exact names_rrWord [⟨4, 5, fmtCode f⟩, ⟨12, 3, rndCode rnd⟩] fun w h r => by
      simp [Reads] at r; simp [parseOp, parseVector, h, r]
  | vclass c f d a | vnot c f d a | vclz c f d a | vpopc c f d a | vbrev c f d a | vunpkl c f d a | vunpkh c f d a =>
    exact names_rrWord [⟨4, 5, fmtCode f⟩] fun w h r => by
      simp [Reads] at r; simp [parseOp, parseVector, h, r]
  | vmad c f sat d a b x =>
    exact names_rrWord [⟨4, 5, fmtCode f⟩, ⟨11, 1, bitOf sat⟩, ⟨10, 1, vsrcSel b⟩, ⟨9, 1, vsrcSel x⟩] fun w h r => by
      simp [Reads] at r; simp [parseOp, parseVector, h, r]
  | vbfx c f signed d a b x =>
    exact names_rrWord [⟨4, 5, fmtCode f⟩, ⟨0, 1, bitOf signed⟩, ⟨10, 1, vsrcSel b⟩, ⟨9, 1, vsrcSel x⟩] fun w h r => by
      simp [Reads] at r; simp [parseOp, parseVector, h, r]
  | vbfi c f d a b x =>
    exact names_rrWord [⟨4, 5, fmtCode f⟩, ⟨10, 1, vsrcSel b⟩, ⟨9, 1, vsrcSel x⟩] fun w h r => by
      simp [Reads] at r; simp [parseOp, parseVector, h, r]
  | vkbdec c f q d a =>
    exact names_rrWord [⟨4, 5, fmtCode f⟩, ⟨0, 1, bitOf q⟩] fun w h r => by
      simp [Reads] at r; simp [parseOp, parseVector, h, r]
  | vmovk c d k =>
    exact names_kiWord [] fun w h _ => by
      simp [parseOp, parseVector, h]
  | vclamp c f prop d a b x =>
    exact names_rrWord [⟨4, 5, fmtCode f⟩, ⟨0, 1, bitOf prop⟩, ⟨10, 1, vsrcSel b⟩, ⟨9, 1, vsrcSel x⟩] fun w h r => by
      simp [Reads] at r; simp [parseOp, parseVector, h, r]
  | vmovq c d | actld c a =>
    exact names_rrWord [] fun w h _ => by
      simp [parseOp, parseVector, parseSpecial, h]
  | actsel c n =>
    exact names_rrWord [⟨0, 1, bitOf n⟩] fun w h r => by
      simp [Reads] at r; simp [parseOp, parseSpecial, h, r]
  | vact c rnd sat d a =>
    exact names_rrWord [⟨12, 3, rndCode rnd⟩, ⟨11, 1, bitOf sat⟩] fun w h r => by
      simp [Reads] at r; simp [parseOp, parseSpecial, h, r]
  | vdivI32 c d a b | vdivN32 c d a b | vremI32 c d a b | vremN32 c d a b =>
    exact names_rrWord [⟨10, 1, vsrcSel b⟩] fun w h r => by
      simp [Reads] at r; simp [parseOp, parseSpecial, h, r]
  | vshfl c f keep mask d a b | vshflup c f keep mask d a b | vshfldn c f keep mask d a b | vshflx c f keep mask d a b =>
    exact names_rrWord [⟨0, 5, fmtCode f⟩, ⟨6, 1, bitOf keep⟩, ⟨5, 1, vsrcSel b⟩, ⟨7, 8, mask.xsm.toNat⟩] fun w h r => by
      simp [Reads] at r; simp [parseOp, parseCross, h, r, slicemask?_of_fields h.2.2.2.2 (by simp [r])]
  | vbcast c f mask d a | voteany c f mask a | voteall c f mask a | voteuni c f mask a | vballot c f mask d a | vmatchany c f mask d a
  | vmatchall c f mask d a | vredadd c f mask d a | vredmin c f mask d a | vredmax c f mask d a | vredand c f mask d a
  | vredor c f mask d a | vredxor c f mask d a | vscanadd c f mask d a =>
    exact names_rrWord [⟨0, 5, fmtCode f⟩, ⟨7, 8, mask.xsm.toNat⟩] fun w h r => by
      simp [Reads] at r; simp [parseOp, parseCross, h, r, slicemask?_of_fields h.2.2.2.2 (by simp [r])]
  | _ => cases hrow

theorem names_memoryWord (i : Instr) (hrow : i.wordIn 147 183 = true) : Names (encodeNat i) i := by
  cases i with
  | vld c mem fe sz d | sld c mem fe sz d | vldtr c mem fe sz d =>
    exact names_moWord [⟨6, 2, feCode fe⟩, ⟨3, 3, szCode sz⟩] fun w h r => by
      simp [Reads] at r; simp [parseOp, parseMemory, h, r]
  | vst c mem fe sz el d | sst c mem fe sz el d =>
    exact names_moWord [⟨6, 2, feCode fe⟩, ⟨3, 3, szCode sz⟩, ⟨1, 1, bitOf el⟩] fun w h r => by
      simp [Reads] at r; simp [parseOp, parseMemory, h, r]
  | pref c mem =>
    exact names_moWord [] fun w h _ => by
      simp [parseOp, parseMemory, h]
  | feset c mem | feclr c mem =>
    exact names_moWord [⟨4, 2, 3⟩] fun w h _ => by
      simp [parseOp, parseMemory, h]
  | atadd c mem sz rv d | atmin c mem sz rv d | atminn c mem sz rv d | atmax c mem sz rv d | atmaxn c mem sz rv d | atand c mem sz rv d
  | ator c mem sz rv d | atxor c mem sz rv d | atxchg c mem sz rv d =>
    exact names_moWord [⟨3, 3, szCode sz⟩, ⟨0, 1, bitOf rv⟩] fun w h r => by
      simp [Reads] at r; simp [parseOp, parseMemory, h, r]
  | atcas c mem sz d =>
    exact names_moWord [⟨3, 3, szCode sz⟩, ⟨0, 1, 1⟩] fun w h r => by
      simp [Reads] at r; simp [parseOp, parseMemory, h, r]
  | atfadd c mem rv d | atbadd2 c mem rv d =>
    exact names_moWord [⟨0, 1, bitOf rv⟩, ⟨5, 1, 1⟩] fun w h r => by
      simp [Reads] at r; simp [parseOp, parseMemory, h, r]
  | wld c mem sz pr d =>
    exact names_moWord [⟨3, 3, szCode sz⟩, ⟨0, 2, prCode pr⟩] fun w h r => by
      simp [Reads] at r; simp [parseOp, parseMemory, h, r]
  | wdset c a b | wdget c a b | abwait c a b | abtest c a b | abinit c a b | abexp c a b =>
    exact names_rrWord [] fun w h _ => by
      simp [parseOp, parseMemory, parseSync, h]
  | fence c scope ord =>
    exact names_rrWord [⟨11, 4, scopeCode scope⟩, ⟨9, 2, ordCode ord⟩, ⟨8, 1, 0⟩] (e := by simp [packed, Field.term]) fun w h r => by
      simp [Reads] at r; simp [parseOp, parseMemory, h, r]
  | fenceSc c =>
    exact names_rrWord [⟨11, 4, 6⟩, ⟨9, 2, 3⟩, ⟨8, 1, 1⟩] fun w h r => by
      simp [Reads] at r; simp [parseOp, parseMemory, h, r]
  | xfence c scope frm too =>
    exact names_rrWord [⟨11, 4, scopeCode scope⟩, ⟨8, 3, eclassCode frm⟩, ⟨5, 3, eclassCode too⟩] fun w h r => by
      simp [Reads] at r; simp [parseOp, parseMemory, h, r]
  | icinv c scope all a b =>
    exact names_rrWord [⟨11, 4, scopeCode scope⟩, ⟨10, 1, bitOf all⟩] fun w h r => by
      simp [Reads] at r; simp [parseOp, parseMemory, h, r]
  | podld c mem sz d | podst c mem sz d =>
    exact names_moWord [⟨3, 3, szCode sz⟩] fun w h r => by
      simp [Reads] at r; simp [parseOp, parseSync, h, r]
  | podred c mem sz rop d =>
    exact names_moWord [⟨3, 3, szCode sz⟩, ⟨6, 2, ropCode rop / 4⟩, ⟨0, 2, ropCode rop % 4⟩]
      (e := Nat.add_assoc _ _ _) (hv := by simp [codes_lt, Nat.mod_lt]) fun w h r => by
      simp [Reads] at r; simp [parseOp, parseSync, h, r, Nat.div_add_mod]
  | bar c id mask =>
    exact names_rrWord [⟨0, 4, id.val⟩, ⟨4, 1, optSel mask⟩] fun w h r => by
      simp [Reads] at r; simp [parseOp, parseSync, h, r]
  | abarr c scope rel a bytes =>
    refine names_rrWord [⟨11, 4, scopeCode scope⟩, ⟨10, 1, bitOf rel⟩, ⟨9, 1, 0⟩, ⟨8, 1, optSel bytes⟩]
      (e := by simp [packed, Field.term]) fun w h r => ?_
    simp [Reads] at r
    have hrel : bits w 9 2 = 2 * bits w 10 1 + bits w 9 1 := by unfold bits; omega
    cases rel <;> simp [parseOp, parseSync, h, r, hrel, bitOf]
  | _ => cases hrow

theorem names_engineWord (i : Instr) (hrow : i.wordIn 183 219 = true) : Names (encodeNat i) i := by
  cases i with
  | ldstat c ns mode nc xf tb sm ab =>
    exact names_rrWord [⟨11, 1, bitOf ns⟩, ⟨8, 3, modeCode mode⟩, ⟨6, 2, ncCode nc⟩, ⟨0, 5, fmtCode xf⟩, ⟨5, 1, optSel ab⟩] fun w h r => by
      simp [Reads] at r; simp [parseOp, parseEngine, h, r]
  | pswap c ab | accclr c sr ab | accwr c ts sp ab | accmv c ss sd sz ab | cptile c td ts ab | cpcopy c sd ss sl ab | cptr c td ts ab =>
    exact names_rrWord [⟨5, 1, optSel ab⟩] fun w h r => by
      simp [Reads] at r; simp [parseOp, parseEngine, h, r]
  | mx c rnd mode ta sp ab | mxtile c rnd mode ta tb sp ab =>
    exact names_rrWord [⟨12, 3, rndCode rnd⟩, ⟨8, 3, modeCode mode⟩, ⟨5, 1, optSel ab⟩] fun w h r => by
      simp [Reads] at r; simp [parseOp, parseEngine, h, r]
  | mxsp c rnd mode nc ta sp ab =>
    exact names_rrWord [⟨12, 3, rndCode rnd⟩, ⟨8, 3, modeCode mode⟩, ⟨6, 2, ncCode nc⟩, ⟨5, 1, optSel ab⟩] fun w h r => by
      simp [Reads] at r; simp [parseOp, parseEngine, h, r]
  | mxb c mode ta sp ab =>
    exact names_rrWord [⟨8, 3, modeCode mode⟩, ⟨5, 1, optSel ab⟩] fun w h r => by
      simp [Reads] at r; simp [parseOp, parseEngine, h, r]
  | mxbsp c mode ta sp ab =>
    exact names_rrWord [⟨8, 3, modeCode mode⟩, ⟨7, 1, 1⟩, ⟨5, 1, optSel ab⟩] fun w h r => by
      simp [Reads] at r; simp [parseOp, parseEngine, h, r]
  | scacc c rnd sr sa sb ab | sctile c rnd sc ta tb ab =>
    exact names_rrWord [⟨12, 3, rndCode rnd⟩, ⟨5, 1, optSel ab⟩] fun w h r => by
      simp [Reads] at r; simp [parseOp, parseEngine, h, r]
  | accrd c rnd sat ic td sp ab =>
    exact names_rrWord [⟨12, 3, rndCode rnd⟩, ⟨11, 1, bitOf sat⟩, ⟨0, 1, bitOf ic⟩, ⟨5, 1, optSel ab⟩] fun w h r => by
      simp [Reads] at r; simp [parseOp, parseEngine, h, r]
  | cpmcast c d so ts sk | tdset c t a b | tret c | frecv c d a b | allreduce c td ts b x | cgrp c d a b | qenq c d a b =>
    exact names_rrWord [] fun w h _ => by
      simp [parseOp, parseEngine, parseSystem, h]
  | tdget c hi d t =>
    exact names_rrWord [⟨0, 1, bitOf hi⟩] fun w h r => by
      simp [Reads] at r; simp [parseOp, parseEngine, h, r]
  | trap c n | brk c n =>
    exact names_rrWord [⟨0, 8, n.toNat⟩] fun w h r => by
      simp [Reads] at r; simp [parseOp, parseSystem, h, r]
  | sysrd c reg d | syswr c reg a =>
    exact names_rrWord [⟨0, 12, sysregCode reg⟩] fun w h r => by
      simp [Reads] at r; simp [parseOp, parseSystem, h, r]
  | tlbinv c scope all a b =>
    exact names_rrWord [⟨11, 4, scopeCode scope⟩, ⟨10, 1, bitOf all⟩, ⟨9, 1, 0⟩, ⟨8, 1, 1⟩]
      (e := by simp [packed, Field.term]) fun w h r => by
      simp [Reads] at r; simp [parseOp, parseSystem, h, r]
  | fsend c d a b =>
    exact names_rrWord [⟨0, 1, 0⟩] fun w h r => by
      simp [Reads] at r; simp [parseOp, parseSystem, h, r]
  | tlbinvS2 c scope a =>
    exact names_rrWord [⟨11, 4, scopeCode scope⟩, ⟨10, 1, 1⟩, ⟨9, 1, 1⟩] (e := by simp [packed, Field.term]) fun w h r => by
      simp [Reads] at r; simp [parseOp, parseSystem, h, r]
  | fsendLaunch c d a b =>
    exact names_rrWord [⟨0, 1, 1⟩] fun w h r => by
      simp [Reads] at r; simp [parseOp, parseSystem, h, r]
  | evpost c scope d a b =>
    exact names_rrWord [⟨11, 4, scopeCode scope⟩] fun w h r => by
      simp [Reads] at r; simp [parseOp, parseSystem, h, r]
  | _ => cases hrow

/-- The events, after every word in the opcode table, have no word. -/
theorem ctorIdx_lt_of_ownWord (i : Instr) (h : Instr.ownWord i = true) : i.ctorIdx < 219 := by
  by_contra hn
  have hb : (decide (219 ≤ i.ctorIdx) && Instr.ownWord i) = true := by simp [h, Nat.le_of_not_lt hn]
  cases i <;> cases hb

/-- The word of every instruction that has a word of its own names it. -/
theorem names_encodeNat (i : Instr) (h : Instr.ownWord i = true) : Names (encodeNat i) i := by
  have hlt := ctorIdx_lt_of_ownWord i h
  rcases lt_or_ge i.ctorIdx 70 with h1 | h1
  · exact names_scalarWord i (by simp [Instr.wordIn, h, h1])
  rcases lt_or_ge i.ctorIdx 147 with h2 | h2
  · exact names_vectorWord i (by simp [Instr.wordIn, h, h1, h2])
  rcases lt_or_ge i.ctorIdx 183 with h3 | h3
  · exact names_memoryWord i (by simp [Instr.wordIn, h, h2, h3])
  · exact names_engineWord i (by simp [Instr.wordIn, h, h3, hlt])

/-! ### What decodes -/

theorem Instr.hasWord_of_ownWord {i : Instr} (h : Instr.ownWord i = true) : i.hasWord = true := by
  unfold Instr.ownWord at h
  split at h
  · cases h
  · cases h
  · cases h
  · cases h
  · exact h

/-- A word decodes to an instruction only when its fields name it, it is well formed, and the word is its encoding. -/
theorem decodeWord_ok {w : Word64} {i : Instr} (h : decodeWord w = .ok i) : i.wf = true ∧ encodeNat i = w.toNat := by
  simp only [decodeWord] at h
  split at h
  · cases h
  split at h
  · cases h
  split at h
  next hw =>
    split at h
    next he => exact Except.ok.inj h ▸ ⟨hw, by simpa using he⟩
    · cases h
  · cases h

/-- Settles O3: the decoder accepts a word only after it has compared it with the encoding of what its fields name. -/
theorem encodeDecode : Obligations.EncodeDecode := fun _ _ => decodeWord_ok

/-- Settles O2: the fields of the word of an instruction read back its operands, so that the word names the instruction. -/
theorem decodeEncode : Obligations.DecodeEncode := fun i hi hw =>
  ⟨_, by rw [encode, if_pos (Instr.hasWord_of_ownWord hi)], (names_encodeNat i hi).decodeWord hw⟩

theorem decodeWord_of_encodeNat {w : Word64} {i : Instr} (he : encodeNat i = w.toNat) (hi : Instr.ownWord i = true) (hw : i.wf = true) :
    decodeWord w = .ok i := by
  have h := (names_encodeNat i hi).decodeWord hw
  rwa [he, BitVec.ofNat_toNat, BitVec.setWidth_eq] at h

/-- Settles O1: each word is the encoding of the instruction beside it, and the last has an opcode of no row. -/
theorem decodeWords : Obligations.DecodeWords := by
  have word {w i} := @decodeWord_of_encodeNat w i
  exact ⟨word rfl rfl rfl, word rfl rfl rfl, word rfl rfl rfl, word rfl rfl rfl, word rfl rfl rfl, word rfl rfl rfl, word rfl rfl rfl,
    word rfl rfl rfl, word rfl rfl rfl, word rfl rfl rfl, word rfl rfl rfl, word rfl rfl rfl, word rfl rfl rfl, word rfl rfl rfl,
    word rfl rfl rfl, rfl⟩

end Sys2Proof

/-! Proofs: `exec` answers a next state when a slice runs (R73, R332). -/

namespace Sys2Proof.Machine

/-- Every instruction that has a word issues for the slice that runs. -/
theorem exec_word {i : Instr} (hw : i.hasWord = true) (s : State) : ∃ chk body, exec i s = issue s chk body := by
  cases i <;> first | exact ⟨_, _, rfl⟩ | cases hw

theorem pumpStep_answers (core : Nat) (s : State) (go : Cmd → Block → Core → Option State) : ∃ t, pumpStep core s go = .next t := by
  unfold pumpStep
  repeat' first | exact ⟨_, rfl⟩ | split

/-- Every event answers: where its definition chooses between cases, each of them ends in a next state. -/
theorem exec_event {i : Instr} (hw : i.hasWord = false) (s : State) : ∃ t, exec i s = .next t := by
  cases i with
  | fill core | stream core | scale core | copy core =>
    simp only [exec, execFill, execStream, execScale, execCopy]
    exact pumpStep_answers ..
  | join k | loadCompletion k n later | storePerformed k n later | engineCommandCompletion core copy | copyQueueStep core
  | actldCompletion core =>
    simp only [exec, execJoin, execLoadCompletion, execStorePerformed, execEngineCommandCompletion, execCopyQueueStep, execActldCompletion]
    repeat' first | exact ⟨_, rfl⟩ | split
  | fabricCompletion k n r | fabricIngress f m | podAccess k n r later | launchRequest f r =>
    simp only [exec, execFabricCompletion, execFabricIngress, execPodAccess, execLaunchRequest]
    repeat' first | exact ⟨_, rfl⟩ | split
  | packetRead q | waitaddrLoad g | packetStart g | blockDispatch g d ps | stealRequest g d | gangLaunch g ps | blockEnd u
  | packetCompletion g | runLimit g | kernelWatchdog g | handlerWatchdog k =>
    simp only [exec, execPacketRead, execWaitaddrLoad, execPacketStart, execBlockDispatch, execStealRequest, execGangLaunch, execBlockEnd,
      execPacketCompletion, execRunLimit, execKernelWatchdog, execHandlerWatchdog]
    repeat' first | exact ⟨_, rfl⟩ | split
  | checkpoint f | checkpointCommit f | rollback f | timeSliceStart f ps | migrationImage f | migrationAccept f n =>
    simp only [exec, execCheckpoint, execCheckpointCommit, execRollback, execTimeSliceStart, execMigrationImage, execMigrationAccept]
    repeat' first | exact ⟨_, rfl⟩ | split
  | bindRecordWrite d n r | functionRecordWrite f r | asidTableWrite n r | layoutRequest l | commit | done | policyCoreRestart d
  | wldoor a | resume =>
    simp only [exec, execBindRecordWrite, execFunctionRecordWrite, execAsidTableWrite, execLayoutRequest, execCommit, execDone,
      execPolicyCoreRestart, execWldoor, execResume]
    repeat' first | exact ⟨_, rfl⟩ | split
  | loaderRequest fn | containerLoad f ps | functionLevelReset f | moduleReset img | hostAccess op | memoryError x c | selfTest x b
  | counterCommit | thermalThrottle core cap | laneRetrain l b n =>
    simp only [exec, execLoaderRequest, execContainerLoad, execFunctionLevelReset, execModuleReset, execHostAccess, execMemoryError,
      execSelfTest, execCounterCommit, execThermalThrottle, execLaneRetrain]
    repeat' first | exact ⟨_, rfl⟩ | split
  | _ => first | exact ⟨_, rfl⟩ | cases hw

/-- Settles O7: a word issues for the slice that runs, and an event needs none. -/
theorem execAnswers : Obligations.ExecAnswers := fun i s c h => by
  cases hw : i.hasWord with
  | true =>
    obtain ⟨chk, body, e⟩ := exec_word hw s
    exact ⟨_, e.trans (issue_next chk body h)⟩
  | false => exact exec_event hw s

end Sys2Proof.Machine

/-! Proofs: memory under a key after a write (R202, R204), and what a write leaves of the chips. -/

namespace Sys2Proof.Machine

section
variable {s t u : State} {n v a p l k : Nat} {bs : List Byte}

/-! ### Reading a byte under the key of its writer (R202, R204) -/

/-- What a byte reads as depends on memory and on the lines' keys alone. -/
theorem State.readByte_congr (hm : t.mem = s.mem) (hk : t.lineKey = s.lineKey) (key : Option Nat) (p : Nat) :
    t.readByte key p = s.readByte key p := by
  simp only [State.readByte, State.keyOfLine, hm, hk]

/-- Untagged requests read under the device key. -/
theorem State.readByte_untagged (s : State) (p : Nat) : s.readByte none p = s.readByte (some deviceKey) p := rfl

theorem State.readByte_of_key (h : s.keyOfLine (lineOf p) = some k) : s.readByte (some k) p = Memory.get s.mem p := by
  simp [State.readByte, h]

theorem State.readByte_of_unkeyed (key : Option Nat) (h : s.keyOfLine (lineOf p) = none) : s.readByte key p = Memory.get s.mem p := by
  simp [State.readByte, h]

theorem State.length_readBytes (s : State) (key : Option Nat) (a n : Nat) : (s.readBytes key a n).length = n := by
  simp [State.readBytes]

theorem State.getD_readBytes (s : State) (key : Option Nat) {a i n : Nat} (h : i < n) :
    (s.readBytes key a n).getD i 0 = s.readByte key (a + i) := by
  simp [State.readBytes, h]

theorem State.keyOfLine_rekeyLine (s : State) (k l m : Nat) :
    (s.rekeyLine (some k) l).keyOfLine m = if m = l then some k else s.keyOfLine m := by
  by_cases h : s.keyOfLine l = some k
  · rw [State.rekeyLine, if_pos h]
    split
    · next e => rw [e, h]
    · rfl
  · rw [State.rekeyLine, if_neg h]
    split <;> exact Sparse.get_set none s.lineKey l (some k) m

/-- A line that takes the writer's key keeps what the writer's key reads. -/
theorem State.readByte_rekeyLine (s : State) (k l p : Nat) : (s.rekeyLine (some k) l).readByte (some k) p = s.readByte (some k) p := by
  by_cases hl : lineOf p = l
  · rw [State.readByte_of_key (by rw [State.keyOfLine_rekeyLine, if_pos hl])]
    unfold State.rekeyLine
    split
    · next h => rw [State.readByte_of_key (hl ▸ h)]
    · split
      · next h => rw [State.readByte_of_unkeyed _ (hl ▸ h)]
      · have hp : l * 128 ≤ p ∧ p < l * 128 + 128 := by unfold lineOf at hl; omega
        rw [Memory.get_put, State.length_readBytes, if_pos hp, State.getD_readBytes _ _ (by omega), Nat.add_sub_cancel' hp.1]
  · have hm : Memory.get (s.rekeyLine (some k) l).mem p = Memory.get s.mem p := by
      unfold State.rekeyLine
      split
      · rfl
      · split
        · rfl
        · refine Memory.get_put_outside _ _ _ ?_
          rw [State.length_readBytes]
          unfold lineOf at hl
          omega
    simp only [State.readByte, hm, State.keyOfLine_rekeyLine, if_neg hl]

theorem State.keyOfLine_rekeyLines (s : State) (k : Nat) (ls : List Nat) (m : Nat) :
    (ls.foldl (fun t l => t.rekeyLine (some k) l) s).keyOfLine m = if m ∈ ls then some k else s.keyOfLine m := by
  induction ls generalizing s with
  | nil => rfl
  | cons l ls ih =>
    rw [List.foldl_cons, ih, State.keyOfLine_rekeyLine]
    by_cases h : m ∈ ls <;> by_cases e : m = l <;> simp [h, e]

theorem State.readByte_rekeyLines (s : State) (k : Nat) (ls : List Nat) (p : Nat) :
    (ls.foldl (fun t l => t.rekeyLine (some k) l) s).readByte (some k) p = s.readByte (some k) p := by
  induction ls generalizing s with
  | nil => rfl
  | cons l ls ih => rw [List.foldl_cons, ih, State.readByte_rekeyLine]

theorem mem_linesOf (h : a ≤ p ∧ p < a + n) : lineOf p ∈ linesOf a n := by
  refine List.mem_map.mpr ⟨lineOf p - a / 128, List.mem_range.mpr ?_, ?_⟩ <;> unfold lineOf <;> omega

/-- One store over a location. -/
theorem storedOver_one (a : Nat) (bs : List Byte) (p : Nat) (old : Byte) :
    storedOver [(a, bs)] p old = if a ≤ p ∧ p < a + bs.length then bs.getD (p - a) old else old := rfl

/-- Bytes put over lines that have taken the writer's key read back under it, and no other byte changes. -/
theorem State.readByte_put_rekeyed (s : State) (k a : Nat) (bs : List Byte)
    (hm : u.mem = Memory.put ((linesOf a bs.length).foldl (fun t l => t.rekeyLine (some k) l) s).mem a bs)
    (hl : u.lineKey = ((linesOf a bs.length).foldl (fun t l => t.rekeyLine (some k) l) s).lineKey) (p : Nat) :
    u.readByte (some k) p = storedOver [(a, bs)] p (s.readByte (some k) p) := by
  have hkey (m : Nat) : u.keyOfLine m = if m ∈ linesOf a bs.length then some k else s.keyOfLine m := by
    rw [← State.keyOfLine_rekeyLines, State.keyOfLine, hl, State.keyOfLine]
  rw [storedOver_one]
  split
  · next h =>
    rw [State.readByte_of_key (by rw [hkey, if_pos (mem_linesOf h)]), hm, Memory.get_put, if_pos h,
      List.getD_eq_getElem _ _ (by omega), List.getD_eq_getElem]
  · next h =>
    rw [← State.readByte_rekeyLines s k (linesOf a bs.length)]
    have hout : Memory.get u.mem p = Memory.get ((linesOf a bs.length).foldl (fun t l => t.rekeyLine (some k) l) s).mem p := by
      rw [hm, Memory.get_put, if_neg h]
    simp only [State.readByte, State.keyOfLine, hout, hl]

/-- The undo log's own lines are not in memory, nor are they keyed. -/
theorem State.undoLine_lineKey (s : State) (v : Nat) (bound : Bool) (a : Nat) (bs : List Byte) (l : Nat) :
    (s.undoLine v bound a bs l).lineKey = s.lineKey := by
  unfold State.undoLine
  split
  · rfl
  · split <;> rfl

theorem State.readByte_undoLines (s : State) (v : Nat) (bound : Bool) (a : Nat) (bs : List Byte) (ls : List Nat) (key : Option Nat)
    (p : Nat) : (ls.foldl (fun t l => t.undoLine v bound a bs l) s).readByte key p = s.readByte key p := by
  induction ls generalizing s with
  | nil => rfl
  | cons l ls ih =>
    rw [List.foldl_cons, ih, State.readByte_congr (State.undoLine_mem ..) (State.undoLine_lineKey ..)]

/-- The key under which a function writes is one, and not the absence of a tag. -/
theorem State.keyTag_eq_some (s : State) (v : Nat) : ∃ k, s.keyTag v = some k := by
  unfold State.keyTag
  split <;> exact ⟨_, rfl⟩

/-- A write for a function reads back under the function's key. -/
theorem State.readByte_writePhys (s : State) (v : Nat) (bound : Bool) (a : Nat) (bs : List Byte) (p : Nat) :
    (s.writePhys (some v) bound a bs).readByte (s.keyTag v) p = storedOver [(a, bs)] p (s.readByte (s.keyTag v) p) := by
  obtain ⟨k, hk⟩ := s.keyTag_eq_some v
  rw [hk]
  cases bs with
  | nil => rw [storedOver_one, if_neg (by simp)]; rfl
  | cons b bs =>
    by_cases ht : s.timeSliced v
    · rw [← State.readByte_undoLines s v bound a (b :: bs) (linesOf a (b :: bs).length)]
      refine State.readByte_put_rekeyed _ k a (b :: bs) ?_ ?_ p <;>
        simp [State.writePhys, State.forget, State.putPhys, ht, hk]
    · refine State.readByte_put_rekeyed _ k a (b :: bs) ?_ ?_ p <;>
        simp [State.writePhys, State.forget, State.putPhys, ht, hk]

/-- An untagged write reads back untagged. -/
theorem State.readByte_writePhys_untagged (s : State) (bound : Bool) (a : Nat) (bs : List Byte) (p : Nat) :
    (s.writePhys none bound a bs).readByte none p = storedOver [(a, bs)] p (s.readByte none p) := by
  rw [State.readByte_untagged, State.readByte_untagged]
  cases bs with
  | nil => rw [storedOver_one, if_neg (by simp)]; rfl
  | cons b bs =>
    refine State.readByte_put_rekeyed s deviceKey a (b :: bs) ?_ ?_ p <;> simp [State.writePhys, State.forget, State.putPhys]

end

end Sys2Proof.Machine

/-! Proofs: requests to the loader and the steward, and a container's load (R83–R88, R161, R376, R387). -/

namespace Sys2Proof.Machine

/-- What a container's load may change only where R88 says so: the slices and, of every chip, the loader's request, the kernel table and the
key. A change that writes memory, fills TLBs or maps a page keeps them. -/
structure State.KeepsLoader (s t : State) : Prop where
  slices : t.slices = s.slices
  loader (v : Nat) : (t.chip v).loader = (s.chip v).loader
  kernels (v : Nat) : (t.chip v).kernels = (s.chip v).kernels
  keyId (v : Nat) : (t.chip v).keyId = (s.chip v).keyId

section
variable {s t u : State}

/-! ### What keeps the loader's part of the chips -/

theorem State.KeepsLoader.refl (s : State) : s.KeepsLoader s := ⟨rfl, fun _ => rfl, fun _ => rfl, fun _ => rfl⟩

theorem State.KeepsLoader.trans (h : s.KeepsLoader t) (g : t.KeepsLoader u) : s.KeepsLoader u where
  slices := g.slices.trans h.slices
  loader v := (g.loader v).trans (h.loader v)
  kernels v := (g.kernels v).trans (h.kernels v)
  keyId v := (g.keyId v).trans (h.keyId v)

theorem State.KeepsLoader.of_chips (hs : t.slices = s.slices) (hc : t.chips = s.chips) : s.KeepsLoader t := by
  have h (v : Nat) : t.chip v = s.chip v := by rw [State.chip, hc, State.chip]
  exact ⟨hs, fun v => by rw [h], fun v => by rw [h], fun v => by rw [h]⟩

theorem State.KeepsLoader.modChip (s : State) (v : Nat) (f : Chip → Chip) (hl : (f (s.chip v)).loader = (s.chip v).loader)
    (hk : (f (s.chip v)).kernels = (s.chip v).kernels) (hi : (f (s.chip v)).keyId = (s.chip v).keyId) : s.KeepsLoader (s.modChip v f) := by
  have h (n : Nat) : (s.modChip v f).chip n = if n = v then f (s.chip v) else s.chip n := by
    split
    · next e => rw [e, State.modChip_chip_self]
    · next e => rw [State.modChip_chip_other _ _ e]
  refine ⟨rfl, fun n => ?_, fun n => ?_, fun n => ?_⟩ <;> rw [h] <;> split <;> simp_all

theorem State.KeepsLoader.foldl {β : Type} {f : State → β → State} (hf : ∀ (t : State) b, t.KeepsLoader (f t b)) (l : List β)
    (s : State) : s.KeepsLoader (l.foldl f s) := by
  induction l generalizing s with
  | nil => exact .refl s
  | cons b l ih => exact (hf s b).trans (ih _)

theorem State.keepsLoader_undoLine (s : State) (v : Nat) (bound : Bool) (a : Nat) (bs : List Byte) (l : Nat) :
    s.KeepsLoader (s.undoLine v bound a bs l) := by
  unfold State.undoLine
  split
  · exact .modChip _ _ _ rfl rfl rfl
  · split
    · exact .refl s
    · refine .modChip _ _ _ ?_ ?_ ?_ <;> rw [Chip.capture] <;> split <;> rfl

theorem State.keepsLoader_rekeyLine (s : State) (key : Option Nat) (l : Nat) : s.KeepsLoader (s.rekeyLine key l) := by
  unfold State.rekeyLine
  split
  · exact .refl s
  · split <;> exact .of_chips rfl rfl

theorem State.keepsLoader_writePhys (s : State) (vf : Option Nat) (bound : Bool) (a : Nat) (bs : List Byte) :
    s.KeepsLoader (s.writePhys vf bound a bs) := by
  have put : s.KeepsLoader (s.putPhys vf bound a bs) := by
    unfold State.putPhys
    split
    · exact .refl s
    · refine .trans (.trans ?_ (.foldl (fun t l => t.keepsLoader_rekeyLine _ l) _ _)) (.of_chips rfl rfl)
      cases vf with
      | none => exact .refl s
      | some v =>
        dsimp only
        split
        · exact .foldl (fun t l => t.keepsLoader_undoLine v bound a bs l) _ s
        · exact .refl s
  exact put.trans (.of_chips rfl rfl)

theorem State.keepsLoader_fillDieTlb (s : State) (die : Nat) (used : List TlbEntry) : s.KeepsLoader (s.fillDieTlb die used) :=
  .of_chips (State.modDie_slices ..) (State.modDie_chips ..)

theorem State.keepsLoader_qcPut (s : State) (v die : Nat) (bound : Bool) (ps : List (Nat × Nat × List TlbEntry)) (bs : List Byte) :
    s.KeepsLoader (s.qcPut v die bound ps bs) := by
  induction ps generalizing s bs with
  | nil => exact .refl s
  | cons p ps ih =>
    obtain ⟨pa, n, used⟩ := p
    exact ((s.keepsLoader_fillDieTlb die used).trans (State.keepsLoader_writePhys ..)).trans (ih _ _)

theorem State.keepsLoader_loadResult (s : State) (v : Nat) (resaddr : Word64) (code index : Nat) :
    s.KeepsLoader (s.loadResult v resaddr code index) := by
  unfold State.loadResult State.qcWrite
  cases s.qcPieces v ((s.diesOf v).headD 0) 99200 .write (cutPages resaddr.toNat (leBytes 16 (code + index * 2 ^ 32)).length) with
  | error e => exact .refl s
  | ok ps => exact s.keepsLoader_qcPut ..

/-! ### What an installation leaves (R85, R88) -/

theorem State.keepsLoader_writeIpa (s : State) (v ipa : Nat) (bs : List Byte) : s.KeepsLoader (s.writeIpa v ipa bs) := by
  unfold State.writeIpa
  split
  · exact .refl s
  · exact s.keepsLoader_writePhys ..

theorem State.keepsLoader_mapPage (s : State) (v kind a ipa : Nat) (bs : List Byte) : s.KeepsLoader (s.mapPage v kind a ipa bs) := by
  unfold State.mapPage
  dsimp only
  split
  · exact s.keepsLoader_writeIpa ..
  · exact (s.keepsLoader_writeIpa ..).trans (State.keepsLoader_writePhys ..)

theorem State.keepsLoader_mapSegment (s : State) (v : Nat) (c : List Byte) (x : Nat × Nat × SegEntry) :
    s.KeepsLoader (s.mapSegment v c x) := by
  have cores (t : State) (k : Table Core) : t.KeepsLoader { t with cores := k } := .of_chips rfl rfl
  unfold State.mapSegment
  exact .trans (.foldl (fun t _ => t.keepsLoader_mapPage ..) _ s) (cores _ _)

/-- An extension of the attestation record changes nothing else of a chip. -/
theorem Chip.extend_eq (c : Chip) (d : BitVec 384) : ∃ a, c.extend d = { c with att := a } := ⟨_, rfl⟩

theorem Chip.foldl_extend (c : Chip) (es : List SegEntry) : ∃ a, es.foldl (fun g e => g.extend e.meas) c = { c with att := a } := by
  induction es generalizing c with
  | nil => exact ⟨c.att, rfl⟩
  | cons e es ih =>
    obtain ⟨a, h⟩ := c.extend_eq e.meas
    rw [List.foldl_cons, h]
    exact ih { c with att := a }

/-- An installation before its launch records: the attestation record and the segments. -/
def State.mapSegments (s : State) (v : Nat) (c : List Byte) (es : List SegEntry) (places : List (Nat × Nat)) : State :=
  (placed es places).foldl (fun t x => t.mapSegment v c x) (s.modChip v (fun h =>
    es.foldl (fun g e => g.extend e.meas) (h.extend (BitVec.ofNat 384 (le c 16 48)))))

theorem State.keepsLoader_mapSegments (s : State) (v : Nat) (c : List Byte) (es : List SegEntry) (places : List (Nat × Nat)) :
    s.KeepsLoader (s.mapSegments v c es places) := by
  obtain ⟨a, h⟩ := (s.chip v).extend_eq (BitVec.ofNat 384 (le c 16 48))
  obtain ⟨b, e⟩ := Chip.foldl_extend { s.chip v with att := a } es
  refine .trans (.modChip s v _ ?_ ?_ ?_) (.foldl (fun t x => t.keepsLoader_mapSegment v c x) _ _) <;> rw [h, e]

/-- An installation leaves the slices and the loader's request, and puts the relocated records into the kernel table. -/
theorem State.install_spec (s : State) (v : Nat) (c : List Byte) (es : List SegEntry) (places : List (Nat × Nat)) :
    (s.install v c es places).slices = s.slices ∧ ((s.install v c es places).chip v).loader = (s.chip v).loader
    ∧ ((s.install v c es places).chip v).kernels = putFrom (s.chip v).kernels (s.chip v).kernels.length
        ((recordsOf es c).map (fun r =>
          relocate r (firstAt (placed es places) 1) (firstAt (placed es places) 5) (firstAt (placed es places) 6))) := by
  have keep := s.keepsLoader_mapSegments v c es places
  obtain ⟨m, e⟩ : ∃ m : Table (BitVec 384), s.install v c es places = (s.mapSegments v c es places).modChip v (fun h =>
      { h with
        kernels := putFrom h.kernels h.kernels.length ((recordsOf es c).map (fun r =>
          relocate r (firstAt (placed es places) 1) (firstAt (placed es places) 5) (firstAt (placed es places) 6)))
        kmeas := m }) := ⟨_, rfl⟩
  rw [e, State.modChip_chip_self]
  exact ⟨keep.slices, keep.loader v, by rw [← keep.kernels v]⟩

/-! ### The result word (R387) -/

/-- An aligned 16-byte range lies in one page. -/
theorem cutPages_aligned {a : Nat} (h : a % 16 = 0) : cutPages a 16 = [(a, 16)] := by
  have one : (a + 16 - 1) / 65536 + 1 - a / 65536 = 1 := by omega
  have lo : max a (a / 65536 * 65536) = a := by omega
  have hi : min (a + 16) ((a / 65536 + 1) * 65536) - a = 16 := by omega
  rw [cutPages, if_neg (by decide), one]
  simp [lo, hi]

/-- A result word whose address is translated is the one change of memory. -/
theorem State.readByte_loadResult {v : Nat} {res : Word64} {x : Xlat} (code index : Nat) (hr : res.toNat % 16 = 0)
    (ha : res.toNat < 0x7FFFFF0000000000)
    (hx : s.translate v (s.die ((s.diesOf v).headD 0)).tlb 99200 res.toNat .write = .ok x) (p : Nat) :
    (s.loadResult v res code index).readByte (s.keyTag v) p
      = storedOver [(x.pa, leBytes 16 (code + index * 2 ^ 32))] p (s.readByte (s.keyTag v) p) := by
  have hv : isVirtual res.toNat = true := decide_eq_true ha
  have ht : (leBytes 16 (code + index * 2 ^ 32)).take 16 = leBytes 16 (code + index * 2 ^ 32) := take_leBytes _ (Nat.le_refl 16)
  have e : s.loadResult v res code index = (s.fillDieTlb ((s.diesOf v).headD 0) x.used).writePhys (some v) true x.pa
      (leBytes 16 (code + index * 2 ^ 32)) := by
    simp only [State.loadResult, State.qcWrite, length_leBytes, cutPages_aligned hr, State.qcPieces, hv, if_true, hx, State.qcPut, ht]
  have tag : s.keyTag v = (s.fillDieTlb ((s.diesOf v).headD 0) x.used).keyTag v := by
    simp only [State.keyTag, (s.keepsLoader_fillDieTlb _ _).keyId]
  rw [e, tag, State.readByte_writePhys, State.fillDieTlb,
    State.readByte_congr (State.modDie_mem ..) (State.modDie_lineKey ..)]

end

/-! ### The claims -/

theorem loaderRequests : Claims.LoaderRequests := by
  intro s f hf
  change execLoaderRequest (.vf f) s = _
  simp only [execLoaderRequest, hf, if_true, State.modLoader]
  rfl

theorem containerLoads : Claims.ContainerLoads := by
  intro s f places a len res c hjob hread s0 code es
  have job : (s0.chip f.val).loader.job = none := by rw [State.modChip_chip_self]
  have kernels : (s0.chip f.val).kernels = (s.chip f.val).kernels := by rw [State.modChip_chip_self]
  have tag : s0.keyTag f.val = s.keyTag f.val := by simp only [State.keyTag, s0, State.modChip_chip_self]
  have load : exec (.containerLoad f places) s =
      if code ≠ 0 then .next (s0.loadResult f.val res code 0)
      else if s.reserveOk f.val es places (recordsOf es c).length then
        .next ((s0.install f.val c es places).loadResult f.val res 0
          (if (recordsOf es c).isEmpty then 0 else (s.chip f.val).kernels.length))
      else .next (s0.loadResult f.val res 5 0) := by
    change execContainerLoad f places s = _
    simp only [execContainerLoad, hjob, hread]
    rfl
  constructor
  · intro x hcode hr ha hx
    have keep := s0.keepsLoader_loadResult f.val res code 0
    refine ⟨_, by rw [load, if_pos hcode], by rw [keep.loader, job], by rw [keep.kernels, kernels], keep.slices, fun p => ?_⟩
    have bytes := State.readByte_loadResult code 0 hr ha hx p
    rw [tag, Nat.zero_mul, Nat.add_zero] at bytes
    exact bytes
  · intro hcode hok
    let u := s0.install f.val c es places
    obtain ⟨slices, loader, records⟩ := s0.install_spec f.val c es places
    have keep := u.keepsLoader_loadResult f.val res 0 (if (recordsOf es c).isEmpty then 0 else (s.chip f.val).kernels.length)
    refine ⟨_, by rw [load, if_neg (not_not_intro hcode), if_pos hok], by rw [keep.loader, loader, job], keep.slices.trans slices,
      by rw [keep.kernels, records, kernels], fun x hr ha hx p => ?_⟩
    rw [State.readByte_loadResult 0 _ hr ha hx, Nat.zero_add, Nat.mul_comm]

/-- A die of a function is one of the four. -/
theorem State.headD_diesOf_lt (s : State) (v : Nat) : (s.diesOf v).headD 0 < 4 := by
  cases h : s.diesOf v with
  | nil => decide
  | cons d ds =>
    have hd : d ∈ s.diesOf v := by rw [h]; exact List.mem_cons_self
    exact List.mem_range.mp (List.mem_filter.mp hd).1

theorem State.writePhys_untagged_dies (s : State) (bound : Bool) (a : Nat) (bs : List Byte) :
    (s.writePhys none bound a bs).dies = s.dies := by
  have rekey (t : State) (key : Option Nat) (l : Nat) : (t.rekeyLine key l).dies = t.dies := by
    unfold State.rekeyLine
    split
    · rfl
    · split <;> rfl
  have fold (ls : List Nat) (key : Option Nat) : (ls.foldl (fun t l => t.rekeyLine key l) s).dies = s.dies :=
    ls.foldlRecOn _ (motive := fun t => t.dies = s.dies) rfl fun t ht l _ => (rekey t key l).trans ht
  unfold State.writePhys State.putPhys
  split
  · rfl
  · exact fold _ _

/-- The virtual function of a steward request's context (R376). -/
theorem fld_stewardVf (x : BitVec 8) : fld x 5 0 = (x.extractLsb' 0 6).toNat := by
  simp [fld, bits]

/-- Whether a steward request's context is a virtual function's (R376). -/
theorem fld_stewardOwn_eq_one (x : BitVec 8) : fld x 7 7 = 1 ↔ x.getLsbD 7 = true := by
  simp [fld, bits, BitVec.getLsbD, Nat.testBit_eq_decide_div_mod_eq]

theorem stewardRequests : Claims.StewardRequests := by
  refine ⟨fun s hb => ?_, fun s hb => ⟨fun busy => ?_, fun busy refused => ?_, fun busy refused => ?_⟩⟩
  · change Host.Outcome.next s.stewardGo = _
    simp [State.stewardGo, hb]
  · change Host.Outcome.next s.stewardGo = _
    simp [State.stewardGo, busy]
  · have go : s.stewardGo = s.writePhys none true s.dev.steward.resaddr.toNat (leBytes 16 5) := by
      simp [State.stewardGo, busy, hb, refused]
    refine ⟨_, congrArg Host.Outcome.next go, State.writePhys_untagged_dies .., fun p => State.readByte_writePhys_untagged ..⟩
  · let d := s.dev.steward
    let die := if d.ctx.getLsbD 7 then (s.diesOf (d.ctx.extractLsb' 0 6).toNat).headD 0 else 0
    have go : s.stewardGo = (s.modDie die (fun x => { x with steward := x.steward ++ [stewardPacket d] })).modDev (fun v =>
        { v with steward := { v.steward with busy := true, result := v.steward.resaddr } }) := by
      simp [State.stewardGo, busy, hb, refused, fld_stewardVf, fld_stewardOwn_eq_one, die, d]
    have four : die < 4 := by
      unfold die
      split
      · exact s.headD_diesOf_lt _
      · decide
    have at_die (n : Nat) := s.modDie_die die (fun x => { x with steward := x.steward ++ [stewardPacket d] }) n
    refine ⟨_, congrArg Host.Outcome.next go, State.modDie_mem .., ?_, ?_, fun n hn => ?_⟩
    · rw [State.modDev_dev, State.modDie_dev]
    · change (State.die (State.modDie s die _) die).steward = _
      rw [at_die, if_pos ⟨rfl, four⟩]
    · change State.die (State.modDie s die _) n = _
      rw [at_die, if_neg fun h => hn h.1]

/-- Settles O56: the loader's requests, a container's load and the steward's requests, by one lemma each. -/
theorem loaderAndSteward : Obligations.LoaderAndSteward := ⟨loaderRequests, containerLoads, stewardRequests⟩

end Sys2Proof.Machine

/-! Proofs: scalar words write their rule's value, and scalar compares push their result (R94–R100). -/

namespace Sys2Proof.Machine

/-! ### Values of 64 bits (R33, R94–R97) -/

/-- An exact result, clamped or wrapped (R33, R94). -/
theorem res64_eq (sat : Bool) (v : Int) : res64 sat v = if sat then satWord v else BitVec.ofInt 64 v := by
  cases sat <;> rfl

theorem addS_eq (sat : Bool) (a b : Word64) : addS sat a b = if sat then satWord (a.toInt + b.toInt) else a + b := by
  rw [addS, res64_eq, sgn, sgn, BitVec.ofInt_add, BitVec.ofInt_toInt, BitVec.ofInt_toInt]

theorem subS_eq (sat : Bool) (a b : Word64) : subS sat a b = if sat then satWord (a.toInt - b.toInt) else a - b := by
  rw [subS, res64_eq, sgn, sgn, Int.sub_eq_add_neg, BitVec.ofInt_add, BitVec.ofInt_neg, BitVec.ofInt_toInt, BitVec.ofInt_toInt,
    BitVec.sub_eq_add_neg]

theorem mulS_eq (sat : Bool) (a b : Word64) : mulS sat a b = if sat then satWord (a.toInt * b.toInt) else a * b := by
  rw [mulS, res64_eq, sgn, sgn, BitVec.ofInt_mul, BitVec.ofInt_toInt, BitVec.ofInt_toInt]

theorem ofInt_natAbs (a : Word64) : BitVec.ofInt 64 a.toInt.natAbs = if a.msb then -a else a := by
  rw [← BitVec.abs_eq]
  refine BitVec.eq_of_toNat_eq ?_
  have := a.isLt
  rw [BitVec.toNat_abs, BitVec.msb_eq_decide, BitVec.ofInt_natCast, BitVec.toNat_ofNat, BitVec.toInt_eq_toNat_cond]
  simp only [decide_eq_true_eq]
  split_ifs <;> omega

theorem absS_eq (sat : Bool) (a : Word64) : absS sat a = if sat then satWord a.toInt.natAbs else if a.msb then -a else a := by
  rw [absS, res64_eq, sgn, ofInt_natAbs]

/-- The high half of the signed product (R94). -/
theorem mulhS_eq (a b : Word64) : mulhS a b = ((a.signExtend 128 * b.signExtend 128) >>> 64).setWidth 64 := by
  have hp : a.signExtend 128 * b.signExtend 128 = BitVec.ofInt 128 (a.toInt * b.toInt) := by
    rw [BitVec.ofInt_mul, BitVec.signExtend, BitVec.signExtend]
  refine BitVec.eq_of_toNat_eq ?_
  rw [hp, mulhS, sgn, sgn]
  generalize a.toInt * b.toInt = x
  simp only [BitVec.toNat_ofInt, BitVec.toNat_setWidth, BitVec.toNat_ushiftRight, Nat.shiftRight_eq_div_pow]
  norm_num
  omega

/-- The high half of the unsigned product (R94). -/
theorem mulhN_eq (a b : Word64) : mulhN a b = ((a.setWidth 128 * b.setWidth 128) >>> 64).setWidth 64 := by
  have ha := Nat.mod_eq_of_lt (a.isLt.trans (by decide : 2 ^ 64 < 2 ^ 128))
  have hb := Nat.mod_eq_of_lt (b.isLt.trans (by decide : 2 ^ 64 < 2 ^ 128))
  have hp := Nat.mod_eq_of_lt ((Nat.mul_lt_mul'' a.isLt b.isLt).trans_eq (pow_add 2 64 64).symm)
  refine BitVec.eq_of_toNat_eq ?_
  rw [mulhN, BitVec.toNat_ofNat, BitVec.toNat_setWidth, BitVec.toNat_ushiftRight, BitVec.toNat_mul, BitVec.toNat_setWidth,
    BitVec.toNat_setWidth, ha, hb, hp, Nat.shiftRight_eq_div_pow]

theorem minS_eq (a b : Word64) : minS a b = if b.slt a then b else a := if_congr decide_eq_true_iff.symm rfl rfl
theorem maxS_eq (a b : Word64) : maxS a b = if a.slt b then b else a := if_congr decide_eq_true_iff.symm rfl rfl
theorem minN_eq (a b : Word64) : minN a b = if b.ult a then b else a := if_congr decide_eq_true_iff.symm rfl rfl
theorem maxN_eq (a b : Word64) : maxN a b = if a.ult b then b else a := if_congr decide_eq_true_iff.symm rfl rfl

theorem clampS_eq (n : Bool) (a b e : Word64) :
    clampS n a b e =
      let lt (x y : Word64) : Bool := if n then x.ult y else x.slt y
      let m := if lt a b then b else a
      if lt e m then e else m := by
  cases n
  · simp only [clampS, minS_eq, maxS_eq, Bool.false_eq_true, if_false]
  · simp only [clampS, minN_eq, maxN_eq, if_true]

theorem shlS_eq (a : Word64) (n : Nat) : shlS a n = a <<< n :=
  BitVec.eq_of_toNat_eq (by simp [shlS, Nat.shiftLeft_eq])

theorem shrS_eq (a : Word64) (n : Nat) : shrS a n = a >>> n := by
  rw [shrS, ← Nat.shiftRight_eq_div_pow, ← BitVec.toNat_ushiftRight, BitVec.ofNat_toNat, BitVec.setWidth_eq]

theorem sraS_eq (a : Word64) (n : Nat) : sraS a n = a.sshiftRight n := by
  rw [sraS, sgn, BitVec.sshiftRight_eq, Int.shiftRight_eq_div_pow]
  simp

/-- Rotation joins the two parts, which do not meet (R94). -/
theorem rotS_eq (a : Word64) {n : Nat} (h : n < 64) : rotS a n = a.rotateRight n := by
  have hw : 2 ^ 64 = 2 ^ n * 2 ^ (64 - n) := by rw [← pow_add, Nat.add_sub_cancel' h.le]
  have hhi : a.toNat / 2 ^ n < 2 ^ (64 - n) := Nat.div_lt_of_lt_mul (a.isLt.trans_eq hw)
  have hlo : a.toNat % 2 ^ n < 2 ^ n := Nat.mod_lt _ (by positivity)
  have hlt : a.toNat / 2 ^ n + a.toNat % 2 ^ n * 2 ^ (64 - n) < 2 ^ 64 := by
    have := Nat.mul_le_mul_right (2 ^ (64 - n)) (Nat.succ_le_of_lt hlo)
    rw [← hw, Nat.succ_mul] at this
    omega
  refine BitVec.eq_of_toNat_eq ?_
  rw [BitVec.rotateRight_def, Nat.mod_eq_of_lt h, rotS, BitVec.toNat_ofNat, Nat.mod_eq_of_lt hlt, BitVec.toNat_or, BitVec.toNat_ushiftRight,
    BitVec.toNat_shiftLeft, Nat.shiftRight_eq_div_pow, Nat.shiftLeft_eq]
  conv_rhs => rw [hw, Nat.mul_mod_mul_right, Nat.or_comm, ← Nat.shiftLeft_eq, ← Nat.shiftLeft_add_eq_or_of_lt hhi, Nat.shiftLeft_eq]
  exact Nat.add_comm _ _

/-- A pod address is put together from its fields (R8, R96). -/
theorem podAddress_eq (a b : Word64) : BitVec.ofNat 64 (2 ^ 63 + b.toNat % 2 ^ 12 * 2 ^ 44 + a.toNat % 2 ^ 44)
    = (1#64 <<< 63) ||| ((b &&& 0xFFF#64) <<< 44) ||| (a &&& 0xFFFFFFFFFFF#64) := by
  have ha : (a &&& 0xFFFFFFFFFFF#64).toNat = a.toNat % 2 ^ 44 := Nat.and_two_pow_sub_one_eq_mod a.toNat 44
  have hb : (b &&& 0xFFF#64).toNat = b.toNat % 2 ^ 12 := Nat.and_two_pow_sub_one_eq_mod b.toNat 12
  have hx : a.toNat % 2 ^ 44 < 2 ^ 44 := Nat.mod_lt _ (by decide)
  have hy : b.toNat % 2 ^ 12 < 2 ^ 12 := Nat.mod_lt _ (by decide)
  refine BitVec.eq_of_toNat_eq ?_
  rw [BitVec.toNat_or, BitVec.toNat_or, BitVec.toNat_shiftLeft, BitVec.toNat_shiftLeft, ha, hb, BitVec.toNat_ofNat]
  generalize a.toNat % 2 ^ 44 = x at hx
  generalize b.toNat % 2 ^ 12 = y at hy
  have hm : y <<< 44 % 2 ^ 64 = y <<< 44 := Nat.mod_eq_of_lt (by rw [Nat.shiftLeft_eq]; omega)
  have h1 : BitVec.toNat 1#64 <<< 63 % 2 ^ 64 = 1 <<< 63 := rfl
  rw [hm, h1, Nat.or_assoc, ← Nat.shiftLeft_add_eq_or_of_lt hx, ← Nat.shiftLeft_add_eq_or_of_lt (by rw [Nat.shiftLeft_eq]; omega),
    Nat.shiftLeft_eq, Nat.shiftLeft_eq]
  omega

theorem lea_eq (pod : Bool) (k : Nat) (a b : Word64) :
    lea pod k a b = if pod then (1#64 <<< 63) ||| ((b &&& 0xFFF#64) <<< 44) ||| (a &&& 0xFFFFFFFFFFF#64) else a + (b <<< k) := by
  rw [lea, podAddress_eq]
  congr 1
  exact BitVec.eq_of_toNat_eq (by simp [Nat.shiftLeft_eq])

theorem k16s_toInt (i : BitVec 16) : (k16s i).toInt = i.toInt := BitVec.toInt_signExtend_of_le (by decide)
theorem k16z_eq (i : BitVec 16) : k16z i = i.setWidth 64 := BitVec.ofNat_toNat _ _

/-- SMOVKH replaces the high half (R100). -/
theorem movkh_eq (i : BitVec 32) (x : Word64) :
    BitVec.ofNat 64 (i.toNat * 2 ^ 32 + x.toNat % 2 ^ 32) = (i.setWidth 64 <<< 32) ||| (x &&& 0xFFFFFFFF#64) := by
  have hx : (x &&& 0xFFFFFFFF#64).toNat = x.toNat % 2 ^ 32 := Nat.and_two_pow_sub_one_eq_mod x.toNat 32
  have hi : (i.setWidth 64 <<< 32).toNat = i.toNat <<< 32 := by
    have := i.isLt
    rw [BitVec.toNat_shiftLeft, BitVec.toNat_setWidth_of_le (by decide), Nat.mod_eq_of_lt (by rw [Nat.shiftLeft_eq]; omega)]
  refine BitVec.eq_of_toNat_eq ?_
  have hlt : i.toNat * 2 ^ 32 + x.toNat % 2 ^ 32 < 2 ^ 64 := by
    have := i.isLt
    omega
  rw [BitVec.toNat_or, hx, hi, ← Nat.shiftLeft_add_eq_or_of_lt (Nat.mod_lt _ (by decide)), BitVec.toNat_ofNat, Nat.mod_eq_of_lt hlt,
    Nat.shiftLeft_eq]

/-! Bit words of 64 bits are the vector words' of format N64 (R95, R130). -/

theorem clz_word (a : Word64) : clz 64 a.toNat = ((List.range 64).find? (fun i => a.getMsbD i)).getD 64 := by
  simp [clz_eq]
theorem popc_word (a : Word64) : popc 64 a.toNat = (List.range 64).countP (fun i => a.getLsbD i) := by
  simp [popc_eq]
theorem ctz_word (a : Word64) : ctz 64 a.toNat = ((List.range 64).find? (fun i => a.getLsbD i)).getD 64 := by
  simp only [ctz, testBit_eq]; rfl
theorem bvAt_n64 (a : Word64) : bvAt .n64 a.toNat = a := BitVec.eq_of_toNat_eq (bvAt_toNat a.isLt)
theorem brev_word (a : Word64) : BitVec.ofNat 64 (brev 64 a.toNat) = a.reverse := by
  have h := brev_eq .n64 a.toNat
  rw [bvAt_n64] at h
  exact (congrArg (BitVec.ofNat 64) h).trans ((BitVec.ofNat_toNat _ _).trans (BitVec.setWidth_eq _))

/-- A field of a register (R95). -/
theorem bfx_word (signed : Bool) (a : Word64) (p len : Nat) :
    BitVec.ofNat 64 (bfx 64 signed a.toNat p len) = if signed then ((a >>> p).setWidth (min len (64 - p))).signExtend 64
      else ((a >>> p).setWidth (min len (64 - p))).setWidth 64 := by
  have h := bfx_eq (f := .n64) a.isLt signed p len
  rw [bvAt_n64] at h
  refine (congrArg (BitVec.ofNat 64) h).trans ?_
  cases signed
  · exact BitVec.ofNat_toNat _ _
  · exact (BitVec.ofNat_toNat _ _).trans (BitVec.setWidth_eq _)

/-- A field of a register is replaced (R95). -/
theorem bfi_word (a b : Word64) {p : Nat} (len : Nat) (hp : p < 64) :
    BitVec.ofNat 64 (bfi 64 b.toNat a.toNat p len) =
      (b &&& ~~~(onesAt p (min len (64 - p)))) ||| ((a <<< p) &&& onesAt p (min len (64 - p))) := by
  have h := bfi_eq (f := .n64) a.toNat p len b.isLt hp
  rw [bvAt_n64, bvAt_n64] at h
  exact (congrArg (BitVec.ofNat 64) h).trans ((BitVec.ofNat_toNat _ _).trans (BitVec.setWidth_eq _))

/-- A register's low bits, extended (R95). -/
theorem ssext_word (z : Bool) (a : Word64) (n : Nat) :
    (if z then BitVec.ofNat 64 (zext a.toNat n) else BitVec.ofInt 64 (sext a.toNat n))
      = if z then (a.setWidth n).setWidth 64 else (a.setWidth n).signExtend 64 := by
  cases z
  · rw [sext_eq_toInt, BitVec.ofNat_toNat]; rfl
  · rw [zext, ← BitVec.toNat_setWidth, BitVec.ofNat_toNat]; rfl

theorem condHolds_eq {k : Cond} {a b : Word64} {r : Bool} (h : condRule k a b = some r) : condHolds k a b = r := by
  cases k <;> cases h <;> rfl

/-! ### The words -/

section
variable {s : State} {c : Ctx}

/-- A scalar word whose guard passes, by the value it has for a slice at rest (R22, R29). -/
theorem AtRest.scalarWord_value (h : AtRest s c) {k : Ctl} (hg : c.x.guardScalar k.guard = true) (d : SReg) {f : Ctx → Word64}
    {v : Word64} (hv : f c = v) : Machine.scalarWord s k d f = .next (s.withSlice (c.next.withS d v)) := by
  rw [h.scalarWord, if_pos hg, hv]

theorem AtRest.arithRule_exec (h : AtRest s c) {i : Instr} {k : Ctl} {d : SReg} {v : Word64} (hr : c.arithRule i = some (k, d, v))
    (hg : c.x.guardScalar k.guard = true) : exec i s = .next (s.withSlice (c.next.withS d v)) := by
  unfold Ctx.arithRule at hr
  split at hr <;> cases hr
  all_goals refine h.scalarWord_value hg _ ?_
  -- SLEAPC reads no register; an immediate form is its register form on the widened immediate.
  case h_17.refl => rfl
  all_goals simp only [h.src, h.rdS]
  case h_1.refl => exact addS_eq ..
  case h_12.refl => rw [addS_eq, k16s_toInt]; rfl
  case h_2.refl => exact subS_eq ..
  case h_3.refl => exact mulS_eq ..
  case h_13.refl => rw [mulS_eq, k16s_toInt]; rfl
  case h_4.refl => exact mulhS_eq ..
  case h_5.refl => exact mulhN_eq ..
  case h_6.refl | h_14.refl => exact minS_eq ..
  case h_7.refl | h_15.refl => exact maxS_eq ..
  case h_8.refl | h_9.refl | h_16.refl => rfl
  case h_10.refl => exact absS_eq ..
  case h_11.refl => exact clampS_eq ..
  case h_18.refl => exact lea_eq ..

theorem AtRest.logicRule_exec (h : AtRest s c) {i : Instr} {k : Ctl} {d : SReg} {v : Word64} (hr : c.logicRule i = some (k, d, v))
    (hg : c.x.guardScalar k.guard = true) : exec i s = .next (s.withSlice (c.next.withS d v)) := by
  have hn (b : Word64) : shCount b < 64 := Nat.mod_lt _ (by decide)
  unfold Ctx.logicRule at hr
  split at hr <;> cases hr
  all_goals refine h.scalarWord_value hg _ ?_
  case h_10.refl => rfl
  all_goals simp only [h.src, h.rdS]
  -- SANDI, SORI and SXORI; SMOVKH; the shifts; the counts; the fields. The other rows are the rule's as they stand.
  case h_5.refl | h_6.refl | h_7.refl => rw [k16z_eq]
  case h_11.refl => exact movkh_eq ..
  case h_12.refl | h_16.refl => exact shlS_eq ..
  case h_13.refl | h_17.refl => exact shrS_eq ..
  case h_14.refl | h_18.refl => exact sraS_eq ..
  case h_15.refl => exact rotS_eq _ (hn _)
  case h_19.refl => exact rotS_eq _ (BitVec.isLt _)
  case h_20.refl => rw [clz_word]
  case h_21.refl => rw [ctz_word]
  case h_22.refl => rw [popc_word]
  case h_23.refl => exact brev_word _
  case h_24.refl => exact bfx_word ..
  case h_25.refl => exact bfi_word _ _ _ (hn _)
  case h_26.refl => exact ssext_word ..

/-- A scalar compare of a slice at rest (R98). -/
theorem AtRest.compareWord (h : AtRest s c) (k : Ctl) {f : Ctx → Bool} {r : Bool} (hf : f c = r) :
    regWord s k.m (chkRegs []) (fun x => compareFx x k.guard (f x))
      = .next (s.withSlice { c.next with q := c.x.pushed (c.x.guardScalar k.guard && r) }) := by
  have hp (v : Bool) : (if v then 0xF else 0 : BitVec 4) = laneMask (fun _ => v) := by cases v <;> rfl
  rw [regWord, h.issue_fits c.fits_nil, compareFx, hf, hp, h.done_pushed]

end

theorem scalarResults : Claims.ScalarResults :=
  fun _ _ _ _ _ _ h hr hg => hr.elim (h.arithRule_exec · hg) (h.logicRule_exec · hg)

theorem compareResults : Claims.CompareResults := by
  intro s c i k r h hr
  unfold Ctx.compareRule at hr
  split at hr
  case h_3 => cases hr
  all_goals
    obtain ⟨b, hb, hk⟩ := Option.map_eq_some_iff.mp hr
    cases hk
  · exact h.compareWord _ (by rw [h.src, h.src]; exact condHolds_eq hb)
  · exact h.compareWord _ (by rw [h.src]; exact condHolds_eq hb)

/-- Settles O9: the machine's value of each scalar word is its rule's, and the word writes that alone. -/
theorem scalarWords : Obligations.ScalarWords := ⟨scalarResults, compareResults⟩

end Sys2Proof.Machine

/-! Proofs: branches, calls, returns and NOP (R104–R106, R119). -/

namespace Sys2Proof.Machine

variable {s : State} {c : Ctx}

/-! ### Moving to a target (R27, R30) -/

/-- A slice outside a spliced grid, with nothing outstanding or due, moves to a target, whatever M holds. -/
theorem State.goto_quiet {s : State} {k : Nat} {c : Ctx} (hc : s.ctx k = some c) (hs : c.x.splice = none) (ho : c.x.ops = [])
    (hp : c.x.pend = []) (hd : c.x.poisonDue = []) (target : Word64) (direct m : Bool) :
    s.goto k target direct m = { s with slices := Table.put s.slices k { c.x with pc := target, issued := c.x.issued + 1 } } := by
  obtain ⟨-, -, hx, hb⟩ := State.ctx_eq hc
  have hq := s.parkSlice_quiet { c.x with pc := target, issued := c.x.issued + 1 } ho hp hd
  simp only [State.goto_plain target direct m hx hb hs, hq, ite_self]

/-- The current slice moves to a target once its record has changed to one with nothing outstanding or due. -/
theorem State.goto_withSlice {s : State} {b : Block} (hb : Table.find s.blocks (keyBlock s.cur) = some b) {y : Slice}
    (hs : y.splice = none) (ho : y.ops = []) (hp : y.pend = []) (hd : y.poisonDue = []) (target : Word64) (direct m : Bool) :
    (s.withSlice y).goto s.cur target direct m = s.withSlice { y with pc := target, issued := y.issued + 1 } := by
  rw [State.goto_quiet (State.ctx_of (s.withSlice_find_self y) hb) hs ho hp hd]
  exact State.withSlice_withSlice ..

/-- A slice at rest moves to a target. -/
theorem AtRest.goto_eq (h : AtRest s c) (target : Word64) (direct m : Bool) :
    c.s.goto c.k target direct m = s.withSlice { c.next with pc := target } := by
  rw [h.state, h.key]
  exact State.goto_quiet h.here h.unspliced h.noOps h.noPend h.noReport target direct m

/-! ### The words -/

/-- The target of a BR word is 8 × DISP32 bytes on (R61). -/
theorem Ctx.relative_eq (c : Ctx) (disp : BitVec 32) : c.relative disp = c.x.pc + (disp.signExtend 64 <<< 3) := by
  have e : disp.signExtend 64 <<< 3 = BitVec.ofInt 64 (8 * disp.toInt) := by
    rw [BitVec.ofInt_mul, mul_comm, ← BitVec.signExtend, BitVec.shiftLeft_eq_mul_twoPow]
    rfl
  rw [Ctx.relative, e]

theorem AtRest.branch_eq (h : AtRest s c) (k : Ctl) (disp : BitVec 32) (cond : Ctx → Bool) :
    branch s k disp cond = .next (if c.x.guardScalar k.guard = true ∧ cond c = true then
      s.withSlice { c.next with pc := c.x.pc + (disp.signExtend 64 <<< 3) } else s.withSlice c.next) := by
  rw [branch, h.issue_fits c.fits_nil]
  simp only [Ctx.atLoopBack_unspliced h.unspliced, Bool.false_eq_true, if_false, Bool.and_eq_true, h.goto_eq, h.finish_next,
    c.relative_eq]

/-- A short scalar result of a slice at rest (R29). -/
theorem AtRest.applyTo_short (h : AtRest s c) (d : SReg) (v : Word64) : c.applyTo { sShort := [(d.val, v)] } c.x = c.x.withS d v := by
  simp [Ctx.applyTo, h.physS, State.wrShort_plain _ _ _ _ h.noPend h.noStale, fullWrites, Slice.setS, Slice.withS, d.isLt]

theorem AtRest.call_eq (h : AtRest s c) (k : Ctl) (d : SReg) (disp : BitVec 32) (hg : c.x.guardScalar k.guard = true) :
    exec (.call k d disp) s =
      .next (s.withSlice { c.next.withS d (c.x.pc + 8) with pc := c.x.pc + (disp.signExtend 64 <<< 3) }) := by
  obtain ⟨hs, hk, hx, hb⟩ := State.ctx_eq h.here
  have hm : c.s.modSlice c.k (c.applyTo { sShort := [(d.val, c.x.pc + 8)] }) = s.withSlice (c.x.withS d (c.x.pc + 8)) := by
    rw [State.modSlice, hs, hk, hx]
    exact congrArg s.withSlice (h.applyTo_short d _)
  rw [show exec (.call k d disp) s = _ from h.issue_fits c.fits_nil _]
  simp only [hg, if_true, hm, c.relative_eq]
  rw [hk, State.goto_withSlice hb (y := c.x.withS d (c.x.pc + 8)) h.unspliced h.noOps h.noPend h.noReport]
  rfl

theorem AtRest.jumpTo_eq (h : AtRest s c) (k : Ctl) (a : SSrc) (hg : c.x.guardScalar k.guard = true) (ha : (c.val a).toNat % 8 = 0) :
    jumpTo s k a = .next (s.withSlice { c.next with pc := c.val a }) := by
  rw [jumpTo, h.issue_fits c.fits_nil]
  simp only [hg, if_true, h.src, ha, ne_eq, not_true_eq_false, if_false, h.goto_eq]

theorem branches : Claims.Branches := by
  intro s c k p disp h there
  refine ⟨?_, ?_, ?_, fun d hg => h.call_eq k d disp hg, ?_⟩
  · exact (h.branch_eq k disp _).trans (by simp [there])
  · exact (h.branch_eq k disp _).trans (by simp [there])
  · exact (h.branch_eq k disp _).trans (by simp [there])
  · exact (h.issue_fits c.fits_nil _).trans (by rw [h.done_nothing])

theorem registerJumps : Claims.RegisterJumps :=
  fun _ _ k a h hg ha => ⟨h.jumpTo_eq k a hg ha, h.jumpTo_eq k a hg ha⟩

/-- Settles O12: a slice at rest moves to the target of its branch or call, or goes on, and .PACK has no part in either. -/
theorem jumps : Obligations.Jumps := ⟨branches, registerJumps⟩

end Sys2Proof.Machine

/-! Proofs: a collective into the pod window (R418–R426). -/

namespace Sys2Proof.Machine

/-! ### The counterexample -/

/-- The descriptor of a tile of one FP32 row of two elements at an address. -/
def rowAt (base : Nat) : BitVec 128 :=
  BitVec.ofNat 128 (fmtCode .f32 * 2 ^ 7 + 1 * 2 ^ 12 + 2 * 2 ^ 26 + 8 * 2 ^ 40 + base * 2 ^ 64)
/-- A collective whose destination lies in the pod window, at address 0x180000 of chip 0, and whose source is the scratchpad's first row. -/
def podColl : CollCmd :=
  ⟨0, 0, 0, rowAt (2 ^ 63 + 0x180000), rowAt 0x7FFFFF0000000000, 0, 0x7FFFFF0000000100, 0, 0, [0], some 0⟩
/-- The group of chip 0 alone. -/
def podGroup : Group := ⟨0, 0, [0], 0, []⟩
/-- Chip 0 with that command in its engine; the first byte of its block's scratchpad is 1. -/
def podBusy : State :=
  (((State.reset.placeProgram 0).modChip 0 (fun h =>
    { h with chipTab := [(0, 1)], groups := [(0, podGroup)], colls := [podColl], collCount := [(0, 1)] })).modBlock 0 (fun b =>
      { b with scratch := Sparse.set 0 b.scratch 0 1#8 }))
/-- What its member brings. -/
def podPart : CollPart := podBusy.collPart 0 podColl
/-- The tile of that destination. -/
def podDest : Tile := ⟨.f32, 1, 2, 8, 2 ^ 63 + 0x180000⟩

theorem podColl_in_engine :
    Table.find (podBusy.chip 0).groups 0 = some podGroup
    ∧ (podBusy.chip 0).colls.find? (fun e => e.slot == 0) = some podColl ∧ podBusy.podPaused 0 = false
    ∧ podBusy.collMember 0 podGroup podColl.index 0 0 [] false = .here 0 podColl podPart
    ∧ podBusy.collMissed [.here 0 podColl podPart] [] = false := by decide +kernel

theorem podPart_shape :
    podPart.lost = false ∧ podPart.op < 4 ∧ collWide podPart.control = false ∧ collRoot podPart.control = 0
    ∧ podPart.rows = podDest.rows ∧ podPart.cols * (podDest.fmt.width / 8) = podDest.rb
    ∧ podPart.source.length = podDest.rows ∧ ∀ r ∈ podPart.source, r.length = podDest.rb := by decide +kernel

/-- The destination is above the scratchpad window, and the engine can write it. -/
theorem podDest_writable :
    tileOf podColl.td = some podDest ∧ 0x7FFFFF0000000000 ≤ podDest.base ∧ podBusy.collWritable 0 podColl podDest = true := by
  decide +kernel

theorem podBusy_block : ∃ b, Table.find podBusy.blocks podColl.block = some b :=
  Option.isSome_iff_exists.mp (by decide +kernel)

theorem podBusy_slice : ∃ x, Table.find podBusy.slices 0 = some x :=
  Option.isSome_iff_exists.mp (by decide +kernel)

/-- The row goes to memory. -/
theorem podColl_writes_mem : (podBusy.collComplete 0 0 [] false).mem ≠ podBusy.mem := by decide +kernel

theorem not_collectiveEnds : ¬ Claims.CollectiveEnds := by
  intro h
  obtain ⟨hgroup, hhead, hpaused, hmember, hmissed⟩ := podColl_in_engine
  obtain ⟨hlost, hop, hwide, hroot, hrows, hcols, hlen, hrow⟩ := podPart_shape
  obtain ⟨htile, hbase, hwritable⟩ := podDest_writable
  obtain ⟨b, hb⟩ := podBusy_block
  obtain ⟨x, hx⟩ := podBusy_slice
  obtain ⟨t, -, hexec, hmem, -⟩ := h podBusy 0 0 [] false podGroup podColl podColl 0 0 0 podPart podDest x b hgroup hhead rfl
    hpaused hmember hlost hmissed htile hbase hwritable hb hop hwide hroot hrows hcols hlen hrow (by decide) rfl hx (by decide)
  have ht : podBusy.collComplete 0 0 [] false = t := Host.Outcome.next.inj hexec
  exact podColl_writes_mem (ht ▸ hmem)

/-- Refutes O44. `Claims.CollectiveEnds` bounds its destination below by the scratchpad window and not above, so a tile in the pod window
(2^63 and above) meets its hypotheses: the engine writes the row to the memory of the chip that the address names, and memory does not stay
as it was. No word that R421 lets issue has such a tile; the statement speaks of every state. -/
theorem not_collectives : ¬ Obligations.Collectives := fun ⟨_, _, h⟩ => not_collectiveEnds h

end Sys2Proof.Machine

/-! Proofs: reads that a word makes as it issues (R247, R251), and BRIX and BRIXL (R108–R110). -/

namespace Sys2Proof.Machine

variable {s t : State} {c z : Ctx}

/-! ### What a read leaves -/

/-- The same word's context in a state that holds its slice and block as they were. -/
theorem Ctx.at_of (hx : Table.find t.slices c.k = some c.x) (hb : Table.find t.blocks (keyBlock c.k) = some c.b) :
    c.at t = { c with s := t } := by
  rw [Ctx.at, State.ctx_of hx hb]
  rfl

/-- A read of a slice that is no acquire changes the clocks of the dies and what the slice has read and knows. -/
theorem State.noteRead_plain {r : Reader} {x : Slice} (hx : Table.find s.slices r.site.key = some x) (hp : r.path = .ls)
    (ws : List Past) :
    ∃ u y, s.noteRead r false ws = { s.withClocks u with slices := Table.put s.slices r.site.key y } ∧ x.hasRead y ws r.seq := by
  unfold State.noteRead State.modSlice
  simp only [State.withClocks_slices, hx, Bool.false_eq_true, if_false]
  exact ⟨_, _, rfl, rfl, by rw [hp], fun p h => Slice.mem_learn.mpr (.inl h)⟩

/-- The word's context after a read of its own (R247). -/
theorem Ctx.loadNow_eq (hc : c.s.ctx c.k = some c) (scope : Scope) (acc : LaneAcc) (n : Nat) :
    ∃ u y, (c.loadNow scope acc n).2 =
        ⟨{ c.s.withClocks u with slices := Table.put c.s.slices c.k y.wrote }, c.k, y.wrote, c.b⟩
      ∧ c.x.hasRead y (c.loadSeen scope c.x.seq acc n).2 c.x.seq := by
  obtain ⟨-, -, hx, hb⟩ := State.ctx_eq hc
  obtain ⟨u, y, hy, hread⟩ := State.noteRead_plain (r := c.reader .ls scope c.x.seq) hx rfl (c.loadSeen scope c.x.seq acc n).2
  refine ⟨u, y, ?_, hread⟩
  have hm : ((c.s.noteRead (c.reader .ls scope c.x.seq) false (c.loadSeen scope c.x.seq acc n).2).modSlice c.k Slice.wrote)
      = { c.s.withClocks u with slices := Table.put c.s.slices c.k y.wrote } := by
    rw [hy]
    simp [State.modSlice, Ctx.reader, Ctx.site, Table.put_put]
  rw [Ctx.loadNow, hm, Ctx.at, State.ctx_of (x := y.wrote) (b := c.b) (by simp) (by simpa using hb)]
  rfl

theorem State.fillTlb_others (s : State) (core : Nat) (used : List TlbEntry) :
    (s.fillTlb core used).grids = s.grids ∧ (s.fillTlb core used).chips = s.chips ∧ (s.fillTlb core used).cur = s.cur := by
  simp [State.fillTlb]

/-- A read that succeeds is a load of its word in the state whose TLBs hold the translation's entries. -/
theorem Ctx.loadNow_of_readNow {scope : Scope} {a n : Nat} {bs : List Byte} (h : c.readNow scope a n = .ok (bs, z)) :
    ∃ used acc, (c.at (c.s.fillTlb c.b.core used)).loadNow scope acc n = (bs, z) := by
  unfold Ctx.readNow at h
  cases hr : c.check { want := .read, size := n } [(0, a)] with
  | error t => simp [hr] at h
  | ok r =>
    simp only [hr] at h
    split_ifs at h
    exact ⟨_, _, Except.ok.inj h⟩

/-- A read that a word makes at its issue: what it leaves, and that the word's context is one of its state. -/
theorem Ctx.readNow_ok (hc : c.s.ctx c.k = some c) {scope : Scope} {a n : Nat} {bs : List Byte}
    (h : c.readNow scope a n = .ok (bs, z)) : c.readBy 1 z ∧ z.s.ctx z.k = some z ∧ z.s.cur = c.s.cur := by
  obtain ⟨-, -, hx, hb⟩ := State.ctx_eq hc
  obtain ⟨used, acc, hload⟩ := Ctx.loadNow_of_readNow h
  obtain ⟨fmem, fslices, fblocks⟩ := State.fillTlb_frame c.s c.b.core used
  obtain ⟨fgrids, fchips, fcur⟩ := State.fillTlb_others c.s c.b.core used
  rw [Ctx.at_of (fslices ▸ hx) (fblocks ▸ hb)] at hload
  generalize c.s.fillTlb c.b.core used = t at *
  have ht : t.ctx c.k = some { c with s := t } := State.ctx_of (fslices ▸ hx) (fblocks ▸ hb)
  obtain ⟨u, y, hz, hy, hreads, hknows⟩ := Ctx.loadNow_eq (c := { c with s := t }) ht scope acc n
  obtain rfl := hz.symm.trans (congrArg Prod.snd hload)
  refine ⟨⟨rfl, rfl, fmem, fblocks, fgrids, fchips, fun j hj => ?_, ?_, hknows, fun p hp => ?_⟩, ?_, fcur⟩
  · simp [Table.find_put_other _ _ hj, fslices]
  · rw [hy]; rfl
  · simp [Slice.wrote, hreads, hp]
  · exact State.ctx_of (by simp) (by simpa [fblocks] using hb)

/-! ### The dispatch table -/

/-- A slice at rest has no write or acquire that a read must wait for. -/
theorem AtRest.afterOwn_eq (h : AtRest s c) (stores : Bool) (a n : Nat) (go : Ctx → State) : c.afterOwn stores a n go = go c := by
  simp [Ctx.afterOwn, Ctx.drained, Ctx.ownWrite, Slice.acquiring, h.noOps]

/-- The target that an index within the table selects, when it is a word's address. -/
theorem Ctx.dispatch_ok {idx : Nat} {bs : List Byte} (hi : idx < c.special 0 .dtlen)
    (hr : c.readNow .core ((c.special 0 .dtbase + 8 * idx) % 2 ^ 64) 8 = .ok (bs, z))
    (ha : (c.special 0 .kentry + leNat bs) % 8 = 0) :
    c.dispatch idx = .ok (BitVec.ofNat 64 (c.special 0 .kentry + leNat bs), z) := by
  have hw : wrap (c.special 0 .dtbase + 8 * idx) 64 = (c.special 0 .dtbase + 8 * idx) % 2 ^ 64 := mod_cast wrap_natCast _ 64
  have hm : (BitVec.ofNat 64 (c.special 0 .kentry + leNat bs)).toNat % 8 = 0 := by
    rw [BitVec.toNat_ofNat]; omega
  rw [Ctx.dispatch, if_neg (Nat.not_le.mpr hi), hw, hr]
  simp only [hm, ne_eq, not_true_eq_false, if_false]

/-- The fields of the slice that a move to a target looks at, after reads of its word. -/
theorem AtRest.readBy_goto (h : AtRest s c) {n : Nat} (hz : c.readBy n z) :
    z.x.splice = none ∧ z.x.ops = [] ∧ z.x.pend = [] ∧ z.x.poisonDue = [] ∧ z.x.stale = [] := by
  obtain ⟨-, -, -, -, -, -, -, hx, -⟩ := hz
  rw [hx]
  exact ⟨h.unspliced, h.noOps, h.noPend, h.noReport, h.noStale⟩

/-- The context of a slice at rest is one of its own state. -/
theorem AtRest.ctx_self (h : AtRest s c) : c.s.ctx c.k = some c := by
  rw [h.state, h.key]
  exact h.here

theorem AtRest.brix_eq (h : AtRest s c) {k : Ctl} {a : SSrc} {bs : List Byte} (hg : c.x.guardScalar k.guard = true)
    (hi : (c.val a).toNat < c.special 0 .dtlen)
    (hr : c.readNow .core ((c.special 0 .dtbase + 8 * (c.val a).toNat) % 2 ^ 64) 8 = .ok (bs, z))
    (ha : (c.special 0 .kentry + leNat bs) % 8 = 0) :
    exec (.brix k a) s = .next (z.s.withSlice { z.next with pc := BitVec.ofNat 64 (c.special 0 .kentry + leNat bs) }) := by
  obtain ⟨hs, hk, -, -⟩ := State.ctx_eq h.here
  obtain ⟨hz, hzc, hcur⟩ := Ctx.readNow_ok h.ctx_self hr
  obtain ⟨hsplice, hops, hpend, hdue, -⟩ := h.readBy_goto hz
  obtain ⟨hkey, -⟩ := hz
  rw [show exec (.brix k a) s = _ from h.issue_fits c.fits_nil _]
  simp only [hg, if_true, h.afterOwn_eq, h.src, Ctx.dispatch_ok hi hr ha, State.goto_quiet hzc hsplice hops hpend hdue]
  rw [State.withSlice, hcur, hs, hkey, hk]
  rfl

/-- What BRIXL does to the slice before it moves (R110). -/
theorem AtRest.applyTo_lanes (h : AtRest s c) (d : SReg) (v : Word64) (m : BitVec 4) {x : Slice} (hs : x.stale = []) (hp : x.pend = []) :
    c.applyTo { sShort := [(d.val, v)], exec := some m } x = { x.withS d v with exec := m &&& x.live } := by
  rw [h.applyTo_eq _ x rfl hs (by simp [Slice.vectorsDue, hp])]
  simp [Fx.due, Fx.qAfter, smodeRaise_none, fullWrites, Slice.setS, Slice.withS, d.isLt, hp]

/-- A change of the current slice. -/
theorem State.modSlice_at_cur {x : Slice} (hx : Table.find s.slices s.cur = some x) (f : Slice → Slice) :
    s.modSlice s.cur f = s.withSlice (f x) := by
  rw [State.modSlice, hx]
  rfl

theorem AtRest.brixl_eq (h : AtRest s c) {k : Ctl} {d : SReg} {va : VReg} {l : Nat} {bs : List Byte} (hva : va.val < c.squad.vcount)
    (hl : (List.range 4).find? (fun l => c.x.execBit l) = some l) (hi : (c.x.vreg va.val l).toNat < c.special 0 .dtlen)
    (hr : c.readNow .core ((c.special 0 .dtbase + 8 * (c.x.vreg va.val l).toNat) % 2 ^ 64) 8 = .ok (bs, z))
    (ha : (c.special 0 .kentry + leNat bs) % 8 = 0) :
    exec (.brixl k d va) s =
      (let m := laneMask (fun j => c.x.execBit j && c.x.vreg va.val j == c.x.vreg va.val l)
       .next (z.s.withSlice { z.next.withS d ((c.x.exec &&& ~~~m).setWidth 64) with
         exec := m &&& c.x.live, pc := BitVec.ofNat 64 (c.special 0 .kentry + leNat bs) })) := by
  obtain ⟨hs, hk, -, -⟩ := State.ctx_eq h.here
  obtain ⟨hz, hzc, hcur⟩ := Ctx.readNow_ok h.ctx_self hr
  obtain ⟨hsplice, hops, hpend, hdue, hstale⟩ := h.readBy_goto hz
  obtain ⟨-, -, hzx, hzb⟩ := State.ctx_eq hzc
  obtain ⟨hkey, -, -, -, -, -, -, hx, -⟩ := hz
  have hcurz : z.k = z.s.cur := by rw [hkey, hcur, hk, hs]
  have hlive : z.x.live = c.x.live := by rw [hx]
  have hfit : c.fits [useA .n32 va] := by simpa [Ctx.fits, useA, Fmt.is64] using hva
  rw [show exec (.brixl k d va) s = _ from h.issue_fits hfit _]
  simp only [hl, h.afterOwn_eq, h.rdV, Ctx.dispatch_ok hi hr ha, ← hlive]
  generalize laneMask _ = m
  rw [hcurz] at hzx hzb ⊢
  rw [State.modSlice_at_cur hzx, h.applyTo_lanes d _ m hstale hpend,
    State.goto_withSlice hzb (by exact hsplice) (by exact hops) (by exact hpend) (by exact hdue)]
  rfl

theorem tableJump : Claims.TableJump := fun s c z k idx bs h hi hr ha =>
  ⟨(Ctx.readNow_ok h.ctx_self hr).1, fun a hg hv => by subst hv; exact h.brix_eq hg hi hr ha,
    fun d va l hva hl hv => by subst hv; exact h.brixl_eq hva hl hi hr ha⟩

/-- No lane of an empty EXEC is found. -/
theorem Slice.find_execBit_none {x : Slice} (h : x.exec = 0) : (List.range 4).find? (fun l => x.execBit l) = none := by
  simp [Slice.execBit, h, testBit_zero]

theorem tableJumpEmpty : Claims.TableJumpEmpty := by
  intro s c k d va h hva hexec
  rw [show exec (.brixl k d va) s = _ from h.issue_fits (by simpa [Ctx.fits, useA, Fmt.is64] using hva) _]
  simp only [Slice.find_execBit_none hexec]
  rw [h.done_short rfl rfl, h.applied_eq rfl, smodeRaise_none]
  simp [Fx.due, Fx.qAfter, fullWrites, Slice.setS, Slice.withS, d.isLt, Ctx.next, h.noPend]

/-- Settles O13: the table's entry is a read that the word makes as it issues, and the slice moves in the state after it. -/
theorem tableJumps : Obligations.TableJumps := ⟨tableJump, tableJumpEmpty⟩

end Sys2Proof.Machine

/-! Proofs: EXIT ends lanes and slices (R112, R113), and WAIT holds its slice or goes on (R116, R239). -/

namespace Sys2Proof.Machine

variable {s : State} {c : Ctx}

/-- The current slice goes on once its record has changed to one with nothing outstanding or due. -/
theorem State.finish_withSlice {b : Block} (hb : Table.find s.blocks (keyBlock s.cur) = some b) {y : Slice}
    (hs : y.splice = none) (ho : y.ops = []) (hp : y.pend = []) (hd : y.poisonDue = []) (m : Bool) :
    (s.withSlice y).finish s.cur m = s.withSlice { y with pc := y.pc + 8, issued := y.issued + 1 } := by
  rw [State.finish, State.withSlice_find_self]
  exact State.goto_withSlice hb hs ho hp hd ..

/-! ### EXIT -/

/-- Ending lanes of a slice to which nothing is due. -/
theorem State.settleLanes_undue (s : State) (m : BitVec 4) {x : Slice} (hp : x.pend = []) : s.settleLanes m x = x := by
  simp [State.settleLanes, hp]
  cases x
  simp_all

theorem Slice.endLanes_unspliced {x : Slice} (h : x.splice = none) (m : BitVec 4) :
    x.endLanes m = { x with live := x.live &&& ~~~m, exec := x.exec &&& ~~~m } := by
  simp [Slice.endLanes, h]

theorem State.checkInsts_none {uid squad : Nat} {b : Block} (hb : Table.find s.blocks uid = some b) (h : (b.squad squad).insts = []) :
    s.checkInsts uid squad = s := by
  simp [State.checkInsts, hb, h]

theorem State.checkBars_none {uid : Nat} {b : Block} (hb : Table.find s.blocks uid = some b) (h : b.bars = []) :
    s.checkBars uid = s := by
  have hbar (n : Nat) : s.checkBar uid n = s := by
    simp [State.checkBar, hb, h, Table.getD, Table.find, State.barComplete]
  exact List.foldl_fixed' hbar _

theorem State.checkMeet_none {uid : Nat} {b : Block} (hb : Table.find s.blocks uid = some b) (h : b.meet = []) : s.checkMeet uid = s := by
  simp [State.checkMeet, hb, h]

theorem State.checkJoin_none {uid : Nat} {b : Block} (hb : Table.find s.blocks uid = some b) (h : b.splice = none) :
    s.checkJoin uid = s := by
  simp [State.checkJoin, hb, h]

/-- A slice at rest whose block waits for nothing ends, and nothing else changes. -/
theorem AtRest.endSlice_eq (h : AtRest s c) (hi : c.squad.insts = []) (hbars : c.b.bars = []) (hmeet : c.b.meet = [])
    (hsplice : c.b.splice = none) :
    c.endSlice = s.withSlice { c.x with live := c.x.live &&& ~~~0xF, exec := c.x.exec &&& ~~~0xF, hold := .none, ended := true } := by
  obtain ⟨hs, hk, hx, hb⟩ := State.ctx_eq h.here
  have hm : c.s.modSlice c.k (fun x => { (c.s.settleLanes 0xF x).endLanes 0xF with ended := true, hold := .none, pend := [], stale := [] })
      = s.withSlice { c.x with live := c.x.live &&& ~~~0xF, exec := c.x.exec &&& ~~~0xF, hold := .none, ended := true } := by
    rw [hs, hk, State.modSlice_at_cur hx, State.settleLanes_undue _ _ h.noPend, Slice.endLanes_unspliced h.unspliced]
    simp only [← h.noPend, ← h.noStale]
  have hb' (y : Slice) : Table.find (s.withSlice y).blocks (keyBlock s.cur) = some c.b := hb
  rw [Ctx.endSlice, hm, h.noFail, hk, State.checkInsts_none (hb' _) (by rw [← hk]; exact hi), State.checkBars_none (hb' _) hbars,
    State.checkMeet_none (hb' _) hmeet, State.checkJoin_none (hb' _) hsplice]

/-- A slice at rest holds no write to perform. -/
theorem AtRest.drain_eq (h : AtRest s c) : c.s.drain c.k = s := by
  obtain ⟨hs, hk, hx, -⟩ := State.ctx_eq h.here
  simp [State.drain, hs, hk, hx, h.noOps, State.performHeld]

theorem AtRest.exit_eq (h : AtRest s c) (k : Ctl) (hp : c.x.priv ≠ 1) {m : BitVec 4} (hm : laneMask (fun l => c.x.active k.guard l) = m) :
    exec (.exit k) s = .next (
      if m = 0 then s.withSlice c.next
      else if c.x.live &&& ~~~m ≠ 0 then s.withSlice { c.next with live := c.x.live &&& ~~~m, exec := c.x.exec &&& ~~~m }
      else c.endSlice) := by
  obtain ⟨hs, hk, hx, hb⟩ := State.ctx_eq h.here
  rw [show exec (.exit k) s = _ from issue_rest h _ _ rfl rfl (by simp [WordChk.permits, hp]) (by simp)]
  have hgo : (c.s.modSlice c.k (fun y => (c.s.settleLanes m y).endLanes m)).finish c.k k.m
      = s.withSlice { c.next with live := c.x.live &&& ~~~m, exec := c.x.exec &&& ~~~m } := by
    rw [hs, hk, State.modSlice_at_cur hx, State.settleLanes_undue _ _ h.noPend, Slice.endLanes_unspliced h.unspliced,
      State.finish_withSlice hb (by exact h.unspliced) (by exact h.noOps) (by exact h.noPend) (by exact h.noReport)]
    rfl
  simp only [h.finish_next, h.drain_eq, h.at_self, h.noDrops, List.isEmpty_nil, if_true, hm, hgo]

theorem exitEndsLanes : Claims.ExitEndsLanes := by
  intro s c k h hp m
  rw [h.exit_eq k hp (m := m) rfl]
  refine ⟨fun hlive => ?_, fun hdead hm hi hbars hmeet hsplice => ?_⟩
  · rw [if_pos hlive]
    split
    · next hm =>
      have hkeep (x : BitVec 4) : x &&& ~~~m = x := by rw [hm]; exact BitVec.and_allOnes
      rw [hkeep, hkeep]
      rfl
    · rfl
  · rw [if_neg hm, if_neg (not_not.mpr hdead), h.endSlice_eq hi hbars hmeet hsplice]
    exact ⟨_, rfl, by simp, rfl, rfl, rfl⟩

/-! ### WAIT -/

/-- A counter is at most a threshold that waits (R116). -/
theorem meets_iff (n : BitVec 6) (t : Fin 8) : meets n t = true ↔ t.val = 7 ∨ n.toNat ≤ t.val := by
  simp [meets]

/-- The writes that a WAIT on EN or FB makes known to a slice with no operation outstanding (R239, R257). -/
def Ctx.waitedFor (c : Ctx) (en fb : Fin 8) : List Past :=
  c.s.past.filter (fun w =>
    en.val != 7 && ((w.path == .cp || w.path == .mx) && w.site.key == c.k
        && !((c.s.core c.b.core).cmdq ++ (c.s.core c.b.core).copyq).any (fun d => d.slice == c.k && d.seq == w.seq)
      || w.path == .cl && keyBlock w.site.key == keyBlock c.k)
    || fb.val != 7 && w.path == .fb && w.site.key == c.k)

theorem Ctx.waitedFor_nil (c : Ctx) {en fb : Fin 8} (he : en.val = 7) (hf : fb.val = 7) : c.waitedFor en fb = [] := by
  simp [Ctx.waitedFor, he, hf]

/-- The writes of commands that have left their queue are among them. -/
theorem Ctx.mem_waitedFor_en {c : Ctx} {en fb : Fin 8} {w : Past} (he : en.val ≠ 7) (hw : w ∈ c.s.past)
    (hp : w.path = .cp ∨ w.path = .mx) (hk : w.site.key = c.k)
    (hq : ∀ d ∈ (c.s.core c.b.core).cmdq ++ (c.s.core c.b.core).copyq, d.slice = c.k → d.seq ≠ w.seq) : w ∈ c.waitedFor en fb := by
  rw [Ctx.waitedFor, List.mem_filter]
  have hidle : ((c.s.core c.b.core).cmdq ++ (c.s.core c.b.core).copyq).any (fun d => d.slice == c.k && d.seq == w.seq)
      = false := by
    simpa [or_imp, forall_and] using hq
  refine ⟨hw, ?_⟩
  rw [hidle]
  rcases hp with hp | hp <;> simp [he, hp, hk]

/-- The writes of fabric operations are among them. -/
theorem Ctx.mem_waitedFor_fb {c : Ctx} {en fb : Fin 8} {w : Past} (hf : fb.val ≠ 7) (hw : w ∈ c.s.past) (hp : w.path = .fb)
    (hk : w.site.key = c.k) : w ∈ c.waitedFor en fb := by
  simp [Ctx.waitedFor, hw, hf, hp, hk]

/-- What a WAIT makes known, to a slice at rest. -/
def Ctx.waitedKnown (c : Ctx) (en fb : Fin 8) : List Known := (c.waitedFor en fb).map (fun w => w.known w.path c.x.seq)

/-- A slice at rest has learned what a WAIT makes known. -/
theorem AtRest.waited_eq (h : AtRest s c) (en fb : Fin 8) (f : Slice → Slice) :
    (c.s.waited c.k en fb).modSlice c.k f = s.withSlice (f (c.x.learn (c.waitedKnown en fb))) := by
  obtain ⟨hs, hk, hx, hb⟩ := State.ctx_eq h.here
  have hw : c.s.waited c.k en fb =
      if (c.waitedFor en fb).isEmpty then c.s
      else c.s.modSlice c.k (fun x => x.learn ((c.waitedFor en fb).map (fun w => w.known w.path x.seq))) := by
    simp only [State.waited, h.ctx_self, h.noOps, Ctx.waitedFor, List.any_nil, Bool.not_false, Bool.and_true]
    rfl
  rw [hw, hs, hk]
  split
  · next he =>
    rw [State.modSlice_at_cur hx, Ctx.waitedKnown, List.isEmpty_iff.mp he]
    simp [Slice.learn]
  · rw [State.modSlice_at_cur hx, show s.cur = (s.withSlice (c.x.learn (c.waitedKnown en fb))).cur from rfl]
    exact (State.modSlice_at_cur (State.withSlice_find_self ..) f).trans (State.withSlice_withSlice ..)

theorem waitCompletes : Claims.WaitCompletes := by
  intro s c k ld st en wl fb h met hmet
  obtain ⟨hs, hk, hx, hb⟩ := State.ctx_eq h.here
  have hissue : exec (.wait k ld st en wl fb) s = _ := issue_rest h _ _ rfl rfl (WordChk.permits_unrestricted _ _ rfl rfl rfl) (by simp)
  by_cases hg : c.x.guardScalar k.guard = true
  · obtain hf | ⟨hld, hst, hen, hwl, hfb⟩ := hmet
    · simp [hf] at hg
    simp only [met, ← meets_iff] at hld hst hen hwl hfb
    have hgo : exec (.wait k ld st en wl fb) s
        = .next (s.withSlice { c.next with knows := (c.x.learn (c.waitedKnown en fb)).knows }) := by
      rw [hissue]
      simp only [hg, hld, hst, hen, hwl, hfb, Bool.and_self, if_true, h.waited_eq]
      rw [hk, State.finish_withSlice hb (by exact h.unspliced) (by exact h.noOps) (by exact h.noPend) (by exact h.noReport)]
      simp [Ctx.next, Slice.learn, h.noStale]
    refine ⟨_, hgo, fun p hp => Slice.mem_learn.mpr (.inl hp), ?_, fun _ he w hw hp hkey hq => ?_, fun _ hf w hw hp hkey => ?_⟩
    · rintro (hf | ⟨he, hf⟩)
      · simp [hf] at hg
      · simp [Ctx.waitedKnown, c.waitedFor_nil he hf, Slice.learn]
    · exact Slice.mem_learn.mpr (.inr (List.mem_map_of_mem (c.mem_waitedFor_en he (by rwa [hs]) hp (by rwa [hk])
        (by rwa [hs, hk]))))
    · rw [← hp]
      exact Slice.mem_learn.mpr (.inr (List.mem_map_of_mem (c.mem_waitedFor_fb hf (by rwa [hs]) hp (by rwa [hk]))))
  · refine ⟨c.x.knows, ?_, fun _ hp => hp, fun _ => rfl, fun hg' => absurd hg' hg, fun hg' => absurd hg' hg⟩
    rw [hissue]
    simp only [hg, h.finish_next]
    rfl

/-- A word without register operands that every level runs issues for a slice with nothing to report. -/
theorem Ctx.stops_unreported {c : Ctx} (hd : c.x.dropDue = false) (hp : c.x.poisonDue = []) (he : c.x.engFail = []) (engine : Bool) :
    c.stops { engine := engine } = none := by
  have hr : c.engineReport = none := by unfold Ctx.engineReport; split <;> simp [he]
  simp [Ctx.stops, Ctx.dropReport, Ctx.poisonReport, Ctx.outOfRange, Ctx.poisonedRead, hd, hp, hr,
    WordChk.permits_unrestricted]

theorem waitHolds : Claims.WaitHolds := by
  intro s c k ld st en wl fb hc hd hp he hg met hst hno
  obtain ⟨hs, hk, hx, hb⟩ := State.ctx_eq hc
  have hissue : exec (.wait k ld st en wl fb) s = _ := issue_next _ _ hc
  rw [Ctx.stops_unreported hd hp he, Option.getD_none] at hissue
  simp only [met, ← meets_iff] at hst hno ⊢
  have hall : (meets c.x.cnt.ld ld && meets c.x.cnt.en en && meets c.x.cnt.wl wl && meets c.x.cnt.fb fb) = false := by
    rw [Bool.eq_false_iff]
    simp only [Bool.and_eq_true, ne_eq]
    tauto
  rw [hissue]
  simp only [hg, hst, hall, Bool.and_true, if_true, Bool.false_eq_true, if_false, hs, hk]
  by_cases hld : meets c.x.cnt.ld ld = true
  · rw [if_pos hld]
    exact ⟨s, c.x, rfl, hx, rfl, fun _ => rfl, rfl, fun _ _ => rfl, rfl, rfl, rfl, rfl⟩
  · rw [if_neg hld, State.modSlice_at_cur hx]
    refine ⟨_, _, rfl, State.withSlice_find_self .., rfl, fun h => absurd h hld, ?_,
      fun j hj => State.withSlice_find_other _ _ hj, rfl, rfl, rfl, rfl⟩
    rw [List.map_map]
    refine List.map_congr_left fun o _ => ?_
    simp only [Function.comp_apply]
    split <;> rfl

/-- Settles O14: EXIT settles what is due to the lanes it ends, and nothing is; WAIT runs its counters' checks and then goes on with what
the slice has learned, or stays. -/
theorem lanesEndAndWait : Obligations.LanesEndAndWait := ⟨exitEndsLanes, waitCompletes, waitHolds⟩

end Sys2Proof.Machine

/-! Proofs: a memory word becomes one operation of its slice, or only goes on (R114, R214–R229). -/

namespace Sys2Proof.Machine

variable {s : State} {c : Ctx}

/-! ### Going on with an operation outstanding (R27, R30) -/

/-- The current slice goes on to the next word, and parks when M = 1 and a long result is outstanding. -/
theorem State.finish_outstanding {b : Block} (hb : Table.find s.blocks (keyBlock s.cur) = some b) {y : Slice}
    (hs : y.splice = none) (hp : y.pend = []) (hd : y.poisonDue = []) (m : Bool) :
    (s.withSlice y).finish s.cur m = s.withSlice { y with
      pc := y.pc + 8, issued := y.issued + 1, hold := if m && y.longOut then .parked else y.hold } := by
  have hpark : (s.withSlice y).parkSlice { y with pc := y.pc + 8, issued := y.issued + 1 }
      = { y with pc := y.pc + 8, issued := y.issued + 1, hold := if y.longOut then .parked else y.hold } := by
    unfold State.parkSlice
    rw [show Slice.longOut { y with pc := y.pc + 8, issued := y.issued + 1 } = y.longOut from rfl]
    split
    · rfl
    · simp [State.settle, hp, Slice.readyPoison, hd]
  rw [State.finish, State.withSlice_find_self]
  simp only [State.goto_plain (s := s.withSlice y) (k := s.cur) (x := y) (b := b) (y.pc + 8) true m (by simp) (by simpa using hb) hs, hpark]
  rw [State.withSlice, State.withSlice, Table.put_put]
  cases m <;> rfl

/-! ### The operation -/

/-- The data and compare bytes that a memory word of a slice at rest stores are those of its rule. -/
theorem AtRest.memRule_data (h : AtRest s c) {i : Instr} {k : Ctl} {uses : List VUse} {w : MemWord}
    (hr : c.memRule i = some (k, uses, w)) :
    ∃ f : Ctx → MemWord, exec i s = memWord s k uses f ∧ f c = { w with data := (f c).data }
      ∧ ∀ l, (f c).data c l = w.data c l := by
  unfold Ctx.memRule Ctx.memRule.atomic at hr
  split at hr
  all_goals cases hr
  all_goals
    refine ⟨_, rfl, ?_, fun l => ?_⟩
    · simp [h.physV, h.physS, Nat.mul_comm]
    · simp [Ctx.regBytes, Ctx.memRule.laneBytes, h.rdV, h.rdS]

theorem Ctx.partNow_unspliced (h : c.x.splice = none) : c.partNow = 0 := by simp [Ctx.partNow, h]

/-- The lanes of an operation of a slice outside a spliced grid: no forwarding window supplies a byte. -/
theorem Ctx.lanesOf_eq (h : c.x.splice = none) {w : MemWord} {d : Ctx → Nat → List Byte × List Byte}
    (hd : ∀ l, d c l = w.data c l) (r : List (Nat × Nat × Option Xlat)) :
    c.lanesOf { w with data := d } r = r.map (c.freshLane w) := by
  have hwin (a n : Nat) : c.windowLoad a n = [] := by simp [Ctx.windowLoad, Ctx.partNow_unspliced h]
  simp [Ctx.lanesOf, Ctx.freshLane, hwin, hd]

theorem Ctx.windowStore_unspliced (h : c.x.splice = none) (el : Bool) (lanes : List LaneAcc) : c.windowStore el lanes = c.s := by
  simp [Ctx.windowStore, Ctx.partNow_unspliced h]

theorem Ctx.participates_unspliced (h : c.x.splice = none) (a n : Nat) : c.participates a n = false := by
  simp [Ctx.participates, Ctx.partNow_unspliced h]

/-- The state in which a word's translations are cached. -/
def Ctx.translated (c : Ctx) (r : List (Nat × Nat × Option Xlat)) : State :=
  if (usedOf r).isEmpty then c.s else c.s.fillTlb c.b.core (usedOf r)

theorem Ctx.translated_frame (c : Ctx) (r : List (Nat × Nat × Option Xlat)) :
    (c.translated r).cur = c.s.cur ∧ (c.translated r).slices = c.s.slices ∧ (c.translated r).blocks = c.s.blocks := by
  unfold Ctx.translated
  split <;> simp [State.fillTlb]

/-- A slice at rest once its memory word has put its operation on its list. -/
def Ctx.memQueued (c : Ctx) (w : MemWord) (lanes : List LaneAcc) : Slice :=
  { c.x with
    ops := [c.freshOp w.kind lanes w.mem.scope (ordAcq w.mem.ord) (ordRel w.mem.ord)], seq := c.x.seq + 1
    cnt := w.kind.count c.x.cnt, forcedOk := false, fences := if w.kind.carries then [] else c.x.fences }

theorem Ctx.memQueued_longOut (c : Ctx) (w : MemWord) (lanes : List LaneAcc) : (c.memQueued w lanes).longOut = w.kind.isLong := by
  simp [Slice.longOut, Ctx.memQueued, Ctx.freshOp]

theorem AtRest.enqueue_eq (h : AtRest s c) (r : List (Nat × Nat × Option Xlat)) (w : MemWord) (lanes : List LaneAcc)
    (next : State → State) : c.enqueue (usedOf r) w lanes next = next ((c.translated r).withSlice (c.memQueued w lanes)) := by
  obtain ⟨hs, hk, hx, -⟩ := State.ctx_eq h.here
  obtain ⟨hcur, hslices, -⟩ := c.translated_frame r
  have hrels : c.x.carried w.kind (if ordRel w.mem.ord then some w.mem.scope else none)
      = (if ordRel w.mem.ord then [(w.mem.scope, c.x.seq)] else []) ++ (if w.kind.carries then c.x.fences else []) := by
    cases ordRel w.mem.ord <;> rfl
  have hkt : c.k = (c.translated r).cur := by rw [hcur, hs, hk]
  have hxt : Table.find (c.translated r).slices (c.translated r).cur = some c.x := by rw [hcur, hslices, hs, hx]
  unfold Ctx.enqueue
  simp only [hrels]
  rw [← Ctx.translated, hkt, State.modSlice_at_cur hxt]
  simp only [Slice.addOp, h.noOps, List.nil_append]
  rfl

/-- A memory word of a slice at rest whose checks have passed puts its operation on the slice's list. -/
theorem AtRest.memEffect_eq (h : AtRest s c) {w : MemWord} {d : Ctx → Nat → List Byte × List Byte} (hd : ∀ l, d c l = w.data c l)
    {r : List (Nat × Nat × Option Xlat)} (next : State → State)
    (hclean : w.kind.reads = true → ∀ p ∈ r, (c.freshLane w p).waited = true ∨ c.lanePoisoned (c.freshLane w p) w.ask.size = false)
    (hforce : s.timeSliced c.b.vf = false ∨ c.x.forcedOk = true ∨ hostLane w.ask.want r = false) :
    c.memEffect { w with data := d } next r = next ((c.translated r).withSlice (c.memQueued w (r.map (c.freshLane w)))) := by
  have hself : c.at c.s = c := by rw [h.state]; exact h.at_self
  have hfind : (if w.kind.reads then (r.map (c.freshLane w)).find? (fun a => !a.waited && c.lanePoisoned a w.ask.size) else none)
      = none := by
    split
    · next hreads =>
      rw [List.find?_eq_none]
      intro a ha
      obtain ⟨p, hp, rfl⟩ := List.mem_map.mp ha
      rcases hclean hreads p hp with hw | hw <;> simp [hw]
    · rfl
  have hgo (act : Ctx → State) : (if hostLane w.ask.want r then c.orForce act else act c) = act c := by
    split
    · next hh =>
      have hmust : c.mustForce = false := by
        rcases hforce with hf | hf | hf
        · simp [Ctx.mustForce, h.state, hf]
        · simp [Ctx.mustForce, hf]
        · simp [hf] at hh
      simp [Ctx.orForce, hmust]
    · rfl
  unfold Ctx.memEffect
  simp only [Ctx.lanesOf_eq h.unspliced hd, hfind, h.releaseAll_eq, ite_self, hgo]
  split
  · simp only [Ctx.windowStore_unspliced h.unspliced, hself, Ctx.participates_unspliced h.unspliced, Bool.not_false, List.filter_true,
      ite_self]
    exact h.enqueue_eq r { w with data := d } _ next
  · exact h.enqueue_eq r { w with data := d } _ next

theorem memoryIssue : Claims.MemoryIssue := by
  intro s c i k uses w r h hr hf hfull hd ha hc hclean hforce
  obtain ⟨f, hi, hw, hdata⟩ := h.memRule_data hr
  have hl : (c.memLanes w.vec k.guard).isEmpty = false := by
    rwa [Bool.eq_false_iff, Ne, h.isEmpty_memLanes_iff]
  obtain ⟨hcur, -, hblocks⟩ := c.translated_frame r
  obtain ⟨hs, hk, -, hb⟩ := State.ctx_eq h.here
  rw [hi, memWord, h.issue_fits hf, hw, Ctx.memIssue, Ctx.memIssueTo]
  simp only [hfull, hl, hs, hd, h.memAccesses_eq, hc, Bool.and_false, Bool.false_eq_true, if_false]
  rw [h.memEffect_eq hdata _ hclean hforce, show c.k = (c.translated r).cur by rw [hcur, hs, hk],
    State.finish_outstanding (by rw [hblocks, hcur, hs, hb]) (by exact h.unspliced) (by exact h.noPend) (by exact h.noReport),
    c.memQueued_longOut w, Ctx.translated, hs]
  rfl

theorem memoryIdle : Claims.MemoryIdle := by
  intro s c i k uses w h hr hf hfull hord ha
  obtain ⟨d, hi⟩ := h.memRule_issue hr hf
  have hl : (c.memLanes w.vec k.guard).isEmpty = true := (h.isEmpty_memLanes_iff k w).mpr ha
  rw [hi, Ctx.memIssue, Ctx.memIssueTo]
  simp only [hfull, hl, hord, Bool.false_eq_true, if_false, if_true, Bool.not_true, bne_self_eq_false, Bool.or_self, Bool.false_and,
    Ctx.fenced, ordAcq, ordRel, h.finish_next]

/-- Settles O26: the operation that a memory word puts on its slice's list is the one that its rule forms from the lanes that passed the
checks. -/
theorem memoryIssues : Obligations.MemoryIssues := ⟨memoryIssue, memoryIdle⟩

end Sys2Proof.Machine

/-! Proofs: what reads of an operation leave (R247, R251, R254), and what a completed load delivers (R114, R197, R220, R222). -/

namespace Sys2Proof.Machine

variable {s t u : State} {c : Ctx}

/-! ### The clocks of the dies (R254) -/

/-- How many writes of die e die d has applied. -/
def State.clockOf (s : State) (d e : Nat) : Nat := ((s.die d).clock.toList.getD e 0).toNat

theorem State.applied_eq (s : State) (w : Past) (d : Nat) : s.applied w d = decide (w.emit ≤ s.clockOf d w.site.die) := rfl

/-- Clocks that a die takes over are no older than its own. -/
theorem State.clockOf_mergeClock (s : State) (d src : Nat) (clock : Vector Word64 4) (n e : Nat) :
    s.clockOf n e ≤ (s.mergeClock d src clock).clockOf n e := by
  unfold State.mergeClock
  split
  · rfl
  · unfold State.clockOf
    rw [State.modDie_die]
    split
    · next h =>
      rw [h.1]
      by_cases he : e < 4
      · simp only [Vector.toList_ofFn, List.getD, List.getElem?_ofFn, he, dif_pos, Option.getD_some, Vector.getElem?_toList,
          Vector.getElem?_eq_getElem]
        split_ifs with hlt
        · exact hlt.1.le
        · rfl
      · simp [List.getD, he]
    · rfl

theorem State.clockOf_applyAt (s : State) (d : Nat) (w : Past) (n e : Nat) : s.clockOf n e ≤ (s.applyAt d w).clockOf n e := by
  unfold State.applyAt
  split
  · exact s.clockOf_mergeClock ..
  · rfl

theorem State.clockOf_applyAll (s : State) (d : Nat) (ws : List Past) (n e : Nat) :
    s.clockOf n e ≤ (ws.foldl (fun t w => t.applyAt d w) s).clockOf n e := by
  induction ws generalizing s with
  | nil => rfl
  | cons w ws ih => exact (s.clockOf_applyAt d w n e).trans (ih _)

theorem State.clockOf_withClocks (s u : State) {n : Nat} (h : n < 4) (e : Nat) : (s.withClocks u).clockOf n e = u.clockOf n e := by
  rw [State.clockOf, State.withClocks_die s u n h]
  rfl

theorem State.clockOf_withClocks_le (s u : State) (h : ∀ n e, s.clockOf n e ≤ u.clockOf n e) (n e : Nat) :
    s.clockOf n e ≤ (s.withClocks u).clockOf n e := by
  by_cases hn : n < 4
  · rw [State.clockOf_withClocks s u hn]
    exact h n e
  · simp [State.clockOf, State.die, hn]

/-! ### Reads -/

/-- What reads of a slice leave: the slice may have read and know more, the dies may have applied more, and nothing else changes. -/
structure State.ReadsTo (s t : State) (k : Nat) (x y : Slice) : Prop where
  frame : t = { s with slices := t.slices, dies := t.dies }
  slice : Table.find t.slices k = some y
  others : ∀ j, j ≠ k → Table.find t.slices j = Table.find s.slices j
  only : y = { x with reads := y.reads, lastRead := y.lastRead, knows := y.knows }
  knows : ∀ p ∈ x.knows, p ∈ y.knows
  dies : ∀ d, d < 4 → t.die d = { s.die d with clock := (t.die d).clock }
  clocks : ∀ d e, s.clockOf d e ≤ t.clockOf d e

variable {k : Nat} {x y z : Slice}

theorem State.ReadsTo.refl (h : Table.find s.slices k = some x) : s.ReadsTo s k x x :=
  ⟨rfl, h, fun _ _ => rfl, rfl, fun _ h => h, fun _ _ => rfl, fun _ _ => le_refl _⟩

theorem State.ReadsTo.trans (h : s.ReadsTo t k x y) (g : t.ReadsTo u k y z) : s.ReadsTo u k x z where
  frame := by rw [g.frame, h.frame]
  slice := g.slice
  others j hj := (g.others j hj).trans (h.others j hj)
  only := by rw [g.only, h.only]
  knows p hp := g.knows p (h.knows p hp)
  dies d hd := by rw [g.dies d hd, h.dies d hd]
  clocks d e := (h.clocks d e).trans (g.clocks d e)

/-- A read, an acquire or not, is one of them. -/
theorem State.readsTo_noteRead {r : Reader} (h : Table.find s.slices r.site.key = some x) (acq : Bool) (ws : List Past) :
    ∃ y, s.ReadsTo (s.noteRead r acq ws) r.site.key x y := by
  unfold State.noteRead State.modSlice
  simp only [State.withClocks_slices, h]
  refine ⟨_, rfl, Table.find_put_self .., fun j hj => Table.find_put_other _ _ hj, ?_, fun p hp => ?_,
    fun d hd => s.withClocks_only _ d hd, s.clockOf_withClocks_le _ fun n e => s.clockOf_applyAll ..⟩
  · cases acq <;> rfl
  · cases acq
    · exact Slice.mem_learn.mpr (.inl hp)
    · exact Slice.mem_learn.mpr (.inl (Slice.mem_learn.mpr (.inl hp)))

theorem State.ReadsTo.sameButReads (h : s.ReadsTo t k x y) : s.sameButReads t k := by
  refine ⟨h.others, ?_, ?_, ?_, ?_, ?_, ?_, ?_, h.dies⟩ <;> rw [h.frame]

/-- The context of the slice's word after them. -/
theorem State.ReadsTo.at_eq (h : s.ReadsTo t k x y) {b : Block} (hb : Table.find s.blocks (keyBlock k) = some b) (c : Ctx) (hk : c.k = k) :
    c.at t = ⟨t, k, y, b⟩ := by
  rw [Ctx.at, hk, State.ctx_of h.slice (b := b) (by rw [h.frame]; exact hb)]
  rfl

theorem State.ReadsTo.shares_eq (h : s.ReadsTo t k x y) (a b : Site) (scope : Scope) : t.shares a b scope = s.shares a b scope := by
  rw [h.frame]
  cases scope <;> rfl

/-- A write that reaches a read reaches it after other reads. -/
theorem State.ReadsTo.reaches (h : s.ReadsTo t k x y) {r q : Reader} (hq : q = { r with knows := q.knows }) {w : Past}
    (hw : s.reaches r w = true) : t.reaches q w = true := by
  rw [hq]
  unfold State.reaches at hw ⊢
  rw [Bool.and_eq_true] at hw ⊢
  refine ⟨hw.1, ?_⟩
  have hw := hw.2
  split at hw
  · dsimp only at hw ⊢
    split_ifs at hw ⊢ with hd
    · rwa [h.shares_eq]
    · simp only [State.applied_eq, Bool.and_eq_true, decide_eq_true_eq] at hw ⊢
      exact ⟨hw.1, hw.2.trans (h.clocks _ _)⟩
  · rwa [h.shares_eq]

/-- A write that a read had to return has to be returned after other reads, by a reader that knows no less. -/
theorem State.ReadsTo.mustSee (h : s.ReadsTo t k x y) {r q : Reader} (hq : q = { r with knows := q.knows })
    (hk : ∀ p ∈ r.knows, p ∈ q.knows) {w : Past} (hw : s.mustSee r w = true) : t.mustSee q w = true := by
  have hknown (p : Known) : (p.stamp == w.stamp && p.path == q.path && decide (p.since ≤ q.seq) && t.shares p.site q.site p.scope)
      = (p.stamp == w.stamp && p.path == r.path && decide (p.since ≤ r.seq) && s.shares p.site r.site p.scope) := by
    rw [hq, h.shares_eq]
  have hown : (w.site.key == q.site.key && w.path == .ls && (q.path == .ls || q.path == .wl))
      = (w.site.key == r.site.key && w.path == .ls && (r.path == .ls || r.path == .wl)) := by rw [hq]
  unfold State.mustSee at hw ⊢
  simp only [hknown, hown]
  simp only [Bool.or_eq_true, List.any_eq_true] at hw ⊢
  rcases hw with (hw | hw) | ⟨p, hp, hw⟩
  · exact .inl (.inl hw)
  · exact .inl (.inr (h.reaches hq hw))
  · exact .inr ⟨p, hk p hp, hw⟩

theorem State.ReadsTo.upToDate (h : s.ReadsTo t k x y) {r q : Reader} (hq : q = { r with knows := q.knows })
    (hk : ∀ p ∈ r.knows, p ∈ q.knows) {sel : Loc → Bool} (hu : s.upToDate r sel) : t.upToDate q sel := by
  intro w hw hsel
  rw [h.frame] at hw
  exact h.mustSee hq hk (hu w hw hsel)

/-! ### A lane that is read (R220, R251) -/

/-- An outstanding load, alone, forwards nothing to itself. -/
theorem Slice.forwarded_none {x : Slice} {o : MemOp} (h : x.ops = [o]) (hk : o.kind.isLoad = true) (n loc : Nat) :
    x.forwarded n loc = none := by
  cases hkind : o.kind <;> simp_all [Slice.forwarded, OpKind.isLoad]

/-- Where a lane that can be read lies, if not in memory. -/
theorem Ctx.Readable.region {a : LaneAcc} {n : Nat} (h : c.Readable a n) (hp : a.pa = none) :
    regionOf a.addr.toNat = .scratch (a.addr.toNat - 0x7FFFFF0000000000) := by
  rcases h.place with hs | ⟨hl, hh⟩
  · simp [hp] at hs
  · exact regionOf_scratch hl hh

theorem Ctx.Readable.not_inRegs {a : LaneAcc} {n : Nat} (h : c.Readable a n) : a.inRegs = false := by
  cases hp : a.pa with
  | some p => simp [LaneAcc.inRegs, hp]
  | none => simp [LaneAcc.inRegs, h.region hp]

theorem Ctx.Readable.isHalves {o : MemOp} {a : LaneAcc} {n : Nat} (h : c.Readable a n) (hk : o.kind.isLoad = true) :
    o.isHalves a = false := by
  cases hkind : o.kind <;> simp_all [MemOp.isHalves, OpKind.isLoad, h.not_inRegs]

theorem Ctx.Readable.parts {o : MemOp} {a : LaneAcc} {n : Nat} (h : c.Readable a n) (hk : o.kind.isLoad = true) : o.parts a = [0] := by
  simp [MemOp.parts, h.unread, h.isHalves hk]

/-- A byte of a lane as the slice reads it, in the state as it stands. -/
theorem Ctx.Readable.loadByte {a : LaneAcc} {n : Nat} (h : c.Readable a n) (hf : ∀ seq loc, c.x.forwarded seq loc = none) (seq i : Nat) :
    c.loadByte seq a i = c.byteAt a i := by
  simp only [Ctx.loadByte, h.plain, List.getD_nil, hf, Ctx.byteAt]
  cases hp : a.pa with
  | some p => rfl
  | none => simp only [h.region hp, Block.byte]

/-- The places that a load takes from memory and scratchpad are those of its lane. -/
theorem Ctx.Readable.takes {a : LaneAcc} {n : Nat} (h : c.Readable a n) (hf : ∀ seq loc, c.x.forwarded seq loc = none) (seq m : Nat) :
    c.takes seq a m = a.covers (keyBlock c.k) m := by
  have hplace (i : Nat) : c.placeOf a i = a.place (keyBlock c.k) i := by
    cases hp : a.pa with
    | some p => simp [Ctx.placeOf, hp]
    | none => simp [Ctx.placeOf, hp, h.region hp]
  funext l
  simp [Ctx.takes, LaneAcc.covers, h.plain, hf, hplace]

/-- A lane that is read. -/
def Ctx.readLane (c : Ctx) (n : Nat) (a : LaneAcc) : LaneAcc := { a with got := some (c.bytesAt a n), poisoned := false }

/-- A load that must see the latest writes of a lane's bytes reads them. -/
theorem Ctx.Readable.loadSeen {a : LaneAcc} {n : Nat} (h : c.Readable a n) (hc : c.s.ctx c.k = some c)
    (hf : ∀ seq loc, c.x.forwarded seq loc = none) {scope : Scope} {seq : Nat}
    (hu : c.s.upToDate (c.reader .ls scope seq) (a.covers (keyBlock c.k) n)) : (c.loadSeen scope seq a n).1 = c.bytesAt a n := by
  have hat : c.at c.s = c := by rw [Ctx.at, hc]; rfl
  simp only [Ctx.loadSeen, h.takes hf, State.seen_current _ _ _ _ hu, hat, Ctx.loadLane, Ctx.bytesAt, h.loadByte hf]

/-- An unqualified load reads a lane. -/
theorem Ctx.Readable.loadStep {o : MemOp} {a : LaneAcc} (h : c.Readable a o.kind.size) (hc : c.s.ctx c.k = some c)
    (hops : c.x.ops = [o]) (hk : o.kind.isLoad = true) (hw : feWaits o.kind.fe = false)
    (hu : c.s.upToDate (c.reader .ls o.scope o.seq) (a.covers (keyBlock c.k) o.kind.size)) :
    ∃ t y, c.loadStep o a [0] = (t, c.readLane o.kind.size a) ∧ c.s.ReadsTo t c.k c.x y := by
  obtain ⟨-, -, hx, -⟩ := State.ctx_eq hc
  have hseen := h.loadSeen hc (Slice.forwarded_none hops hk) hu
  obtain ⟨y, hy⟩ := State.readsTo_noteRead (r := c.reader .ls o.scope o.seq) hx o.acq (c.loadSeen o.scope o.seq a o.kind.size).2
  refine ⟨_, y, ?_, hy⟩
  simp only [Ctx.loadStep, hw, h.isHalves hk, Bool.false_and, Bool.false_eq_true, if_false, hseen, h.clean]
  rfl

/-! ### All lanes -/

/-- Other reads leave a lane as it was to be read. -/
theorem State.ReadsTo.byteAt (h : s.ReadsTo t k x y) (b : Block) (a : LaneAcc) (i : Nat) :
    Ctx.byteAt ⟨t, k, y, b⟩ a i = Ctx.byteAt ⟨s, k, x, b⟩ a i := by
  unfold Ctx.byteAt
  rw [h.frame]
  rfl

theorem State.ReadsTo.readable (h : s.ReadsTo t k x y) {b : Block} {a : LaneAcc} {n : Nat} (hr : Ctx.Readable ⟨s, k, x, b⟩ a n) :
    Ctx.Readable ⟨t, k, y, b⟩ a n := by
  refine ⟨hr.unread, hr.plain, hr.place, ?_, hr.unmarked⟩
  have hclean := hr.clean
  simp only [Ctx.lanePoisoned, hr.plain, List.isEmpty_nil, if_true] at hclean ⊢
  unfold Ctx.partPoisoned at hclean ⊢
  cases hp : a.pa with
  | some p =>
    simp only [hp] at hclean ⊢
    rw [h.frame]
    exact hclean
  | none =>
    simp only [hp, hr.region hp] at hclean ⊢
    exact hclean

theorem Ctx.loadLanes_load {o : MemOp} (hk : o.kind.isLoad = true) (c : Ctx) (a : LaneAcc) (p : Nat) (ps : List Nat)
    (as : List (LaneAcc × List Nat)) :
    c.loadLanes o ((a, p :: ps) :: as) =
      (((c.at (c.loadStep o a (p :: ps)).1).loadLanes o as).1,
        (c.loadStep o a (p :: ps)).2 :: ((c.at (c.loadStep o a (p :: ps)).1).loadLanes o as).2) := by
  cases hkind : o.kind <;> simp_all [Ctx.loadLanes, OpKind.isLoad]

/-- An unqualified load reads all its lanes. -/
theorem Ctx.loadLanes_plain {o : MemOp} (hk : o.kind.isLoad = true) (hw : feWaits o.kind.fe = false) (as : List LaneAcc) (c : Ctx)
    (hc : c.s.ctx c.k = some c) (hops : c.x.ops = [o]) (hr : ∀ a ∈ as, c.Readable a o.kind.size)
    (hu : ∀ a ∈ as, c.s.upToDate (c.reader .ls o.scope o.seq) (a.covers (keyBlock c.k) o.kind.size)) :
    ∃ t y, c.loadLanes o (as.map (fun a => (a, [0]))) = (t, as.map (c.readLane o.kind.size)) ∧ c.s.ReadsTo t c.k c.x y := by
  induction as generalizing c with
  | nil =>
    obtain ⟨-, -, hx, -⟩ := State.ctx_eq hc
    exact ⟨_, _, rfl, State.ReadsTo.refl hx⟩
  | cons a as ih =>
    obtain ⟨-, -, -, hb⟩ := State.ctx_eq hc
    obtain ⟨t, y, hstep, ht⟩ := (hr a List.mem_cons_self).loadStep hc hops hk hw (hu a List.mem_cons_self)
    have hat : c.at t = ⟨t, c.k, y, c.b⟩ := ht.at_eq hb c rfl
    have hops' : y.ops = [o] := by rw [ht.only]; exact hops
    obtain ⟨u, z, hrest, hu'⟩ := ih ⟨t, c.k, y, c.b⟩ (State.ctx_of ht.slice (by rw [ht.frame]; exact hb)) hops'
      (fun e he => ht.readable (hr e (List.mem_cons_of_mem _ he)))
      (fun e he => ht.upToDate rfl ht.knows (hu e (List.mem_cons_of_mem _ he)))
    refine ⟨u, z, ?_, ht.trans hu'⟩
    have hlanes : as.map (Ctx.readLane ⟨t, c.k, y, c.b⟩ o.kind.size) = as.map (c.readLane o.kind.size) :=
      List.map_congr_left fun e _ => by
        simp only [Ctx.readLane, Ctx.bytesAt, funext (ht.byteAt c.b e)]
    rw [List.map_cons, Ctx.loadLanes_load hk, hstep]
    simp only [hat, hrest, hlanes, List.map_cons]

end Sys2Proof.Machine

/-! Proofs: what a completed load delivers (R114, R197, R214, R220, R222). -/

namespace Sys2Proof.Machine

variable {s t u : State} {c : Ctx} {k : Nat} {x y z : Slice} {o : MemOp}

/-! ### The values (R220, R222) -/

theorem length_bytesAt (c : Ctx) (a : LaneAcc) (n : Nat) : (c.bytesAt a n).length = n := by simp [Ctx.bytesAt]

/-- The word that a loaded element leaves in a register (R220). -/
theorem loadedWord_part (sz : Sz) (bs : List Byte) {i : Nat} (hi : i < sz.regs) :
    BitVec.ofNat 32 (loadedWord sz bs / 2 ^ (32 * i)) = loadedPart sz (leNat bs) i := by
  have hext {w : Nat} : BitVec.ofNat 32 (wrap (sext (leNat bs) w) 32) = (BitVec.ofNat w (leNat bs)).signExtend 32 := by
    rw [sext_eq_toInt, BitVec.signExtend, wrap]
    refine BitVec.eq_of_toNat_eq ?_
    rw [BitVec.toNat_ofNat, BitVec.toNat_ofInt]
    norm_num
    omega
  cases sz with
  | i8 | i16 =>
    obtain rfl : i = 0 := Nat.lt_one_iff.mp hi
    simpa [loadedWord, loadedPart] using hext
  | _ => rfl

/-- The value that a scalar load leaves (R220). -/
theorem loadedScalar_eq (sz : Sz) (bs : List Byte) : loadedScalar sz bs = scalarLoaded sz (leNat bs) := by
  cases sz <;> simp only [loadedScalar, scalarLoaded, sext_eq_toInt, BitVec.signExtend]

/-! ### Landing -/

/-- A result that lands changes registers alone. -/
theorem Slice.land_only (x : Slice) (e : Elem) (v : Word64) :
    x.land e v = { x with s := (x.land e v).s, v := (x.land e v).v, stale := (x.land e v).stale } := by
  cases e with
  | v n l => rfl
  | s n =>
    simp only [Slice.land, Slice.putS, Slice.setS]
    split <;> rfl

theorem Slice.landAll_only (ws : List PendWrite) (x : Slice) :
    ws.foldl (fun y w => y.land w.elem w.val) x = { x with
      s := (ws.foldl (fun y w => y.land w.elem w.val) x).s, v := (ws.foldl (fun y w => y.land w.elem w.val) x).v
      stale := (ws.foldl (fun y w => y.land w.elem w.val) x).stale } := by
  induction ws generalizing x with
  | nil => rfl
  | cons w ws ih =>
    rw [List.foldl_cons, ih, x.land_only]

/-- Results that are what f says of their elements land as those elements do. -/
theorem Slice.landAll_elems {f : Elem → Word64} {ws : List PendWrite} (h : ∀ w ∈ ws, w.val = f w.elem) (x : Slice) :
    ws.foldl (fun y w => y.land w.elem w.val) x = (ws.map (fun w => w.elem)).foldl (fun y e => y.land e (f e)) x := by
  rw [List.foldl_map]
  exact List.foldl_ext _ _ _ fun y w hw => by rw [h w hw]

/-- The lanes of an operation have different numbers. -/
theorem find?_lane_eq {ls : List LaneAcc} (hnd : (ls.map (fun a => a.lane)).Nodup) {a : LaneAcc} (ha : a ∈ ls) :
    ls.find? (fun b => b.lane == a.lane) = some a := by
  induction ls with
  | nil => cases ha
  | cons b ls ih =>
    rw [List.map_cons, List.nodup_cons] at hnd
    rcases List.mem_cons.mp ha with rfl | ha
    · simp
    · have hb : b.lane ≠ a.lane := fun e => hnd.1 (e ▸ List.mem_map_of_mem ha)
      simpa [hb] using ih hnd.2 ha

/-- What the lanes that live deliver to m registers from register d on. -/
def laneWrites (ls : List LaneAcc) (live : BitVec 4) (d m : Nat) (g : LaneAcc → Nat) : List PendWrite :=
  (ls.filter (fun a => testBit live.toNat a.lane)).flatMap (fun a => regWrites d m a.lane (g a))

theorem mem_laneWrites {ls : List LaneAcc} {live : BitVec 4} {d m : Nat} {g : LaneAcc → Nat} {w : PendWrite} :
    w ∈ laneWrites ls live d m g ↔ ∃ a ∈ ls, live.toNat.testBit a.lane = true ∧ ∃ i < m,
      w = ⟨.v (d + i) a.lane, BitVec.ofNat 64 (g a / 2 ^ (32 * i) % 2 ^ 32), .load⟩ := by
  simp only [laneWrites, regWrites, testBit_eq, List.mem_flatMap, List.mem_filter, List.mem_map, List.mem_range, and_assoc, @eq_comm _ _ w]

/-- A bit of LIVE is one of four. -/
theorem lt_of_live {live : BitVec 4} {l : Nat} (h : live.toNat.testBit l = true) : l < 4 := by
  by_contra hl
  rw [Nat.testBit_lt_two_pow (live.isLt.trans_le (Nat.pow_le_pow_right two_pos (Nat.not_lt.mp hl)))] at h
  cases h

/-- The value that an element has among them. -/
def laneValue (ls : List LaneAcc) (d : Nat) (g : LaneAcc → Nat) : Elem → Word64
  | .s _ => 0
  | .v n l => (ls.find? (fun a => a.lane == l)).elim 0 (fun a => BitVec.ofNat 64 (g a / 2 ^ (32 * (n - d)) % 2 ^ 32))

theorem val_of_mem_laneWrites {ls : List LaneAcc} (hnd : (ls.map (fun a => a.lane)).Nodup) {live : BitVec 4} {d m : Nat}
    {g : LaneAcc → Nat} {w : PendWrite} (hw : w ∈ laneWrites ls live d m g) : w.val = laneValue ls d g w.elem := by
  obtain ⟨a, ha, -, i, -, rfl⟩ := mem_laneWrites.mp hw
  simp [laneValue, find?_lane_eq hnd ha]

/-- The registers of one lane once they have landed: those of the lane of that number. -/
theorem Slice.landAll_laneWrites {ls : List LaneAcc} (hnd : (ls.map (fun a => a.lane)).Nodup) (live : BitVec 4) (d m : Nat)
    (g : LaneAcc → Nat) (x : Slice) (n : Nat) {l : Nat} (hl : l < 4) :
    ((laneWrites ls live d m g).foldl (fun y w => y.land w.elem w.val) x).vreg n l
      = (ls.find? (fun a => a.lane == l)).elim (x.vreg n l) (fun a =>
        if live.toNat.testBit l = true ∧ d ≤ n ∧ n < d + m then BitVec.ofNat 32 (g a / 2 ^ (32 * (n - d))) else x.vreg n l) := by
  have helems : ∀ e ∈ (laneWrites ls live d m g).map (fun w => w.elem), ∃ n l, l < 4 ∧ e = .v n l := by
    intro e he
    obtain ⟨w, hw, rfl⟩ := List.mem_map.mp he
    obtain ⟨a, -, hlive, i, -, rfl⟩ := mem_laneWrites.mp hw
    exact ⟨_, _, lt_of_live hlive, rfl⟩
  rw [Slice.landAll_elems (fun w hw => val_of_mem_laneWrites hnd hw), (Slice.land_vectors _ _ helems x).2 n l hl]
  cases hfind : ls.find? (fun a => a.lane == l) with
  | none =>
    have hno : Elem.v n l ∉ (laneWrites ls live d m g).map (fun w => w.elem) := by
      intro he
      obtain ⟨w, hw, he⟩ := List.mem_map.mp he
      obtain ⟨a, ha, -, i, -, rfl⟩ := mem_laneWrites.mp hw
      obtain ⟨-, rfl⟩ := Elem.v.inj he
      simp [find?_lane_eq hnd ha] at hfind
    rw [if_neg hno]
    rfl
  | some a =>
    have ha := List.mem_of_find?_eq_some hfind
    have hal : a.lane = l := by simpa using List.find?_some hfind
    have hmem : Elem.v n l ∈ (laneWrites ls live d m g).map (fun w => w.elem)
        ↔ live.toNat.testBit l = true ∧ d ≤ n ∧ n < d + m := by
      rw [List.mem_map]
      constructor
      · rintro ⟨w, hw, he⟩
        obtain ⟨b, -, hlive, i, hi, rfl⟩ := mem_laneWrites.mp hw
        obtain ⟨rfl, rfl⟩ := Elem.v.inj he
        exact ⟨hlive, by omega, by omega⟩
      · rintro ⟨hlive, hlo, hhi⟩
        exact ⟨_, mem_laneWrites.mpr ⟨a, ha, hal ▸ hlive, n - d, by omega, rfl⟩, by simp [hal, Nat.add_sub_cancel' hlo]⟩
    simp only [hmem, Option.elim_some]
    refine if_congr Iff.rfl ?_ rfl
    refine BitVec.eq_of_toNat_eq ?_
    simp [laneValue, hfind]

/-! ### Completion -/

theorem State.settle_undue (s : State) {x : Slice} (h : x.pend = []) : s.settle x = x := by simp [State.settle, h]

/-- A slice with nothing outstanding or due, when a long result has landed (R30, R438): a parked slice goes on. -/
def Slice.resumed (x : Slice) : Slice := { (if x.hold = .parked then x.readyPoison else x) with hold := .none }

theorem State.afterLong_resumed (s : State) (k : Nat) (ho : x.ops = []) (hp : x.pend = []) (hh : x.hold = .none ∨ x.hold = .parked) :
    (s.putSlice k x).afterLong k = s.putSlice k x.resumed := by
  have hfind : Table.find (s.putSlice k x).slices k = some x := Table.find_put_self ..
  have hput (y : Slice) : ({ s.putSlice k x with slices := Table.put (s.putSlice k x).slices k y } : State) = s.putSlice k y := by
    simp only [State.putSlice, Table.put_put]
  unfold State.afterLong
  rw [hfind]
  simp only [Slice.longOut_of_noOps ho, Bool.false_eq_true, if_false]
  rcases hh with hh | hh
  · have hsame : x.resumed = x := by
      simp only [Slice.resumed, hh, reduceCtorEq, if_false]
      rw [← hh]
    rw [hsame, hh]
  · rw [hh, State.modSlice, hfind]
    simp only [State.settle_undue _ hp, hput]
    rw [Slice.resumed, if_pos hh]

/-- The slice that a completed load-class operation leaves. -/
def Slice.received (x : Slice) (o : MemOp) : Slice :=
  { x.deliver (o.results x.live) with
    ops := x.ops.filter (fun e => e.seq != o.seq), poisonDue := x.poisonDue ++ o.poisonDue x.live
    cnt := { x.cnt with ld := x.cnt.ld - 1 } }

theorem Slice.received_only (x : Slice) (o : MemOp) :
    (x.received o).hold = x.hold ∧ (x.received o).pc = x.pc ∧ (x.received o).cnt = { x.cnt with ld := x.cnt.ld - 1 } := by
  rw [Slice.received, Slice.deliver, Slice.landAll_only]
  exact ⟨rfl, rfl, rfl⟩

theorem State.deliverLoad_eq (hx : Table.find s.slices k = some x) (hops : ∀ e ∈ x.ops, e.seq = o.seq) (hp : x.pend = [])
    (hh : x.hold = .none ∨ x.hold = .parked) : s.deliverLoad k o = s.putSlice k (x.received o).resumed := by
  have hm : s.deliverLoad k o = (s.putSlice k (x.received o)).afterLong k := by
    rw [State.deliverLoad, State.modSlice, hx]
    rfl
  obtain ⟨hhold, -, -⟩ := x.received_only o
  rw [hm, State.afterLong_resumed]
  · simpa [Slice.received, List.filter_eq_nil_iff] using hops
  · simp [Slice.received, Slice.deliver, hp]
  · rwa [hhold]

theorem Slice.resumed_only (x : Slice) : x.resumed = { x with poisonDue := x.resumed.poisonDue, hold := .none } := by
  unfold Slice.resumed
  split <;> rfl

/-- What the slice's registers hold then: what landed. -/
theorem Slice.received_regs (x : Slice) (o : MemOp) (n l : Nat) :
    (x.received o).resumed.vreg n l = ((o.results x.live).foldl (fun y w => y.land w.elem w.val) x).vreg n l
    ∧ (x.received o).resumed.sreg n = ((o.results x.live).foldl (fun y w => y.land w.elem w.val) x).sreg n := by
  rw [Slice.resumed_only]
  exact ⟨rfl, rfl⟩

/-! ### A load's results (R214, R220, R222) -/

/-- A load once all its lanes have been read. -/
def Ctx.readOp (c : Ctx) (o : MemOp) : MemOp := { o with lanes := o.lanes.map (c.readLane o.kind.size) }

theorem Ctx.readOp_find? (c : Ctx) (o : MemOp) (l : Nat) :
    (c.readOp o).lanes.find? (fun a => a.lane == l) = (laneOf o l).map (c.readLane o.kind.size) := by
  rw [Ctx.readOp, List.find?_map]
  rfl

theorem Ctx.readOp_nodup (c : Ctx) (h : (o.lanes.map (fun a => a.lane)).Nodup) :
    ((c.readOp o).lanes.map (fun a => a.lane)).Nodup := by
  rw [Ctx.readOp, List.map_map]
  exact h

/-- A lane that has been read met no poison. -/
theorem Ctx.readOp_clean (c : Ctx) (o : MemOp) : (c.readOp o).lanes.filter (fun a => !a.poisoned) = (c.readOp o).lanes := by
  rw [List.filter_eq_self]
  intro a ha
  obtain ⟨b, -, rfl⟩ := List.mem_map.mp ha
  rfl

/-- The rows that a transposed load combines for a lane (R222). -/
theorem Ctx.readOp_rowPart (c : Ctx) (o : MemOp) (w r l : Nat) :
    rowPart (c.readOp o).lanes w r l = (laneOf o r).elim 0 (fun b => leNat (((c.bytesAt b o.kind.size).drop (l * w)).take w)) := by
  rw [rowPart, c.readOp_find?]
  cases laneOf o r <;> rfl

/-- Results of scalar registers leave the vector registers. -/
theorem Slice.landAll_scalars (d : Nat) (g : LaneAcc → Word64) (ls : List LaneAcc) (x : Slice) (n l : Nat) :
    ((ls.flatMap (fun a => [(⟨.s d, g a, .load⟩ : PendWrite)])).foldl (fun y w => y.land w.elem w.val) x).vreg n l = x.vreg n l := by
  induction ls generalizing x with
  | nil => rfl
  | cons a ls ih =>
    rw [List.flatMap_cons, List.cons_append, List.nil_append, List.foldl_cons, ih]
    simp [Slice.land, Slice.putS, Slice.vreg]

theorem getD_guarded {α : Type} {p q : Prop} [Decidable p] [Decidable q] {u v w : α} (h : p → q → u = v) :
    (if p ∧ q then u else w) = (if p then if q then some v else none else none).getD w := by
  by_cases hp : p <;> by_cases hq : q <;> simp [hp, hq]
  exact h hp hq

/-- What a load leaves in the vector registers once all its lanes have been read. -/
theorem Ctx.readOp_lands (c : Ctx) (hk : o.kind.isLoad = true) (hnd : (o.lanes.map (fun a => a.lane)).Nodup) (x : Slice)
    (n : Nat) {l : Nat} (hl : l < 4) :
    (((c.readOp o).results c.x.live).foldl (fun y w => y.land w.elem w.val) x).vreg n l = (c.loaded o n l).getD (x.vreg n l) := by
  have hnd' := c.readOp_nodup hnd
  cases hkind : o.kind with
  | load dst sz fe =>
    cases dst with
    | sreg d =>
      have hr : (c.readOp o).results c.x.live
          = (c.readOp o).lanes.flatMap (fun a => [⟨.s d, loadedScalar sz (a.got.getD []), .load⟩]) := by
        simp only [MemOp.results, c.readOp_clean, show (c.readOp o).kind = _ from hkind]
      have hno : c.loaded o n l = none := by
        simp only [Ctx.loaded, hkind]
        cases laneOf o l <;> simp
      rw [hr, hno, Slice.landAll_scalars]
      rfl
    | vreg d =>
      have hr : (c.readOp o).results c.x.live
          = laneWrites (c.readOp o).lanes c.x.live d sz.regs (fun a => loadedWord sz (a.got.getD [])) := by
        simp only [MemOp.results, c.readOp_clean, show (c.readOp o).kind = _ from hkind]
        rfl
      rw [hr, Slice.landAll_laneWrites hnd' _ _ _ _ _ _ hl, c.readOp_find?]
      simp only [Ctx.loaded, hkind]
      cases laneOf o l with
      | none => rfl
      | some a =>
        refine getD_guarded fun _ hn => (loadedWord_part sz _ (by omega)).trans ?_
        rw [← hkind, show OpKind.size o.kind = sz.bytes by rw [hkind]; rfl]
        rfl
  | loadTr d sz fe =>
    have hr : (c.readOp o).results c.x.live = laneWrites (c.readOp o).lanes c.x.live d sz.bytes (fun a =>
        (List.range 4).foldl (fun v r => v + rowPart (c.readOp o).lanes sz.bytes r a.lane * 2 ^ (8 * sz.bytes * r)) 0) := by
      simp only [MemOp.results, c.readOp_clean, show (c.readOp o).kind = _ from hkind]
      rfl
    rw [hr, Slice.landAll_laneWrites hnd' _ _ _ _ _ _ hl, c.readOp_find?]
    simp only [Ctx.loaded, hkind]
    cases hfind : laneOf o l with
    | none => rfl
    | some a =>
      have hal : a.lane = l := by simpa using List.find?_some hfind
      have hsize : o.kind.size = 4 * sz.bytes := by rw [hkind, Nat.mul_comm]; rfl
      refine getD_guarded fun _ _ => congrArg (fun v => BitVec.ofNat 32 (v / 2 ^ (32 * (n - d)))) ?_
      change (List.range 4).foldl (fun v r => v + rowPart (c.readOp o).lanes sz.bytes r a.lane * 2 ^ (8 * sz.bytes * r)) 0 = _
      simp only [c.readOp_rowPart, hsize, hal, List.range, List.range.loop, List.foldl, Nat.zero_add, Nat.mul_zero, pow_zero, Nat.mul_one]
      rw [Nat.mul_comm _ 2, Nat.mul_comm _ 3]
      cases laneOf o 0 <;> cases laneOf o 1 <;> cases laneOf o 2 <;> cases laneOf o 3 <;> rfl
  | _ => simp [hkind, OpKind.isLoad] at hk

/-- What a scalar load of one lane leaves in its register. -/
theorem Ctx.readOp_lands_scalar (c : Ctx) {d : Nat} {sz : Sz} {fe : FE} {a : LaneAcc}
    (hk : o.kind = .load (.sreg d) sz fe) (hl : o.lanes = [a]) (hd : d < 64) (x : Slice) :
    (((c.readOp o).results c.x.live).foldl (fun y w => y.land w.elem w.val) x).sreg d
      = scalarLoaded sz (leNat (c.bytesAt a sz.bytes)) := by
  have hr : (c.readOp o).results c.x.live = [⟨.s d, scalarLoaded sz (leNat (c.bytesAt a sz.bytes)), .load⟩] := by
    simp only [MemOp.results, c.readOp_clean, show (c.readOp o).kind = _ from hk, ← loadedScalar_eq]
    simp [Ctx.readOp, hl, Ctx.readLane, show o.kind.size = sz.bytes by rw [hk]; rfl]
  rw [hr]
  have hput := Slice.sreg_setS x d (scalarLoaded sz (leNat (c.bytesAt a sz.bytes))) d
  rw [if_pos ⟨rfl, hd⟩] at hput
  exact hput

/-! ### LOAD_COMPLETION -/

theorem Alone.op? (h : Alone s k c o) : c.x.op? o.seq = some o := by simp [Slice.op?, h.only]

/-- A slice's only operation has nothing to follow. -/
theorem Alone.mayPerform (h : Alone s k c o) : c.x.mayPerform o = true := by simp [Slice.mayPerform, h.only, MemOp.waitsFor]

theorem Alone.loadCompletion (h : Alone s k c o) (hk : o.kind.isLoad = true) :
    exec (.loadCompletion k o.seq 0) s = .next (c.completeLoad o 0) := by
  have hbound (f : State → State) : s.alsoInImage c.b.vf o.outside f = f s := by simp [State.alsoInImage, h.unbound]
  change execLoadCompletion k o.seq 0 s = _
  unfold execLoadCompletion
  simp only [h.here, h.op?, h.mayPerform, Bool.not_true, Bool.false_eq_true, if_false, hbound, Option.map_some, Option.getD_some]
  cases hkind : o.kind <;> simp_all [OpKind.isLoad, OpKind.isLd]

/-- An unqualified load whose lanes can be read completes in one event. -/
theorem Alone.completes (h : Alone s k c o) (hk : o.kind.isLoad = true) (hw : feWaits o.kind.fe = false)
    (hr : ∀ a ∈ o.lanes, c.Readable a o.kind.size)
    (hu : ∀ a ∈ o.lanes, s.upToDate (c.reader .ls o.scope o.seq) (a.covers (keyBlock k) o.kind.size)) :
    ∃ t y, exec (.loadCompletion k o.seq 0) s = .next (t.putSlice k (y.received (c.readOp o)).resumed) ∧ s.ReadsTo t k c.x y := by
  obtain ⟨hs, hkey, -, -⟩ := State.ctx_eq h.here
  obtain ⟨t, y, hlanes, hread⟩ := Ctx.loadLanes_plain hk hw o.lanes c (by rw [hs, hkey]; exact h.here) h.only hr
    (by rw [hs, hkey]; exact hu)
  rw [hs, hkey] at hread
  have hplan : o.plan 0 = o.lanes.map (fun a => (a, [0])) := by
    rw [o.plan_all]
    exact List.map_congr_left fun a ha => by rw [(hr a ha).parts hk]
  have hgot : (o.lanes.map (c.readLane o.kind.size)).all (fun a => a.got.isSome) = true := by simp [Ctx.readLane]
  refine ⟨t, y, ?_, hread⟩
  have hseq : ∀ e ∈ y.ops, e.seq = (c.readOp o).seq := by
    rw [hread.only, h.only]
    simp [Ctx.readOp]
  rw [h.loadCompletion hk, Ctx.completeLoad, hplan, hlanes]
  simp only [hgot]
  rw [hkey]
  exact congrArg _ (State.deliverLoad_eq hread.slice hseq (by rw [hread.only]; exact h.noPend)
    (by rw [hread.only]; exact h.notTrapping))

theorem State.ReadsTo.sameButReads_put (h : s.ReadsTo t k x y) (z : Slice) : s.sameButReads (t.putSlice k z) k := by
  obtain ⟨hothers, hrest⟩ := h.sameButReads
  exact ⟨fun j hj => (Table.find_put_other _ _ hj).trans (hothers j hj), hrest⟩

/-- What is left of the slice of a completed load besides its registers. -/
theorem Slice.received_rest {p : MemOp} (hops : ∀ e ∈ x.ops, e.seq = p.seq) (hp : x.pend = []) :
    let z := (x.received p).resumed
    z.ops = [] ∧ z.pend = [] ∧ z.cnt = { x.cnt with ld := x.cnt.ld - 1 } ∧ z.hold = .none ∧ z.pc = x.pc := by
  obtain ⟨-, hpc, hcnt⟩ := x.received_only p
  dsimp only
  rw [Slice.resumed_only]
  refine ⟨?_, ?_, hcnt, rfl, hpc⟩
  · simpa [Slice.received, List.filter_eq_nil_iff] using hops
  · simp [Slice.received, Slice.deliver, hp]

theorem Slice.lands_of_held {e : Elem} {v : Word64} (hp : x.pend = []) (he : x.getElem e = v) : x.lands e v :=
  .inl ⟨by simp [Slice.pendOf, hp], he⟩

theorem loadCompletes : Claims.LoadCompletes := by
  intro s k c o h hr hnd hkind hu
  have hk : o.kind.isLoad = true := by
    split at hkind <;> simp_all [OpKind.isLoad]
  have hw : feWaits o.kind.fe = false := by
    split at hkind <;> simp_all [OpKind.fe, feWaits]
  obtain ⟨t, y, hexec, hread⟩ := h.completes hk hw hr hu
  have hy := hread.only
  have hlive : y.live = c.x.live := by rw [hy]
  obtain ⟨hops, hpend, hcnt, hhold, hpc⟩ := Slice.received_rest (x := y) (p := c.readOp o) (by rw [hy]; simp [h.only, Ctx.readOp])
    (by rw [hy]; exact h.noPend)
  refine ⟨_, _, hexec, Table.find_put_self .., hread.sameButReads_put _, hops, by rw [hcnt, hy], hhold, by rw [hpc, hy],
    fun n l hl => Slice.lands_of_held hpend ?_, fun d sz fe a hload hlanes hd => Slice.lands_of_held hpend ?_⟩
  · rw [Slice.getElem, (y.received_regs _ n l).1, hlive, c.readOp_lands hk hnd y n hl, show y.vreg n l = c.x.vreg n l by rw [hy]; rfl]
  · rw [Slice.getElem, (y.received_regs _ d 0).2, hlive, c.readOp_lands_scalar hload hlanes hd]

/-! ### Full-empty loads (R197) -/

theorem Ctx.at_s (c : Ctx) (t : State) : (c.at t).s = t := by
  unfold Ctx.at
  cases ht : t.ctx c.k with
  | none => rfl
  | some d =>
    obtain ⟨hs, -⟩ := State.ctx_eq ht
    exact hs

theorem Ctx.loadLanes_one (hk : o.kind.isLoad = true) (c : Ctx) (a : LaneAcc) :
    c.loadLanes o [(a, [0])] = ((c.loadStep o a [0]).1, [(c.loadStep o a [0]).2]) := by
  rw [Ctx.loadLanes_load hk, Ctx.loadLanes, c.at_s]

/-- A load of one lane, in one event. -/
theorem Alone.loadCompletion_one (h : Alone s k c o) (hk : o.kind.isLoad = true) {a : LaneAcc} (hl : o.lanes = [a])
    (hr : c.Readable a o.kind.size) :
    exec (.loadCompletion k o.seq 0) s =
      .next (if (c.loadStep o a [0]).2.got.isSome then (c.loadStep o a [0]).1.deliverLoad k { o with lanes := [(c.loadStep o a [0]).2] }
        else (c.loadStep o a [0]).1.putOp k { o with lanes := [(c.loadStep o a [0]).2] }) := by
  obtain ⟨-, hkey, -, -⟩ := State.ctx_eq h.here
  rw [h.loadCompletion hk, Ctx.completeLoad, o.plan_all, hl, List.map_singleton, hr.parts hk, Ctx.loadLanes_one hk, hkey]
  simp

/-- The state once a full-empty load has found its granule full: form .WAITF.CLR empties it. -/
def Ctx.taken (c : Ctx) (a : LaneAcc) (fe : FE) : State := if fe = .waitfClr then c.setGranule a false else c.s

theorem Ctx.taken_eq {a : LaneAcc} {off : Nat} (hregion : regionOf a.addr.toNat = .scratch off)
    (hb : Table.find c.s.blocks (keyBlock c.k) = some c.b) (fe : FE) :
    (c.taken a fe).slices = c.s.slices ∧ ∃ b, Table.find (c.taken a fe).blocks (keyBlock c.k) = some b ∧ b.scratch = c.b.scratch
      ∧ ∀ g, Sparse.get false b.full g = if fe = .waitfClr ∧ g = off / 16 then false else Sparse.get false c.b.full g := by
  unfold Ctx.taken
  split
  · next hclr =>
    simp only [Ctx.setGranule, hregion]
    refine ⟨State.modBlock_slices .., c.b.setFull off false, ?_, rfl, fun g => ?_⟩
    · rw [State.modBlock_find, if_pos rfl, hb]
      rfl
    · simp [Block.setFull, Sparse.get_set, hclr]
  · next hkeep => exact ⟨rfl, c.b, hb, rfl, fun g => by simp [hkeep]⟩

theorem fullEmptyLoads : Claims.FullEmptyLoads := by
  intro s k c o a dst sz fe off h hl hkind hfe hr hpa haddr
  obtain ⟨hs, hkey, hx, hb⟩ := State.ctx_eq h.here
  have hk : o.kind.isLoad = true := by rw [hkind]; rfl
  have hr' : c.Readable a o.kind.size := by rw [hkind]; exact hr
  have hw : feWaits o.kind.fe = true := by rcases hfe with rfl | rfl <;> rw [hkind] <;> rfl
  have hregion : regionOf a.addr.toNat = .scratch off := by rw [hr.region hpa, haddr, Nat.add_sub_cancel_left]
  have hlane : c.laneFull a = Sparse.get false c.b.full (off / 16) := by simp only [Ctx.laneFull, hregion, Block.isFull]
  rw [h.loadCompletion_one hk hl hr']
  refine ⟨fun hempty => ?_, fun hfull => ?_⟩
  · have hstep : c.loadStep o a [0] = (s, { a with waited := true }) := by simp [Ctx.loadStep, hw, hlane, hempty, hs]
    rw [hstep]
    simp only [hr.unread, Option.isSome_none, Bool.false_eq_true, if_false]
    rw [State.putOp, State.modSlice, hx]
    simp [State.putSlice, h.only]
  · obtain ⟨e, he, hstep⟩ : ∃ e : LaneAcc, e.got.isSome = true ∧ c.loadStep o a [0] =
        ((c.taken a fe).noteRead (c.reader .ls o.scope o.seq) o.acq (c.s.latest (c.takes o.seq a o.kind.size)), e) := by
      have hkfe : o.kind.fe = fe := by rw [hkind]; rfl
      rw [hkfe] at hw
      refine ⟨{ a with got := some (c.loadLane o.seq a o.kind.size), poisoned := c.lanePoisoned a o.kind.size }, rfl, ?_⟩
      simp [Ctx.loadStep, hw, hlane, hfull, Ctx.taken, hkfe]
    obtain ⟨hslices, b, hfind, hscratch, hbits⟩ := c.taken_eq hregion (by rw [hs, hkey]; exact hb) fe
    obtain ⟨y, hread⟩ := State.readsTo_noteRead (s := c.taken a fe) (r := c.reader .ls o.scope o.seq) (x := c.x)
      (by rw [hslices, hs]; exact (congrArg (Table.find s.slices) hkey).trans hx) o.acq (c.s.latest (c.takes o.seq a o.kind.size))
    rw [hstep]
    generalize (c.taken a fe).noteRead _ _ _ = t at hread ⊢
    rw [show (c.reader .ls o.scope o.seq).site.key = k from hkey] at hread
    have hy := hread.only
    have hops : ∀ e ∈ y.ops, e.seq = o.seq := by rw [hy]; simp [h.only]
    have hpend : y.pend = [] := by rw [hy]; exact h.noPend
    rw [if_pos he, State.deliverLoad_eq (o := { o with lanes := [e] }) hread.slice hops hpend (by rw [hy]; exact h.notTrapping)]
    obtain ⟨hzops, -, hzcnt, -, -⟩ := Slice.received_rest (p := { o with lanes := [e] }) hops hpend
    refine ⟨_, _, b, rfl, Table.find_put_self .., hzops, by rw [hzcnt, hy], ?_, hscratch, hbits⟩
    rw [State.putSlice, hread.frame, ← hkey]
    exact hfind

/-- Settles O27: a lane reads its bytes as they stand, the reads of one lane take nothing from those of the next, and what the lanes have
read lands in the registers. -/
theorem loadsPerformed : Obligations.LoadsPerformed := ⟨loadCompletes, fullEmptyLoads⟩

end Sys2Proof.Machine

/-! Proofs: the activation table (R136–R141). -/

namespace Sys2Proof.Machine

variable {s : State} {c : Ctx}

/-! ### ACTSEL and VACT (R136, R139, R140) -/

/-- A word of a block that reserves the activation table, whose register operands lie within VCOUNT, has its own effect. -/
theorem AtRest.issue_reserved (h : AtRest s c) (hres : c.b.actRes = true) {uses : List VUse} (hf : c.fits uses) (body : Ctx → State) :
    issue s (fun x => { illegal := !x.b.actRes, regs := uses }) body = .next (body c) :=
  issue_rest h _ _ (by simp [hres]) rfl (WordChk.permits_unrestricted _ _ rfl rfl rfl) hf

/-- A word that changes a core only goes on (R27). -/
theorem AtRest.finish_modCore (h : AtRest s c) (n : Nat) (f : Core → Core) (m : Bool) :
    (s.modCore n f).finish s.cur m = (s.modCore n f).withSlice c.next := by
  obtain ⟨-, -, hx, hb⟩ := State.ctx_eq h.here
  rw [State.finish_plain (s := s.modCore n f) m hx hb h.unspliced h.noOps h.noPend h.noReport]
  rfl

/-- The selected buffer (R136). -/
theorem Core.actBufs_selected (k : Core) (d : ActBuf) :
    k.actBufs.toList.getD k.selected d = if k.actSel then k.actBufs[1] else k.actBufs[0] := by
  unfold Core.selected
  cases k.actSel <;> simp [bitOf]

theorem activationWords : Claims.ActivationWords := by
  intro s c k h hres
  refine ⟨fun n hg hidle => ?_, fun n hg hbusy => ?_, ?_⟩
  · change execActsel k n s = _
    rw [execActsel, h.issue_reserved hres c.fits_nil]
    simp only [h.state, h.key, hg, hidle, Bool.not_true, Bool.false_eq_true, if_false, h.finish_modCore]
  · change execActsel k n s = _
    rw [execActsel, h.issue_reserved hres c.fits_nil]
    simp only [Ctx.stay, h.state, h.key, hg, hbusy, Bool.not_true, Bool.false_eq_true, if_false, if_true]
  · intro rnd sat d a hf u buf r
    refine ⟨c.afterVector r true none k.m, ?_, ?_⟩
    · have hel (l : Nat) : actElem ((c.s.core c.b.core).actBufs.toList.getD (c.s.core c.b.core).selected ⟨false, 0, []⟩) (c.rm rnd) sat
          (c.elem .f32 a.val l) = r.elem l := by
        rw [Core.actBufs_selected, h.elem, c.rm_fun, h.state]
      change execVact k rnd sat d a s = _
      rw [execVact, h.issue_reserved hres hf]
      simp only [hel]
      rw [h.done_applied rfl, ← h.state]
      rfl
    · have hl := h.afterVector_leaves r true none k.m
      rwa [← show _ = c.x.q from h.afterVector_q r true none k.m] at hl

/-! ### ACTLD (R137, R138) -/

/-- The pieces of an image lie one after another from its address up. -/
theorem actPieces_eq (a : Word64) :
    actPieces a.toNat = (List.range 129).map (fun i => (0, (a + BitVec.ofNat 64 (16 * i)).toNat)) := by
  simp [actPieces, BitVec.toNat_add]

/-- A slice at rest once its ACTLD has put its operation on its list. -/
def Ctx.actQueued (c : Ctx) (lanes : List LaneAcc) : Slice :=
  { c.x.addOp (c.newOp .actLoad lanes .core) with cnt := { c.x.cnt with en := c.x.cnt.en + 1 } }

theorem AtRest.actQueued_next (h : AtRest s c) (lanes : List LaneAcc) :
    { c.actQueued lanes with pc := c.x.pc + 8, issued := c.x.issued + 1 } = { c.next with
      ops := [{ c.freshOp .actLoad lanes .core false false with outside := false }]
      seq := c.x.seq + 1, cnt := { c.x.cnt with en := c.x.cnt.en + 1 } } := by
  simp [Ctx.actQueued, Slice.addOp, Ctx.newOp, Ctx.freshOp, Ctx.next, OpKind.carries, h.noOps]

/-- An ACTLD delivers no long result: its slice goes on at once, whatever M holds. -/
theorem AtRest.actQueued_longOut (h : AtRest s c) (lanes : List LaneAcc) : (c.actQueued lanes).longOut = false := by
  simp [Slice.longOut, Ctx.actQueued, Slice.addOp, Ctx.newOp, OpKind.isLong, h.noOps]

theorem activationLoad : Claims.ActivationLoad := by
  intro s c k a r h hres hg hroom hcheck lanes hclean
  obtain ⟨hs, hk, hx, hb⟩ := State.ctx_eq h.here
  obtain ⟨-, fslices, fblocks⟩ := s.fillTlb_frame c.b.core (usedOf r)
  obtain ⟨-, -, fcur⟩ := s.fillTlb_others c.b.core (usedOf r)
  have hpoison : lanes.find? (fun l => c.lanePoisoned l 16) = none := by simpa [List.find?_eq_none] using hclean
  have hqueue : (s.fillTlb c.b.core (usedOf r)).modSlice s.cur (fun z =>
      { z.addOp (c.newOp .actLoad lanes .core) with cnt := { z.cnt with en := z.cnt.en + 1 } })
      = (s.fillTlb c.b.core (usedOf r)).withSlice (c.actQueued lanes) := by
    rw [← fcur, State.modSlice_at_cur (by rw [fslices, fcur, hx])]
    rfl
  change execActld k a s = _
  rw [execActld, h.issue_reserved hres c.fits_nil]
  simp only [hroom, hg, h.src, actPieces_eq, hcheck, Bool.not_true, Bool.false_eq_true, if_false]
  rw [show r.map _ = lanes from rfl]
  simp only [hpoison, hs, hk]
  rw [hqueue, ← fcur, State.finish_outstanding (by rw [fblocks, fcur, hb]) (by exact h.unspliced) (by exact h.noPend)
    (by exact h.noReport), h.actQueued_longOut, Bool.and_false, if_neg Bool.false_ne_true]
  exact congrArg (fun y => Host.Outcome.next (State.withSlice _ y)) (h.actQueued_next lanes)

/-! ### The image (R137, R138) -/

theorem leNat_lt (bs : List Byte) : leNat bs < 256 ^ bs.length := by
  induction bs with
  | nil => simp [leNat]
  | cons b bs ih =>
    have hb := b.isLt
    simp only [leNat, List.length_cons, pow_succ]
    omega

theorem actBufOf_header (bs : List Byte) (poisoned : Bool) : (actBufOf bs poisoned).header.toNat = leNat (bs.take 16) := by
  have hl : leNat (bs.take 16) < 2 ^ 128 :=
    calc leNat (bs.take 16) < 256 ^ (bs.take 16).length := leNat_lt _
      _ ≤ 256 ^ 16 := Nat.pow_le_pow_right (by decide) (List.length_take_le _ _)
      _ = 2 ^ 128 := by decide
  change (BitVec.ofNat 128 (leNat (bs.take 16))).toNat = _
  rw [BitVec.toNat_ofNat, Nat.mod_eq_of_lt hl]

theorem actBufOf_entry (bs : List Byte) (poisoned : Bool) {i : Nat} (hi : i < 256) :
    Sparse.get 0 (actBufOf bs poisoned).entries i = BitVec.ofNat 64 (leNat ((bs.drop (16 + 8 * i)).take 8)) := by
  rw [actBufOf, Sparse.get_foldl_set 0 (fun j => j) _ _ _ i _ fun j _ e => by rw [e], if_pos ⟨i, List.mem_range.mpr hi, rfl⟩]

/-! ### ACTLD_COMPLETION (R138, R141) -/

/-- A core once an image has filled its buffer that is not selected. -/
def Core.receiveAct (k : Core) (buf : ActBuf) : Core :=
  { k with actBufs := Vector.ofFn (fun i : Fin 2 => if i.val = k.selected then k.actBufs[i] else buf) }

theorem Core.receiveAct_bufs (k : Core) (buf : ActBuf) :
    (if k.actSel then (k.receiveAct buf).actBufs[1] = k.actBufs[1] else (k.receiveAct buf).actBufs[0] = k.actBufs[0])
    ∧ (if k.actSel then (k.receiveAct buf).actBufs[0] else (k.receiveAct buf).actBufs[1]) = buf := by
  unfold Core.receiveAct Core.selected
  cases k.actSel <;> simp [bitOf]

/-- The bytes of an image as an ACTLD reads them, and the writes that they come from. -/
def Ctx.imageSeen (c : Ctx) (o : MemOp) : List Byte × List Past :=
  (o.lanes.flatMap (fun a => (c.loadSeen .core o.seq a 16).1), o.lanes.flatMap (fun a => (c.loadSeen .core o.seq a 16).2))

/-- A slice once one of its engine operations is done. -/
def Slice.actDone (y : Slice) (o : MemOp) : Slice :=
  { y with ops := y.ops.filter (fun e => e.seq != o.seq), cnt := { y.cnt with en := y.cnt.en - 1 } }

/-- An ACTLD that is performed reads its image, fills the buffer that is not selected, and leaves its slice's list. -/
theorem Ctx.completeAct_eq (hc : c.s.ctx c.k = some c) (o : MemOp) :
    ∃ u y, c.completeAct o =
        (((c.s.withClocks u).modCore c.b.core (fun k => k.receiveAct (actBufOf (c.imageSeen o).1
          (o.lanes.any (fun a => c.lanePoisoned a 16))))).putSlice c.k (y.actDone o))
      ∧ c.x.hasRead y (c.imageSeen o).2 o.seq := by
  obtain ⟨-, -, hx, -⟩ := State.ctx_eq hc
  obtain ⟨u, y, hnote, hread⟩ := State.noteRead_plain (r := c.reader .ls .core o.seq) hx rfl (c.imageSeen o).2
  refine ⟨u, y, ?_, hread⟩
  unfold Ctx.completeAct
  simp only [List.flatMap_map]
  change State.modSlice (State.modCore (c.s.noteRead _ false (c.imageSeen o).2) _ _) _ _ = _
  rw [hnote, State.modSlice]
  simp only [State.modCore_slices, show (c.reader .ls .core o.seq).site.key = c.k from rfl, Table.find_put_self, Table.put_put]
  rfl

@[simp] theorem State.putSlice_core (s : State) (k : Nat) (y : Slice) (n : Nat) : (s.putSlice k y).core n = s.core n := rfl
@[simp] theorem State.withClocks_core (s u : State) (n : Nat) : (s.withClocks u).core n = s.core n := rfl

/-- The one ACTLD of a core that may be performed is performed. -/
theorem actldCompletion_one {core k : Nat} {o : MemOp} (hready : s.actReady core = [(k, o.seq)]) (hc : s.ctx k = some c)
    (ho : c.x.op? o.seq = some o) : exec (.actldCompletion core) s = .next (c.completeAct o) := by
  change execActldCompletion core s = _
  simp only [execActldCompletion, hready, State.pickFrom_one, hc, ho]

theorem activationCompletion : Claims.ActivationCompletion := by
  intro s core k c o hready hc ho hcore hclean bytes header
  obtain ⟨hs, hk, -, -⟩ := State.ctx_eq hc
  obtain ⟨u, y, ht, hread⟩ := Ctx.completeAct_eq (c := c) (by rw [hs, hk, hc]) o
  have hpoison : o.lanes.any (fun a => c.lanePoisoned a 16) = false := by simpa [List.any_eq_false] using hclean
  rw [hpoison, hcore, hs, hk] at ht
  refine ⟨_, (actldCompletion_one hready hc ho).trans (congrArg _ ht), ?_, ⟨y, ?_, hread⟩, rfl, rfl⟩
  · have hget : (((s.withClocks u).modCore core (fun n => n.receiveAct (actBufOf bytes false))).putSlice k (y.actDone o)).core core
        = (s.core core).receiveAct (actBufOf bytes false) := by simp
    obtain ⟨hkeeps, hfills⟩ := (s.core core).receiveAct_bufs (actBufOf bytes false)
    intro old new got
    have hnew : new = ((s.core core).receiveAct (actBufOf bytes false)).actBufs := congrArg Core.actBufs hget
    have hgot : got = actBufOf bytes false := by rw [← hfills, ← hnew]
    refine ⟨?_, ?_, ?_, fun i hi => ?_⟩
    · rw [hnew]
      exact hkeeps
    · rw [hgot, actBufOf_header]
    · rw [hgot]
      exact Bool.and_true _
    · rw [hgot, actBufOf_entry bytes false hi]
  · rw [State.putSlice, Table.find_put_self, Slice.actDone, hread.1]

/-- Settles O18: ACTSEL and VACT act on the selected buffer, and an ACTLD checks, reads and fills the other one. -/
theorem activationTable : Obligations.ActivationTable := ⟨activationWords, activationLoad, activationCompletion⟩

end Sys2Proof.Machine

/-! Proofs: what an engine word of a slice at rest puts on its queue, and where it stands there (R114, R154, R263, R280–R299). -/

namespace Sys2Proof.Machine

variable {s : State} {c : Ctx}

/-! ### The operands of an engine word (R283–R285) -/

/-- A slice that sees its block's tile descriptors as they stand reads them so (R154). -/
theorem AtRest.tdesc_current (h : AtRest s c) (ht : c.tilesCurrent) (t : TReg) : c.tdesc t = c.b.tdesc[t] := by
  obtain ⟨hs, hk, -, hb⟩ := State.ctx_eq h.here
  simp only [Ctx.tdesc, h.physT]
  split
  · have hl : c.s.atLoc (.tdesc (keyBlock c.k) t.val) = (c.b.tdesc[t]).toNat := by simp [State.atLoc, hs, hk, hb]
    rw [State.view_current _ _ _ _ _ (ht t.val), hl, BitVec.ofNat_toNat, BitVec.setWidth_eq]
  · simp

theorem limit_ok {b : Bool} (h : b = true) : limit b = .ok () := if_pos h

theorem Ctx.scratchTile_ok {t : TReg} {x : Tile} (h : c.scratchAt t = some x) : c.scratchTile (c.b.tdesc[t]) = .ok x := by
  unfold Ctx.scratchAt at h
  split at h
  · rename_i hx
    rw [hx, Option.some.inj h]
  · cases h

theorem Ctx.tile_ok {t : TReg} {x : Tile × Lies} (h : c.tileAt t = some x) : c.tile (c.b.tdesc[t]) = .ok x := by
  unfold Ctx.tileAt at h
  split at h
  · rename_i hx
    rw [hx, Option.some.inj h]
  · cases h

/-- A tile that lies in one kind of place, other than the windows, passes an entry that keeps it there. -/
theorem Ctx.tileIn_of_tile {d : BitVec 128} {x : Tile × Lies} (h : c.tile d = .ok x) (hp : x.2 = .memory) :
    c.tileIn .memory d = .ok x.1 := by
  unfold Ctx.tile at h
  unfold Ctx.tileIn
  cases hd : tileOf d with
  | none => simp [hd] at h
  | some t =>
    simp only [hd] at h ⊢
    cases hl : c.lies t.base t.endAddr <;> simp only [hl, Lies.check, Except.map, Except.ok.injEq, reduceCtorEq] at h <;> subst h
      <;> simp_all

/-- A place that a range of CPCOPY may lie in passes its check (R296). -/
theorem Ctx.copyRange_ok {a n : Nat} (h : (c.lies a (a + n) == .scratch || c.lies a (a + n) == .memory) = true) :
    c.copyRange a n = .ok () := by
  unfold Ctx.copyRange
  rcases Bool.or_eq_true_iff.mp h with h | h <;> rw [beq_iff_eq.mp h] <;> rfl

/-! ### Issue (R114, R263, R280) -/

/-- The instruction is an engine word with a rule's control, queue and object, whose operands obey their limits and give its command. -/
def Puts (s : State) (c : Ctx) (i : Instr) (r : EngRule) : Prop :=
  ∃ operands : Ctx → Except TrapInfo (Option CmdKind),
    exec i s = engWord s r.ctl r.matrix r.copy r.ab operands ∧ operands c = .ok (some r.kind)

/-- The command of a rule, as it enters its queue. -/
theorem AtRest.command_eq (h : AtRest s c) (kind : CmdKind) (o : Option Word64) : c.command kind o =
    ⟨s.cur, true, c.x.seq, keyBlock s.cur, c.x.pc, kind, o, 0, 0, [], 0, c.x.knows, c.kidx, c.x.priv == 1, s.now + 1, []⟩ := by
  simp only [Ctx.command, h.state, h.key]

/-- A command of a slice at rest goes to its queue, EN rises, and the slice goes on. -/
theorem AtRest.submit_eq (h : AtRest s c) (copy : Bool) (cmd : Cmd) (m : Bool) :
    c.submit copy cmd m = (s.modCore c.b.core (fun u =>
        if copy then { u with copyq := enterCmd true cmd u.copyq } else { u with cmdq := enterCmd false cmd u.cmdq })).withSlice
      { c.next with seq := c.x.seq + 1, cnt := { c.x.cnt with en := c.x.cnt.en + 1 } } := by
  obtain ⟨hs, hk, hx, hb⟩ := State.ctx_eq h.here
  unfold Ctx.submit
  rw [hs, hk]
  generalize (fun u : Core => if copy then { u with copyq := enterCmd true cmd u.copyq }
    else { u with cmdq := enterCmd false cmd u.cmdq }) = f
  have hst : (if copy then c.x.stale.map (fun p => if p.en then { p with later := p.later + 1 } else p) else c.x.stale) = c.x.stale := by
    simp [h.noStale]
  have hm : (s.modCore c.b.core f).modSlice s.cur (fun x => { x with
      seq := x.seq + 1, cnt := { x.cnt with en := x.cnt.en + 1 }
      stale := if copy then x.stale.map (fun p => if p.en then { p with later := p.later + 1 } else p) else x.stale })
      = (s.modCore c.b.core f).withSlice { c.x with seq := c.x.seq + 1, cnt := { c.x.cnt with en := c.x.cnt.en + 1 } } := by
    simp [State.modSlice, State.withSlice, hx, hst]
  rw [hm, State.finish_plain (s := (s.modCore c.b.core f).withSlice _) (k := s.cur)
    (x := { c.x with seq := c.x.seq + 1, cnt := { c.x.cnt with en := c.x.cnt.en + 1 } }) (b := c.b) m
    (State.withSlice_find_self _ _) (by simpa using hb) h.unspliced h.noOps h.noPend h.noReport]
  simp [State.withSlice, Table.put_put, Ctx.next]

/-- An engine word that nothing stops puts its command on its queue. -/
theorem AtRest.puts_exec (h : AtRest s c) {i : Instr} {r : EngRule} (hp : Puts s c i r) {o : Option Word64}
    (hg : c.x.guardScalar r.ctl.guard = true) (hm : r.matrix = true → c.b.mxRes = true) (he : c.x.cnt.en ≠ 63)
    (ho : c.objCheck r.ab = .ok o) (hq : (if r.copy then (s.core c.b.core).copyq else (s.core c.b.core).cmdq).length < 16) :
    exec i s = .next (c.submit r.copy (c.command r.kind o) r.ctl.m) := by
  obtain ⟨operands, hi, hk⟩ := hp
  have hu : (engChk r.matrix c).unreserved = false := by
    cases hr : r.matrix <;> simp_all [engChk]
  rw [hi, engWord, issue_rest h _ _ rfl hu (WordChk.permits_unrestricted _ _ rfl rfl rfl) (by simp [engChk])]
  have hq' : ¬ 16 ≤ (if r.copy then (c.s.core c.b.core).copyq else (c.s.core c.b.core).cmdq).length := by
    rw [h.state]; omega
  simp only [if_neg he, hg, Bool.not_true, Bool.false_eq_true, if_false, if_neg hq', ho, hk]

/-! ### Each word's command (R287–R299) -/

/-- A streaming word (R289). -/
theorem AtRest.puts_streamed (h : AtRest s c) (ht : c.tilesCurrent) {i : Instr} {k : Ctl} {rnd : Rnd} {rm : RM} {mode : Mode} {nc : NC}
    {ta : TReg} {sp : SSrc} {ab : Option SSrc} {r : EngRule} (hi : exec i s = streamWord s k rnd mode nc ta sp ab) (hm : c.mode rnd = rm)
    (hr : Ctx.matrixRule.streamed c k rm mode nc ta sp ab = some r) : Puts s c i r := by
  simp only [Ctx.matrixRule.streamed, Option.bind_eq_some_iff, Option.ite_none_right_eq_some, Option.some.injEq] at hr
  obtain ⟨t, htile, hok, rfl⟩ := hr
  refine ⟨_, hi, ?_⟩
  rw [h.tdesc_current ht, Ctx.scratchTile_ok htile, h.src, Ctx.rm_fun, hm]
  simp only [bind, Except.bind, limit_ok hok]
  rfl

/-- A range in the scratchpad passes the check that keeps it there (R283). -/
theorem Ctx.scratchRange_ok {a : Word64} {n align : Nat} (h : c.inScratch a n align = true) :
    c.scratchRange a.toNat n align = .ok () := limit_ok h

theorem AtRest.matrixRule_puts (h : AtRest s c) (ht : c.tilesCurrent) {i : Instr} {r : EngRule} (hr : c.matrixRule i = some r) :
    Puts s c i r := by
  unfold Ctx.matrixRule at hr
  split at hr
  case h_1 =>
    simp only [Option.bind_eq_some_iff, Option.ite_none_right_eq_some, Option.some.injEq, Bool.and_eq_true, Bool.or_eq_true,
      beq_iff_eq] at hr
    obtain ⟨t, htile, ⟨hok, hsm⟩, rfl⟩ := hr
    refine ⟨_, rfl, ?_⟩
    simp only [h.tdesc_current ht, Ctx.scratchTile_ok htile, h.src, bind, Except.bind, limit_ok hok]
    split_ifs with hn
    · rfl
    · rw [Ctx.scratchRange_ok (hsm.resolve_left hn)]
      rfl
  case h_2 =>
    cases hr
    exact ⟨fun _ => .ok (some .pswap), rfl, rfl⟩
  case h_3 => exact h.puts_streamed ht rfl rfl hr
  case h_4 => exact h.puts_streamed ht rfl rfl hr
  case h_5 => exact h.puts_streamed ht (rnd := .rne) rfl rfl hr
  case h_6 => exact h.puts_streamed ht (rnd := .rne) rfl rfl hr
  case h_7 k rnd sr sa sb ab =>
    simp only [Option.ite_none_right_eq_some, Option.some.injEq] at hr
    obtain ⟨⟨hp, hpt, ha, hb⟩, rfl⟩ := hr
    refine ⟨_, rfl, ?_⟩
    simp only [h.src, bind, Except.bind, Ctx.scratchRange_ok ha, Ctx.scratchRange_ok hb, Ctx.rm_fun]
    rw [limit_ok]
    · rfl
    · simp only [Bool.and_eq_true, Bool.or_eq_true, decide_eq_true_eq]
      simp only [fld, bits]
      omega
  case h_8 k sr ab =>
    simp only [Option.ite_none_right_eq_some, Option.some.injEq] at hr
    obtain ⟨hn, rfl⟩ := hr
    refine ⟨_, rfl, ?_⟩
    simp only [h.src, bind, Except.bind]
    rw [limit_ok]
    · rfl
    · simp only [Bool.and_eq_true, decide_eq_true_eq]
      simp only [fld, bits]
      omega
  case h_9 =>
    simp only [Option.bind_eq_some_iff, Option.ite_none_right_eq_some, Option.some.injEq] at hr
    obtain ⟨t, htile, hok, rfl⟩ := hr
    refine ⟨_, rfl, ?_⟩
    simp only [h.tdesc_current ht, Ctx.scratchTile_ok htile, h.src, bind, Except.bind, limit_ok hok, Ctx.rm_fun]
    rfl
  case h_10 =>
    simp only [Option.bind_eq_some_iff, Option.ite_none_right_eq_some, Option.some.injEq] at hr
    obtain ⟨t, htile, hok, rfl⟩ := hr
    refine ⟨_, rfl, ?_⟩
    simp only [h.tdesc_current ht, Ctx.scratchTile_ok htile, h.src, bind, Except.bind, limit_ok hok]
    rfl
  case h_11 k ss sd sz ab =>
    simp only [Option.ite_none_right_eq_some, Option.some.injEq] at hr
    obtain ⟨hok, rfl⟩ := hr
    refine ⟨_, rfl, ?_⟩
    simp only [decide_eq_true_eq] at hok
    simp only [h.src, bind, Except.bind]
    rw [limit_ok]
    · rfl
    · simp only [Bool.and_eq_true, decide_eq_true_eq]
      simp only [posRow, posCol, fld, bits]
      omega
  case h_12 => cases hr

/-- A pump command of at most 2^24 - 1 steps (R272). -/
theorem pumpLimit_ok {k : CmdKind} (h : k.total < 2 ^ 24) : pumpLimit k = .ok () := limit_ok (by simpa using Nat.le_of_lt_succ h)

theorem AtRest.pumpRule_puts (h : AtRest s c) (ht : c.tilesCurrent) {i : Instr} {r : EngRule} (hr : c.pumpRule i = some r) :
    Puts s c i r := by
  unfold Ctx.pumpRule at hr
  split at hr
  case h_1 =>
    simp only [Option.bind_eq_some_iff, Option.ite_none_right_eq_some, Option.some.injEq] at hr
    obtain ⟨a, ha, b, hb, hok, rfl⟩ := hr
    obtain ⟨hl, hn⟩ := Bool.and_eq_true_iff.mp hok
    refine ⟨_, rfl, ?_⟩
    simp only [h.tdesc_current ht, Ctx.scratchTile_ok ha, Ctx.scratchTile_ok hb, h.src, bind, Except.bind, limit_ok hl, Ctx.rm_fun,
      pumpLimit_ok (of_decide_eq_true hn)]
    rfl
  case h_2 =>
    simp only [Option.bind_eq_some_iff, Option.ite_none_right_eq_some, Option.some.injEq] at hr
    obtain ⟨a, ha, b, hb, hok, rfl⟩ := hr
    obtain ⟨hl, hn⟩ := Bool.and_eq_true_iff.mp hok
    refine ⟨_, rfl, ?_⟩
    simp only [h.tdesc_current ht, Ctx.tile_ok ha, Ctx.tile_ok hb, bind, Except.bind, limit_ok hl, pumpLimit_ok (of_decide_eq_true hn)]
    rfl
  case h_3 k rnd sc ta tb ab =>
    simp only [Option.bind_eq_some_iff, Option.ite_none_right_eq_some, Option.some.injEq] at hr
    obtain ⟨a, ha, b, hb, hok, rfl⟩ := hr
    simp only [← and_assoc] at hok
    obtain ⟨hl, hn⟩ := hok
    refine ⟨_, rfl, ?_⟩
    simp only [h.tdesc_current ht, Ctx.scratchTile_ok ha, Ctx.scratchTile_ok hb, h.src, bind, Except.bind, Ctx.rm_fun]
    rw [limit_ok, pumpLimit_ok hn]
    · rfl
    · simp only [Bool.and_eq_true, Bool.or_eq_true, decide_eq_true_eq, beq_iff_eq]
      simpa only [fld, bits, Nat.reduceAdd, Nat.reduceSub, Nat.reducePow, Nat.div_one] using hl
  case h_4 k sd ss sl ab =>
    simp only [Option.ite_none_right_eq_some, Option.some.injEq] at hr
    obtain ⟨⟨h0, hn, hd, hs⟩, rfl⟩ := hr
    refine ⟨_, rfl, ?_⟩
    simp only [h.src, bind, Except.bind, limit_ok (decide_eq_true hn), Ctx.copyRange_ok hd, Ctx.copyRange_ok hs, pure, Except.pure,
      if_neg (Nat.pos_iff_ne_zero.mp h0)]
  case h_5 =>
    simp only [Option.bind_eq_some_iff, Option.ite_none_right_eq_some, Option.some.injEq] at hr
    obtain ⟨a, ha, b, hb, hok, rfl⟩ := hr
    refine ⟨_, rfl, ?_⟩
    simp only [h.tdesc_current ht, Ctx.scratchTile_ok ha, Ctx.tile_ok hb, bind, Except.bind, limit_ok hok]
    rfl
  case h_6 k d so ts sk =>
    simp only [Option.bind_eq_some_iff, Option.ite_none_right_eq_some, Option.some.injEq, Bool.and_assoc, Bool.and_eq_true (_ == _),
      beq_iff_eq] at hr
    obtain ⟨a, ha, ⟨hm, hok⟩, rfl⟩ := hr
    refine ⟨_, rfl, ?_⟩
    have ho : fld (c.val so) 63 32 = (c.val so).toNat / 2 ^ 32 := Nat.mod_eq_of_lt (by have := (c.val so).isLt; omega)
    simp only [h.tdesc_current ht, Ctx.tileIn_of_tile (Ctx.tile_ok ha) hm, h.src, h.physS, ho, bind, Except.bind]
    rw [limit_ok]
    · rfl
    · simpa only [Bool.and_assoc] using hok
  case h_7 => cases hr

theorem engineIssue : Claims.EngineIssue := by
  intro s c i r o h hr hg ht hm he ho hq
  have hp : Puts s c i r := hr.elim (h.matrixRule_puts ht) (h.pumpRule_puts ht)
  rw [h.puts_exec hp hg hm he ho hq, h.submit_eq, h.command_eq]

/-! ### The place in the queue (R263, R295) -/

/-- A command stands before the first of its cycle that its word's slice precedes, and behind all that stand before that one. -/
theorem enterCmd_place (copy : Bool) (cmd : Cmd) (q : List Cmd) :
    ∃ before after, q = before ++ after ∧ enterCmd copy cmd q = before ++ cmd :: after
      ∧ (∀ e ∈ before, cmd.enters e copy = false) ∧ ∀ e, after.head? = some e → cmd.enters e copy = true := by
  induction q with
  | nil => exact ⟨[], [], by simp [enterCmd]⟩
  | cons e es ih =>
    by_cases he : cmd.enters e copy = true
    · exact ⟨[], e :: es, by simp [enterCmd, he]⟩
    · obtain ⟨before, after, hq, henter, hb, ha⟩ := ih
      refine ⟨e :: before, after, by rw [hq, List.cons_append], ?_, ?_, ha⟩
      · rw [enterCmd, if_neg he, henter, List.cons_append]
      · intro x hx
        rcases List.mem_cons.mp hx with rfl | hx
        · exact Bool.eq_false_iff.mpr he
        · exact hb x hx

theorem Cmd.enters_iff (cmd e : Cmd) (copy : Bool) : cmd.enters e copy = true
    ↔ e.at_ = cmd.at_ ∧ if copy then cmd.slice % 256 < e.slice % 256 else e.block = cmd.block ∧ cmd.slice < e.slice := by
  cases copy <;> simp [Cmd.enters]

/-- A queue whose first command was issued in this cycle has not begun it (R263). -/
theorem State.headCmd_early {core : Nat} {copy : Bool} {cmd : Cmd} {rest : List Cmd}
    (hq : (if copy then (s.core core).copyq else (s.core core).cmdq) = cmd :: rest) (hl : s.now < cmd.at_) :
    s.headCmd core copy = none := by
  simp only [State.headCmd, hq, List.head?_cons]
  split
  · rfl
  · rw [if_pos (by simp [hl])]

theorem engineOrder : Claims.EngineOrder := by
  refine ⟨fun copy cmd q => ?_, fun s core copy cmd rest hq hl => ?_⟩
  · obtain ⟨before, after, hq, he, hb, ha⟩ := enterCmd_place copy cmd q
    refine ⟨before, after, hq, he, fun e hm hx => ?_, fun e hh => (cmd.enters_iff e copy).mp (ha e hh)⟩
    exact absurd ((cmd.enters_iff e copy).mpr hx) (Bool.eq_false_iff.mp (hb e hm))
  · have hn : s.headCmd core copy = none := State.headCmd_early hq hl
    have pump (hc : copy = false) (go : Cmd → Block → Core → Option State) : pumpStep core s go = .next s := by
      subst hc
      simp only [pumpStep, hn]
    refine ⟨?_, ?_, fun hc => ⟨(pump hc _ : execFill core s = _), (pump hc _ : execStream core s = _),
      (pump hc _ : execScale core s = _), (pump hc _ : execCopy core s = _)⟩⟩
    · change execEngineCommandCompletion core copy s = _
      simp only [execEngineCommandCompletion, hn]
    · rintro rfl
      change execCopyQueueStep core s = _
      simp only [execCopyQueueStep, hn]

/-! ### Tile descriptors (R154, R286) -/

theorem State.withClocks_self (s : State) : s.withClocks s = s := by
  have hd : Vector.ofFn (fun e : Fin 4 => s.dies[e]) = s.dies := Vector.ofFn_getElem
  exact congrArg (fun ds => { s with dies := ds }) hd

/-- A write to a place that is not memory leaves no die. -/
theorem State.noteWrite_local (s : State) (w : Writer) (cells : List (Loc × Nat)) :
    ∃ ps n, s.noteWrite w cells [] = { s with past := ps, stamp := n } := by
  unfold State.noteWrite
  split
  · exact ⟨s.past, s.stamp, rfl⟩
  · simp only [List.filter_nil, List.isEmpty_nil, Bool.not_true, Bool.false_and, Bool.or_self, Bool.false_eq_true, if_false,
      List.foldl_nil, State.withClocks_self]
    exact ⟨_, _, rfl⟩

/-- The block of a slice once a tile descriptor has been written (R154). -/
def Ctx.tdescWritten (c : Ctx) (t : TReg) (v : BitVec 128) : Block :=
  { c.b with tdesc := c.b.tdesc.set t.val v, tdAt := Table.put c.b.tdAt t.val (c.s.now, c.s.cur) }

/-- What TDSET leaves: the descriptor and the time of its write in the block, and the slice gone on. -/
theorem AtRest.putTdesc_eq (h : AtRest s c) (l : Loc) (t : TReg) (v : BitVec 128) (m : Bool) :
    ∃ ps n, c.putTdesc l t.val v m = { s with
      slices := Table.put s.slices s.cur { c.next with seq := c.x.seq + 1 }
      blocks := Table.put s.blocks (keyBlock s.cur) (c.tdescWritten t v), past := ps, stamp := n } := by
  obtain ⟨hs, hk, hx, hb⟩ := State.ctx_eq h.here
  obtain ⟨ps, n, hn⟩ := s.noteWrite_local (c.writer .ls c.x.seq .squad []) [(l, s.atLoc l)]
  have hset : Vector.ofFn (fun i : Fin 16 => if i.val = t.val then v else c.b.tdesc[i]) = c.b.tdesc.set t.val v := by
    ext i hi
    simp [Vector.getElem_set, eq_comm]
  have hput : c.putTdesc l t.val v m = (State.withSlice
      { s with blocks := Table.put s.blocks (keyBlock s.cur) (c.tdescWritten t v), past := ps, stamp := n } c.x.wrote).finish s.cur m := by
    simp only [Ctx.putTdesc, hs, hk, hn, State.modBlock, hb, hset, State.modSlice, hx, Ctx.tdescWritten]
    rfl
  refine ⟨ps, n, ?_⟩
  rw [hput, State.finish_plain (x := c.x.wrote) (b := c.tdescWritten t v) m (State.withSlice_find_self _ _) (by simp) h.unspliced
    h.noOps h.noPend h.noReport]
  simp [State.withSlice, Table.put_put, Ctx.next, Slice.wrote]

theorem tileDescriptors : Claims.TileDescriptors := by
  intro s c k t h hg
  obtain ⟨hs, hk, hx, hb⟩ := State.ctx_eq h.here
  have hissue (body : Ctx → State) : issue s (engChk false) body = .next (body c) :=
    issue_rest h _ _ rfl rfl (WordChk.permits_unrestricted _ _ rfl rfl rfl) (by simp [engChk])
  refine ⟨fun a b k' hf hlt => ?_, fun a b hf => ?_, fun hi d ht => ?_⟩
  · change execTdset k t a b s = _
    simp only [execTdset, hissue, hg, if_true, h.physT, hf, hs, hk, hlt, and_self, Ctx.stay]
  · have hv : (c.src a).setWidth 128 ||| ((c.src b).setWidth 128 <<< 64) = c.val b ++ c.val a := by
      rw [h.src, h.src]
      refine BitVec.eq_of_getLsbD_eq fun i hi => ?_
      simp only [BitVec.getLsbD_or, BitVec.getLsbD_setWidth, BitVec.getLsbD_shiftLeft, BitVec.getLsbD_append]
      by_cases h64 : i < 64
      · simp [h64, hi]
      · simp [h64, hi, BitVec.getLsbD_of_ge _ _ (Nat.not_lt.mp h64), show i - 64 < 128 by omega]
    obtain ⟨ps, n, hput⟩ := h.putTdesc_eq (.tdesc (keyBlock c.k) t.val) t (c.val b ++ c.val a) k.m
    have he : exec (.tdset k t a b) s = .next (c.putTdesc (.tdesc (keyBlock c.k) t.val) t.val (c.val b ++ c.val a) k.m) := by
      change execTdset k t a b s = _
      simp only [execTdset, hissue, hg, if_true, h.physT, hv]
      split
      · rename_i t' k' hfind
        rw [if_neg]
        rintro ⟨rfl, hlt⟩
        rw [hs] at hfind
        exact hf k' hfind (hk ▸ hlt)
      · rfl
    refine ⟨_, he, ?_⟩
    rw [hput]
    refine ⟨Table.find_put_self _ _ _, by rw [Ctx.tdescWritten, hs], fun j hj => Table.find_put_other _ _ hj, rfl, rfl, rfl, rfl, rfl, rfl⟩
  · change execTdget k hi d t s = _
    simp only [execTdget, hissue, hg, if_true, h.tdesc_current ht]
    rw [h.done _ (c.x.withS d (if hi then (c.b.tdesc[t] >>> 64).setWidth 64 else c.b.tdesc[t].setWidth 64)) (h.applyTo_short d _)
      h.unspliced h.noOps h.noPend h.noReport]
    rfl

/-- Settles O34: an engine word whose checks pass submits its rule's command, which stands in the order of its cycle; a descriptor is
written and read in the block's record. -/
theorem engineWords : Obligations.EngineWords := ⟨engineIssue, engineOrder, tileDescriptors⟩

end Sys2Proof.Machine

/-! Proofs: what the queue core of a die leaves of the state when it reads a packet (R163, R167, R361, R375, R378, R441). -/

namespace Sys2Proof.Machine

variable {s t u : State}

/-! ### Committed images (R361, R367) -/

/-- `t` is `u` but for what the committed images of its chips hold. -/
structure State.SameButImages (t u : State) : Prop where
  only : ∃ cs, t = { u with chips := cs }
  chip : ∀ v, ∃ i, t.chip v = { u.chip v with committed := i }

theorem State.SameButImages.refl (t : State) : t.SameButImages t := ⟨⟨t.chips, rfl⟩, fun v => ⟨(t.chip v).committed, rfl⟩⟩

/-- Giving a chip another committed image changes nothing else. -/
theorem State.sameButImages_modChip (t : State) (v : Nat) (i : Option Image) :
    (t.modChip v (fun c => { c with committed := i })).SameButImages t := by
  refine ⟨⟨_, rfl⟩, fun n => ?_⟩
  by_cases hn : n = v
  · subst hn
    exact ⟨i, State.modChip_chip_self _ _ _⟩
  · exact ⟨_, State.modChip_chip_other _ _ hn⟩

theorem State.alsoInImage_same (s : State) (v : Nat) (bound : Bool) (f : State → State) :
    (s.alsoInImage v bound f).SameButImages (f s) := by
  unfold State.alsoInImage
  split
  · split
    · exact .refl _
    · exact State.sameButImages_modChip _ _ _
  · exact .refl _

theorem State.queueStep_same (s : State) (home : QRef) (h : State → State) : (s.queueStep home h).SameButImages (h s) := by
  cases home with
  | vf f q => exact s.alsoInImage_same _ _ _
  | steward d => exact .refl _

theorem State.SameButImages.fields (h : t.SameButImages u) :
    t.mem = u.mem ∧ t.slices = u.slices ∧ t.blocks = u.blocks ∧ t.grids = u.grids ∧ t.dies = u.dies ∧ t.dev = u.dev
      ∧ t.lineKey = u.lineKey := by
  obtain ⟨cs, rfl⟩ := h.only
  exact ⟨rfl, rfl, rfl, rfl, rfl, rfl, rfl⟩

theorem State.SameButImages.queue (h : t.SameButImages u) (f q : Nat) : t.queue f q = u.queue f q := by
  obtain ⟨i, hi⟩ := h.chip f
  simp only [State.queue, hi]

/-! ### Queues (R378) -/

@[simp] theorem State.modQueue_queue_self (s : State) (f q : Nat) (h : Queue → Queue) : (s.modQueue f q h).queue f q = h (s.queue f q) := by
  simp [State.queue, State.modQueue]

/-- Changing a queue changes the queues of its chip alone. -/
theorem State.modQueue_chip (s : State) (f q : Nat) (h : Queue → Queue) (v : Nat) :
    ∃ qs, (s.modQueue f q h).chip v = { s.chip v with queues := qs } := by
  by_cases hv : v = f
  · subst hv
    exact ⟨_, State.modChip_chip_self _ _ _⟩
  · exact ⟨_, State.modChip_chip_other _ _ hv⟩

/-- A queue that a failed packet puts in ERROR (R167, R378). -/
def Queue.failed (u : Queue) : Queue :=
  { u with state := match u.state with
      | .idle | .running => .error
      | x => x }

@[simp] theorem State.failQueue_queue (s : State) (f q : Fin 64) :
    (s.failQueue (.vf f q)).queue f.val q.val = (s.queue f.val q.val).failed := State.modQueue_queue_self _ _ _ _

theorem Queue.failed_running {u : Queue} (h : u.state = .running) : u.failed.state = .error := by simp [Queue.failed, h]

/-- A queue takes the state that its indices and binding give it, and nothing else of it changes. -/
theorem State.refreshQueue_queue (s : State) (f q : Nat) :
    (s.refreshQueue f q).queue f q = { s.queue f q with state := s.queueState f q (s.queue f q) } := State.modQueue_queue_self _ _ _ _

/-- A queue in ERROR stays there. -/
theorem State.queueState_error {f q : Nat} {u : Queue} (h : u.state = .error) : s.queueState f q u = .error := by
  simp [State.queueState, h]

/-- Only a running queue core acts for a queue. -/
theorem State.coreActs_running {f q : Fin 64} (h : s.coreActs (.vf f q) = true) : (s.queue f.val q.val).state = .running := by
  simp only [State.coreActs, Bool.and_eq_true, beq_iff_eq] at h
  obtain ⟨⟨⟨⟨⟨hr, -⟩, -⟩, -⟩, -⟩, -⟩ := h
  exact hr

/-! ### What a packet is checked against (R163, R165) -/

theorem State.recordOf_congr (hd : t.dev = s.dev) (hk : ∀ v, (t.chip v).kernels = (s.chip v).kernels) (home : QRef) (p : BitVec 512) :
    t.recordOf home p = s.recordOf home p := by
  cases home <;> simp [State.recordOf, hd, hk]

theorem State.scopesOk_congr (hd : t.dev = s.dev) (v : Nat) (p : BitVec 512) (r : BitVec 1024) : t.scopesOk v p r = s.scopesOk v p r := by
  have h (c : Scope) : t.scopeDenied v c = s.scopeDenied v c := by cases c <;> simp [State.scopeDenied, State.frec, hd]
  simp [State.scopesOk, h]

theorem State.pktOk_congr (hd : t.dev = s.dev) (hk : ∀ v, (t.chip v).kernels = (s.chip v).kernels) (home : QRef) (p : BitVec 512) :
    t.pktOk home p = s.pktOk home p := by
  simp only [State.pktOk, State.recordOf_congr hd hk]

/-! ### A packet enters its queue (R163, R167) -/

/-- A packet other than a NOP enters the list of its queue as the grid that it leaves READ as. -/
theorem State.enlist_grids (s : State) (home : QRef) (idx : Nat) {p : BitVec 512} (hp : p ≠ 3) :
    (s.enlist home idx p).grids = Table.put s.grids s.dev.nextGid (s.readGrid home idx p) := by
  unfold State.enlist
  rw [if_neg hp]
  cases home <;> simp only [State.modPackets, State.failQueue] <;> split <;> simp [State.modQueue]

/-- Entering a list changes no memory, slice or block, whatever the packet. -/
theorem State.enlist_frame (s : State) (home : QRef) (idx : Nat) (p : BitVec 512) :
    (s.enlist home idx p).mem = s.mem ∧ (s.enlist home idx p).slices = s.slices ∧ (s.enlist home idx p).blocks = s.blocks := by
  unfold State.enlist
  split
  · exact ⟨rfl, rfl, rfl⟩
  · cases home <;> simp only [State.modPackets, State.failQueue] <;> split <;> simp [State.modQueue]

/-- A well-formed NOP completes at once (R163). -/
theorem State.enlist_nop (s : State) (home : QRef) (idx : Nat) : s.enlist home idx 3 = s := if_pos rfl

/-- The queue of a function after a packet other than a NOP has entered its list. -/
theorem State.enlist_queue (s : State) (f q : Fin 64) (idx : Nat) {p : BitVec 512} (hp : p ≠ 3) :
    (s.enlist (.vf f q) idx p).queue f.val q.val =
      let u : Queue := { s.queue f.val q.val with pkts := (s.queue f.val q.val).pkts ++ [s.dev.nextGid] }
      if (s.readGrid (.vf f q) idx p).state = .killing then u.failed else u := by
  unfold State.enlist
  rw [if_neg hp]
  have hq : State.queue ((({ s with grids := Table.put s.grids s.dev.nextGid (s.readGrid (.vf f q) idx p) }).modDev (fun d =>
      { d with nextGid := s.dev.nextGid + 1 })).modPackets (.vf f q) (fun l => l ++ [s.dev.nextGid])) f.val q.val
      = { s.queue f.val q.val with pkts := (s.queue f.val q.val).pkts ++ [s.dev.nextGid] } := State.modQueue_queue_self _ _ _ _
  simp only
  split
  · rw [State.failQueue_queue, hq]
  · exact hq

/-! ### The ring of a queue (R163, R167, R441) -/

/-- A read of the queue core that translates and meets no poison. -/
theorem State.qcRead_ok {v die site a n : Nat} {x : Xlat} (ha : a < 0x7FFFFF0000000000)
    (hx : s.translate v (s.die die).tlb site a .read = .ok x) (hp : s.linePoisoned x.pa n = false) :
    s.qcRead v die site a n = .ok (s.readBytes (s.keyTag v) x.pa n, s.fillDieTlb die x.used) := by
  simp [State.qcRead, State.qcPieces, isVirtual, ha, hx, hp]

/-- A read of the queue core that no stage-1 table maps. -/
theorem State.qcRead_unmapped {v die site a n l : Nat} (ha : a < 0x7FFFFF0000000000)
    (hx : s.translate v (s.die die).tlb site a .read = .error (.stage1 l)) : s.qcRead v die site a n = .error (.stage1 l) := by
  simp [State.qcRead, State.qcPieces, isVirtual, ha, hx]

@[simp] theorem State.fillDieTlb_dev (s : State) (die : Nat) (used : List TlbEntry) : (s.fillDieTlb die used).dev = s.dev :=
  State.modDie_dev _ _ _
@[simp] theorem State.fillDieTlb_chips (s : State) (die : Nat) (used : List TlbEntry) : (s.fillDieTlb die used).chips = s.chips :=
  State.modDie_chips _ _ _
@[simp] theorem State.fillDieTlb_grids (s : State) (die : Nat) (used : List TlbEntry) : (s.fillDieTlb die used).grids = s.grids :=
  State.modDie_grids _ _ _
@[simp] theorem State.fillDieTlb_mem (s : State) (die : Nat) (used : List TlbEntry) : (s.fillDieTlb die used).mem = s.mem :=
  State.modDie_mem _ _ _
@[simp] theorem State.fillDieTlb_slices (s : State) (die : Nat) (used : List TlbEntry) : (s.fillDieTlb die used).slices = s.slices :=
  State.modDie_slices _ _ _
@[simp] theorem State.fillDieTlb_blocks (s : State) (die : Nat) (used : List TlbEntry) : (s.fillDieTlb die used).blocks = s.blocks :=
  State.modDie_blocks _ _ _

@[simp] theorem State.fillDieTlb_queue (s : State) (die : Nat) (used : List TlbEntry) (f q : Nat) :
    (s.fillDieTlb die used).queue f q = s.queue f q := by simp [State.queue, State.chip]

/-- The state once the queue core has read the packet at RIDX: its die's TLB may hold the translation, and RIDX has risen. -/
def State.packetTaken (s : State) (f q : Fin 64) (x : Xlat) : State :=
  (s.fillDieTlb (s.queueDie (.vf f q)) x.used).modQueue f.val q.val (fun u => { u with ridx := u.ridx + 1 })

theorem State.packetTaken_frame (s : State) (f q : Fin 64) (x : Xlat) :
    (s.packetTaken f q x).mem = s.mem ∧ (s.packetTaken f q x).slices = s.slices ∧ (s.packetTaken f q x).blocks = s.blocks
      ∧ (s.packetTaken f q x).grids = s.grids ∧ (s.packetTaken f q x).dev = s.dev
      ∧ (s.packetTaken f q x).queue f.val q.val = { s.queue f.val q.val with ridx := (s.queue f.val q.val).ridx + 1 } := by
  refine ⟨?_, ?_, ?_, ?_, ?_, ?_⟩
  case refine_6 => rw [State.packetTaken, State.modQueue_queue_self, State.fillDieTlb_queue]
  all_goals simp [State.packetTaken, State.modQueue]

theorem State.packetTaken_kernels (s : State) (f q : Fin 64) (x : Xlat) (v : Nat) :
    ((s.packetTaken f q x).chip v).kernels = (s.chip v).kernels := by
  obtain ⟨qs, h⟩ := (s.fillDieTlb (s.queueDie (.vf f q)) x.used).modQueue_chip f.val q.val (fun u => { u with ridx := u.ridx + 1 }) v
  rw [State.packetTaken, h]
  simp [State.chip]

/-- A packet that the queue core of a RUNNING queue finds at RIDX enters the queue's list, and the queue takes its state. -/
theorem State.packetRead_eq {f q : Fin 64} {u : Queue} {x : Xlat} {p : BitVec 512} (hu : s.queue f.val q.val = u)
    (hp : BitVec.ofNat 512 (leNat (s.readBytes (s.keyTag f.val) x.pa 64)) = p) (ha : s.coreActs (.vf f q) = true)
    (hw : u.widx ≠ u.ridx) (hv : u.slotAddr u.ridx < 0x7FFFFF0000000000)
    (hx : s.translate f.val (s.die (s.queueDie (.vf f q))).tlb 90000 (u.slotAddr u.ridx) .read = .ok x)
    (hl : s.linePoisoned x.pa 64 = false) :
    ∃ t, exec (.packetRead (.vf f q)) s = .next t
      ∧ t.SameButImages (((s.packetTaken f q x).enlist (.vf f q) u.ridx.toNat p).refreshQueue f.val q.val) := by
  have hread : s.readNext f q = ((s.packetTaken f q x).enlist (.vf f q) u.ridx.toNat p).refreshQueue f.val q.val := by
    rw [State.readNext, hu, if_neg hw]
    simp only [State.readRing, hu, State.qcRead_ok hv hx hl, hp]
    rfl
  refine ⟨s.queueStep (.vf f q) (fun t => t.readNext f q), ?_, ?_⟩
  · change execPacketRead (.vf f q) s = _
    simp [execPacketRead, ha]
  · rw [← hread]
    exact s.queueStep_same _ _

theorem State.refreshQueue_frame (s : State) (f q : Nat) :
    (s.refreshQueue f q).mem = s.mem ∧ (s.refreshQueue f q).slices = s.slices ∧ (s.refreshQueue f q).blocks = s.blocks
      ∧ (s.refreshQueue f q).grids = s.grids := ⟨rfl, rfl, rfl, rfl⟩

/-- The grid that a packet leaves READ as, by the outcome of its checks (R163, R165, R167). -/
theorem State.readGrid_state (s : State) (home : QRef) (idx : Nat) (p : BitVec 512) :
    let g := s.readGrid home idx p
    let r := (s.recordOf home p).getD 0
    (s.pktOk home p = true → s.scopesOk (packetCtx home p) p r = true → g.state = .waiting ∧ g.status = 0)
      ∧ (s.pktOk home p = true → s.scopesOk (packetCtx home p) p r = false → g.state = .killing ∧ g.status = 6)
      ∧ (s.pktOk home p = false → g.state = .killing ∧ g.status = 5) := by
  refine ⟨fun ho hs => ?_, fun ho hs => ?_, fun ho => ?_⟩ <;> simp only [State.readGrid, *] <;> exact ⟨rfl, rfl⟩

theorem ringReads {f q : Fin 64} {u : Queue} {x : Xlat} {p : BitVec 512} (hu : s.queue f.val q.val = u)
    (hp : BitVec.ofNat 512 (leNat (s.readBytes (s.keyTag f.val) x.pa 64)) = p) (ha : s.coreActs (.vf f q) = true)
    (hw : u.widx ≠ u.ridx) (hv : u.slotAddr u.ridx < 0x7FFFFF0000000000)
    (hx : s.translate f.val (s.die (s.queueDie (.vf f q))).tlb 90000 (u.slotAddr u.ridx) .read = .ok x)
    (hl : s.linePoisoned x.pa 64 = false) :
    let r := (s.recordOf (.vf f q) p).getD 0
    ∃ t, exec (.packetRead (.vf f q)) s = .next t ∧ t.mem = s.mem ∧ t.slices = s.slices ∧ t.blocks = s.blocks
      ∧ (t.queue f.val q.val).ridx = u.ridx + 1 ∧ (t.queue f.val q.val).widx = u.widx
      ∧ (p = 3 → t.grids = s.grids ∧ (t.queue f.val q.val).pkts = u.pkts)
      ∧ (p ≠ 3 → s.pktOk (.vf f q) p = false ∨ s.scopesOk f.val p r = false → (t.queue f.val q.val).state = .error)
      ∧ (p ≠ 3 → (t.queue f.val q.val).pkts = u.pkts ++ [s.dev.nextGid]
          ∧ ∃ g, Table.find t.grids s.dev.nextGid = some g
            ∧ g.home = .vf f q ∧ g.ctx = f.val ∧ g.idx = u.ridx.toNat ∧ g.pkt = p ∧ g.lrec = r ∧ g.undisp = []
            ∧ (s.pktOk (.vf f q) p = true → s.scopesOk f.val p r = true → g.state = .waiting ∧ g.status = 0)
            ∧ (s.pktOk (.vf f q) p = true → s.scopesOk f.val p r = false → g.state = .killing ∧ g.status = 6)
            ∧ (s.pktOk (.vf f q) p = false → g.state = .killing ∧ g.status = 5)) := by
  intro r
  obtain ⟨t, he, ht⟩ := State.packetRead_eq hu hp ha hw hv hx hl
  obtain ⟨hm0, hs0, hb0, hg0, hd0, hq0⟩ := s.packetTaken_frame f q x
  have hk0 := s.packetTaken_kernels f q x
  obtain ⟨hm, hs, hb, hg, -⟩ := ht.fields
  have hq := ht.queue f.val q.val
  rw [State.refreshQueue_queue] at hq
  rw [hu] at hq0
  generalize s.packetTaken f q x = s0 at *
  obtain ⟨hm1, hs1, hb1⟩ := s0.enlist_frame (.vf f q) u.ridx.toNat p
  obtain ⟨hm2, hs2, hb2, hg2⟩ := (s0.enlist (.vf f q) u.ridx.toNat p).refreshQueue_frame f.val q.val
  have hrun : u.state = .running := hu ▸ State.coreActs_running ha
  have hrec : s0.recordOf (.vf f q) p = s.recordOf (.vf f q) p := State.recordOf_congr hd0 hk0 _ _
  obtain ⟨hok, hden, hbad⟩ := s0.readGrid_state (.vf f q) u.ridx.toNat p
  rw [hrec, State.pktOk_congr hd0 hk0, State.scopesOk_congr hd0] at hok hden
  rw [State.pktOk_congr hd0 hk0] at hbad
  have hread (hp3 : p ≠ 3) := s0.enlist_queue f q u.ridx.toNat hp3
  rw [hq0, hd0] at hread
  have hring : ((s0.enlist (.vf f q) u.ridx.toNat p).queue f.val q.val).ridx = u.ridx + 1
      ∧ ((s0.enlist (.vf f q) u.ridx.toNat p).queue f.val q.val).widx = u.widx := by
    by_cases h3 : p = 3
    · rw [h3, State.enlist_nop, hq0]
      exact ⟨rfl, rfl⟩
    · rw [hread h3]
      split <;> exact ⟨rfl, rfl⟩
  refine ⟨t, he, by rw [hm, hm2, hm1, hm0], by rw [hs, hs2, hs1, hs0], by rw [hb, hb2, hb1, hb0], by rw [hq]; exact hring.1,
    by rw [hq]; exact hring.2, fun h3 => ?_, fun h3 hf => ?_,
    fun h3 => ⟨?_, s0.readGrid (.vf f q) u.ridx.toNat p, ?_, rfl, rfl, rfl, rfl, congrArg (Option.getD · 0) hrec, rfl, hok, hden, hbad⟩⟩
  · rw [hg, hg2, hq, h3, State.enlist_nop, hq0, hg0]
    exact ⟨rfl, rfl⟩
  · have hkill : (s0.readGrid (.vf f q) u.ridx.toNat p).state = .killing := by
      cases hpk : s.pktOk (.vf f q) p with
      | false => exact (hbad hpk).1
      | true => exact (hden hpk (hf.resolve_left (by simp [hpk]))).1
    rw [hq, hread h3, if_pos hkill]
    exact State.queueState_error (Queue.failed_running hrun)
  · rw [hq, hread h3]
    split <;> rfl
  · rw [hg, hg2, s0.enlist_grids _ _ h3, hd0, Table.find_put_self]

/-- The next packet of a steward queue enters its list (R375). -/
theorem stewardReads {d : Fin 4} {p : BitVec 512} {ps : List (BitVec 512)} (hs : s.dev.shutdown = false) (hf : s.bootFailed = false)
    (hq : (s.die d.val).steward = p :: ps) (hp : p ≠ 3) :
    ∃ t g, exec (.packetRead (.steward d)) s = .next t ∧ (t.die d.val).steward = ps ∧ t.mem = s.mem
      ∧ Table.find t.grids s.dev.nextGid = some g ∧ g.home = .steward d ∧ g.pkt = p
      ∧ (t.die d.val).stewardPkts = (s.die d.val).stewardPkts ++ [s.dev.nextGid] := by
  have he : exec (.packetRead (.steward d)) s = .next (((s.modDie d.val (fun x => { x with steward := ps })).enlist (.steward d)
      s.dev.nextGid p).modDev (fun v =>
        { v with steward := { v.steward with gid := if v.steward.busy then some s.dev.nextGid else none } })) := by
    change execPacketRead (.steward d) s = _
    simp [execPacketRead, State.coreActs, hs, hf, hq]
  have hdev : (s.modDie d.val (fun x => { x with steward := ps })).dev.nextGid = s.dev.nextGid := by rw [State.modDie_dev]
  have hdie : ((s.modDie d.val (fun x => { x with steward := ps })).enlist (.steward d) s.dev.nextGid p).die d.val
      = { s.die d.val with steward := ps, stewardPkts := (s.die d.val).stewardPkts ++ [s.dev.nextGid] } := by
    have hself : (s.modDie d.val (fun x => { x with steward := ps })).die d.val = { s.die d.val with steward := ps } := by
      rw [State.modDie_die, if_pos ⟨rfl, d.isLt⟩]
    simp only [State.enlist, if_neg hp, State.failQueue, ite_self, State.modPackets]
    rw [State.modDie_die, if_pos ⟨rfl, d.isLt⟩, hdev]
    exact congrArg (fun x : Die => { x with stewardPkts := x.stewardPkts ++ [s.dev.nextGid] }) hself
  refine ⟨_, (s.modDie d.val (fun x => { x with steward := ps })).readGrid (.steward d) s.dev.nextGid p, he, ?_, ?_, ?_, rfl, rfl, ?_⟩
  · exact congrArg Die.steward hdie
  · exact (State.enlist_frame _ _ _ _).1.trans (State.modDie_mem _ _ _)
  · rw [State.modDev_grids, State.enlist_grids _ _ _ hp, hdev, Table.find_put_self]
  · exact congrArg Die.stewardPkts hdie

theorem packetReads : Claims.PacketReads :=
  ⟨fun _ _ _ _ => ringReads rfl rfl, fun _ _ _ _ => stewardReads⟩

end Sys2Proof.Machine

/-! Proofs: a packet waits and starts, or ends before it has a block (R164–R167, R312, R381, R383). -/

namespace Sys2Proof.Machine

variable {s : State} {gid : Nat} {g : Grid}

/-! ### Waiting (R164, R165) -/

/-- A packet that ends from WAITING has its status, and its queue, which ran, is in ERROR (R167, R378). -/
theorem State.failPacket_ends (hg : Table.find s.grids gid = some g) (ha : s.coreActs g.home = true) (status : Nat) (f : Option GridFault)
    {t : State} (ht : t.SameButImages (s.failPacket gid g.home status f)) :
    (∃ h, Table.find t.grids gid = some h ∧ h.state = .killing ∧ h.status = status)
      ∧ ∀ v q, g.home = .vf v q → (t.queue v.val q.val).state = .error := by
  obtain ⟨-, -, -, hgrids, -⟩ := ht.fields
  refine ⟨⟨g.endWith status f, ?_, rfl, rfl⟩, fun v q hv => ?_⟩
  · have hf (u : State) : (u.failQueue g.home).grids = u.grids := by cases g.home <;> rfl
    rw [hgrids, State.failPacket, hf, State.modGrid_find, if_pos rfl, hg]
    rfl
  · rw [hv] at ha
    rw [ht.queue, hv, State.failPacket, State.failQueue_queue]
    refine Queue.failed_running ?_
    have hc : (s.modGrid gid (fun g => g.endWith status f)).queue v.val q.val = s.queue v.val q.val := by
      simp only [State.queue, State.chip, State.modGrid_chips]
    rw [hc]
    exact State.coreActs_running ha

theorem State.failPacket_frame (s : State) (gid : Nat) (home : QRef) (status : Nat) (f : Option GridFault) :
    (s.failPacket gid home status f).mem = s.mem ∧ (s.failPacket gid home status f).slices = s.slices
      ∧ (s.failPacket gid home status f).blocks = s.blocks := by
  have hf (u : State) : (u.failQueue home).mem = u.mem ∧ (u.failQueue home).slices = u.slices ∧ (u.failQueue home).blocks = u.blocks := by
    cases home <;> exact ⟨rfl, rfl, rfl⟩
  obtain ⟨hm, hs, hb⟩ := hf (s.modGrid gid (fun g => g.endWith status f))
  exact ⟨hm.trans (by simp), hs.trans (by simp), hb.trans (by simp)⟩

/-- The load of WAITADDR is made for a waiting packet whose queue core acts. -/
theorem waitaddrLoad_exec (hg : Table.find s.grids gid = some g) (hw : g.waits = true) (ha : s.coreActs g.home = true)
    (hz : pktWaitAddr g.pkt ≠ 0) : exec (.waitaddrLoad gid) s = .next (s.queueStep g.home (fun t => t.loadWait gid g)) := by
  change execWaitaddrLoad gid s = _
  simp [execWaitaddrLoad, hg, hw, ha, hz]

theorem waitLoads : Claims.WaitLoads := by
  intro s gid g hg hw ha hz failed
  have he := waitaddrLoad_exec hg hw ha hz
  have hsame := s.queueStep_same g.home (fun t => t.loadWait gid g)
  refine ⟨fun hd => ?_, fun l ho hv hx => ?_, fun x ho hv hx hl => ?_⟩
  · rw [State.loadWait, hd, if_neg Bool.false_ne_true] at hsame
    exact ⟨_, he, State.failPacket_ends hg ha _ _ hsame⟩
  · rw [State.loadWait, if_pos ho, State.qcRead_unmapped hv hx] at hsame
    exact ⟨_, he, State.failPacket_ends hg ha _ _ hsame⟩
  · rw [State.loadWait, if_pos ho, State.qcRead_ok hv hx hl] at hsame
    obtain ⟨hm, hs, hb, hgr, -⟩ := hsame.fields
    refine ⟨_, he, ?_, ?_, ?_, ?_⟩
    · rw [hm]
      simp only
      split <;> simp
    · rw [hs]
      simp only
      split <;> simp
    · rw [hb]
      simp only
      split <;> simp
    · rw [hgr]
      simp only
      split
      · rw [State.modGrid_find, if_pos rfl, State.fillDieTlb_grids, hg]
        rfl
      · rw [State.fillDieTlb_grids, hg]

/-- Changing a grid that stands there is replacing it. -/
theorem State.modGrid_of_find (hg : Table.find s.grids gid = some g) (f : Grid → Grid) : s.modGrid gid f = s.modGrid gid (fun _ => f g) := by
  simp only [State.modGrid, hg]

/-! ### Starting (R164, R381, R383) -/

/-- A packet that does not begin a pair that the linker could braze starts alone (R312). -/
theorem State.braze_alone (s : State) (gid : Nat) {g : Grid} (h : pktType g.pkt ≠ 1 ∨ recSplice g.lrec = 0) : s.braze gid g = (s, false) := by
  unfold State.braze
  split
  · rfl
  · rw [if_pos h]

theorem State.mayStart_acts (h : s.mayStart gid g = true) : s.coreActs g.home = true := by
  simp only [State.mayStart, Bool.and_eq_true] at h
  obtain ⟨⟨⟨⟨-, ha⟩, -⟩, -⟩, -⟩ := h
  exact ha

/-- What the queue core does for a packet whose start conditions hold (R164, R165, R312). -/
def State.startStep (gid : Nat) (g : Grid) (t : State) : State :=
  let r := t.braze gid g
  if r.2 || !t.scopesOk g.ctx g.pkt g.lrec then r.1.failPacket gid g.home 6 none
  else r.1.startGrid gid ((Table.find r.1.grids gid).getD g)

/-- A packet that is not brazed and whose scopes are not refused starts. -/
theorem packetStart_exec (hg : Table.find s.grids gid = some g) (hm : s.mayStart gid g = true)
    (ho : s.scopesOk g.ctx g.pkt g.lrec = true) (ha : pktType g.pkt ≠ 1 ∨ recSplice g.lrec = 0) :
    ∃ t, exec (.packetStart gid) s = .next t ∧ t.SameButImages (s.startGrid gid g) := by
  have hstep : State.startStep gid g s = s.startGrid gid g := by simp [State.startStep, s.braze_alone gid ha, ho, hg]
  refine ⟨s.queueStep g.home (State.startStep gid g), ?_, hstep ▸ s.queueStep_same _ _⟩
  change execPacketStart gid s = _
  simp only [execPacketStart, hg, hm, if_true]
  rfl

theorem State.applyKnown_frame (s : State) (d : Nat) (ks : List Known) :
    (s.applyKnown d ks).mem = s.mem ∧ (s.applyKnown d ks).slices = s.slices ∧ (s.applyKnown d ks).blocks = s.blocks
      ∧ (s.applyKnown d ks).grids = s.grids ∧ (s.applyKnown d ks).dev = s.dev ∧ (s.applyKnown d ks).chips = s.chips
      ∧ (s.applyKnown d ks).cores = s.cores := ⟨rfl, rfl, rfl, rfl, rfl, rfl, rfl⟩

/-- A packet other than a LAUNCH drains at once (R164). -/
theorem State.startGrid_barrier (hp : pktType g.pkt ≠ 1) :
    s.startGrid gid g = s.modGrid gid (fun g => { g with state := .draining, startedAt := s.now, knows := s.startAcquire g }) := if_neg hp

/-- A LAUNCH whose blocks fit nowhere ends (R166). -/
theorem State.startGrid_unplaceable (hp : pktType g.pkt = 1) (hf : s.placeable { g with podChips := s.podChipsFor g } = false) :
    s.startGrid gid g = s.failPacket gid g.home 6 none := by
  simp [State.startGrid, hp, hf]

/-- What a LAUNCH becomes when it starts (R164, R381). -/
def State.launched (s : State) (g : Grid) : Grid :=
  let h := { g with podChips := s.podChipsFor g }
  { h with state := .dispatching, startedAt := s.now, undisp := s.sharesOf h, knows := s.startAcquire h }

/-- A LAUNCH that a core can take starts, a gang launch with the next ticket (R381, R383). -/
theorem State.startGrid_launch (hp : pktType g.pkt = 1) (hf : s.placeable { g with podChips := s.podChipsFor g } = true)
    (hg : Table.find s.grids gid = some g) :
    let t := s.startGrid gid g
    t.mem = s.mem ∧ t.slices = s.slices ∧ t.blocks = s.blocks
      ∧ Table.find t.grids gid = some { s.launched g with ticket := if s.isGang g.home then some s.dev.nextTicket else g.ticket } := by
  intro t
  have ht : t = let u := (s.modGrid gid (fun _ => s.launched g)).applyKnown (s.queueDie g.home) (s.startAcquire g)
      if s.isGang g.home then u.takeTicket gid else u := by
    simp only [t, State.startGrid, if_pos hp, if_pos hf]
    rw [State.modGrid_of_find hg]
    rfl
  rw [ht]
  obtain ⟨hm, hs, hb, hgr, hd, -⟩ :=
    (s.modGrid gid (fun _ => s.launched g)).applyKnown_frame (s.queueDie g.home) (s.startAcquire g)
  generalize (s.modGrid gid (fun _ => s.launched g)).applyKnown (s.queueDie g.home) (s.startAcquire g) = u at *
  have hfind : Table.find u.grids gid = some (s.launched g) := by rw [hgr, State.modGrid_find, if_pos rfl, hg, Option.map_some]
  have hdev : u.dev = s.dev := hd.trans (State.modGrid_dev _ _ _)
  simp only
  split_ifs with hgang
  · simp only [State.takeTicket, State.modDev_mem, State.modDev_slices, State.modDev_blocks, State.modDev_grids, State.modGrid_mem,
      State.modGrid_slices, State.modGrid_blocks, State.modGrid_find, if_true, hfind, hdev, Option.map_some]
    exact ⟨hm.trans (by simp), hs.trans (by simp), hb.trans (by simp), trivial⟩
  · exact ⟨hm.trans (by simp), hs.trans (by simp), hb.trans (by simp), hfind⟩

theorem packetStarts : Claims.PacketStarts := by
  intro s gid g hg hm ho ha h
  obtain ⟨t, he, hsame⟩ := packetStart_exec hg hm ho ha
  obtain ⟨hmem, hsl, hbl, hgr, -⟩ := hsame.fields
  by_cases hp : pktType g.pkt = 1
  · by_cases hf : s.placeable h = true
    · obtain ⟨hm', hs', hb', hg'⟩ := State.startGrid_launch hp hf hg
      exact ⟨t, he, hmem.trans hm', hsl.trans hs', hbl.trans hb', absurd hp, fun _ _ => (congrArg (Table.find · gid) hgr).trans hg',
        fun _ hn => absurd (hf.symm.trans hn) (by decide)⟩
    · have hf' : s.placeable h = false := Bool.eq_false_iff.mpr hf
      rw [State.startGrid_unplaceable hp hf'] at hsame hmem hsl hbl
      obtain ⟨hm', hs', hb'⟩ := s.failPacket_frame gid g.home 6 none
      exact ⟨t, he, hmem.trans hm', hsl.trans hs', hbl.trans hb', absurd hp, fun _ hy => absurd hy hf,
        fun _ _ => State.failPacket_ends hg (State.mayStart_acts hm) _ _ hsame⟩
  · rw [State.startGrid_barrier hp] at hmem hsl hbl hgr
    refine ⟨t, he, hmem.trans (by simp), hsl.trans (by simp), hbl.trans (by simp), fun _ => ?_, fun h1 => absurd h1 hp,
      fun h1 => absurd h1 hp⟩
    rw [hgr, State.modGrid_find, if_pos rfl, hg]
    rfl

/-- Settles O47: the queue core's step on a packet, for each outcome of its read, of its WAITADDR load and of its start. -/
theorem queueCores : Obligations.QueueCores := ⟨packetReads, waitLoads, packetStarts⟩

end Sys2Proof.Machine

/-! Proofs: ranges of undispatched blocks, and what a distributor takes of them (R381, R382). -/

namespace Sys2Proof.Machine

/-! ### Ranges of blocks (R381) -/

theorem rangeCount_eq_sum (l : List (Nat × Nat)) : rangeCount l = (l.map (fun r => r.2 - r.1)).sum := by
  have key (l : List (Nat × Nat)) (n : Nat) : l.foldl (fun n r => n + (r.2 - r.1)) n = n + (l.map (fun r => r.2 - r.1)).sum := by
    induction l generalizing n with
    | nil => simp
    | cons r l ih => rw [List.foldl_cons, ih, List.map_cons, List.sum_cons, Nat.add_assoc]
  exact (key l 0).trans (Nat.zero_add _)

theorem rangeCount_cons (r : Nat × Nat) (l : List (Nat × Nat)) : rangeCount (r :: l) = (r.2 - r.1) + rangeCount l := by
  simp [rangeCount_eq_sum]

theorem rangeCount_reverse (l : List (Nat × Nat)) : rangeCount l.reverse = rangeCount l := by
  rw [rangeCount_eq_sum, rangeCount_eq_sum, List.map_reverse, List.sum_reverse]

theorem holdsBlock_iff {l : List (Nat × Nat)} {b : Nat} : holdsBlock l b = true ↔ ∃ r ∈ l, r.1 ≤ b ∧ b < r.2 := by
  simp [holdsBlock]

theorem holdsBlock_cons (r : Nat × Nat) (l : List (Nat × Nat)) (b : Nat) :
    holdsBlock (r :: l) b = (decide (r.1 ≤ b ∧ b < r.2) || holdsBlock l b) := by
  simp [holdsBlock]

theorem holdsBlock_reverse (l : List (Nat × Nat)) (b : Nat) : holdsBlock l.reverse b = holdsBlock l b := List.any_reverse

/-- The lowest block of ascending ranges. -/
theorem takeLow_one {lo hi : Nat} (h : lo < hi) (rs : List (Nat × Nat)) :
    takeLow 1 ((lo, hi) :: rs) = ([lo], if lo + 1 < hi then (lo + 1, hi) :: rs else rs) := by
  have hk : min 1 (hi - lo) = 1 := by omega
  have h0 : takeLow 0 rs = ([], rs) := by cases rs <;> rfl
  simp [takeLow, hk, h0]

/-- Taking the highest blocks divides the blocks between what is taken and what remains. -/
theorem takeHigh_count (n : Nat) (l : List (Nat × Nat)) :
    rangeCount (takeHigh n l).1 = min n (rangeCount l) ∧ rangeCount (takeHigh n l).2 = rangeCount l - n := by
  induction l generalizing n with
  | nil => simp [takeHigh, rangeCount]
  | cons r rs ih =>
    obtain ⟨lo, hi⟩ := r
    obtain ⟨h1, h2⟩ := ih (n - (hi - lo))
    simp only [takeHigh]
    split_ifs with h0 hle
    · subst h0
      simp [rangeCount]
    · rw [rangeCount_cons, rangeCount_cons, h1, h2]
      omega
    · simp only [rangeCount_cons]
      simp only [rangeCount, List.foldl_nil]
      omega

theorem takeHigh_holds (n : Nat) (l : List (Nat × Nat)) (b : Nat) :
    holdsBlock l b = (holdsBlock (takeHigh n l).1 b || holdsBlock (takeHigh n l).2 b) := by
  induction l generalizing n with
  | nil => rfl
  | cons r rs ih =>
    obtain ⟨lo, hi⟩ := r
    simp only [takeHigh]
    split_ifs with h0 hle
    · rfl
    · rw [holdsBlock_cons, holdsBlock_cons, ih (n - (hi - lo)), Bool.or_assoc]
    · have hs : decide (lo ≤ b ∧ b < hi) = (decide (hi - n ≤ b ∧ b < hi) || decide (lo ≤ b ∧ b < hi - n)) := by
        rw [← Bool.decide_or, decide_eq_decide]
        omega
      simp only [holdsBlock_cons, hs, Bool.or_assoc]
      rfl

/-- Of descending ranges, those taken lie above all that remain. -/
theorem takeHigh_above (n : Nat) {l : List (Nat × Nat)} (h : l.Pairwise (fun a b => b.2 ≤ a.1)) {b c : Nat}
    (hb : holdsBlock (takeHigh n l).1 b = true) (hc : holdsBlock (takeHigh n l).2 c = true) : c < b := by
  induction l generalizing n with
  | nil => cases hb
  | cons r rs ih =>
    obtain ⟨lo, hi⟩ := r
    obtain ⟨hr, hrs⟩ := List.pairwise_cons.mp h
    have below (hx : holdsBlock rs c = true) : c < lo := by
      obtain ⟨a, ha, -, hlt⟩ := holdsBlock_iff.mp hx
      exact lt_of_lt_of_le hlt (hr a ha)
    simp only [takeHigh] at hb hc
    split_ifs at hb hc with h0 hle
    · cases hb
    · rw [holdsBlock_cons, Bool.or_eq_true, decide_eq_true_eq] at hb
      rcases hb with hb | hb
      · have := below (by rw [takeHigh_holds (n - (hi - lo)) rs c, hc, Bool.or_true])
        omega
      · exact ih (n - (hi - lo)) hrs hb hc
    · rw [holdsBlock_cons, Bool.or_eq_true, decide_eq_true_eq] at hb hc
      have hb' : hi - n ≤ b := (hb.resolve_right (by simp [holdsBlock])).1
      rcases hc with hc | hc
      · omega
      · have := below hc
        omega

/-! ### Stealing (R382) -/

variable {s : State} {gid : Nat} {g : Grid}

/-- The die that a distributor without blocks asks (R382). -/
theorem mem_of_stealOrder {ds : List Nat} {die d : Nat} {p : Nat → Bool}
    (h : (ds.filter (fun e => decide (die < e)) ++ ds.filter (fun e => decide (e < die))).find? p = some d) : d ≠ die := by
  have hm := List.mem_of_find?_eq_some h
  simp only [List.mem_append, List.mem_filter, decide_eq_true_eq] at hm
  omega

/-- A grid whose undispatched blocks of die d have been divided: the highest n stand at another die (R382). -/
def Grid.divided (g : Grid) (die d n : Nat) : Grid :=
  let r := takeHigh n (Table.getD g.undisp d []).reverse
  { g with undisp := Table.put (Table.put g.undisp d r.2.reverse) die r.1.reverse }

theorem Grid.divided_undisp (g : Grid) {die d : Nat} (n : Nat) (h : d ≠ die) :
    Table.getD (g.divided die d n).undisp die [] = (takeHigh n (Table.getD g.undisp d []).reverse).1.reverse
      ∧ Table.getD (g.divided die d n).undisp d [] = (takeHigh n (Table.getD g.undisp d []).reverse).2.reverse
      ∧ ∀ e, e ≠ die → e ≠ d → Table.getD (g.divided die d n).undisp e [] = Table.getD g.undisp e [] := by
  refine ⟨Table.getD_put_self _ _ _ _, ?_, fun e hd he => ?_⟩
  · rw [Grid.divided, Table.getD_put_other _ _ _ h, Table.getD_put_self]
  · rw [Grid.divided, Table.getD_put_other _ _ _ hd, Table.getD_put_other _ _ _ he]

theorem steal : Claims.Steal := by
  intro s gid die g d hg hm hgang hdie h0 hfind u n able
  have hne := mem_of_stealOrder hfind
  have hable : (g.parts.all (fun p => rangesIn (takeHigh (n / 2 / u * u) (Table.getD g.undisp d []).reverse).1 p.2.1 p.2.2 == 0
      || (diesWith (s.chipClusters g p.1)).contains die.val)) = true ↔ able := by
    simp [able, or_comm]
  have he : exec (.stealRequest gid die) s
      = .next (if n < 2 * u ∨ ¬ able then s else s.modGrid gid (fun _ => g.divided die.val d (n / 2 / u * u))) := by
    change execStealRequest gid die s = _
    simp only [execStealRequest, hg, hm, hgang, hdie, h0, hfind, Bool.not_false, Bool.and_self, beq_self_eq_true, if_true]
    rw [apply_ite Host.Outcome.next, State.modGrid_of_find hg]
    refine if_congr ?_ rfl rfl
    rw [Bool.or_eq_true, decide_eq_true_eq, Bool.not_eq_true', ← Bool.not_eq_true, hable]
  refine ⟨fun hn => ?_, fun hn ha => ?_⟩
  · rw [he, if_pos hn]
  · rw [he, if_neg (by simp [ha, hn])]
    obtain ⟨hto, hfrom, hother⟩ := g.divided_undisp (n / 2 / u * u) hne
    obtain ⟨hc1, hc2⟩ := takeHigh_count (n / 2 / u * u) (Table.getD g.undisp d []).reverse
    rw [rangeCount_reverse] at hc1 hc2
    have hle : n / 2 / u * u ≤ n := (Nat.div_mul_le_self _ _).trans (Nat.div_le_self _ _)
    refine ⟨_, g.divided die.val d (n / 2 / u * u), rfl, ?_, ?_, ?_, hother, fun hp b => ⟨?_, fun hb c hc => ?_⟩, by simp, by simp, by simp⟩
    · rw [State.modGrid_find, if_pos rfl, hg]
      rfl
    · rw [hto, rangeCount_reverse, hc1]
      exact Nat.min_eq_left hle
    · rw [hfrom, rangeCount_reverse, hc2]
    · rw [hto, hfrom, holdsBlock_reverse, holdsBlock_reverse, ← takeHigh_holds, holdsBlock_reverse]
    · rw [hto, holdsBlock_reverse] at hb
      rw [hfrom, holdsBlock_reverse] at hc
      exact takeHigh_above _ (List.pairwise_reverse.mpr hp) hb hc

end Sys2Proof.Machine

/-! Proofs: a block is placed, dispatched by its turn or launched with its gang (R149–R152, R160, R380, R381, R383). -/

namespace Sys2Proof.Machine

variable {s t u : State} {gid : Nat} {g : Grid}

/-! ### Deficits (R380) -/

/-- A table whose records are changed each by its key. -/
theorem Table.find_map_record {α : Type} (m : Table α) (f : Nat → α → α) (k : Nat) :
    Table.find (m.map (fun e => (e.1, f e.1 e.2))) k = (Table.find m k).map (f k) := by
  induction m with
  | nil => rfl
  | cons e m ih =>
    obtain ⟨i, v⟩ := e
    simp only [List.map_cons, Table.find]
    split
    · rename_i h
      subst h
      rfl
    · exact ih

/-- `t` is `s` but for what its packets have earned and spent at the distributors. -/
structure State.SameButCredit (t s : State) : Prop where
  only : ∃ gs, t = { s with grids := gs }
  grid : ∀ k x, Table.find s.grids k = some x → ∃ cr, Table.find t.grids k = some { x with credit := cr }
  none : ∀ k, Table.find s.grids k = none → Table.find t.grids k = none

theorem State.SameButCredit.refl (s : State) : s.SameButCredit s := ⟨⟨s.grids, rfl⟩, fun _ x h => ⟨x.credit, h⟩, fun _ h => h⟩

theorem State.SameButCredit.trans (h : t.SameButCredit u) (h' : u.SameButCredit s) : t.SameButCredit s := by
  obtain ⟨gs', rfl⟩ := h'.only
  obtain ⟨gs, rfl⟩ := h.only
  refine ⟨⟨gs, rfl⟩, fun k x hx => ?_, fun k hk => h.none k (h'.none k hk)⟩
  obtain ⟨cr', hx'⟩ := h'.grid k x hx
  obtain ⟨cr, hx''⟩ := h.grid k _ hx'
  exact ⟨cr, hx''⟩

/-- What a packet is after the rounds of a die have begun and it has spent n (R380). -/
def State.spent (s : State) (gid die n : Nat) (g : Grid) (k : Nat) (x : Grid) : Grid :=
  let h := if s.rivals g x die || k == gid then s.earn die (s.rounds g die) x else x
  if k = gid then
    { h with credit := Table.put h.credit die (if (takeLow n (Table.getD h.undisp die [])).2.isEmpty then 0
        else Table.getD h.credit die 0 - n) }
  else h

theorem State.spent_credit (s : State) (gid die n : Nat) (g : Grid) (k : Nat) (x : Grid) :
    ∃ cr, s.spent gid die n g k x = { x with credit := cr } := by
  unfold State.spent State.earn
  split_ifs <;> exact ⟨_, rfl⟩

theorem State.spend_sameButCredit (s : State) (gid die n : Nat) (g : Grid) : (s.spend gid die n g).SameButCredit s := by
  have hgr : (s.spend gid die n g).grids = s.grids.map (fun e => (e.1, s.spent gid die n g e.1 e.2)) := rfl
  refine ⟨⟨_, rfl⟩, fun k x hx => ?_, fun k hk => ?_⟩
  · obtain ⟨cr, hcr⟩ := s.spent_credit gid die n g k x
    exact ⟨cr, by rw [hgr, Table.find_map_record, hx, Option.map_some, hcr]⟩
  · rw [hgr, Table.find_map_record, hk, Option.map_none]

/-- What every die's distributor has taken of a gang launch (R383; log entry 75). -/
theorem State.spendAll_sameButCredit (ds : List Nat) (n : Nat → Nat) (gid : Nat) (g : Grid) (s : State) :
    (ds.foldl (fun t d => t.spend gid d (n d) g) s).SameButCredit s := by
  induction ds generalizing s with
  | nil => exact .refl s
  | cons d ds ih => exact (ih _).trans (s.spend_sameButCredit gid d (n d) g)

/-- What a core holds and may still take does not look at what packets have earned. -/
theorem State.SameButCredit.roomOn (h : t.SameButCredit s) (g : Grid) (cr : Table Nat) (c : Nat) :
    t.roomOn { g with credit := cr } c = s.roomOn g c := by
  have hheld : t.heldBy = s.heldBy := by
    funext b
    unfold State.heldBy
    cases hb : Table.find s.grids b.gid with
    | none => rw [h.none _ hb]
    | some x =>
      obtain ⟨cr', hx⟩ := h.grid _ _ hb
      rw [hx]
      rfl
  unfold State.roomOn
  rw [hheld]
  obtain ⟨gs, rfl⟩ := h.only
  rfl

/-! ### Placing a block (R149, R152) -/

/-- What placing a block of a grid leaves: the block and its slices stand, with the next number. -/
structure State.Placed (s t : State) (gid : Nat) (g : Grid) (n : Nat) (p : Placement) : Prop where
  mem : t.mem = s.mem
  uid : t.dev.nextUid = s.dev.nextUid + 1
  blocks : t.blocks = Table.put s.blocks s.dev.nextUid (g.block gid n p)
  slices : t.slices = (g.slices s.dev.nextUid).foldl (fun (t : Table Slice) (e : Nat × Slice) => Table.put t e.1 e.2) s.slices
  grid : ∃ us, Table.find t.grids gid = some { g with unitSet := us }

/-- Whether a place takes a block of a grid. -/
def State.takes (s : State) (g : Grid) (gid n : Nat) (p : Placement) : Bool :=
  (s.chipClusters g (g.chipOf n)).contains (coreCluster p.core) && s.placeOk g (g.block gid n p) p && s.setOk g n p.core

theorem State.place_of_takes (hg : Table.find s.grids gid = some g) {n : Nat} {p : Placement} (ht : s.takes g gid n p = true) :
    ∃ t, s.place gid n p = some t ∧ s.Placed t gid g n p := by
  have hc : ((s.chipClusters g (g.block gid n p).vf).contains (coreCluster p.core) && s.placeOk g (g.block gid n p) p
    && s.setOk g n p.core) = true := ht
  simp only [State.place, hg, hc, if_true]
  refine ⟨_, rfl, ?_⟩
  cases setUnit g.lrec with
  | none =>
    exact ⟨rfl, rfl, rfl, rfl, g.unitSet, hg⟩
  | some w =>
    refine ⟨State.modGrid_mem _ _ _, ?_, ?_, ?_, ?_⟩
    · simp only [State.modGrid_dev]; rfl
    · simp only [State.modGrid_blocks]; rfl
    · simp only [State.modGrid_slices]; rfl
    · refine ⟨Table.put g.unitSet (n / max 1 w) (s.setOf (g.chipOf n) (coreCluster p.core)), ?_⟩
      simp only [State.modGrid_find, if_true]
      exact congrArg (Option.map _) hg

/-- A block that has been placed was one of a grid that stands. -/
theorem State.placed_of_place {n : Nat} {p : Placement} (h : s.place gid n p = some t) :
    ∃ g, Table.find s.grids gid = some g ∧ s.Placed t gid g n p := by
  cases hg : Table.find s.grids gid with
  | none => simp [State.place, hg] at h
  | some g =>
    by_cases ht : s.takes g gid n p = true
    · obtain ⟨u, hu, hp⟩ := State.place_of_takes hg ht
      obtain rfl : u = t := Option.some.inj (hu.symm.trans h)
      exact ⟨g, rfl, hp⟩
    · have hc : ¬ ((s.chipClusters g (g.block gid n p).vf).contains (coreCluster p.core) && s.placeOk g (g.block gid n p) p
        && s.setOk g n p.core) = true := ht
      simp only [State.place, hg, if_neg hc] at h
      cases h

/-- Placing blocks leaves memory alone, and of their grid all but the cluster sets of its units (R160). -/
theorem State.placeAll_keeps (ps : List (Nat × Placement)) (hg : Table.find s.grids gid = some g) (h : s.placeAll gid ps = some t) :
    t.mem = s.mem ∧ ∃ us, Table.find t.grids gid = some { g with unitSet := us } := by
  induction ps generalizing s g with
  | nil =>
    obtain rfl : s = t := Option.some.inj h
    exact ⟨rfl, g.unitSet, hg⟩
  | cons e ps ih =>
    obtain ⟨n, p⟩ := e
    cases hp : s.place gid n p with
    | none => simp [State.placeAll, hp] at h
    | some u =>
      simp only [State.placeAll, hp] at h
      obtain ⟨g', hg', hu⟩ := State.placed_of_place hp
      obtain rfl : g' = g := Option.some.inj (hg'.symm.trans hg)
      obtain ⟨us, hus⟩ := hu.grid
      obtain ⟨hm, us', hus'⟩ := ih hus h
      exact ⟨hm.trans hu.mem, us', hus'⟩

/-! ### The slices of a block (R149, R150) -/

theorem keyOf_inj {uid q q' sl sl' : Nat} (h : sl < 8) (h' : sl' < 8) (he : keyOf uid q sl = keyOf uid q' sl') : q = q' ∧ sl = sl' := by
  unfold keyOf at he
  omega

/-- Records put one after another at keys: one whose key has no other record there is found. -/
theorem Table.find_foldl_put {α : Type} {l : List (Nat × α)} {k : Nat} {v : α} (hm : ∃ e ∈ l, e.1 = k) (hv : ∀ e ∈ l, e.1 = k → e.2 = v)
    (m : Table α) : Table.find (l.foldl (fun (t : Table α) (e : Nat × α) => Table.put t e.1 e.2) m) k = some v := by
  have key (l : List (Nat × α)) (hv : ∀ e ∈ l, e.1 = k → e.2 = v) (m : Table α) (h : (∃ e ∈ l, e.1 = k) ∨ Table.find m k = some v) :
      Table.find (l.foldl (fun (t : Table α) (e : Nat × α) => Table.put t e.1 e.2) m) k = some v := by
    induction l generalizing m with
    | nil => exact h.resolve_left (by simp)
    | cons e l ih =>
      refine ih (fun x hx => hv x (List.mem_cons_of_mem _ hx)) _ ?_
      by_cases hk : e.1 = k
      · exact .inr (by rw [← hk, Table.find_put_self, hv e List.mem_cons_self hk])
      · refine h.imp (fun ⟨x, hx, hxk⟩ => ⟨x, (List.mem_cons.mp hx).resolve_left (fun he => hk (he ▸ hxk)), hxk⟩) fun hf => ?_
        rw [Table.find_put_other _ _ (Ne.symm hk), hf]
  exact key l hv m (.inl hm)

/-- The slices of a block as it starts. -/
theorem Grid.mem_slices {uid : Nat} {e : Nat × Slice} : e ∈ g.slices uid ↔ ∃ q sl, q < recSquads g.lrec ∧ sl < 8
    ∧ (keyOf uid q sl, { g.slice q sl with ended := createdLanes g.lrec q sl == 0 }) = e := by
  simp [Grid.slices]

theorem State.Placed.find_slice {n : Nat} {p : Placement} (h : s.Placed t gid g n p) {q sl : Nat} (hq : q < recSquads g.lrec)
    (hsl : sl < 8) : Table.find t.slices (keyOf s.dev.nextUid q sl)
      = some { g.slice q sl with ended := createdLanes g.lrec q sl == 0 } := by
  rw [h.slices]
  refine Table.find_foldl_put ⟨_, Grid.mem_slices.mpr ⟨q, sl, hq, hsl, rfl⟩, rfl⟩ (fun e he hk => ?_) _
  obtain ⟨q', sl', -, hsl', rfl⟩ := Grid.mem_slices.mp he
  obtain ⟨rfl, rfl⟩ := keyOf_inj hsl' hsl hk
  rfl

/-! ### Dispatch (R380, R381) -/

/-- What a grid on several chips keeps of a dispatch stands in committed images (log entry 41). -/
theorem State.keepDispatch_frame (s : State) (gid first : Nat) :
    (s.keepDispatch gid first).mem = s.mem ∧ (s.keepDispatch gid first).dev = s.dev ∧ (s.keepDispatch gid first).blocks = s.blocks
      ∧ (s.keepDispatch gid first).slices = s.slices ∧ (s.keepDispatch gid first).grids = s.grids := by
  unfold State.keepDispatch
  split
  · exact ⟨rfl, rfl, rfl, rfl, rfl⟩
  · split <;> exact ⟨rfl, rfl, rfl, rfl, rfl⟩

theorem Grid.settle_undisp (g : Grid) : g.settle.undisp = g.undisp := by
  unfold Grid.settle
  split <;> rfl

/-- A place that takes a block takes it as well once the packet has paid for it. -/
theorem State.spend_takes {die n lo : Nat} {p : Placement} {cr : Table Nat}
    (hcl : (s.chipClusters g (g.chipOf lo)).contains (coreCluster p.core) = true) (hplace : s.placeOk g (g.block gid lo p) p = true)
    (hset : s.setOk g lo p.core = true) : (s.spend gid die n g).takes { g with credit := cr } gid lo p = true := by
  have hroom := (s.spend_sameButCredit gid die n g).roomOn g cr p.core
  have hok : (s.spend gid die n g).placeOk { g with credit := cr } (g.block gid lo p) p = s.placeOk g (g.block gid lo p) p := by
    unfold State.placeOk
    rw [hroom]
    rfl
  unfold State.takes
  simp only [Bool.and_eq_true]
  exact ⟨⟨hcl, hok.trans hplace⟩, hset⟩

/-- A grid at a die whose lowest undispatched block has been dispatched. -/
def Grid.dispatched (g : Grid) (die lo hi : Nat) (rs : List (Nat × Nat)) : Grid :=
  { g with undisp := Table.put g.undisp die (if lo + 1 < hi then (lo + 1, hi) :: rs else rs) }.settle

theorem Grid.dispatched_undisp (g : Grid) (die lo hi : Nat) (rs : List (Nat × Nat)) :
    Table.getD (g.dispatched die lo hi rs).undisp die [] = if lo + 1 < hi then (lo + 1, hi) :: rs else rs := by
  rw [Grid.dispatched, Grid.settle_undisp, Table.getD_put_self]

/-- One block alone meets every demand of a BLOCKGROUP (R160). -/
theorem oneInstance_one (r : BitVec 1024) (p : Placement) : oneInstance r [p] = true := by
  unfold oneInstance
  cases blockGroup r <;> rfl

theorem dispatch : Claims.Dispatch := by
  intro s gid die g p lo hi rs hg hm hgang hprio hturn hundisp hlt htog hdie hcl hplace hset hrun hkept uid
  obtain ⟨cr, hcr⟩ := (s.spend_sameButCredit gid die.val 1 g).grid gid g hg
  obtain ⟨u, hu, hpl⟩ := State.place_of_takes hcr (State.spend_takes hcl hplace hset)
  obtain ⟨us, hus⟩ := hpl.grid
  obtain ⟨hmem, hdev, hblocks, hslices, hgrids⟩ := (u.modGrid gid (fun x => x.dispatched die.val lo hi rs)).keepDispatch_frame gid uid
  refine ⟨(u.modGrid gid (fun x => x.dispatched die.val lo hi rs)).keepDispatch gid uid, _, ?_, ?_, ?_, ?_, fun v hv => ?_,
    fun q sl hq hsl => ?_, ?_, Grid.dispatched_undisp { g with credit := cr, unitSet := us } die.val lo hi rs⟩
  · change execBlockDispatch gid die [p] s = _
    simp [execBlockDispatch, hg, hm, hgang, hprio, hturn, hundisp, htog, takeLow_one hlt rs, hdie, hrun, hkept, oneInstance_one,
      State.placeAll, hu]
    rfl
  · rw [hmem, State.modGrid_mem, hpl.mem]
    rfl
  · rw [hdev, State.modGrid_dev, hpl.uid]
    rfl
  · rw [hblocks, State.modGrid_blocks, hpl.blocks]
    exact Table.find_put_self _ _ _
  · rw [hblocks, State.modGrid_blocks, hpl.blocks]
    exact Table.find_put_other _ _ hv
  · rw [hslices, State.modGrid_slices]
    exact hpl.find_slice hq hsl
  · rw [hgrids, State.modGrid_find, if_pos rfl, hus]
    rfl

/-! ### Gang launches (R383) -/

/-- A gang launch all of whose blocks have been placed. -/
def Grid.launched (g : Grid) : Grid := { g with undisp := [], ticket := none }.settle

theorem Grid.launched_eq (h : g.state = .dispatching) : g.launched = { g with undisp := [], ticket := none, state := .draining } :=
  if_pos ⟨h, rfl⟩

theorem State.dispatching_of_mayDispatch (h : s.mayDispatch g = true) : g.state = .dispatching := by
  simp only [State.mayDispatch, Bool.and_eq_true, beq_iff_eq] at h
  exact h.1

theorem gang : Claims.Gang := by
  intro s gid g ps hg hm hgang hturn hrun hprio ns paid
  have hprio' : (s.diesFor g).all (fun d => s.prioOk g d) = true := List.all_eq_true.mpr hprio
  refine ⟨fun hfit => ?_, fun hfit hlen hearn hkept hplace htog => ?_⟩
  · change execGangLaunch gid ps s = _
    simp only [execGangLaunch, hg, hm, hrun, hgang, hturn, hprio', hfit, Bool.and_self, Bool.not_false, if_true]
  · have hearn' : (s.diesFor g).all (fun d => s.turnOk g d) = true := List.all_eq_true.mpr hearn
    have hplace' : (ns.zip ps).all (fun e => holdsBlock (Table.getD (s.sharesOf g) (coreDie e.2.core) []) e.1) = true :=
      List.all_eq_true.mpr (fun e he => hplace e.1 e.2 he)
    have hpaid : paid.SameButCredit s := State.spendAll_sameButCredit _ _ _ _ _
    have he : exec (.gangLaunch gid ps) s = match paid.placeAll gid (ns.zip ps) with
        | none => .next s
        | some t => .next ((t.modGrid gid Grid.launched).keepDispatch gid s.dev.nextUid) := by
      change execGangLaunch gid ps s = _
      rw [hlen] at htog
      simp only [execGangLaunch, hg, hm, hrun, hgang, hturn, hprio', hfit, hlen, ns, hearn', hplace', hkept, htog, Bool.and_self,
        Bool.not_true, if_true, beq_self_eq_true, Bool.false_eq_true, if_false]
      rfl
    refine ⟨fun hp => by rw [he, hp], fun u hu => ?_⟩
    obtain ⟨cr, hcr⟩ := hpaid.grid gid g hg
    obtain ⟨hmem, us, hus⟩ := State.placeAll_keeps _ hcr hu
    obtain ⟨gs, hgs⟩ := hpaid.only
    obtain ⟨hkm, -, hkb, hks, hkg⟩ := (u.modGrid gid Grid.launched).keepDispatch_frame gid s.dev.nextUid
    refine ⟨_, { g with credit := cr, unitSet := us, undisp := [], ticket := none, state := .draining }, by rw [he, hu], ?_, ?_, ?_, ?_,
      rfl, rfl, rfl⟩
    · rw [hkb, State.modGrid_blocks]
    · rw [hks, State.modGrid_slices]
    · rw [hkm, State.modGrid_mem, hmem, hgs]
    · rw [hkg, State.modGrid_find, if_pos rfl, hus]
      exact congrArg some (Grid.launched_eq (State.dispatching_of_mayDispatch hm))

/-- Settles O48: dispatch and gang launches place the blocks of a packet that has spent what it earned, which no place looks at; of the
ranges of a die that is asked for blocks the highest are taken. -/
theorem blocksPlaced : Obligations.BlocksPlaced := ⟨dispatch, steal, gang⟩

end Sys2Proof.Machine

/-! Proofs: blocks end, and watchdogs expire (R153, R340, R354, R356–R358). -/

namespace Sys2Proof.Machine

variable {s t : State}

/-! ### Blocks end (R153, R358) -/

/-- Finding among the records whose keys a predicate keeps. -/
theorem Table.find_filter_key {α : Type} (m : Table α) (p : Nat → Bool) (k : Nat) :
    Table.find (m.filter (fun e => p e.1)) k = if p k then Table.find m k else none := by
  induction m with
  | nil => simp [Table.find]
  | cons e m ih =>
    obtain ⟨j, v⟩ := e
    by_cases hk : k = j
    · subst hk
      by_cases hp : p k = true <;> simp [Table.find, hp, ih]
    · by_cases hp : p j = true <;> simp [Table.find, hp, hk, ih]

/-- The gang launches that take tickets again change, but for tickets, nothing of memory, blocks or slices (R383). -/
theorem State.retryGangs_frame (s : State) (cl : Nat) :
    (s.retryGangs cl).mem = s.mem ∧ (s.retryGangs cl).blocks = s.blocks ∧ (s.retryGangs cl).slices = s.slices := by
  have key (l : Table Grid) (s : State) : (l.foldl (fun t e => t.takeTicket e.1) s).mem = s.mem
      ∧ (l.foldl (fun t e => t.takeTicket e.1) s).blocks = s.blocks ∧ (l.foldl (fun t e => t.takeTicket e.1) s).slices = s.slices := by
    induction l generalizing s with
    | nil => exact ⟨rfl, rfl, rfl⟩
    | cons e l ih =>
      obtain ⟨hm, hb, hs⟩ := ih (s.takeTicket e.1)
      exact ⟨hm.trans (State.modGrid_mem _ _ _), hb.trans (State.modGrid_blocks _ _ _), hs.trans (State.modGrid_slices _ _ _)⟩
  exact key _ s

/-- A block that is removed is gone with its slices; memory, the other blocks and the other slices stay. -/
theorem State.removeBlock_frame (s : State) (uid : Nat) (b : Block) :
    (s.removeBlock uid b).mem = s.mem
      ∧ (∀ u, Table.find (s.removeBlock uid b).blocks u = if u = uid then none else Table.find s.blocks u)
      ∧ ∀ k, Table.find (s.removeBlock uid b).slices k = if keyBlock k = uid then none else Table.find s.slices k := by
  unfold State.removeBlock
  obtain ⟨hm, hb, hs⟩ := State.retryGangs_frame _ (coreCluster b.core)
  refine ⟨hm.trans (State.modGrid_mem _ _ _), fun u => ?_, fun k => ?_⟩
  · rw [hb, State.modGrid_blocks]
    exact Table.find_del s.blocks uid u
  · rw [hs, State.modGrid_slices]
    refine (Table.find_filter_key s.slices (fun j => keyBlock j != uid) k).trans ?_
    by_cases hk : keyBlock k = uid <;> simp [hk]

/-- Operations that store nothing leave nothing to settle (R358). -/
theorem State.settleKilled_of_no_store {k : Nat} {os : List MemOp} (h : ∀ o ∈ os, o.kind.isSt = false) : s.settleKilled k os = s := by
  induction os with
  | nil => rfl
  | cons o os ih =>
    unfold State.settleKilled
    cases s.ctx k with
    | none => rfl
    | some c =>
      simp only [h o List.mem_cons_self, Bool.false_and, Bool.false_eq_true, if_false]
      exact ih (fun x hx => h x (List.mem_cons_of_mem _ hx))

/-- A killed block without writes in flight or held is removed at once. -/
theorem State.endKilled_of_no_store {uid : Nat} {b : Block} (hb : Table.find s.blocks uid = some b)
    (h : ∀ e ∈ s.slices, keyBlock e.1 = uid → ∀ o ∈ e.2.ops, o.kind.isSt = false) : s.endKilled uid b = s.removeBlock uid b := by
  have key (l : List (Nat × Slice)) (hl : ∀ e ∈ l, ∀ o ∈ e.2.ops, o.kind.isSt = false) :
      l.foldl (fun t e => t.settleKilled e.1 e.2.ops) s = s := by
    induction l with
    | nil => rfl
    | cons e l ih =>
      rw [List.foldl_cons, State.settleKilled_of_no_store (hl e List.mem_cons_self), ih (fun x hx => hl x (List.mem_cons_of_mem _ hx))]
  have hs : (s.slicesOf uid).foldl (fun t e => t.settleKilled e.1 e.2.ops) s = s := by
    refine key _ (fun e he => ?_)
    obtain ⟨hm, hk⟩ := List.mem_filter.mp he
    exact h e hm (beq_iff_eq.mp hk)
  simp only [State.endKilled, hs, hb, Option.getD_some]

theorem blockEnds : Claims.BlockEnds := by
  intro s uid b hb
  refine ⟨fun hk => ?_, fun hk hd => ?_⟩
  · have he : exec (.blockEnd uid) s = .next (s.alsoInImage b.vf (s.killedInImage b.vf uid) (fun t => t.endKilled uid b)) := by
      change execBlockEnd uid s = _
      simp only [execBlockEnd, hb, hk, if_true]
    obtain ⟨hmem, hslices, hblocks, -⟩ := (s.alsoInImage_same b.vf (s.killedInImage b.vf uid) (fun t => t.endKilled uid b)).fields
    refine ⟨_, he, ?_, fun k hkey => ?_, fun hst => ?_⟩
    · rw [hblocks]
      exact ((State.removeBlock_frame _ uid _).2.1 uid).trans (if_pos rfl)
    · rw [hslices]
      exact ((State.removeBlock_frame _ uid _).2.2 k).trans (if_pos hkey)
    · rw [State.endKilled_of_no_store hb hst] at hmem hslices hblocks
      obtain ⟨hm, hbl, hsl⟩ := s.removeBlock_frame uid b
      exact ⟨hmem.trans hm, fun u hu => by rw [hblocks, hbl, if_neg hu], fun k hne => by rw [hslices, hsl, if_neg hne]⟩
  · have he : exec (.blockEnd uid) s = .next (s.removeBlock uid b) := by
      change execBlockEnd uid s = _
      simp only [execBlockEnd, hb, hk, hd, if_true, Bool.false_eq_true, if_false]
    obtain ⟨hm, hbl, hsl⟩ := s.removeBlock_frame uid b
    exact ⟨_, he, hm, by rw [hbl, if_pos rfl], fun u hu => by rw [hbl, if_neg hu], hsl⟩

/-! ### Watchdogs (R340, R354, R356, R357) -/

theorem State.fromOutside_same (s : State) (f : Nat) (h : State → State) : (s.fromOutside f h).SameButImages (h s) :=
  s.alsoInImage_same f _ h

/-- The run limit of a queue arms the watchdog of its packet (R356). -/
theorem exec_runLimit {gid : Nat} {g : Grid} {f q : Fin 64} (hg : Table.find s.grids gid = some g) (hh : g.home = .vf f q)
    (hlim : bindRunLimit (((s.bindRecord f.val q.val).map (fun e => e.2.2)).getD 0) ≠ 0)
    (hnow : g.startedAt + bindRunLimit (((s.bindRecord f.val q.val).map (fun e => e.2.2)).getD 0) ≤ s.now) :
    exec (.runLimit gid) s = .next (s.fromOutside f.val (fun t => t.modGrid gid (fun x => x.arm (s.now + s.graceOf g.home)))) := by
  change execRunLimit gid s = _
  simp only [execRunLimit, hg, hh]
  exact if_pos ⟨hlim, hnow⟩

/-- The watchdog that fires ends its grid and kills its blocks, and changes no slice and no byte of memory (R357). -/
theorem State.fireWatchdog_frame (s : State) (gid : Nat) :
    (s.fireWatchdog gid).mem = s.mem ∧ (s.fireWatchdog gid).slices = s.slices
      ∧ (∀ u, Table.find (s.fireWatchdog gid).blocks u
          = (Table.find s.blocks u).map (fun b => if b.gid = gid then { b with killed := true } else b))
      ∧ Table.find (s.fireWatchdog gid).grids gid = (Table.find s.grids gid).map Grid.fired := by
  have hg : Table.find (s.fireWatchdog gid).grids gid = (Table.find (s.endInImages gid Grid.fired).grids gid).map Grid.fired :=
    (State.modGrid_find _ _ _ _).trans (if_pos rfl)
  refine ⟨?_, ?_, fun u => ?_, by rw [hg, State.endInImages_grids]⟩
  · exact (State.modGrid_mem _ _ _).trans (State.endInImages_mem s gid Grid.fired)
  · exact (State.modGrid_slices _ _ _).trans (State.endInImages_slices s gid Grid.fired)
  · refine (Table.find_map_if _ (fun b : Block => b.gid = gid) (fun b => { b with killed := true }) u).trans ?_
    rw [State.modGrid_blocks, State.endInImages_blocks]

theorem watchdogs : Claims.Watchdogs := by
  refine ⟨?_, ?_, ?_⟩
  · intro s gid g f q hg hh lim hlim hnow hst hd
    obtain ⟨hmem, hslices, hblocks, hgrids, -⟩ :=
      (s.fromOutside_same f.val (fun t => t.modGrid gid (fun x => x.arm (s.now + s.graceOf g.home)))).fields
    refine ⟨_, exec_runLimit hg hh hlim hnow, hmem.trans (State.modGrid_mem _ _ _), hslices.trans (State.modGrid_slices _ _ _),
      hblocks.trans (State.modGrid_blocks _ _ _), ?_⟩
    rw [hgrids, State.modGrid_find, if_pos rfl, hg]
    exact congrArg some (if_pos ⟨hst, hd⟩)
  · intro s gid g d hg hd hle hst hdes
    have he : exec (.kernelWatchdog gid) s = .next (s.fromOutside (homeFn g.home) (fun t => t.fireWatchdog gid)) := by
      change execKernelWatchdog gid s = _
      simp only [execKernelWatchdog, hg, hd]
      exact if_pos ⟨hle, hst.imp id Or.inl⟩
    obtain ⟨hmem, hslices, hblocks, hgrids, -⟩ := (s.fromOutside_same (homeFn g.home) (fun t => t.fireWatchdog gid)).fields
    obtain ⟨hm, hs, hb, hgr⟩ := s.fireWatchdog_frame gid
    refine ⟨_, he, hmem.trans hm, hslices.trans hs, ?_, fun u b hu => ?_⟩
    · rw [hgrids, hgr, hg]
      simp only [Option.map_some, Grid.fired, hdes]
      rfl
    · rw [hblocks, hb, hu]
      rfl
  · intro s k c g hc hend hkill hpriv hrun hle hg hst
    obtain ⟨hs, hk, hx, hb⟩ := State.ctx_eq hc
    have he : exec (.handlerWatchdog k) s = .next (c.endGridAt c.x.last .watchdog true) := by
      change execHandlerWatchdog k s = _
      simp only [execHandlerWatchdog, hc, hend, hkill, hpriv, hrun, hle]
      rfl
    refine ⟨_, he, ?_, ?_, ?_, ?_⟩
    · rw [Ctx.endGridAt_mem, hs]
    · rw [Ctx.endGridAt_slices, hs]
    · rw [Ctx.endGridAt_eq, State.endGrid_grids, if_pos rfl, hs, hg]
      exact congrArg some (if_pos hst)
    · refine ⟨{ c.b with killed := true }, ?_, rfl⟩
      rw [Ctx.endGridAt_eq, State.endGrid_blocks, hs, hb, Option.map_some, if_pos rfl]

end Sys2Proof.Machine

/-! Proofs: the slices of a spliced grid join (R318). -/

namespace Sys2Proof.Machine

variable {s : State} {k uid : Nat} {c : Ctx} {sb : SpliceBlock} {ss : SpliceSlice}

/-! ### Which slices still may arrive -/

/-- A record that has been put leaves the other records. -/
theorem Table.mem_put_of_ne {α : Type} {m : Table α} {j : Nat} {v : α} {e : Nat × α} (h : e ∈ m) (hne : e.1 ≠ j) : e ∈ Table.put m j v := by
  induction m with
  | nil => cases h
  | cons x m ih =>
    obtain ⟨i, w⟩ := x
    simp only [Table.put] at ih
    unfold Table.put Sparse.insert
    rcases List.mem_cons.mp h with rfl | hm
    · split_ifs <;> simp_all
    · split_ifs <;> simp [hm, ih]

theorem State.joinMet_iff : s.joinMet uid sb = true
    ↔ sb.arrived ≠ [] ∧ ∀ e ∈ s.slices, keyBlock e.1 = uid → e.2.pastJoins = true ∨ e.1 ∈ sb.arrived := by
  simp [State.joinMet, or_assoc, imp_iff_not_or]

/-- A slice that is ready and not held, or held at a join that it may leave. -/
theorem State.hold_of_ready (hc : s.ctx k = some c) (hr : s.ready k = true) : c.x.hold = .none ∨ c.joinOpen = true := by
  simp only [State.ready, hc, Bool.and_eq_true, Bool.or_eq_true, beq_iff_eq] at hr
  obtain ⟨⟨⟨-, h⟩, -⟩, -⟩ := hr
  exact h

/-- A slice that is ready while its join is not complete is not held. -/
theorem State.unheld_of_not_met (hc : s.ctx k = some c) (hr : s.ready k = true) (hsb : c.b.splice = some sb)
    (hm : s.joinMet (keyBlock k) sb = false) : c.x.hold = .none := by
  obtain ⟨hs, hk, -, -⟩ := State.ctx_eq hc
  refine (State.hold_of_ready hc hr).resolve_right fun h => ?_
  simp [Ctx.joinOpen, hsb, hs, hk, hm] at h

/-- A slice that is ready though it is held at its join finds the join complete. -/
theorem State.met_of_held (hc : s.ctx k = some c) (hr : s.ready k = true) (hsb : c.b.splice = some sb) (hh : c.x.hold = .join) :
    s.joinMet (keyBlock k) sb = true := by
  cases hm : s.joinMet (keyBlock k) sb with
  | true => rfl
  | false => simp [State.unheld_of_not_met hc hr hsb hm] at hh

/-! ### A slice arrives -/

/-- A slice with nothing outstanding arrives at its join, and is held there. -/
def State.arriveAtJoin (s : State) (k : Nat) : State :=
  (s.modSlice k (fun x => { x with hold := .join, dropDue := !x.dropped.isEmpty })).modBlock (keyBlock k)
    (fun b => { b with splice := b.splice.map (fun sb => { sb with arrived := sb.arrived ++ [k] }) })

theorem State.arriveAtJoin_mem (s : State) (k : Nat) : (s.arriveAtJoin k).mem = s.mem := by simp [State.arriveAtJoin]

theorem State.arriveAtJoin_grids (s : State) (k : Nat) : (s.arriveAtJoin k).grids = s.grids := by simp [State.arriveAtJoin]

theorem State.arriveAtJoin_slices {x : Slice} (hx : Table.find s.slices k = some x) (hd : x.dropped = []) :
    (s.arriveAtJoin k).slices = Table.put s.slices k { x with hold := .join, dropDue := false } := by
  simp [State.arriveAtJoin, State.modSlice, hx, hd]

theorem State.arriveAtJoin_block {b : Block} (hb : Table.find s.blocks (keyBlock k) = some b) (hsb : b.splice = some sb) :
    Table.find (s.arriveAtJoin k).blocks (keyBlock k) = some { b with splice := some { sb with arrived := sb.arrived ++ [k] } } := by
  rw [State.arriveAtJoin, State.modBlock_find, if_pos rfl, State.modSlice_blocks, hb, Option.map_some, hsb]
  rfl

/-- A slice with nothing outstanding that is not held arrives. -/
theorem exec_join_arrives (hc : s.ctx k = some c) (hat : c.atJoin = true) (hr : s.ready k = true) (hops : c.x.ops = [])
    (hh : c.x.hold ≠ .join) : exec (.join k) s = .next ((s.arriveAtJoin k).checkJoin (keyBlock k)) := by
  obtain ⟨hs, hk, hx, hb⟩ := State.ctx_eq hc
  have hdrain : s.drain k = s := by simp [State.drain, hx, hops, State.performHeld]
  have hself : c.at s = c := by rw [Ctx.at_of (hk ▸ hx) (hk ▸ hb), ← hs]
  change execJoin k s = _
  simp only [execJoin, hc, hat, hr, hh, hdrain, hself, hops, hs]
  rfl

/-- A slice that is held at its join may leave it. -/
theorem exec_join_leaves (hc : s.ctx k = some c) (hat : c.atJoin = true) (hr : s.ready k = true) (hh : c.x.hold = .join) :
    exec (.join k) s = .next (s.checkJoin (keyBlock k)) := by
  change execJoin k s = _
  simp only [execJoin, hc, hat, hr, hh]
  rfl

/-! ### A join is complete, or not -/

section

variable {b : Block} {g : Grid} {sp : Splice} (hb : Table.find s.blocks uid = some b) (hsb : b.splice = some sb)
  (hg : Table.find s.grids b.gid = some g) (hsp : g.splice = some sp)

include hb hsb in
theorem State.checkJoin_unmet (h : s.joinMet uid sb = false) : s.checkJoin uid = s := by
  simp only [State.checkJoin, hb, hsb]
  split
  · simp_all
  · rfl

include hb hsb hg hsp in
/-- A slice that joins alone goes on in the next part, with what it now knows. -/
theorem State.checkJoin_alone {x : Slice} (h : s.joinMet uid sb = true) (hone : sb.arrived = [k]) (hx : Table.find s.slices k = some x)
    (hss : x.splice = some ss) :
    (s.checkJoin uid).mem = s.mem
      ∧ (∃ ks, Table.find (s.checkJoin uid).slices k
          = some { (x.meet ks).enterPart ss (if ss.part = 3 then 4 else 6) x.pc.toNat with hold := .none })
      ∧ ∀ j, j ≠ k → Table.find (s.checkJoin uid).slices j = Table.find s.slices j := by
  simp only [State.checkJoin, hb, hsb, hg, hsp, h, hone, hx, hss, Option.bind_some, List.foldl_cons, List.foldl_nil, if_true,
    List.any_cons, List.any_nil, Bool.or_false, beq_iff_eq]
  refine ⟨by simp, ⟨s.meetKnows [k], ?_⟩, fun j hj => ?_⟩
  · rw [State.modSlice_find, if_pos rfl, State.modBlock_slices, hx, Option.map_some, hss]
  · rw [State.modSlice_find, if_neg hj, State.modBlock_slices]

end

/-- A slice that goes on from a join keeps, but for what it has learned and what held it, the state in which it arrived. -/
theorem Slice.enterPart_meet (x : Slice) (ks : List Known) (ss : SpliceSlice) (part pc : Nat) (h : Hold) :
    { (({ x with hold := h }).meet ks).enterPart ss part pc with hold := .none }
      = { ({ x with knows := (x.meet ks).knows }).enterPart ss part pc with hold := .none } := by
  unfold Slice.enterPart
  split_ifs <;> rfl

theorem joins : Claims.Joins := by
  intro s k c sb g sp ss hc hat hr hops hdrop hsb hg hsp hss
  obtain ⟨-, -, hx, hb⟩ := State.ctx_eq hc
  have hslices := State.arriveAtJoin_slices hx hdrop
  have hblock := State.arriveAtJoin_block hb hsb
  refine ⟨fun ⟨e, he, hek, hne, hpast, harr⟩ => ?_, fun hnone hall => ?_, fun hone hh => ?_⟩
  · have hun : s.joinMet (keyBlock k) sb = false := Bool.eq_false_iff.mpr fun hm => by
      simpa [hpast, harr] using (State.joinMet_iff.mp hm).2 e he hek
    have hstill : (s.arriveAtJoin k).joinMet (keyBlock k) { sb with arrived := sb.arrived ++ [k] } = false :=
      Bool.eq_false_iff.mpr fun hm => by
        have hmem : e ∈ (s.arriveAtJoin k).slices := hslices ▸ Table.mem_put_of_ne he hne
        simpa [hpast, harr, hne] using (State.joinMet_iff.mp hm).2 e hmem hek
    have hexec := exec_join_arrives hc hat hr hops (by simp [State.unheld_of_not_met hc hr hsb hun])
    rw [State.checkJoin_unmet hblock rfl hstill] at hexec
    refine ⟨_, hexec, s.arriveAtJoin_mem k, ?_, fun j hj => ?_, _, _, hblock, rfl, rfl⟩
    · rw [hslices, Table.find_put_self]
    · rw [hslices, Table.find_put_other _ _ hj]
  · have hun : s.joinMet (keyBlock k) sb = false := Bool.eq_false_iff.mpr fun hm => (State.joinMet_iff.mp hm).1 hnone
    have hmet : (s.arriveAtJoin k).joinMet (keyBlock k) { sb with arrived := sb.arrived ++ [k] } = true := by
      refine State.joinMet_iff.mpr ⟨by simp, fun e he hek => ?_⟩
      rw [hslices] at he
      rcases Sparse.mem_insert _ _ _ he with rfl | he
      · simp
      · exact (hall e he hek).symm.imp id fun hk => by simp [hk]
    have hexec := exec_join_arrives hc hat hr hops (by simp [State.unheld_of_not_met hc hr hsb hun])
    obtain ⟨hmem, ⟨ks, hself⟩, hother⟩ := State.checkJoin_alone (ss := ss) hblock rfl ((s.arriveAtJoin_grids k).symm ▸ hg) hsp hmet
      (congrArg (· ++ [k]) hnone) ((congrArg (Table.find · k) hslices).trans (Table.find_put_self _ _ _)) hss
    refine ⟨_, hexec, hmem.trans (s.arriveAtJoin_mem k), ⟨_, fun p hp => Slice.mem_learn.mpr (.inl hp),
      hself.trans (congrArg some (Slice.enterPart_meet { c.x with dropDue := false } ks ss _ _ .join))⟩, fun j hj => ?_⟩
    rw [hother j hj, hslices, Table.find_put_other _ _ hj]
  · have hmet := State.met_of_held hc hr hsb hh
    obtain ⟨hmem, ⟨ks, hself⟩, hother⟩ := State.checkJoin_alone (ss := ss) hb hsb hg hsp hmet hone hx hss
    exact ⟨_, exec_join_leaves hc hat hr hh, hmem, ⟨_, fun p hp => Slice.mem_learn.mpr (.inl hp), hself⟩, hother⟩

end Sys2Proof.Machine

/-! Proofs: what writing memory and releasing leave of the state, and what a walk reads (R202, R248, R254, R349). -/

namespace Sys2Proof.Machine

variable {s t u : State}

/-! ### Writing memory leaves slices, blocks, grids, queues and bindings alone -/

/-- `t` is `s` but for memory with its keys and its poison, the replaced values, the undo logs and releases of the chips, and the clocks and
TLBs of the dies. -/
structure State.KeepsRun (s t : State) : Prop where
  slices : t.slices = s.slices
  blocks : t.blocks = s.blocks
  grids : t.grids = s.grids
  dev : t.dev = s.dev
  fresh : t.fresh = s.fresh
  chip : ∀ v, ∃ un rel, t.chip v = { s.chip v with undo := un, released := rel }
  die : ∀ d, ∃ ck tlb, t.die d = { s.die d with clock := ck, tlb := tlb }

namespace State.KeepsRun

theorem of_memory (m : List Host.Cell) (ks : Sparse (Option Nat)) (ps : Sparse Bool) (ws : List Past) (n : Nat) :
    s.KeepsRun { s with mem := m, lineKey := ks, poison := ps, past := ws, stamp := n } :=
  ⟨rfl, rfl, rfl, rfl, rfl, fun v => ⟨(s.chip v).undo, (s.chip v).released, rfl⟩, fun d => ⟨(s.die d).clock, (s.die d).tlb, rfl⟩⟩

theorem refl (s : State) : s.KeepsRun s := of_memory s.mem s.lineKey s.poison s.past s.stamp

theorem trans (h : s.KeepsRun t) (g : t.KeepsRun u) : s.KeepsRun u := by
  refine ⟨g.slices.trans h.slices, g.blocks.trans h.blocks, g.grids.trans h.grids, g.dev.trans h.dev, g.fresh.trans h.fresh,
    fun v => ?_, fun d => ?_⟩
  · obtain ⟨un, rel, hc⟩ := h.chip v
    obtain ⟨un', rel', hc'⟩ := g.chip v
    exact ⟨un', rel', by rw [hc', hc]⟩
  · obtain ⟨ck, tlb, hd⟩ := h.die d
    obtain ⟨ck', tlb', hd'⟩ := g.die d
    exact ⟨ck', tlb', by rw [hd', hd]⟩

theorem foldl {β : Type} {f : State → β → State} (hf : ∀ (t : State) b, t.KeepsRun (f t b)) (l : List β) (s : State) :
    s.KeepsRun (l.foldl f s) := by
  induction l generalizing s with
  | nil => exact refl s
  | cons b l ih => exact (hf s b).trans (ih _)

theorem modChip (v : Nat) {f : Chip → Chip} (hf : ∃ un rel, f (s.chip v) = { s.chip v with undo := un, released := rel }) :
    s.KeepsRun (s.modChip v f) := by
  refine ⟨rfl, rfl, rfl, rfl, rfl, fun n => ?_, fun d => ⟨(s.die d).clock, (s.die d).tlb, rfl⟩⟩
  by_cases hn : n = v
  · rw [hn, State.modChip_chip_self]
    exact hf
  · exact ⟨_, _, State.modChip_chip_other _ _ hn⟩

theorem modDie (d : Nat) {f : Die → Die} (hf : ∀ x : Die, ∃ ck tlb, f x = { x with clock := ck, tlb := tlb }) :
    s.KeepsRun (s.modDie d f) := by
  refine ⟨by simp, by simp, by simp, by simp, by simp, fun v => ⟨(s.chip v).undo, (s.chip v).released, by simp [State.chip]⟩, fun n => ?_⟩
  rw [State.modDie_die]
  split
  · rename_i hn
    rw [hn.1]
    exact hf _
  · exact ⟨_, _, rfl⟩

theorem withClocks (s u : State) : s.KeepsRun (s.withClocks u) := by
  refine ⟨rfl, rfl, rfl, rfl, rfl, fun v => ⟨(s.chip v).undo, (s.chip v).released, rfl⟩, fun d => ?_⟩
  by_cases hd : d < 4
  · exact ⟨_, _, s.withClocks_die u d hd⟩
  · exact ⟨(s.die d).clock, (s.die d).tlb, by simp [State.die, List.getD, hd]⟩

end State.KeepsRun

theorem State.keepsRun_undoLine (s : State) (v : Nat) (bound : Bool) (a : Nat) (bs : List Byte) (l : Nat) :
    s.KeepsRun (s.undoLine v bound a bs l) := by
  unfold State.undoLine
  split_ifs
  · exact .modChip v ⟨_, (s.chip v).released, rfl⟩
  · exact .refl s
  · refine .modChip v ?_
    unfold Chip.capture
    split <;> exact ⟨_, _, rfl⟩

theorem State.keepsRun_rekeyLine (s : State) (key : Option Nat) (l : Nat) : s.KeepsRun (s.rekeyLine key l) := by
  unfold State.rekeyLine
  split
  · exact .refl s
  · split <;> exact .of_memory _ _ _ _ _

theorem State.keepsRun_putPhys (s : State) (v : Nat) (bound : Bool) (a : Nat) (bs : List Byte) :
    s.KeepsRun (s.putPhys (some v) bound a bs) := by
  have undo : s.KeepsRun (if s.timeSliced v then (linesOf a bs.length).foldl (fun t l => t.undoLine v bound a bs l) s else s) := by
    split
    · exact .foldl (fun t l => t.keepsRun_undoLine v bound a bs l) _ s
    · exact .refl s
  unfold State.putPhys
  split
  · exact .refl s
  · exact (undo.trans (.foldl (fun t l => t.keepsRun_rekeyLine _ l) _ _)).trans (.of_memory _ _ _ _ _)

theorem State.keepsRun_noteWrite (s : State) (w : Writer) (cells : List (Loc × Nat)) (homes : List Nat) :
    s.KeepsRun (s.noteWrite w cells homes) := by
  unfold State.noteWrite
  split
  · exact .refl s
  · exact (State.KeepsRun.withClocks s _).trans (.of_memory _ _ _ _ _)

theorem State.keepsRun_writeMem (s : State) (w : Writer) (v : Nat) (bound : Bool) (a : Nat) (bs : List Byte) :
    s.KeepsRun (s.writeMem w v bound a bs) :=
  (s.keepsRun_putPhys v bound a bs).trans (State.keepsRun_noteWrite _ _ _ _)

theorem State.keepsRun_fillDieTlb (s : State) (die : Nat) (used : List TlbEntry) : s.KeepsRun (s.fillDieTlb die used) :=
  .modDie die fun x => ⟨x.clock, _, rfl⟩

/-- The completion release of a packet (R165). -/
theorem State.keepsRun_releaseGrid (s : State) (gid : Nat) (g : Grid) (p : BitVec 512) : s.KeepsRun (s.releaseGrid gid g p) := by
  have known (t : State) (d : Nat) (ks : List Known) : t.KeepsRun (t.applyKnown d ks) := .withClocks t _
  have widen (c : Scope) : s.KeepsRun (s.widenGrid gid c) := .of_memory _ _ _ _ _
  unfold State.releaseGrid
  dsimp only
  split
  · exact ((widen _).trans (known _ _ _)).trans (.modChip _ ⟨_, _, rfl⟩)
  · exact (widen _).trans (known _ _ _)

/-- A release writes nothing to memory, and the dies keep their TLBs. -/
theorem State.releaseGrid_memory (s : State) (gid : Nat) (g : Grid) (p : BitVec 512) :
    (s.releaseGrid gid g p).mem = s.mem ∧ (s.releaseGrid gid g p).lineKey = s.lineKey ∧ (s.releaseGrid gid g p).poison = s.poison
      ∧ ∀ d, ((s.releaseGrid gid g p).die d).tlb = (s.die d).tlb := by
  have clocks (t u : State) (d : Nat) : ((t.withClocks u).die d).tlb = (t.die d).tlb := by
    by_cases hd : d < 4
    · rw [t.withClocks_die u d hd]
    · simp [State.die, List.getD, hd]
  unfold State.releaseGrid
  dsimp only
  split <;> exact ⟨rfl, rfl, rfl, clocks (s.widenGrid gid _) _⟩

/-! ### What they keep -/

namespace State.KeepsRun

theorem queue (h : s.KeepsRun t) (f q : Nat) : t.queue f q = s.queue f q := by
  obtain ⟨un, rel, hc⟩ := h.chip f
  simp only [State.queue, hc]

theorem keyTag (h : s.KeepsRun t) (v : Nat) : t.keyTag v = s.keyTag v := by
  obtain ⟨un, rel, hc⟩ := h.chip v
  simp only [State.keyTag, hc]

theorem asid (h : s.KeepsRun t) (v : Nat) : (t.chip v).asid = (s.chip v).asid := by
  obtain ⟨un, rel, hc⟩ := h.chip v
  rw [hc]

theorem partcfg (h : s.KeepsRun t) (d : Nat) : (t.die d).partcfg = (s.die d).partcfg := by
  obtain ⟨ck, tlb, hd⟩ := h.die d
  rw [hd]

theorem slots (h : s.KeepsRun t) (d : Nat) : (t.die d).slots = (s.die d).slots := by
  obtain ⟨ck, tlb, hd⟩ := h.die d
  rw [hd]

theorem slotsNext (h : s.KeepsRun t) (d : Nat) : (t.die d).slotsNext = (s.die d).slotsNext := by
  obtain ⟨ck, tlb, hd⟩ := h.die d
  rw [hd]

theorem queueDie (h : s.KeepsRun t) (home : QRef) : t.queueDie home = s.queueDie home := by
  cases home <;> simp only [State.queueDie, State.bindRecord, h.slots]

theorem pickFrom {α : Type} [DecidableEq α] (h : s.KeepsRun t) (site : Nat) (d : α) (l : List α) :
    t.pickFrom site d l = s.pickFrom site d l := by
  simp only [State.pickFrom, State.pick, h.fresh]

theorem pteUsed (h : s.KeepsRun t) (site : Nat) (tlb : List TlbEntry) (stage2 : Bool) (tag level addr : Nat) (fresh : Option Nat) :
    t.pteUsed site tlb stage2 tag level addr fresh = s.pteUsed site tlb stage2 tag level addr fresh := h.pickFrom _ _ _

theorem asidUsed (h : s.KeepsRun t) (tlb : List TlbEntry) (site asid : Nat) : t.asidUsed tlb site asid = s.asidUsed tlb site asid := by
  simp only [State.asidUsed, h.pickFrom, h.dev]

theorem beyond (h : s.KeepsRun t) (v pa : Nat) : t.beyond v pa = s.beyond v pa := by
  simp only [State.beyond, State.partyOf, State.homeDie, State.frec, h.partcfg, h.dev]

end State.KeepsRun

/-! ### What a walk reads (R349, R351) -/

theorem State.linePoisoned_congr (hp : t.poison = s.poison) (a n : Nat) : t.linePoisoned a n = s.linePoisoned a n := by
  simp only [State.linePoisoned, hp]

theorem State.readRaw_congr (hm : t.mem = s.mem) (a n : Nat) : t.readRaw a n = s.readRaw a n := by
  simp only [State.readRaw, hm]

namespace State.KeepsRun

section

variable (h : s.KeepsRun t) (hm : t.mem = s.mem) (hk : t.lineKey = s.lineKey) (hp : t.poison = s.poison)
include h hm hp

theorem walk2 (tlb : List TlbEntry) (site vmid addr : Nat) (want : Want) (ls : List Nat) (base : Nat) (used : List TlbEntry) :
    t.walk2 tlb site vmid addr want ls base used = s.walk2 tlb site vmid addr want ls base used := by
  induction ls generalizing base used with
  | nil => rfl
  | cons l ls ih => simp only [State.walk2, h.pteUsed, State.linePoisoned_congr hp, State.readRaw_congr hm, ih]

theorem stage2 (tlb : List TlbEntry) (site vmid root ipa : Nat) (want : Want) :
    t.stage2 tlb site vmid root ipa want = s.stage2 tlb site vmid root ipa want := by
  simp only [State.stage2, h.walk2 hm hp, h.beyond]

include hk

theorem walk1 (key : Option Nat) (tlb : List TlbEntry) (site asid vmid root2 addr : Nat) (want : Want) (ls : List Nat) (base : Nat)
    (used : List TlbEntry) :
    t.walk1 key tlb site asid vmid root2 addr want ls base used = s.walk1 key tlb site asid vmid root2 addr want ls base used := by
  induction ls generalizing base used with
  | nil => rfl
  | cons l ls ih =>
    simp only [State.walk1, h.stage2 hm hp, h.pteUsed, State.linePoisoned_congr hp, State.readBytes, State.readByte_congr hm hk, ih]

theorem translate (v : Nat) (tlb : List TlbEntry) (site addr : Nat) (want : Want) :
    t.translate v tlb site addr want = s.translate v tlb site addr want := by
  simp only [State.translate, State.walkBoth, h.walk1 hm hk hp, h.asidUsed, h.asid, h.keyTag]

end

end State.KeepsRun

end Sys2Proof.Machine

/-! Proofs: packets end (R165–R167, R378), and what of O49 the earlier files prove. -/

namespace Sys2Proof.Machine

variable {s t u : State} {gid : Nat} {g : Grid}

/-! ### The record (R165, R166) -/

theorem State.noteWrite_lineKey (s : State) (w : Writer) (cells : List (Loc × Nat)) (homes : List Nat) :
    (s.noteWrite w cells homes).lineKey = s.lineKey := by
  obtain ⟨ds, ps, n, h⟩ := s.noteWrite_only w cells homes
  rw [h]

/-- A write of an agent for a function reads back under the function's key. -/
theorem State.readByte_writeMem (s : State) (w : Writer) (v : Nat) (bound : Bool) (a : Nat) (bs : List Byte) (p : Nat) :
    (s.writeMem w v bound a bs).readByte (s.keyTag v) p = storedOver [(a, bs)] p (s.readByte (s.keyTag v) p) := by
  rw [← State.readByte_writePhys s v bound a bs p]
  exact State.readByte_congr (State.noteWrite_mem _ _ _ _) (State.noteWrite_lineKey _ _ _ _) _ p

/-- The record of a packet that is not brazed counts no elided ranges (R166, R323). -/
theorem recordBytes_alone (status bz : Nat) (f : Option GridFault) :
    recordBytes status bz 0 f = leBytes 32 (status + bz % 256 * 2 ^ 24 + (f.getD ⟨0, 0, 0⟩).code.toNat * 2 ^ 40
      + (f.getD ⟨0, 0, 0⟩).kidx % 2 ^ 16 * 2 ^ 48 + (f.getD ⟨0, 0, 0⟩).pc.toNat * 2 ^ 64) := by
  rw [recordBytes, Nat.zero_mod, Nat.zero_mul, Nat.add_zero]

/-- A record lies in one page. -/
theorem cutPages_record {a : Nat} (h : a % 32 = 0) : cutPages a 32 = [(a, 32)] := by
  have one : (a + 32 - 1) / 65536 + 1 - a / 65536 = 1 := by omega
  have lo : max a (a / 65536 * 65536) = a := by omega
  have hi : min (a + 32) ((a / 65536 + 1) * 65536) - a = 32 := by omega
  rw [cutPages, if_neg (by decide), one]
  simp [lo, hi]

/-- The record of a packet without an interrupt, at an address that is translated, is the one change of memory. -/
theorem State.writeRecord_ok {v : Nat} {home : QRef} {p : BitVec 512} {x : Xlat} {bs : List Byte} (m : Msg) (st : Nat)
    (hn : bs.length = 32) (h0 : pktSig p ≠ 0) (hal : pktSig p % 32 = 0) (hv : pktSig p < 0x7FFFFF0000000000) (hirq : pktIrq p = false)
    (hx : s.translate v (s.die (s.queueDie home)).tlb 93000 (pktSig p) .write = .ok x) :
    ∃ u, s.writeRecord v home p m bs st = (u, false) ∧ s.KeepsRun u
      ∧ ∀ a, u.readByte (s.keyTag v) a = storedOver [(x.pa, bs)] a (s.readByte (s.keyTag v) a) := by
  have hfill := s.keepsRun_fillDieTlb (s.queueDie home) x.used
  refine ⟨(s.fillDieTlb (s.queueDie home) x.used).writeMem ⟨m.site, .ls, 0, m.scope, [m]⟩ v (s.timeSliced v) x.pa bs, ?_,
    hfill.trans (State.keepsRun_writeMem _ _ _ _ _ _), fun a => ?_⟩
  · have ht : bs.take 32 = bs := List.take_of_length_le hn.le
    simp only [State.writeRecord, h0, hn, cutPages_record hal, State.qcPieces, isVirtual, hv, hx, hirq, State.qcRelease, ht, decide_true,
      if_true, if_false, Bool.false_eq_true]
  · rw [← hfill.keyTag, State.readByte_writeMem, hfill.keyTag,
      State.readByte_congr (State.fillDieTlb_mem _ _ _) (State.modDie_lineKey _ _ _)]

/-- The status with which a packet ends (R167). -/
def Grid.endStatus (g : Grid) : Nat := if g.state = .draining then 1 else g.status

/-- The grids that leave with a packet: its own, and the consumer of a brazed pair (R323). -/
def State.leaving (s : State) (gid : Nat) : List Nat :=
  gid :: ((s.grids.find? (fun e => e.2.producer == some gid)).map (fun e => e.1)).toList

/-- A packet that is not brazed ends: its record stands in memory, and it leaves its queue. -/
theorem State.finishPacket_eq {x : Xlat} (hg : Table.find s.grids gid = some g) (hsp : g.splice = none) (hty : pktType g.pkt ≠ 3)
    (hirq : pktIrq g.pkt = false) (h0 : pktSig g.pkt ≠ 0) (hal : pktSig g.pkt % 32 = 0) (hv : pktSig g.pkt < 0x7FFFFF0000000000)
    (hst : s.dev.steward.gid ≠ some gid) (hx : s.translate g.ctx (s.die (s.queueDie g.home)).tlb 93000 (pktSig g.pkt) .write = .ok x) :
    ∃ u, s.finishPacket gid = u.leaveQueue g.home (s.leaving gid) (decide (2 ≤ g.endStatus)) ∧ s.KeepsRun u
      ∧ ∀ p, u.readByte (s.keyTag g.ctx) p = storedOver [(x.pa, recordBytes g.endStatus g.bzcode 0 g.fault)] p
          (s.readByte (s.keyTag g.ctx) p) := by
  have hR := s.keepsRun_releaseGrid gid g g.pkt
  obtain ⟨hmem, hkey, hpoison, htlb⟩ := s.releaseGrid_memory gid g g.pkt
  have hx' : (s.releaseGrid gid g g.pkt).translate g.ctx ((s.releaseGrid gid g g.pkt).die ((s.releaseGrid gid g g.pkt).queueDie g.home)).tlb
      93000 (pktSig g.pkt) .write = .ok x := by
    rw [hR.translate hmem hkey hpoison, htlb, hR.queueDie, hx]
  obtain ⟨u, hu, hkeep, hbytes⟩ := State.writeRecord_ok (bs := recordBytes g.endStatus g.bzcode 0 g.fault)
    (s.gridRelease gid g ((scope? (fld g.pkt 39 36)).getD .slice)) g.endStatus (length_leBytes 32 _) h0 hal hv hirq hx'
  have hrun := hR.trans hkeep
  refine ⟨u, ?_, hrun, fun p => ?_⟩
  · have hsteward : u.dev.steward.gid ≠ some gid := hrun.dev ▸ hst
    unfold Grid.endStatus at hu
    simp only [State.finishPacket, hg, hsp, hty, hu, State.stewardResult, hsteward, Option.isSome_none, Bool.false_and, Bool.or_false,
      Bool.false_eq_true, if_false]
    rfl
  · rw [← hR.keyTag, hbytes, hR.keyTag, State.readByte_congr hmem hkey]

/-! ### A packet leaves its queue (R167, R355, R378) -/

/-- Changing grids changes nothing else, and makes none. -/
theorem State.foldl_modGrid_only (l : List Nat) (f : Grid → Grid) (s : State) :
    ∃ gs, l.foldl (fun t i => t.modGrid i f) s = { s with grids := gs } ∧ (Table.find s.grids gid = none → Table.find gs gid = none) := by
  induction l generalizing s with
  | nil => exact ⟨s.grids, rfl, id⟩
  | cons i l ih =>
    have hmod : s.modGrid i f = { s with grids := (s.modGrid i f).grids } := by
      unfold State.modGrid
      split <;> rfl
    obtain ⟨gs, he, hf⟩ := ih (s.modGrid i f)
    refine ⟨gs, ?_, fun hn => hf ?_⟩
    · rw [List.foldl_cons, he, hmod]
    · rw [State.modGrid_find]
      split
      · rename_i hi
        rw [← hi, hn]
        rfl
      · exact hn

/-- What a packet's departure leaves of the state. -/
structure State.Left (s t : State) (f q : Fin 64) (gid : Nat) : Prop where
  mem : t.mem = s.mem
  lineKey : t.lineKey = s.lineKey
  slices : t.slices = s.slices
  blocks : t.blocks = s.blocks
  dies : t.dies = s.dies
  grid : Table.find t.grids gid = none
  queue : gid ∉ (t.queue f.val q.val).pkts

/-- A change of the queue that keeps its packets. -/
theorem State.Left.modQueue {f q : Fin 64} (h : s.Left t f q gid) {c : Queue → Queue} (hc : ∀ u : Queue, (c u).pkts = u.pkts) :
    s.Left (t.modQueue f.val q.val c) f q gid := by
  refine ⟨h.mem, h.lineKey, h.slices, h.blocks, h.dies, h.grid, ?_⟩
  rw [State.modQueue_queue_self, hc]
  exact h.queue

/-- A pre-emption request that completes changes, of the packets and their queue, only waiting and the queue's state. -/
theorem State.Left.stopQueue {f q : Fin 64} (h : s.Left t f q gid) : s.Left (t.stopQueue f q) f q gid := by
  unfold State.stopQueue
  dsimp only
  split
  · obtain ⟨gs, he, hf⟩ := State.foldl_modGrid_only (gid := gid) (t.queue f.val q.val).pkts (fun x => { x with waitOk := false }) t
    rw [he]
    have hgrids : s.Left { t with grids := gs } f q gid := ⟨h.mem, h.lineKey, h.slices, h.blocks, h.dies, hf h.grid, h.queue⟩
    exact hgrids.modQueue fun _ => rfl
  · exact h

theorem State.Left.refreshQueue {f q : Fin 64} (h : s.Left t f q gid) : s.Left (t.refreshQueue f.val q.val) f q gid :=
  h.modQueue (c := fun u => { u with state := t.queueState f.val q.val u }) fun _ => rfl

/-- The state once some packets have left the grids and the list of their queue. -/
def State.unlisted (s : State) (f q : Fin 64) (gids : List Nat) : State :=
  ({ s with grids := s.grids.filter (fun e => !(gids.contains e.1)) }).modQueue f.val q.val
    (fun u => { u with pkts := u.pkts.filter (fun g => !(gids.contains g)) })

theorem State.unlisted_left (s : State) (f q : Fin 64) {gids : List Nat} (h : gid ∈ gids) : s.Left (s.unlisted f q gids) f q gid := by
  refine ⟨rfl, rfl, rfl, rfl, rfl, ?_, ?_⟩
  · exact (Table.find_filter_key s.grids (fun k => !(gids.contains k)) gid).trans (if_neg (by simp [h]))
  · rw [State.unlisted, State.modQueue_queue_self]
    simp [h]

theorem State.unlisted_queueState (s : State) (f q : Fin 64) (gids : List Nat) :
    ((s.unlisted f q gids).queue f.val q.val).state = (s.queue f.val q.val).state := by
  rw [State.unlisted, State.modQueue_queue_self]
  rfl

/-- A queue one of whose packets has failed (R167). -/
def Queue.errored (u : Queue) : Queue :=
  { u with
    preempt := false
    state := match u.state with
      | .disabled => .disabled
      | _ => .error }

theorem Queue.errored_state {u : Queue} (h : u.state ≠ .disabled) : u.errored.state = .error := by
  unfold Queue.errored
  dsimp only
  split
  · contradiction
  · rfl

theorem State.leaveQueue_eq (s : State) (f q : Fin 64) (gids : List Nat) (failed : Bool) : s.leaveQueue (.vf f q) gids failed
    = if failed then (s.unlisted f q gids).modQueue f.val q.val Queue.errored
      else ((s.unlisted f q gids).stopQueue f q).refreshQueue f.val q.val := rfl

/-- A packet that leaves is gone from the grids and from its queue. -/
theorem State.leaveQueue_left (s : State) (f q : Fin 64) {gids : List Nat} (h : gid ∈ gids) (failed : Bool) :
    s.Left (s.leaveQueue (.vf f q) gids failed) f q gid := by
  rw [State.leaveQueue_eq]
  cases failed with
  | true => exact (s.unlisted_left f q h).modQueue fun _ => rfl
  | false => exact (s.unlisted_left f q h).stopQueue.refreshQueue

/-- The queue of a packet that has failed enters ERROR. -/
theorem State.leaveQueue_failed {f q : Fin 64} (gids : List Nat) (h : (s.queue f.val q.val).state ≠ .disabled) :
    ((s.leaveQueue (.vf f q) gids true).queue f.val q.val).state = .error := by
  rw [State.leaveQueue_eq, if_pos rfl, State.modQueue_queue_self]
  exact Queue.errored_state (by rwa [State.unlisted_queueState])

/-! ### The step (R165–R167) -/

/-- Nothing waits for the queue, so nothing is bound. -/
theorem State.applyPending_none (f q : Fin 64) (h : ∀ d, d < 4 → (s.die d).slotsNext = []) : s.applyPending f q = s := by
  refine (List.foldl_ext _ (fun t _ => t) s fun t d hd => ?_).trans (List.foldl_fixed _)
  rw [h d (List.mem_range.mp hd)]
  rfl

/-- A packet of a virtual chip that is not time-sliced, once all of its blocks have ended. -/
theorem exec_packetCompletion {f q : Fin 64} (hg : Table.find s.grids gid = some g) (hd : s.drained gid g = true)
    (hp : g.producer = none) (hh : g.home = .vf f q) (ht : s.timeSliced f.val = false) (hm : (s.chip f.val).migrating = false)
    (hheld : s.stillHeld gid g.home = []) (hnext : ∀ d, d < 4 → ((s.finishPacket gid).die d).slotsNext = []) :
    ∃ t, exec (.packetCompletion gid) s = .next t ∧ t.SameButImages (s.finishPacket gid) := by
  rw [hh] at hheld
  cases hsh : s.dev.shutdown with
  | true =>
    refine ⟨s.fromOutside f.val (fun t => t.finishPacket gid), ?_, s.fromOutside_same _ _⟩
    change execPacketCompletion gid s = _
    simp [execPacketCompletion, hg, hd, hp, hh, hsh]
  | false =>
    have hsame := s.queueStep_same (.vf f q) (fun t => t.finishPacket gid)
    have hpend : (s.queueStep (.vf f q) (fun t => t.finishPacket gid)).applyPending f q
        = s.queueStep (.vf f q) (fun t => t.finishPacket gid) := by
      obtain ⟨-, -, -, -, hdies, -⟩ := hsame.fields
      refine State.applyPending_none f q fun d hlt => ?_
      rw [State.die, hdies]
      exact hnext d hlt
    refine ⟨_, ?_, hsame⟩
    change execPacketCompletion gid s = _
    simp [execPacketCompletion, hg, hd, hp, hh, hsh, hheld, ht, hm, hpend]

theorem packetEnds : Claims.PacketEnds := by
  intro s gid g f q x hg hd hp hh hsp hts hmig hty hirq h0 hal hv hst hx hnext hheld status fault
  obtain ⟨u, hu, hrun, hbytes⟩ := State.finishPacket_eq hg hsp hty hirq h0 hal hv hst hx
  rw [hh] at hu
  have hleft := u.leaveQueue_left f q (gids := s.leaving gid) List.mem_cons_self (decide (2 ≤ g.endStatus))
  rw [← hu] at hleft
  have hdies (d : Nat) : ((s.finishPacket gid).die d).slotsNext = (s.die d).slotsNext := by
    rw [State.die, hleft.dies]
    exact hrun.slotsNext d
  obtain ⟨t, he, hsame⟩ := exec_packetCompletion hg hd hp hh hts hmig hheld fun d hlt => (hdies d).trans (hnext d hlt)
  obtain ⟨hmem, hslices, hblocks, hgrids, -, -, hkey⟩ := hsame.fields
  refine ⟨t, he, ?_, ?_, ?_, ?_, fun hfail hdis => ?_, fun p => ?_⟩
  · rw [hgrids, hleft.grid]
  · rw [hslices, hleft.slices, hrun.slices]
  · rw [hblocks, hleft.blocks, hrun.blocks]
  · rw [hsame.queue]
    exact hleft.queue
  · have hfailed : decide (2 ≤ g.endStatus) = true := decide_eq_true hfail
    rw [hsame.queue, hu, hfailed]
    exact State.leaveQueue_failed _ (by rwa [hrun.queue])
  · rw [State.readByte_congr (hmem.trans hleft.mem) (hkey.trans hleft.lineKey), hbytes, recordBytes_alone]
    rfl

/-- Settles O49: a removed block takes its slices along; a join is complete when no slice of its block may still arrive; what writes a
packet's record keeps the packets and their queues, so leaving the queue is the rest of its end; a watchdog ends its grid. -/
theorem gridsEnd : Obligations.GridsEnd := ⟨blockEnds, joins, packetEnds, watchdogs⟩

end Sys2Proof.Machine

/-! Proofs: steps that each change one slice of their own, and block barriers (R182–R184). -/

namespace Sys2Proof.Machine

variable {s : State} {c : Ctx}

/-! ### Slices that change one after the other -/

/-- Steps that each change a slice of their own: every one of those slices is changed by its step, and nothing else changes. -/
theorem State.foldl_own {β : Type} {f : State → β → State} {key : β → Nat} {g : β → Slice → Slice} (s : State) {l : List β}
    (hn : (l.map key).Nodup) (hl : ∀ b ∈ l, ∃ x, Table.find s.slices (key b) = some x)
    (hf : ∀ b ∈ l, ∀ x, Table.find s.slices (key b) = some x → ∀ T : Table Slice, Table.find T (key b) = some x →
      f { s with slices := T } b = { s with slices := Table.put T (key b) (g b x) }) :
    ∃ T, l.foldl f s = { s with slices := T }
      ∧ (∀ b ∈ l, ∀ x, Table.find s.slices (key b) = some x → Table.find T (key b) = some (g b x))
      ∧ ∀ j, (∀ b ∈ l, key b ≠ j) → Table.find T j = Table.find s.slices j := by
  suffices inTable : ∀ T0, (∀ b ∈ l, Table.find T0 (key b) = Table.find s.slices (key b)) →
      ∃ T, l.foldl f { s with slices := T0 } = { s with slices := T }
        ∧ (∀ b ∈ l, ∀ x, Table.find s.slices (key b) = some x → Table.find T (key b) = some (g b x))
        ∧ ∀ j, (∀ b ∈ l, key b ≠ j) → Table.find T j = Table.find T0 j from inTable s.slices fun _ _ => rfl
  induction l with
  | nil => exact fun T0 _ => ⟨T0, rfl, by simp, fun _ _ => rfl⟩
  | cons b l ih =>
    intro T0 h0
    simp only [List.map_cons, List.nodup_cons, List.mem_map, not_exists, not_and] at hn
    obtain ⟨hb, hn⟩ := hn
    simp only [List.forall_mem_cons] at hl hf h0
    obtain ⟨⟨x, hx⟩, hl⟩ := hl
    obtain ⟨hfb, hf⟩ := hf
    obtain ⟨h0b, h0⟩ := h0
    obtain ⟨T, hT, hin, hout⟩ := ih hn hl hf (Table.put T0 (key b) (g b x)) fun d hd =>
      (Table.find_put_other _ _ (hb d hd)).trans (h0 d hd)
    refine ⟨T, ?_, List.forall_mem_cons.mpr ⟨fun y hy => ?_, hin⟩, fun j hj => ?_⟩
    · rw [List.foldl_cons, hfb x hx T0 (h0b.trans hx), hT]
    · rw [hout _ hb, Table.find_put_self, Option.some.inj (hx.symm.trans hy)]
    · obtain ⟨hbj, hj⟩ := List.forall_mem_cons.mp hj
      rw [hout j hj, Table.find_put_other _ _ (Ne.symm hbj)]

/-- Changing a slice without ending it leaves which slices may still come. -/
theorem State.mayCome_modSlice (s : State) (k : Nat) {f : Slice → Slice} (hf : ∀ x, (f x).ended = x.ended) (j : Nat) :
    (s.modSlice k f).mayCome j = s.mayCome j := by
  rw [State.mayCome, State.mayCome, State.modSlice_find]
  split_ifs with hj
  · rw [hj]
    cases Table.find s.slices k <;> simp [hf]
  · rfl

theorem State.mayCome_modBlock (s : State) (u : Nat) (f : Block → Block) (j : Nat) : (s.modBlock u f).mayCome j = s.mayCome j := by
  rw [State.mayCome, State.modBlock_slices, State.mayCome]

/-! ### Arriving (R182, R183) -/

/-- The squads that a BAR names (R182). -/
def Ctx.barMask (c : Ctx) (mask : Option SSrc) : BitVec 32 :=
  (match mask with
    | none => 0xFFFFFFFF
    | some a => (c.val a).setWidth 32) &&& BitVec.ofNat 32 (2 ^ c.b.squads.length - 1)

/-- The state in which a slice has arrived at a barrier of its block. -/
def State.arriveAtBar (s : State) (n : Nat) (a : Arrival) : State :=
  (s.modSlice a.slice (fun z => { z with hold := .barrier n })).modBlock (keyBlock a.slice)
    (fun b => { b with bars := Table.put b.bars n (Table.getD b.bars n [] ++ [a]) })

/-- A slice with nothing outstanding passes the release of a barrier (R184, R241). -/
theorem AtRest.barRelease_eq (h : AtRest s c) (go : Ctx → State) : c.barRelease go = go c := by
  have hb : c.bindLoads = s := by simp [Ctx.bindLoads, Ctx.bindThose, h.noOps, h.state]
  simp [Ctx.barRelease, hb, h.at_self, h.releaseAll_eq, h.noOps]

/-- BAR with its guard passing: a trap, or an arrival that may complete the generation (R182, R183). -/
theorem AtRest.bar_eq (h : AtRest s c) (hp : c.x.priv ≠ 1) (k : Ctl) (id : Fin 16) (mask : Option SSrc)
    (hg : c.x.guardScalar k.guard = true) :
    exec (.bar k id mask) s = .next (
      if (c.barMask mask).getLsbD (keySquad s.cur) = true then
        (s.arriveAtBar id.val ⟨s.cur, c.barMask mask, k.m, s.ir⟩).checkBar (keyBlock s.cur) id.val
      else c.trap { cause := .groupSync }) := by
  have key (w : BitVec 32) (hw : w = c.barMask mask) :
      (if (!testBit w.toNat (keySquad s.cur)) = true then c.trap { cause := .groupSync }
        else (s.arriveAtBar id.val ⟨s.cur, w, k.m, s.ir⟩).checkBar (keyBlock s.cur) id.val)
      = if (c.barMask mask).getLsbD (keySquad s.cur) = true then
          (s.arriveAtBar id.val ⟨s.cur, c.barMask mask, k.m, s.ir⟩).checkBar (keyBlock s.cur) id.val
        else c.trap { cause := .groupSync } := by
    rw [hw, testBit_eq, show (c.barMask mask).toNat.testBit (keySquad s.cur) = (c.barMask mask).getLsbD (keySquad s.cur) from rfl]
    cases (c.barMask mask).getLsbD (keySquad s.cur) <;> rfl
  rw [show exec (.bar k id mask) s = _ from issue_rest h _ _ rfl rfl (by simp [WordChk.permits, hp]) (by simp)]
  simp only [hg, Bool.not_true, Bool.false_eq_true, if_false, h.barRelease_eq, h.key, h.state]
  cases mask with
  | none => exact congrArg _ (key _ rfl)
  | some a => exact congrArg _ (key _ (congrArg (fun w : Word64 => w.setWidth 32 &&& _) (h.src a)))

/-! ### Completing a generation (R183, R184) -/

theorem namedSquads_getLsbD (as : List Arrival) (q : Nat) :
    (namedSquads as).getLsbD q = true ↔ ∃ a ∈ as, a.mask.getLsbD q = true := by
  have key (m : BitVec 32) : (as.foldl (fun m a => m ||| a.mask) m).getLsbD q = true
      ↔ m.getLsbD q = true ∨ ∃ a ∈ as, a.mask.getLsbD q = true := by
    induction as generalizing m with
    | nil => simp
    | cons a as ih => simp [ih, or_assoc]
  simp [namedSquads, key]

/-- A launched slice of a named squad has neither arrived nor ended. -/
def State.barOpen (s : State) (uid squads : Nat) (as : List Arrival) : Prop :=
  ∃ q sl, q < squads ∧ sl < 8 ∧ (∃ a ∈ as, a.mask.getLsbD q = true) ∧ (∀ a ∈ as, a.slice ≠ keyOf uid q sl)
    ∧ s.mayCome (keyOf uid q sl) = true

theorem State.barComplete_iff (s : State) (uid : Nat) (b : Block) {as : List Arrival} (h : as ≠ []) :
    s.barComplete uid b as = true ↔ ¬ s.barOpen uid b.squads.length as := by
  have hbit (q : Nat) : testBit (namedSquads as).toNat q = (namedSquads as).getLsbD q := testBit_eq _ _
  simp only [State.barComplete, State.barOpen, hbit, List.isEmpty_eq_false_iff.mpr h, Bool.not_false, Bool.true_and, List.all_eq_true,
    List.mem_range, Bool.or_eq_true, Bool.not_eq_true', List.any_eq_true, beq_iff_eq, ← namedSquads_getLsbD]
  push Not
  refine forall_congr' fun q => ⟨fun hq sl h1 h2 h3 h4 => ?_, fun hq h1 => ?_⟩
  · rcases hq h1 with hq | hq
    · simp [hq] at h3
    · rcases hq sl h2 with ⟨a, ha, he⟩ | hq
      · exact absurd he (h4 a ha)
      · simp [hq]
  · cases h3 : (namedSquads as).getLsbD q with
    | false => exact .inl rfl
    | true =>
      refine .inr fun sl h2 => or_iff_not_imp_left.mpr fun hn => ?_
      simpa using hq sl h1 h2 h3 fun a ha he => hn ⟨a, ha, he⟩

/-- A slice that leaves a barrier, with what it has learned there. -/
def Slice.leftBar (x : Slice) (ks : List Known) : Slice :=
  { x with pc := x.pc + 8, issued := x.issued + 1, hold := .none, knows := (x.meet ks).knows }

/-- What a slice knows it knows after a barrier. -/
theorem Slice.knows_leftBar (x : Slice) (ks : List Known) : ∀ p ∈ x.knows, p ∈ (x.meet ks).knows :=
  fun _ hp => Slice.mem_learn.mpr (.inl hp)

/-- A completed generation whose masks agree lets an arrived slice with nothing outstanding go on. -/
theorem State.leaveBar_eq {as : List Arrival} {a : Arrival} {x : Slice} {b : Block} (ks : List Known)
    (hm : ∀ d ∈ as, d.mask = a.mask) (hx : Table.find s.slices a.slice = some x) (hb : Table.find s.blocks (keyBlock a.slice) = some b)
    (hs : x.splice = none) (ho : x.ops = []) (hp : x.pend = []) (hd : x.poisonDue = []) :
    s.leaveBar as ks a = { s with slices := Table.put s.slices a.slice (x.leftBar ks) } := by
  have hall : as.all (fun d => d.mask == a.mask) = true := by simpa using hm
  let y : Slice := { x.meet ks with hold := .none }
  let u : State := { s with slices := Table.put s.slices a.slice y }
  have hmod : s.modSlice a.slice (fun x => { x.meet ks with hold := .none }) = u := by
    rw [State.modSlice, hx]
  have hfin := State.finish_plain (s := u) (x := y) a.m (Table.find_put_self ..) hb hs ho hp hd
  rw [State.leaveBar, if_pos hall, hmod, hfin]
  simp only [u, Table.put_put]
  rfl

/-- A generation that some slice has still to join stays as it is. -/
theorem State.checkBar_open {uid n : Nat} {b : Block} (hb : Table.find s.blocks uid = some b)
    (ho : s.barOpen uid b.squads.length (Table.getD b.bars n [])) : s.checkBar uid n = s := by
  have hne : Table.getD b.bars n [] ≠ [] := by
    obtain ⟨-, -, -, -, ⟨a, ha, -⟩, -⟩ := ho
    exact List.ne_nil_of_mem ha
  have hc : ¬ s.barComplete uid b (Table.getD b.bars n []) = true := fun hc => (s.barComplete_iff uid b hne).mp hc ho
  simp only [State.checkBar, hb, if_neg hc]

/-- A generation that no slice has still to join, whose masks agree, lets its slices go on and leaves the barrier empty. -/
theorem State.checkBar_complete {uid n : Nat} {b : Block} {as : List Arrival} {m : BitVec 32} (hb : Table.find s.blocks uid = some b)
    (has : Table.getD b.bars n [] = as) (hne : as ≠ []) (ho : ¬ s.barOpen uid b.squads.length as) (hm : ∀ a ∈ as, a.mask = m)
    (hn : (as.map (fun a => a.slice)).Nodup)
    (hq : ∀ a ∈ as, keyBlock a.slice = uid ∧ ∃ y, Table.find s.slices a.slice = some y
      ∧ y.splice = none ∧ y.ops = [] ∧ y.pend = [] ∧ y.poisonDue = []) :
    ∃ t ks, s.checkBar uid n = t ∧ t.mem = s.mem ∧ Table.find t.blocks uid = some { b with bars := Table.del b.bars n }
      ∧ (∀ a ∈ as, ∀ y, Table.find s.slices a.slice = some y → Table.find t.slices a.slice = some (y.leftBar ks))
      ∧ ∀ j, (∀ a ∈ as, a.slice ≠ j) → Table.find t.slices j = Table.find s.slices j := by
  have hc : s.barComplete uid b as = true := (s.barComplete_iff uid b hne).mpr ho
  have hblock : Table.find (s.modBlock uid (fun b => { b with bars := Table.del b.bars n })).blocks uid
      = some { b with bars := Table.del b.bars n } := by
    rw [State.modBlock_find, if_pos rfl, hb]
    rfl
  obtain ⟨T, hT, hin, hout⟩ := State.foldl_own (s.modBlock uid (fun b => { b with bars := Table.del b.bars n }))
    (f := fun t a => t.leaveBar as (s.meetKnows (as.map (fun a => a.slice))) a)
    (g := fun _ y => y.leftBar (s.meetKnows (as.map (fun a => a.slice)))) hn
    (fun a ha => (hq a ha).2.imp fun y hy => by simpa using hy.1)
    (fun a ha x hx T hT => by
      obtain ⟨hk, y, hy, hsplice, hops, hpend, hdue⟩ := hq a ha
      rw [State.modBlock_slices, hy, Option.some.injEq] at hx
      subst hx
      exact State.leaveBar_eq _ (fun d hd => (hm d hd).trans (hm a ha).symm) hT (by rw [hk]; exact hblock) hsplice hops hpend hdue)
  refine ⟨_, s.meetKnows (as.map (fun a => a.slice)), rfl, ?_⟩
  simp only [State.checkBar, hb, has, hc, if_true, hT, State.modBlock_slices] at hin hout ⊢
  exact ⟨State.modBlock_mem .., hblock, hin, hout⟩

/-! ### The claims -/

theorem barrierJoined : Claims.BarrierJoined := by
  intro s c k id mask h hp hg hq hend named held all stillOpen
  obtain ⟨hs, hk, hx, hb⟩ := State.ctx_eq h.here
  have hexec : exec (.bar k id mask) s = .next (if named.getLsbD (keySquad s.cur) = true then
      (s.arriveAtBar id.val ⟨s.cur, named, k.m, s.ir⟩).checkBar (keyBlock s.cur) id.val else c.trap { cause := .groupSync }) :=
    h.bar_eq hp k id mask hg
  have hblock : Table.find (s.arriveAtBar id.val ⟨s.cur, named, k.m, s.ir⟩).blocks (keyBlock s.cur)
      = some { c.b with bars := Table.put c.b.bars id.val all } := by
    rw [State.arriveAtBar, State.modBlock_find, if_pos rfl, State.modSlice_blocks, hb]
    rfl
  have hslices (j : Nat) : Table.find (s.arriveAtBar id.val ⟨s.cur, named, k.m, s.ir⟩).slices j
      = if j = s.cur then some { c.x with hold := .barrier id.val } else Table.find s.slices j := by
    rw [State.arriveAtBar, State.modBlock_slices, State.modSlice_find, hx]
    rfl
  have hself : Table.find (s.arriveAtBar id.val ⟨s.cur, named, k.m, s.ir⟩).slices s.cur = some { c.x with hold := .barrier id.val } := by
    rw [hslices, if_pos rfl]
  have hmem : (s.arriveAtBar id.val ⟨s.cur, named, k.m, s.ir⟩).mem = s.mem := by simp [State.arriveAtBar]
  have hopen : (s.arriveAtBar id.val ⟨s.cur, named, k.m, s.ir⟩).barOpen (keyBlock s.cur) c.b.squads.length all ↔ stillOpen := by
    have hcome (j : Nat) : (s.arriveAtBar id.val ⟨s.cur, named, k.m, s.ir⟩).mayCome j = s.mayCome j := by
      rw [State.arriveAtBar, State.mayCome_modBlock, State.mayCome_modSlice]
      exact fun _ => rfl
    simp only [State.barOpen, hcome]
    rfl
  have hall : Table.getD (Table.put c.b.bars id.val all) id.val [] = all := Table.getD_put_self ..
  refine ⟨fun hout vec at_ after ht => ?_, fun hin hstill => ?_, fun hin hnone hmasks hnodup hheld => ?_⟩
  · rw [hexec, if_neg (by simp [hout]), ht.trap_atHandler rfl]
  · rw [State.checkBar_open hblock (hall.symm ▸ hopen.mpr hstill), if_pos hin] at hexec
    refine ⟨_, hexec, hself, fun j hj => by rw [hslices, if_neg hj], hmem, _, hblock, Table.find_put_self ..⟩
  · have hother : ∀ a ∈ held, a.slice ≠ s.cur := by
      intro a ha
      rw [List.map_append, List.nodup_append] at hnodup
      exact hnodup.2.2 _ (List.mem_map_of_mem ha) _ (by simp)
    obtain ⟨t, ks, ht, htmem, htb, htin, htout⟩ := State.checkBar_complete (as := all) (m := named) hblock hall
      (by simp [all]) (fun ho => hnone (hopen.mp ho)) (by simpa [all, or_imp, forall_and] using hmasks) hnodup (by
        intro a ha
        rcases List.mem_append.mp ha with ha | ha
        · rw [hslices, if_neg (hother a ha)]
          exact hheld a ha
        · rw [List.mem_singleton.mp ha]
          exact ⟨rfl, _, hself, h.unspliced, h.noOps, h.noPend, h.noReport⟩)
    rw [if_pos hin, ht] at hexec
    have hcur := htin ⟨s.cur, named, k.m, s.ir⟩ (by simp [all]) _ hself
    refine ⟨t, hexec, htmem.trans hmem, ⟨_, htb, by simp [Table.find_del]⟩, ⟨(c.x.meet ks).knows, ?_, c.x.knows_leftBar ks⟩,
      fun a ha y hy => ⟨(y.meet ks).knows, y.knows_leftBar ks, ?_⟩, fun j hj => ?_⟩
    · exact hcur
    · exact htin a (List.mem_append_left _ ha) y (by rw [hslices, if_neg (hother a ha), hy])
    · rw [htout j hj, hslices, if_neg (Ne.symm (hj ⟨s.cur, named, k.m, s.ir⟩ (by simp [all])))]

/-- A BAR that is the first of its generation and names its own squad alone joins a generation of one arrival. -/
theorem barrierAlone : Claims.BarrierAlone := by
  intro s c k id a h hp hg hbars hq hend named hnamed others
  have hbit (q : Nat) : named.getLsbD q = true ↔ q = keySquad s.cur := by
    have hlt : keySquad s.cur < 32 := Nat.mod_lt _ (by decide)
    rw [hnamed, BitVec.getLsbD_ofNat, Nat.testBit_two_pow]
    simp only [Bool.and_eq_true, decide_eq_true_eq]
    omega
  obtain ⟨-, hopen, hdone⟩ := barrierJoined s c k id (some a) h hp hg hq hend
  simp only [hbars, List.nil_append, List.mem_singleton, exists_eq_left, forall_eq, List.not_mem_nil, false_imp_iff,
    implies_true, forall_true_left, List.map_cons, List.map_nil, List.nodup_cons, not_false_eq_true, List.nodup_nil, and_true, true_and]
    at hopen hdone
  have hown : named.getLsbD (keySquad s.cur) = true := (hbit _).mpr rfl
  have hothers : (∃ q sl, q < c.b.squads.length ∧ sl < 8 ∧ named.getLsbD q = true ∧ s.cur ≠ keyOf (keyBlock s.cur) q sl
      ∧ s.mayCome (keyOf (keyBlock s.cur) q sl) = true) ↔ others := by
    simp only [hbit]
    exact ⟨fun ⟨q, sl, _, h8, hqs, hne, hm⟩ => ⟨sl, h8, hqs ▸ Ne.symm hne, hqs ▸ hm⟩,
      fun ⟨sl, h8, hne, hm⟩ => ⟨_, sl, hq, h8, rfl, Ne.symm hne, hm⟩⟩
  refine ⟨fun hnone => ?_, fun hstill => ?_⟩
  · obtain ⟨t, ht, hmem, hblock, hself, hrest⟩ := hdone hown (fun ho => hnone (hothers.mp ho))
    exact ⟨t, ht, hself, fun j hj => hrest j (Ne.symm hj), hblock, hmem⟩
  · obtain ⟨t, ht, hself, hrest, hmem, hblock⟩ := hopen hown (hothers.mpr hstill)
    exact ⟨t, ht, hself, hrest, hblock, hmem⟩

/-- Settles O24: an arrival adds to its generation; the check of the barrier leaves an open one as it is, and lets every slice of a complete
one go on; BAR alone is the generation of one arrival. -/
theorem blockBarrier : Obligations.BlockBarrier := ⟨barrierAlone, barrierJoined⟩

end Sys2Proof.Machine

/-! Proofs: what a word without short results leaves in a slice to which nothing is due (R29–R31). -/

namespace Sys2Proof.Machine

variable {s : State} {c : Ctx}

/-! ### Slices to which nothing is due -/

/-- A slice of an unspliced grid with nothing outstanding, due or to report, no register of which is poisoned. -/
structure Slice.Quiet (x : Slice) : Prop where
  unspliced : x.splice = none
  noOps : x.ops = []
  noPend : x.pend = []
  noStale : x.stale = []
  noReport : x.poisonDue = []
  clean : ∀ n, Sparse.get false x.vpoison n = false

theorem AtRest.quiet (h : AtRest s c) : c.x.Quiet := ⟨h.unspliced, h.noOps, h.noPend, h.noStale, h.noReport, h.clean⟩

theorem Slice.Quiet.hold {x : Slice} (h : x.Quiet) (hold : Hold) : Slice.Quiet { x with hold := hold } :=
  ⟨h.unspliced, h.noOps, h.noPend, h.noStale, h.noReport, h.clean⟩

/-! ### The effect -/

/-- An effect of long results, flags and pushed bits alone. -/
def Fx.isLong (fx : Fx) : Prop := fx.sShort = [] ∧ fx.exec = none ∧ fx.q = none ∧ fx.smode = none

/-- The scalar writes of an effect as long results. -/
def Fx.dueS (fx : Fx) : List PendWrite := fx.sLong.map (fun w => ⟨.s w.1, w.2, if fx.fp then .fp else .plain⟩)

/-- A slice that nothing holds any longer once its word's effect has been applied and it has gone on (R27). -/
def Slice.crossed (x : Slice) (fx : Fx) : Slice :=
  { x with
    pc := x.pc + 8, issued := x.issued + 1, hold := .none, q := fx.qAfter x.q, smode := smodeRaise x.smode fx.flags
    pend := fx.dueS ++ fx.due, vpoison := (fullWrites fx.vLong).foldl (fun p n => Sparse.set false p n false) x.vpoison }

/-- The slice after that, parked where M = 1 (R30). -/
def State.afterCross (s : State) (x : Slice) (fx : Fx) (m : Bool) : Slice := if m then s.settle (x.crossed fx) else x.crossed fx

theorem Ctx.applyTo_long (hq : c.x.Quiet) {fx : Fx} (hf : fx.isLong) :
    c.applyTo fx c.x = { c.x with
      q := fx.qAfter c.x.q, smode := smodeRaise c.x.smode fx.flags, pend := fx.dueS ++ fx.due
      vpoison := (fullWrites fx.vLong).foldl (fun p n => Sparse.set false p n false) c.x.vpoison } := by
  have hC : c.inC = false := by simp [Ctx.inC, hq.unspliced]
  have hS (n : Nat) : c.physS n = n := by simp [Ctx.physS, hC]
  have hV (n : Nat) : c.physV n = n := by simp [Ctx.physV, hC]
  obtain ⟨sShort, sLong, vLong, push, exec, q, smode, flags, fp⟩ := fx
  obtain ⟨rfl, rfl, rfl, rfl⟩ := hf
  unfold Ctx.applyTo
  simp only [List.foldl_nil, hS, hV, hq.noPend, Fx.due, Fx.dueS, Fx.qAfter, Slice.push_eq]
  split
  · next hn =>
    rw [hn, smodeRaise_none]
    cases push <;> simp [hq.noPend]
  · cases push <;> simp [hq.noPend]

/-- A slice with no long result outstanding and no report due parks by letting its results land. -/
theorem State.parkSlice_settle (s : State) {x : Slice} (ho : x.ops = []) (hd : x.poisonDue = []) : s.parkSlice x = s.settle x := by
  rw [State.parkSlice, Slice.longOut_of_noOps ho, if_neg Bool.false_ne_true,
    Slice.readyPoison_quiet ((s.settle_poisonDue x).trans hd)]

/-- A word without short results moves its slice on, which parks where M = 1 (R27, R30). -/
theorem Ctx.done_long (hc : c.s.ctx c.k = some c) (hq : c.x.Quiet) (hh : c.x.hold = .none) {fx : Fx} (hf : fx.isLong) (m : Bool) :
    c.done fx m = { c.s with slices := Table.put c.s.slices c.k (c.s.afterCross c.x fx m) } := by
  obtain ⟨-, -, hx, hb⟩ := State.ctx_eq hc
  let y : Slice := { c.x with
      q := fx.qAfter c.x.q, smode := smodeRaise c.x.smode fx.flags, pend := fx.dueS ++ fx.due
      vpoison := (fullWrites fx.vLong).foldl (fun p n => Sparse.set false p n false) c.x.vpoison }
  let u : State := { c.s with slices := Table.put c.s.slices c.k y }
  have hmod : c.s.modSlice c.k (c.applyTo fx) = u := by
    simp only [State.modSlice, hx, c.applyTo_long hq hf]
    rfl
  have hz : ({ y with pc := y.pc + 8, issued := y.issued + 1 } : Slice) = c.x.crossed fx := by
    simp only [y, Slice.crossed, hh]
  have hu : Table.find u.slices c.k = some y := Table.find_put_self ..
  have hgo := State.goto_plain (s := u) (y.pc + 8) true m hu hb hq.unspliced
  simp only [hz, u.parkSlice_settle (x := c.x.crossed fx) hq.noOps hq.noReport] at hgo
  rw [Ctx.done, hmod, State.finish, hu]
  refine hgo.trans ?_
  simp only [u, Table.put_put]
  rfl

/-! ### What a rule leaves -/

/-- The effect that a rule describes: elements of a vector register, or a scalar register, and the bits pushed. -/
def SoloRule.fx (r : SoloRule) (c : Ctx) (fp : Bool) : Fx :=
  match r.vec with
  | some v => vectorFx c v fp (r.push.map laneMask)
  | none => { sLong := (r.scalar.map (fun e => (e.1.val, e.2))).toList, push := r.push.map laneMask, fp := fp }

theorem SoloRule.fx_isLong (r : SoloRule) (c : Ctx) (fp : Bool) : (r.fx c fp).isLong := by
  unfold SoloRule.fx
  split <;> exact ⟨rfl, rfl, rfl, rfl⟩

/-- Q after the bits of a rule have been pushed (R23). -/
theorem SoloRule.qAfter_fx (r : SoloRule) (c : Ctx) (fp : Bool) (q : Vector (BitVec 8) 4) :
    (r.fx c fp).qAfter q = (r.push.map (fun p => Vector.ofFn (fun l : Fin 4 => (q[l] <<< 1) ||| (if p l.val then 1#8 else 0#8)))).getD q := by
  obtain ⟨-, -, hq, -⟩ := r.fx_isLong c fp
  have hp : (r.fx c fp).push = r.push.map laneMask := by
    unfold SoloRule.fx
    split <;> rfl
  rw [Fx.qAfter, hp, hq]
  cases r.push with
  | none => rfl
  | some p => exact pushedBits_laneMask q p

theorem State.settle_q (s : State) (x : Slice) : (s.settle x).q = x.q := by
  have key (f : Elem → Word64) (es : List Elem) (w : Slice) : (es.foldl (fun u e => u.land e (f e)) w).q = w.q := by
    induction es generalizing w with
    | nil => rfl
    | cons e es ih =>
      rw [List.foldl_cons, ih]
      cases e <;> simp [Slice.land, Slice.putS]
  unfold State.settle
  split_ifs
  · rfl
  · exact key _ _ _

theorem State.afterCross_q (s : State) (x : Slice) (fx : Fx) (m : Bool) : (s.afterCross x fx m).q = fx.qAfter x.q := by
  unfold State.afterCross
  split
  · exact s.settle_q _
  · rfl

/-- What lands in a lane after a vector word (R120). -/
theorem Slice.crossed_lands (c : Ctx) (r : VecRule) (fp : Bool) (push : Option (BitVec 4)) (n : Nat) {l : Nat} (hl : l < 4) :
    (c.x.crossed (vectorFx c r fp push)).lands (.v n l)
      ((if c.x.active r.ctl.guard l = true ∧ n = r.d.val then deliveredTo r.df (r.elem l).1 false
        else if c.x.active r.ctl.guard l = true ∧ r.df.is64 = true ∧ n = r.d.val + 1 then deliveredTo r.df (r.elem l).1 true
        else c.x.vreg n l).setWidth 64) := by
  have hp : (c.x.crossed (vectorFx c r fp push)).pendOf (.v n l)
      = if c.x.active r.ctl.guard l = true then receives r.df r.d.val n (r.elem l).1 else [] :=
    (Fx.due_at _ n l).trans (laneFx_at c _ _ _ _ n hl)
  have hg : (c.x.crossed (vectorFx c r fp push)).getElem (.v n l) = (c.x.vreg n l).setWidth 64 := rfl
  rw [Slice.lands, hp, hg]
  unfold receives
  split_ifs <;> simp_all

/-- Apart from Q, a rule for a vector register leaves what it says. -/
theorem VecRule.leaves_afterCross (hq : c.x.Quiet) (s : State) (r : VecRule) (fp : Bool) (push : Option (BitVec 4)) (m : Bool) :
    r.leaves c.released { s.afterCross c.x (vectorFx c r fp push) m with q := c.x.q } := by
  have hin := vectorFx_inLanes c r fp push
  have hdue : (c.x.crossed (vectorFx c r fp push)).vectorsDue := Fx.due_vectors hin
  have hclean := Sparse.clean_foldl (fullWrites (vectorFx c r fp push).vLong) _ hq.clean
  have hlands (n : Nat) {l : Nat} (hl : l < 4) := Slice.crossed_lands c r fp push n hl
  cases m with
  | false =>
    refine ⟨rfl, hclean, fun n => ?_, fun n l hl => hlands n hl⟩
    simp only [State.afterCross, Slice.pendOf, List.map_eq_nil_iff, List.filter_eq_nil_iff]
    intro p hp
    obtain ⟨i, l, -, -, he, -⟩ := hdue p hp
    simp [he]
  | true =>
    have hs : s.afterCross c.x (vectorFx c r fp push) true = _ := s.settle_vectors hdue
    refine ⟨?_, ?_, fun n => ?_, fun n l hl => s.settle_lands hdue hl (hlands n hl)⟩
    · rw [hs]
      rfl
    · rw [hs]
      exact hclean
    · rw [hs]
      rfl

/-- A single scalar result lands in its register. -/
theorem State.settle_scalar (s : State) {x : Slice} {n : Nat} {v : Word64} {kind : LongKind} (hp : x.pend = [⟨.s n, v, kind⟩])
    (hs : x.stale = []) : s.settle x = { x.setS n v with pend := [] } := by
  have he : x.pendElems = [.s n] := by rw [Slice.pendElems, hp]; rfl
  have hv : x.pendOf (.s n) = [v] := by simp [Slice.pendOf, hp]
  have hput : x.putS n v = x.setS n v := by
    cases x
    simp only at hs
    subst hs
    unfold Slice.putS Slice.setS
    split <;> rfl
  simp [State.settle, hp, he, hv, Slice.land, hput]

/-- A rule for a scalar register, or for none, leaves what it says of the registers. -/
theorem SoloRule.leaves_scalar (hq : c.x.Quiet) (s : State) (fp : Bool) (w : Option (SReg × Word64)) (push : Option (BitVec 4)) (m : Bool) :
    let y := s.afterCross c.x { sLong := (w.map (fun e => (e.1.val, e.2))).toList, push := push, fp := fp } m
    y = { c.released.next with s := y.s, pend := y.pend, q := y.q } ∧ (∀ n l, y.pendOf (.v n l) = [])
      ∧ ∀ n, n < 64 → y.lands (.s n) (match w with
        | none => c.x.sreg n
        | some (d, v) => if n = d.val then v else c.x.sreg n) := by
  cases w with
  | none =>
    have hy : s.afterCross c.x { push := push, fp := fp } m = { c.released.next with q := (Fx.qAfter { push := push } c.x.q) } := by
      have hx : c.x.crossed { push := push, fp := fp } = { c.released.next with q := (Fx.qAfter { push := push } c.x.q) } := by
        simp [Slice.crossed, Ctx.next, Ctx.released, Fx.due, Fx.dueS, smodeRaise_none, fullWrites, hq.noPend, Fx.qAfter]
      have hs : s.settle (c.x.crossed { push := push, fp := fp }) = c.x.crossed { push := push, fp := fp } := by
        simp [State.settle, hx, Ctx.next, Ctx.released, hq.noPend]
      rw [State.afterCross, hs, ite_self, hx]
    simp only [Option.map_none, Option.toList_none, hy]
    refine ⟨trivial, fun n l => ?_, fun n _ => .inl ⟨?_, rfl⟩⟩
    all_goals simp [Slice.pendOf, Ctx.next, Ctx.released, hq.noPend]
  | some e =>
    obtain ⟨d, v⟩ := e
    have hp : (c.x.crossed { sLong := [(d.val, v)], push := push, fp := fp }).pend = [⟨.s d.val, v, if fp then .fp else .plain⟩] := by
      simp [Slice.crossed, Fx.dueS, Fx.due]
    have hx : c.x.crossed { sLong := [(d.val, v)], push := push, fp := fp } = { c.released.next with
        q := Fx.qAfter { push := push } c.x.q, pend := [⟨.s d.val, v, if fp then .fp else .plain⟩] } := by
      simp [Slice.crossed, Ctx.next, Ctx.released, Fx.due, Fx.dueS, smodeRaise_none, fullWrites, Fx.qAfter]
    cases m with
    | false =>
      simp only [State.afterCross, Option.map_some, Option.toList_some, hx, Bool.false_eq_true, if_false]
      refine ⟨trivial, fun n l => by simp [Slice.pendOf], fun n _ => ?_⟩
      by_cases hn : n = d.val
      · exact .inr (by simp [Slice.pendOf, hn])
      · refine .inl ⟨by simp [Slice.pendOf, Ne.symm hn], ?_⟩
        rw [if_neg hn]
        rfl
    | true =>
      have hs := s.settle_scalar hp hq.noStale
      simp only [State.afterCross, Option.map_some, Option.toList_some, hs, if_true]
      refine ⟨?_, fun n l => rfl, fun n _ => .inl ⟨rfl, ?_⟩⟩
      · rw [hx]
        unfold Slice.setS
        split <;> rfl
      · refine (Slice.sreg_setS _ d.val v n).trans ?_
        simp [d.isLt, hx, Slice.sreg, Ctx.next, Ctx.released]

theorem SoloRule.leaves_afterCross (hq : c.x.Quiet) (s : State) (r : SoloRule) (fp m : Bool) :
    r.leaves c.released (s.afterCross c.x (r.fx c fp) m) := by
  refine ⟨?_, ?_⟩
  · rw [s.afterCross_q, r.qAfter_fx]
    cases r.push <;> rfl
  · cases hv : r.vec with
    | some v =>
      rw [SoloRule.fx, hv]
      exact v.leaves_afterCross hq s fp _ m
    | none =>
      rw [SoloRule.fx, hv]
      exact SoloRule.leaves_scalar hq s fp r.scalar _ m

end Sys2Proof.Machine

/-! Proofs: a slice joins a group of its squad, which completes or stays open (R168–R170). -/

namespace Sys2Proof.Machine

variable {s : State} {c : Ctx} {m : Member} {ms : List Member}

/-! ### One squad of a block -/

theorem Block.squad_modSquad (b : Block) {q : Nat} (f : Squad → Squad) (h : q < b.squads.length) :
    (b.modSquad q f).squad q = f (b.squad q) := by
  simp [Block.modSquad, Block.squad, h]

theorem Block.modSquad_modSquad (b : Block) (q : Nat) (f g : Squad → Squad) :
    (b.modSquad q f).modSquad q g = b.modSquad q (fun x => g (f x)) := by
  simp only [Block.modSquad, List.length_map, List.length_range, Block.mk.injEq, true_and, and_true]
  refine List.map_congr_left fun i hi => ?_
  have hlt : i < b.squads.length := List.mem_range.mp hi
  simp only [Block.squad, List.getD_eq_getElem?_getD, List.getElem?_map, List.getElem?_range hlt, Option.map_some, Option.getD_some]
  split <;> rfl

theorem Block.modSquad_congr (b : Block) {q : Nat} {f g : Squad → Squad} (h : f (b.squad q) = g (b.squad q)) :
    b.modSquad q f = b.modSquad q g := by
  simp only [Block.modSquad, Block.mk.injEq, true_and, and_true]
  refine List.map_congr_left fun i _ => ?_
  split
  · next hi => rw [hi, h]
  · rfl

/-- A change that leaves a squad as it was leaves its block so. -/
theorem Block.modSquad_self (b : Block) {q : Nat} {f : Squad → Squad} (h : f (b.squad q) = b.squad q) : b.modSquad q f = b := by
  have hs : (List.range b.squads.length).map (fun i => if i = q then f (b.squad i) else b.squad i) = b.squads := by
    refine List.ext_getElem (by simp) fun i _ hi => ?_
    simp only [List.getElem_map, List.getElem_range]
    have hb : b.squad i = b.squads[i] := by simp [Block.squad, hi]
    split
    · next e => rw [← hb, e, h]
    · exact hb
  rw [Block.modSquad, hs]

/-! ### Joining (R168) -/

/-- The state in which a slice has joined a group at an address. -/
def State.joinAt (s : State) (pc : Word64) (m : Member) : State :=
  (s.modSlice m.slice (fun x => { x with hold := .inst pc })).modBlock (keyBlock m.slice)
    (fun b => b.modSquad (keySquad m.slice) (fun q => q.join pc m))

theorem AtRest.joinInst_eq (h : AtRest s c) (hm : m.slice = s.cur) :
    c.joinInst m = if m.mask.getLsbD (keySlice s.cur) = true then (s.joinAt c.x.pc m).checkInsts (keyBlock s.cur) (keySquad s.cur)
      else c.trap { cause := .groupSync } := by
  have hbit : testBit m.mask.toNat (keySlice s.cur) = m.mask.getLsbD (keySlice s.cur) := testBit_eq _ _
  rw [Ctx.joinInst, h.key, h.state, hbit, State.joinAt, hm]
  cases m.mask.getLsbD (keySlice s.cur) <;> rfl

theorem Squad.join_empty {q : Squad} (h : q.insts = []) (pc : Word64) (m : Member) : (q.join pc m).insts = [⟨pc, [m]⟩] := by
  simp [Squad.join, h]

theorem Squad.join_open {q : Squad} {pc : Word64} (h : q.insts = [⟨pc, ms⟩]) (m : Member) :
    (q.join pc m).insts = [⟨pc, ms ++ [m]⟩] := by
  simp [Squad.join, h]

theorem Squad.join_eq (q : Squad) (pc : Word64) (m : Member) : { q.join pc m with insts := [] } = { q with insts := [] } := by
  unfold Squad.join
  split <;> rfl

theorem State.joinAt_block (hb : Table.find s.blocks (keyBlock m.slice) = some c.b) (pc : Word64) :
    Table.find (s.joinAt pc m).blocks (keyBlock m.slice) = some (c.b.modSquad (keySquad m.slice) (fun q => q.join pc m)) := by
  rw [State.joinAt, State.modBlock_find, if_pos rfl, State.modSlice_blocks, hb]
  rfl

theorem State.joinAt_find (s : State) (pc : Word64) (m : Member) (j : Nat) :
    Table.find (s.joinAt pc m).slices j
      = if j = m.slice then (Table.find s.slices m.slice).map (fun x => { x with hold := .inst pc }) else Table.find s.slices j := by
  rw [State.joinAt, State.modBlock_slices, State.modSlice_find]

theorem State.joinAt_mayCome (s : State) (pc : Word64) (m : Member) (j : Nat) : (s.joinAt pc m).mayCome j = s.mayCome j := by
  rw [State.joinAt, State.mayCome_modBlock, State.mayCome_modSlice]
  exact fun _ => rfl

/-! ### Open groups (R168) -/

/-- A slice that a member names has neither joined nor ended. -/
def State.instOpen (s : State) (uid squad : Nat) (ms : List Member) : Prop :=
  ∃ sl, sl < 8 ∧ (∃ m ∈ ms, m.mask.getLsbD sl = true) ∧ (∀ m ∈ ms, keySlice m.slice ≠ sl) ∧ s.mayCome (keyOf uid squad sl) = true

theorem memberOf_isSome (ms : List Member) (sl : Nat) : (memberOf ms sl).isSome = true ↔ ∃ m ∈ ms, keySlice m.slice = sl := by
  simp [memberOf]

theorem State.instComplete_iff (s : State) (uid squad : Nat) (pc : Word64) (ms : List Member) :
    s.instComplete uid squad ⟨pc, ms⟩ = true ↔ ¬ s.instOpen uid squad ms := by
  have hbit (m : Member) (sl : Nat) : testBit m.mask.toNat sl = m.mask.getLsbD sl := testBit_eq _ _
  simp only [State.instComplete, State.instOpen, hbit, List.all_eq_true, List.mem_range, Bool.or_eq_true, Bool.not_eq_true',
    memberOf_isSome]
  push Not
  refine forall_congr' fun sl => forall_congr' fun _ => ?_
  rw [List.any_eq_false]
  simp only [Bool.not_eq_true]
  constructor
  · rintro ((h | ⟨m, hm, he⟩) | h) ⟨d, hd, hbit⟩ hne
    · simp [h d hd] at hbit
    · exact absurd he (hne m hm)
    · simp [h]
  · intro h
    by_cases hbit : ∃ d ∈ ms, d.mask.getLsbD sl = true
    · by_cases hne : ∀ m ∈ ms, keySlice m.slice ≠ sl
      · exact .inr (by simpa using h hbit hne)
      · push Not at hne
        exact .inl (.inr hne)
    · push Not at hbit
      exact .inl (.inl fun d hd => by simpa using hbit d hd)

theorem State.checkInsts_one {uid squad : Nat} {b : Block} {i : Inst} (hb : Table.find s.blocks uid = some b)
    (hi : (b.squad squad).insts = [i]) : s.checkInsts uid squad = s.tryInst uid squad i := by
  simp only [State.checkInsts, hb, hi]
  rfl

/-! ### Completing a group (R168, R170) -/

/-- A cross-lane word has no short scalar result, and sets neither EXEC nor SMODE (R174). -/
theorem memberFx_isLong (ms : List Member) (m : Member) : (memberFx ms m).isLong := by
  unfold memberFx
  split
  case h_9 => split <;> exact ⟨rfl, rfl, rfl, rfl⟩
  all_goals exact ⟨rfl, rfl, rfl, rfl⟩

/-- A completed group whose masks agree moves a member on whose slice nothing is due to. -/
theorem State.finishMember_eq {x : Slice} {b : Block} (hx : Table.find s.slices m.slice = some x)
    (hb : Table.find s.blocks (keyBlock m.slice) = some b) (hq : x.Quiet) (hm : sameMask ms = true) :
    s.finishMember ms m
      = { s with slices := Table.put s.slices m.slice (s.afterCross x (memberFx ms m) (markerOf m.word)) } := by
  let u : State := { s with slices := Table.put s.slices m.slice { x with hold := .none } }
  have hmod : s.modSlice m.slice (fun x => { x with hold := .none }) = u := by
    rw [State.modSlice, hx]
  have hu : u.ctx m.slice = some ⟨u, m.slice, { x with hold := .none }, b⟩ := State.ctx_of (Table.find_put_self ..) hb
  have hd := Ctx.done_long (c := ⟨u, m.slice, { x with hold := .none }, b⟩) hu (hq.hold .none) rfl (memberFx_isLong ms m) (markerOf m.word)
  rw [State.finishMember, hmod, hu]
  simp only [hm, if_true, hd]
  simp only [u, Table.put_put]
  rfl

theorem sameMask_of {p : BitVec 8} (h : ∀ m ∈ ms, m.mask = p) : sameMask ms = true := by
  cases ms with
  | nil => rfl
  | cons m ms =>
    obtain ⟨hm, h⟩ := List.forall_mem_cons.mp h
    simpa [sameMask, hm] using h

/-- A group that no slice has still to join, whose masks agree, moves each of its members on and is gone. -/
theorem State.tryInst_complete {uid squad : Nat} {pc : Word64} {b : Block} {p : BitVec 8} (hb : Table.find s.blocks uid = some b)
    (ho : ¬ s.instOpen uid squad ms) (hmask : ∀ m ∈ ms, m.mask = p) (hn : (ms.map (fun m => m.slice)).Nodup)
    (hms : ∀ m ∈ ms, keyBlock m.slice = uid ∧ ∃ x, Table.find s.slices m.slice = some x ∧ x.Quiet) :
    ∃ T, s.tryInst uid squad ⟨pc, ms⟩ = { s with
          slices := T
          blocks := Table.put s.blocks uid (b.modSquad squad (fun q => { q with insts := q.insts.filter (fun j => j.pc != pc) })) }
      ∧ (∀ m ∈ ms, ∀ x, Table.find s.slices m.slice = some x →
          Table.find T m.slice = some (s.afterCross x (memberFx ms m) (markerOf m.word)))
      ∧ ∀ j, (∀ m ∈ ms, m.slice ≠ j) → Table.find T j = Table.find s.slices j := by
  let u : State := { s with
    blocks := Table.put s.blocks uid (b.modSquad squad (fun q => { q with insts := q.insts.filter (fun j => j.pc != pc) })) }
  have hmod : s.modBlock uid (fun b => b.modSquad squad (fun q => { q with insts := q.insts.filter (fun j => j.pc != pc) })) = u := by
    rw [State.modBlock, hb]
  obtain ⟨T, hT, hin, hout⟩ := State.foldl_own u (f := fun t m => t.finishMember ms m) (key := fun m => m.slice)
    (g := fun m x => s.afterCross x (memberFx ms m) (markerOf m.word)) hn
    (fun m hm => (hms m hm).2.imp fun x hx => hx.1)
    (fun m hm x hx T hT => by
      obtain ⟨hk, y, hy, hq⟩ := hms m hm
      obtain rfl : y = x := Option.some.inj (hy.symm.trans hx)
      exact State.finishMember_eq hT (by rw [hk]; exact Table.find_put_self ..) hq (sameMask_of hmask))
  refine ⟨T, ?_, hin, hout⟩
  rw [State.tryInst, if_pos ((s.instComplete_iff ..).mpr ho), hmod, hT]

/-- The last slice that a group waits for moves all of its members on, and the group is gone. -/
theorem AtRest.joinInst_completes (h : AtRest s c) (hq : keySquad s.cur < c.b.squads.length) {p : BitVec 8} (hm : m.slice = s.cur)
    (hmem : m ∈ ms) (hown : p.getLsbD (keySlice s.cur) = true) (hjoin : (c.squad.join c.x.pc m).insts = [⟨c.x.pc, ms⟩])
    (hmask : ∀ d ∈ ms, d.mask = p) (hn : (ms.map (fun d => d.slice)).Nodup)
    (ho : ¬ s.instOpen (keyBlock s.cur) (keySquad s.cur) ms)
    (hms : ∀ d ∈ ms, keyBlock d.slice = keyBlock s.cur ∧ ∃ x, Table.find s.slices d.slice = some x ∧ x.Quiet) :
    ∃ T, c.joinInst m = { s with
          slices := T
          blocks := Table.put s.blocks (keyBlock s.cur) (c.b.modSquad (keySquad s.cur) (fun q => { q with insts := [] })) }
      ∧ (∀ d ∈ ms, ∀ x, Table.find s.slices d.slice = some x →
          Table.find T d.slice = some (s.afterCross x (memberFx ms d) (markerOf d.word)))
      ∧ ∀ j, (∀ d ∈ ms, d.slice ≠ j) → Table.find T j = Table.find s.slices j := by
  obtain ⟨-, hk, hx, hb⟩ := State.ctx_eq h.here
  have hsquad : c.b.squad (keySquad s.cur) = c.squad := by rw [Ctx.squad, hk]
  have hblock := State.joinAt_block (m := m) (s := s) (c := c) (by rw [hm, hb]) c.x.pc
  have hjoined : s.joinAt c.x.pc m = { s with
      slices := Table.put s.slices s.cur { c.x with hold := .inst c.x.pc }
      blocks := Table.put s.blocks (keyBlock s.cur) (c.b.modSquad (keySquad s.cur) (fun q => q.join c.x.pc m)) } := by
    simp only [State.joinAt, hm, State.modSlice, hx, State.modBlock, hb]
  have hinsts : ((c.b.modSquad (keySquad s.cur) (fun q => q.join c.x.pc m)).squad (keySquad s.cur)).insts = [⟨c.x.pc, ms⟩] := by
    rw [Block.squad_modSquad _ _ hq, hsquad, hjoin]
  rw [hm] at hblock
  have hfind (d : Nat) (x : Slice) (hd : Table.find s.slices d = some x) :
      ∃ hold, Table.find (s.joinAt c.x.pc m).slices d = some { x with hold := hold } := by
    rw [State.joinAt_find, hm]
    split_ifs with e
    · exact ⟨.inst c.x.pc, by rw [← e, hd]; rfl⟩
    · exact ⟨x.hold, hd⟩
  obtain ⟨T, hT, hin, hout⟩ := State.tryInst_complete (pc := c.x.pc) hblock
    (by simpa only [State.instOpen, State.joinAt_mayCome] using ho) hmask hn
    (fun d hd => by
      obtain ⟨hkd, x, hxd, hquiet⟩ := hms d hd
      obtain ⟨hold, hxd⟩ := hfind _ _ hxd
      exact ⟨hkd, _, hxd, hquiet.hold hold⟩)
  refine ⟨T, ?_, fun d hd x hxd => ?_, fun j hj => ?_⟩
  · rw [h.joinInst_eq hm, hmask m hmem, if_pos hown, State.checkInsts_one hblock hinsts, hT, hjoined]
    simp only [Table.put_put, Block.modSquad_modSquad]
    rw [Block.modSquad_congr (g := fun q => { q with insts := [] })]
    rw [hsquad, hjoin, ← Squad.join_eq c.squad c.x.pc m]
    simp
  · obtain ⟨hold, hxd⟩ := hfind _ _ hxd
    refine (hin d hd _ hxd).trans ?_
    rw [hjoined]
    rfl
  · rw [hout j hj, State.joinAt_find, if_neg fun e => hj m hmem e.symm]

/-- A slice whose group waits for another slice is held there. -/
theorem AtRest.joinInst_waits (h : AtRest s c) (hq : keySquad s.cur < c.b.squads.length) (hm : m.slice = s.cur)
    (hown : m.mask.getLsbD (keySlice s.cur) = true) (hi : c.squad.insts = [])
    (ho : s.instOpen (keyBlock s.cur) (keySquad s.cur) [m]) : c.joinInst m = s.joinAt c.x.pc m := by
  obtain ⟨-, hk, -, hb⟩ := State.ctx_eq h.here
  have hblock := State.joinAt_block (m := m) (s := s) (c := c) (by rw [hm, hb]) c.x.pc
  rw [hm] at hblock
  have hinsts : ((c.b.modSquad (keySquad s.cur) (fun q => q.join c.x.pc m)).squad (keySquad s.cur)).insts = [⟨c.x.pc, [m]⟩] := by
    rw [Block.squad_modSquad _ _ hq, Squad.join_empty]
    rw [← hk]
    exact hi
  have hopen : (s.joinAt c.x.pc m).instOpen (keyBlock s.cur) (keySquad s.cur) [m] := by
    simpa only [State.instOpen, State.joinAt_mayCome] using ho
  rw [h.joinInst_eq hm, if_pos hown, State.checkInsts_one hblock hinsts, State.tryInst,
    if_neg fun hc => (State.instComplete_iff ..).mp hc hopen]

end Sys2Proof.Machine

/-! Proofs: trees and scans over the threads of a group (R178, R179). -/

namespace Sys2Proof.Machine

variable {α : Type} {f : α → α → α}

/-! ### Folding what is present -/

/-- Folds a list onto what is there already. -/
def foldOnto (f : α → α → α) (acc : Option α) (l : List α) : Option α := l.foldl (fun a x => Option.merge f a (some x)) acc

theorem foldOnto_some (a : α) (l : List α) : foldOnto f (some a) l = some (l.foldl f a) := by
  induction l generalizing a with
  | nil => rfl
  | cons x l ih => exact ih (f a x)

theorem foldOnto_cons (x : α) (l : List α) : foldOnto f none (x :: l) = some (l.foldl f x) := foldOnto_some x l

/-- Merging optional values one after the other folds those that are present. -/
theorem foldl_merge (x : Nat → Option α) (acc : Option α) (l : List Nat) :
    l.foldl (fun a u => Option.merge f a (x u)) acc = foldOnto f acc (l.filterMap x) := by
  induction l generalizing acc with
  | nil => rfl
  | cons u l ih =>
    rw [List.foldl_cons, ih]
    cases hx : x u with
    | none => rw [List.filterMap_cons_none hx, Option.merge_none_right]
    | some v => rw [List.filterMap_cons_some hx]; rfl

/-! ### The tree (R178) -/

/-- One level of the tree by position. -/
def halved (f : α → α → α) (x : Nat → Option α) (p : Nat) : Option α := Option.merge f (x (2 * p)) (x (2 * p + 1))

theorem treeLevel_cons_cons (f : α → α → α) (a b : Option α) (l : List (Option α)) :
    treeLevel f (a :: b :: l) = Option.merge f a b :: treeLevel f l := by
  cases a <;> cases b <;> rfl

theorem treeLevel_range (f : α → α → α) (x : Nat → Option α) (n : Nat) :
    treeLevel f ((List.range (2 * n)).map x) = (List.range n).map (halved f x) := by
  induction n generalizing x with
  | zero => rfl
  | succ n ih =>
    have hr : List.range (2 * (n + 1)) = 0 :: 1 :: (List.range (2 * n)).map (· + 2) := by
      rw [Nat.mul_succ, List.range_succ_eq_map, List.range_succ_eq_map]
      simp
    rw [hr, List.map_cons, List.map_cons, treeLevel_cons_cons, List.map_map, ih, List.range_succ_eq_map, List.map_cons, List.map_map]
    rfl

/-- The root of the tree is the fifth level's only value. -/
theorem treeRoot_range (f : α → α → α) (x : Nat → Option α) :
    treeRoot f ((List.range 32).map x) = halved f (halved f (halved f (halved f (halved f x)))) 0 := by
  rw [treeRoot, treeLevel_range f x 16, treeLevel_range f _ 8, treeLevel_range f _ 4, treeLevel_range f _ 2, treeLevel_range f _ 1]
  rfl

theorem foldl_halved [Std.Associative f] (x : Nat → Option α) (n : Nat) :
    (List.range n).foldl (fun a p => Option.merge f a (halved f x p)) none
      = (List.range (2 * n)).foldl (fun a u => Option.merge f a (x u)) none := by
  induction n with
  | zero => rfl
  | succ n ih =>
    rw [Nat.mul_succ, List.range_succ, List.range_succ, List.range_succ, List.foldl_append, List.foldl_append, List.foldl_append, ih]
    exact (Std.Associative.assoc (op := Option.merge f) _ _ _).symm

/-- The tree of an associative operation folds what is present, in order. -/
theorem treeRoot_assoc [Std.Associative f] (x : Nat → Option α) :
    treeRoot f ((List.range 32).map x) = foldOnto f none ((List.range 32).filterMap x) := by
  have h : ∀ y : Nat → Option α, y 0 = (List.range 1).foldl (fun a p => Option.merge f a (y p)) none := fun y => by simp
  rw [treeRoot_range, ← foldl_merge]
  refine (h _).trans ?_
  rw [foldl_halved, foldl_halved, foldl_halved, foldl_halved, foldl_halved]

/-- A level of the tree passes a single value on. -/
theorem halved_single {x : Nat → Option α} {q : Nat} (h : ∀ p, p ≠ q → x p = none) :
    halved f x (q / 2) = x q ∧ ∀ p, p ≠ q / 2 → halved f x p = none := by
  refine ⟨?_, fun p hp => ?_⟩
  · rcases Nat.even_or_odd' q with ⟨r, rfl | rfl⟩
    · rw [halved, show 2 * r / 2 = r by omega, h (2 * r + 1) (by omega), Option.merge_none_right]
    · rw [halved, show (2 * r + 1) / 2 = r by omega, h (2 * r) (by omega), Option.merge_none_left]
  · rw [halved, h _ (by omega), h _ (by omega)]
    rfl

theorem pairs4_merge (f : α → α → α) (x : Nat → Option α) :
    pairs4 f x = Option.merge f (Option.merge f (x 0) (x 1)) (Option.merge f (x 2) (x 3)) := by
  unfold pairs4
  cases x 0 <;> cases x 1 <;> cases x 2 <;> cases x 3 <;> rfl

/-- The tree over the four lanes of one slice. -/
theorem treeRoot_slice (f : α → α → α) {x : Nat → Option α} {sl : Nat} (hsl : sl < 8) (h : ∀ u, u / 4 ≠ sl → x u = none) :
    treeRoot f ((List.range 32).map x) = pairs4 f (fun l => x (sl * 4 + l)) := by
  have h2 : ∀ p, p ≠ sl → halved f (halved f x) p = none := fun p hp => by
    simp only [halved]
    rw [h _ (by omega), h _ (by omega), h _ (by omega), h _ (by omega)]
    rfl
  obtain ⟨e3, h3⟩ := halved_single (f := f) h2
  obtain ⟨e4, h4⟩ := halved_single (f := f) h3
  obtain ⟨e5, -⟩ := halved_single (f := f) h4
  rw [treeRoot_range, ← show sl / 2 / 2 / 2 = 0 by omega, e5, e4, e3]
  simp only [halved, pairs4_merge, show 2 * (2 * sl) = sl * 4 + 0 by ring, show 2 * (2 * sl + 1) = sl * 4 + 2 by ring, add_assoc]

/-! ### Integer nodes (R178) -/

/-- An integer node's value. -/
def redInt (r : Red) (f : Fmt) (a b : Nat) : Nat :=
  match r with
  | .add => wrap (intOf f a + intOf f b) 32
  | .min => if intOf f b < intOf f a then b else a
  | .max => if intOf f a < intOf f b then b else a
  | .and => a &&& b
  | .or => a ||| b
  | .xor => a ^^^ b

/-- The 32-bit integer formats. -/
def IsInt32 (f : Fmt) : Prop := f = .i32 ∨ f = .n32

variable {g : Fmt}

theorem IsInt32.width (h : IsInt32 g) : g.width = 32 := by
  rcases h with rfl | rfl <;> rfl

theorem redNode_int (h : IsInt32 g) (r : Red) (a b : Nat × Flags) : redNode r g a b = (redInt r g a.1 b.1, a.2.or b.2) := by
  rcases h with rfl | rfl <;> cases r <;> rfl

theorem redLeaf_int (h : IsInt32 g) (x : Nat) : redLeaf g x = (x, Flags.none) := by
  rcases h with rfl | rfl <;> rfl

/-- An integer of 32 bits modulo 2^32 is its pattern. -/
theorem ofInt_intAt (h : IsInt32 g) (x : Nat) : BitVec.ofInt 32 (intAt g x) = BitVec.ofNat 32 x := by
  rcases h with rfl | rfl
  · exact BitVec.ofInt_toInt
  · exact (BitVec.ofInt_natCast ..).trans (BitVec.ofNat_toNat ..)

theorem redInt_add (h : IsInt32 g) (a b : Nat) : redInt .add g a b = (BitVec.ofNat 32 a + BitVec.ofNat 32 b).toNat := by
  rw [redInt, wrap_eq_toNat, ← intAt_eq, ← intAt_eq, BitVec.ofInt_add, ofInt_intAt h, ofInt_intAt h]

theorem redInt_assoc (h : IsInt32 g) (r : Red) (a b c : Nat) : redInt r g (redInt r g a b) c = redInt r g a (redInt r g b c) := by
  cases r with
  | add => simp only [redInt_add h, BitVec.ofNat_toNat, BitVec.setWidth_eq, BitVec.add_assoc]
  | min =>
    simp only [redInt]
    split_ifs <;> omega
  | max =>
    simp only [redInt]
    split_ifs <;> omega
  | and => exact Nat.land_assoc ..
  | or => exact Nat.lor_assoc ..
  | xor => exact Nat.xor_assoc ..

theorem Flags.or_assoc (a b c : Flags) : (a.or b).or c = a.or (b.or c) := by
  simp [Flags.or, Bool.or_assoc]

theorem redNode_assoc (h : IsInt32 g) (r : Red) : Std.Associative (redNode r g) :=
  ⟨fun a b c => by simp only [redNode_int h, redInt_assoc h, Flags.or_assoc]⟩

/-- Integer leaves fold to their values' fold, without flags. -/
theorem foldOnto_int (h : IsInt32 g) (r : Red) (l : List Nat) :
    foldOnto (redNode r g) none (l.map (redLeaf g)) = (foldOnto (redInt r g) none l).map (fun v => (v, Flags.none)) := by
  have key (x : Nat) (l : List Nat) : (l.map (redLeaf g)).foldl (redNode r g) (x, Flags.none) = (l.foldl (redInt r g) x, Flags.none) := by
    induction l generalizing x with
    | nil => rfl
    | cons y l ih =>
      rw [List.map_cons, List.foldl_cons, redLeaf_int h, redNode_int h]
      exact ih _
  cases l with
  | nil => rfl
  | cons x l =>
    rw [List.map_cons, foldOnto_cons, foldOnto_cons, redLeaf_int h, key]
    rfl

/-- The sum of patterns of 32 bits (R178, R179). -/
theorem foldOnto_add (h : IsInt32 g) {l : List Nat} (hl : ∀ x ∈ l, x < 2 ^ 32) :
    (foldOnto (redInt .add g) none l).getD 0 = intTo g false (l.map (intAt g)).sum := by
  have key (x : Nat) (l : List Nat) (hx : x < 2 ^ 32) :
      l.foldl (redInt .add g) x = (BitVec.ofInt 32 (intAt g x + (l.map (intAt g)).sum)).toNat := by
    induction l generalizing x with
    | nil =>
      rw [List.map_nil, List.sum_nil, add_zero, ofInt_intAt h, BitVec.toNat_ofNat, Nat.mod_eq_of_lt hx]
      rfl
    | cons y l ih =>
      rw [List.foldl_cons, redInt_add h, ih _ (BitVec.isLt _), List.map_cons, List.sum_cons]
      simp only [BitVec.ofInt_add, ofInt_intAt h, BitVec.ofNat_toNat, BitVec.setWidth_eq, BitVec.add_assoc]
  have hto (v : Int) : intTo g false v = (BitVec.ofInt 32 v).toNat := by
    rw [intTo, h.width]
    rfl
  cases l with
  | nil => rw [hto]; rfl
  | cons x l =>
    rw [foldOnto_cons, Option.getD_some, key x l (hl x List.mem_cons_self), hto, List.map_cons, List.sum_cons]

end Sys2Proof.Machine

/-! Proofs: the values that the slices of a group supply, and what a completed word makes of them (R171, R175–R179). -/

namespace Sys2Proof.Machine

variable {s : State} {c : Ctx} {ms : List Member} {all : List (Nat × Nat)}

/-! ### Members (R171, R173) -/

/-- What the slice of a context brings to a group with a word of these operands. -/
def Ctx.member (c : Ctx) (i : Instr) (k : Ctl) (sm : SliceMask) (f : Fmt) (a : VReg) (idx : Option VSrc) (old : Option VReg) : Member where
  slice := c.k
  word := i
  mask := c.maskOf sm
  active := laneMask (fun l => c.x.active k.guard l)
  pass := c.x.guardScalar k.guard
  vals := (List.range 4).map (fun l => BitVec.ofNat 64 (c.at32 f a.val l))
  olds := match old with
    | none => []
    | some d => (List.range 4).map (fun l => BitVec.ofNat 64 (c.at32 f d.val l))
  idx := match idx with
    | none => []
    | some b => (List.range 4).map (fun l => BitVec.ofNat 32 (c.srcAt .n32 l b))

theorem Ctx.at32_lt_64 (c : Ctx) (f : Fmt) (n l : Nat) : c.at32 f n l < 2 ^ 64 :=
  (c.at32_lt f n l).trans_le (Nat.pow_le_pow_right (by decide) (by cases f <;> decide))

/-- A list of four elements by lane. -/
theorem getD_lanes {w l : Nat} (hl : l < 4) (v : Nat → Nat) (hv : v l < 2 ^ w) :
    (((List.range 4).map (fun l => BitVec.ofNat w (v l))).getD l 0).toNat = v l := by
  simp [List.getD_eq_getElem?_getD, hl, Nat.mod_eq_of_lt hv]

section
variable (c : Ctx) (i : Instr) (k : Ctl) (sm : SliceMask) (f : Fmt) (a : VReg) (idx : Option VSrc) (old : Option VReg)

theorem Ctx.member_vals {l : Nat} (hl : l < 4) : ((c.member i k sm f a idx old).vals.getD l 0).toNat = c.at32 f a.val l :=
  getD_lanes hl _ (c.at32_lt_64 f a.val l)

theorem Ctx.member_olds {l : Nat} (hl : l < 4) :
    ((c.member i k sm f a idx old).olds.getD l 0).toNat = (old.map (fun d => c.at32 f d.val l)).getD 0 := by
  cases old with
  | none => rfl
  | some d => exact getD_lanes hl _ (c.at32_lt_64 f d.val l)

theorem Ctx.member_idx {l : Nat} (hl : l < 4) :
    ((c.member i k sm f a idx old).idx.getD l 0).toNat = (idx.map (c.srcAt .n32 l)).getD 0 := by
  cases idx with
  | none => rfl
  | some b => exact getD_lanes (w := 32) hl (fun l => c.srcAt .n32 l b) (c.srcAt_lt .n32 l b)

theorem Ctx.member_active {l : Nat} (hl : l < 4) :
    testBit (c.member i k sm f a idx old).active.toNat l = c.x.active k.guard l :=
  (testBit_eq _ _).trans (laneMask_getLsbD _ hl)

/-- The lanes of a member's slice that are active are those of its mask. -/
theorem Ctx.member_lanes : (List.range 4).filter (fun l => testBit (c.member i k sm f a idx old).active.toNat l) = c.x.lanes k.guard :=
  List.filter_congr fun _ hl => c.member_active i k sm f a idx old (List.mem_range.mp hl)

end

/-! ### What the threads supply (R171) -/

/-- What a thread of the squad supplies: its element, where its slice is one of `cs` and its lane is active. -/
def supply (cs : List Ctx) (k : Ctl) (f : Fmt) (a : VReg) (u : Nat) : Option Nat :=
  (cs.find? (fun e => keySlice e.k == u / 4)).bind (fun e =>
    if e.x.active k.guard (u % 4) then some (e.at32 f a.val (u % 4)) else none)

/-- The available threads with what they supply, ascending. -/
def supplied (cs : List Ctx) (k : Ctl) (f : Fmt) (a : VReg) : List (Nat × Nat) :=
  (List.range 32).filterMap (fun u => (supply cs k f a u).map (fun v => (u, v)))

theorem filterMap_ite {α β : Type} (p : α → Bool) (g : α → β) (l : List α) :
    l.filterMap (fun u => if p u = true then some (g u) else none) = (l.filter p).map g := by
  induction l with
  | nil => rfl
  | cons u l ih => cases hp : p u <;> simp [hp, ih]

section
variable (cs : List Ctx) (i : Instr) (k : Ctl) (sm : SliceMask) (f : Fmt) (a : VReg) (idx : Option VSrc) (old : Option VReg)

theorem memberOf_map (sl : Nat) : memberOf (cs.map (fun e => e.member i k sm f a idx old)) sl
    = (cs.find? (fun e => keySlice e.k == sl)).map (fun e => e.member i k sm f a idx old) := by
  rw [memberOf, List.find?_map]
  rfl

/-- A thread is available, with its value, where it supplies one. -/
theorem supply_eq (u : Nat) :
    supply cs k f a u = if available (cs.map (fun e => e.member i k sm f a idx old)) u = true
      then some (suppliedBy (cs.map (fun e => e.member i k sm f a idx old)) u) else none := by
  have hu : u % 4 < 4 := Nat.mod_lt _ (by decide)
  rw [supply, available, suppliedBy, memberOf_map]
  cases cs.find? (fun e => keySlice e.k == u / 4) with
  | none => rfl
  | some e =>
    simp only [Option.bind_some, Option.map_some, e.member_active i k sm f a idx old hu, e.member_vals i k sm f a idx old hu]

theorem contributors_supplied :
    (contributors (cs.map (fun e => e.member i k sm f a idx old))).map
        (fun u => (u, suppliedBy (cs.map (fun e => e.member i k sm f a idx old)) u))
      = supplied cs k f a := by
  simp only [supplied, supply_eq cs i k sm f a idx old, apply_ite (Option.map _), Option.map_some, Option.map_none]
  exact (filterMap_ite _ _ _).symm

theorem supply_one (c : Ctx) (u : Nat) : supply [c] k f a u
    = if (keySlice c.k == u / 4 && c.x.active k.guard (u % 4)) = true then some (c.at32 f a.val (u % 4)) else none := by
  by_cases hu : keySlice c.k = u / 4 <;> simp [supply, hu]

/-- One slice supplies the elements of its active lanes. -/
theorem supplied_one (c : Ctx) :
    supplied [c] k f a = (c.acts k).map (fun l => (keySlice c.k * 4 + l, c.at32 f a.val l)) := by
  have hsl : keySlice c.k < 8 := Nat.mod_lt _ (by decide)
  have hr : List.range 32 = (List.range (keySlice c.k * 4) ++ (List.range 4).map (fun l => keySlice c.k * 4 + l))
      ++ (List.range (28 - keySlice c.k * 4)).map (fun l => keySlice c.k * 4 + 4 + l) := by
    rw [← List.range_add, ← List.range_add]
    congr 1
    omega
  have hin (l : Nat) (hl : l < 4) : (keySlice c.k * 4 + l) / 4 = keySlice c.k ∧ (keySlice c.k * 4 + l) % 4 = l := by omega
  simp only [supplied, supply_one, apply_ite (Option.map _), Option.map_some, Option.map_none]
  rw [filterMap_ite, hr, List.filter_append, List.filter_append, List.filter_eq_nil_iff.mpr, List.nil_append,
    List.filter_eq_nil_iff (l := (List.range (28 - _)).map _) |>.mpr, List.append_nil, List.filter_map, List.map_map, Ctx.acts]
  · rw [List.filter_congr (q := fun l => c.x.active k.guard l)]
    · refine List.map_congr_left fun l hl => ?_
      obtain ⟨-, hm⟩ := hin l (List.mem_range.mp (List.mem_filter.mp hl).1)
      simp [hm]
    · intro l hl
      obtain ⟨hd, hm⟩ := hin l (List.mem_range.mp hl)
      simp [hd, hm]
  · intro u hu
    obtain ⟨l, -, rfl⟩ := List.mem_map.mp hu
    simp
    omega
  · intro u hu
    have := List.mem_range.mp hu
    simp
    omega

end

/-! ### What words make of the values (R175–R177) -/

section
variable (hall : (contributors ms).map (fun u => (u, suppliedBy ms u)) = all)
include hall

theorem contributors_any (p : Nat → Bool) : (contributors ms).any (fun u => p (suppliedBy ms u)) = (all.map Prod.snd).any p := by
  rw [← hall, List.map_map, List.any_map]
  rfl

theorem contributors_all (p : Nat → Bool) : (contributors ms).all (fun u => p (suppliedBy ms u)) = (all.map Prod.snd).all p := by
  rw [← hall, List.map_map, List.all_map]
  rfl

theorem contributors_head : ((contributors ms).head?.map (suppliedBy ms)).getD 0 = (all.map Prod.snd).headD 0 := by
  rw [← hall, List.map_map]
  cases contributors ms <;> rfl

theorem threadMask_eq (p : Nat → Bool) :
    threadMask ms (fun u => p (suppliedBy ms u)) = ((all.filter (fun e => p e.2)).map (fun e => 2 ^ e.1)).sum := by
  rw [← hall, List.filter_map, List.map_map, threadMask, List.sum_eq_foldl, List.foldl_map]
  rfl

theorem uniform_eq : uniform ms = (all.map Prod.snd).all (fun x => (all.map Prod.snd).all (fun y => x == y)) := by
  have key (vs : List Nat) : (match vs with
      | [] => true
      | v :: us => us.all (fun u => u == v)) = vs.all (fun x => vs.all (fun y => x == y)) := by
    cases vs with
    | nil => rfl
    | cons v us =>
      rw [Bool.eq_iff_iff]
      simp only [List.all_eq_true, beq_iff_eq, List.forall_mem_cons, true_and]
      exact ⟨fun h => ⟨fun u hu => (h u hu).symm, fun u hu => ⟨h u hu, fun w hw => (h u hu).trans (h w hw).symm⟩⟩,
        fun h u hu => (h.2 u hu).1⟩
  rw [← key, ← hall, List.map_map, uniform]
  cases contributors ms with
  | nil => rfl
  | cons u us => simp [List.all_map, Function.comp_def]

/-! ### Reductions and scans (R178, R179) -/

/-- An integer reduction folds the values. -/
theorem reduce_int {f : Fmt} (hf : IsInt32 f) (r : Red) :
    reduce r f ms = ((foldOnto (redInt r f) none (all.map Prod.snd)).getD 0, Flags.none) := by
  have := redNode_assoc hf r
  have hl : (List.range 32).filterMap (fun u => if available ms u then some (redLeaf f (suppliedBy ms u)) else none)
      = (all.map Prod.snd).map (redLeaf f) := by
    rw [← hall, List.map_map, List.map_map]
    exact filterMap_ite _ _ _
  rw [reduce, treeRoot_assoc, hl, foldOnto_int hf]
  cases foldOnto (redInt r f) none (all.map Prod.snd) <;> rfl

end

end Sys2Proof.Machine

/-! Proofs: scans over a group, and the effect of each cross-lane word on a member (R174–R179). -/

namespace Sys2Proof.Machine

variable {s : State} {c : Ctx} {ms : List Member} {all : List (Nat × Nat)}

/-! ### Scans (R179) -/

/-- A scan's next accumulator merges the leaf into the one before. -/
theorem scanAdd_cons (f : Fmt) (ms : List Member) (u : Nat) (us : List Nat) (acc : Option (Nat × Flags)) :
    ∃ v, Option.merge (redNode .add f) acc (some (redLeaf f (suppliedBy ms u))) = some v
      ∧ scanAdd f ms (u :: us) acc = ((u, v.1) :: (scanAdd f ms us (some v)).1, (scanAdd f ms us (some v)).2) := by
  cases acc <;> exact ⟨_, rfl, rfl⟩

/-- The running value at a thread folds the values of the contributors up to it. -/
theorem scanAdd_at (f : Fmt) (ms : List Member) {us : List Nat} (hs : us.Pairwise (· < ·)) {t : Nat} (ht : t ∈ us)
    (acc : Option (Nat × Flags)) :
    ((scanAdd f ms us acc).1.find? (fun p => p.1 == t)).map (fun p => p.2)
      = (foldOnto (redNode .add f) acc ((us.filter (fun u => decide (u ≤ t))).map (fun u => redLeaf f (suppliedBy ms u)))).map
          Prod.fst := by
  induction us generalizing acc with
  | nil => cases ht
  | cons u us ih =>
    obtain ⟨hu, hs⟩ := List.pairwise_cons.mp hs
    obtain ⟨v, hv, he⟩ := scanAdd_cons f ms u us acc
    rw [he]
    by_cases hut : u = t
    · have hnil : us.filter (fun w => decide (w ≤ t)) = [] := List.filter_eq_nil_iff.mpr fun w hw => by
        have := hu w hw
        simp
        omega
      subst hut
      simp [hnil, foldOnto, hv]
    · have htu : t ∈ us := (List.mem_cons.mp ht).resolve_left (Ne.symm hut)
      have hle : u ≤ t := (hu t htu).le
      rw [List.find?_cons_of_neg (by simpa using hut), ih hs htu, List.filter_cons_of_pos (by simpa using hle)]
      rw [List.map_cons, foldOnto, foldOnto, List.foldl_cons, hv]

theorem scanAdd_flags (f : Fmt) (ms : List Member) (us : List Nat) (acc : Option (Nat × Flags)) :
    (scanAdd f ms us acc).2
      = ((foldOnto (redNode .add f) acc (us.map (fun u => redLeaf f (suppliedBy ms u)))).map Prod.snd).getD Flags.none := by
  induction us generalizing acc with
  | nil => rfl
  | cons u us ih =>
    obtain ⟨v, hv, he⟩ := scanAdd_cons f ms u us acc
    rw [he, ih, List.map_cons, foldOnto, foldOnto, List.foldl_cons, hv]

theorem contributors_ascend (ms : List Member) : (contributors ms).Pairwise (· < ·) := List.pairwise_lt_range.filter _

section
variable (hall : (contributors ms).map (fun u => (u, suppliedBy ms u)) = all) (f : Fmt)
include hall

theorem scan_at {t : Nat} (ht : t ∈ contributors ms) :
    (((scanAdd f ms (contributors ms) none).1.find? (fun p => p.1 == t)).map (fun p => p.2)).getD 0
      = ((foldOnto (redNode .add f) none (((all.filter (fun e => decide (e.1 ≤ t))).map Prod.snd).map (redLeaf f))).map Prod.fst).getD 0 := by
  rw [scanAdd_at f ms (contributors_ascend ms) ht, ← hall, List.filter_map, List.map_map, List.map_map]
  rfl

theorem scan_flags : (scanAdd f ms (contributors ms) none).2
    = ((foldOnto (redNode .add f) none ((all.map Prod.snd).map (redLeaf f))).map Prod.snd).getD Flags.none := by
  rw [scanAdd_flags, ← hall, List.map_map, List.map_map]
  rfl

end

/-! ### Effects of the shapes that rules have -/

theorem Flags.or_self (a : Flags) : a.or a = a := by simp [Flags.or]
theorem Flags.none_or (a : Flags) : Flags.none.or a = a := by simp [Flags.or, Flags.none]

/-- Flags that every active lane raises. -/
theorem Flags.all_const (fl : Flags) (ls : List Nat) : Flags.all (ls.map (fun _ => fl)) = if ls = [] then Flags.none else fl := by
  have key (ls : List Nat) : (ls.map (fun _ => fl)).foldl Flags.or fl = fl := by
    induction ls with
    | nil => rfl
    | cons l ls ih => rw [List.map_cons, List.foldl_cons, Flags.or_self, ih]
  cases ls with
  | nil => rfl
  | cons l ls => rw [Flags.all, List.map_cons, List.foldl_cons, Flags.none_or, key, if_neg (List.cons_ne_nil _ _)]

theorem laneMask_congr {p q : Nat → Bool} (h : ∀ l, l < 4 → p l = q l) : laneMask p = laneMask q := by
  simp [laneMask, h]

theorem laneMask_and (p : Nat → Bool) (b : Bool) : laneMask (fun l => p l && b) = if b then laneMask p else 0 := by
  cases b <;> simp [laneMask, bitOf]

section
variable (c : Ctx) (i : Instr) (k : Ctl) (sm : SliceMask) (f : Fmt) (a : VReg) (idx : Option VSrc) (old : Option VReg)

/-- A member has no active lane exactly where its mask is empty. -/
theorem Ctx.lanes_eq_nil : c.x.lanes k.guard = [] ↔ (c.member i k sm f a idx old).active = 0 := by
  have hm (l : Nat) (hl : l < 4) : (c.member i k sm f a idx old).active.getLsbD l = c.x.active k.guard l := laneMask_getLsbD _ hl
  rw [List.eq_nil_iff_forall_not_mem]
  simp only [Slice.mem_lanes, not_and, Bool.not_eq_true]
  constructor
  · intro h
    refine BitVec.eq_of_getLsbD_eq fun l hl => ?_
    rw [hm l hl, h l hl]
    simp
  · intro h l hl
    rw [← hm l hl, h]
    simp

/-- Bits pushed in the active lanes of a member. -/
theorem pushActive_fx {r : SoloRule} {b b' : Bool} (hb : b = b') (hv : r.vec = none) (hs : r.scalar = none)
    (hp : r.push = some (fun l => c.x.active k.guard l && b')) :
    pushActive (c.member i k sm f a idx old) b = r.fx c false := by
  rw [SoloRule.fx, hv, hs, hp, pushActive, hb, Option.map_some, laneMask_and]
  rfl

/-- A scalar register written where the guard passes. -/
theorem ballot_fx {r : SoloRule} {pass : Bool} {d : SReg} {v : Word64} (hv : r.vec = none) (hp : r.push = none)
    (hs : r.scalar = if pass then some (d, v) else none) : (if pass then { sLong := [(d.val, v)] } else {} : Fx) = r.fx c false := by
  rw [SoloRule.fx, hv, hp, hs]
  cases pass <;> rfl

/-- An element in each active lane of a member. -/
theorem toActive_fx {r : SoloRule} {us : List VUse} {g : Fmt} {d : VReg} {el : Nat → Nat × Flags} {x : Nat → Nat} {fl : Flags} {fp : Bool}
    {push : Option (BitVec 4)} (hv : r.vec = some ⟨k, us, g, d, el⟩)
    (hx : ∀ l, l < 4 → c.x.active k.guard l = true → x l = (el l).1)
    (hf : fl = Flags.all ((c.x.lanes k.guard).map (fun l => (el l).2))) (hp : push = r.push.map laneMask) :
    ({ vLong := toActive g d.val (c.member i k sm f a idx old) x, push := push, flags := fl, fp := fp } : Fx) = r.fx c fp := by
  have hl : toActive g d.val (c.member i k sm f a idx old) x = (c.x.lanes k.guard).flatMap (fun l => elemWrites g d.val l (el l).1) := by
    rw [toActive, Ctx.member_lanes]
    refine List.flatMap_congr fun l hl => ?_
    obtain ⟨h4, hact⟩ := Slice.mem_lanes.mp hl
    rw [hx l h4 hact]
  rw [SoloRule.fx, hv, hl, hf, hp]
  rfl

/-- One value with its flags in each active lane of a member. -/
theorem redFx_fx {r : SoloRule} {us : List VUse} {red : Red} {d : VReg} {v : Nat × Flags} (hr : reduce red f ms = v)
    (hv : r.vec = some ⟨k, us, f, d, fun _ => v⟩) (hp : r.push = none) :
    redFx red f d.val ms (c.member i k sm f a idx old) = r.fx c (f == .f32) := by
  subst hr
  refine toActive_fx c i k sm f a idx old hv (fun _ _ _ => rfl) ?_ (by rw [hp]; rfl)
  rw [Flags.all_const]
  simp only [c.lanes_eq_nil i k sm f a idx old]

/-- A shuffle's elements and bits, where thread u supplies what `sup` gives. -/
theorem shuffleFx_fx {r : SoloRule} {us : List VUse} {d : VReg} {keep : Bool} {sup : Nat → Option Nat} {src : Int → Int → Int} {u : Nat → Int}
    (hsup : ∀ t, sup t = if available ms t = true then some (suppliedBy ms t) else none)
    (hu : ∀ l, l < 4 → src ((keySlice c.k * 4 + l : Nat) : Int) ((idx.map (c.srcAt .n32 l)).getD 0 : Nat) = u l)
    (hold : old = if keep then some d else none)
    (hv : r.vec = some ⟨k, us, f, d, fun l =>
      ((if 0 ≤ u l ∧ u l < 32 then sup (u l).toNat else none).getD ((old.map (fun r => c.at32 f r.val l)).getD 0), Flags.none)⟩)
    (hp : r.push = some (fun l => c.x.active k.guard l && (if 0 ≤ u l ∧ u l < 32 then sup (u l).toNat else none).isSome)) :
    shuffleFx f d.val keep src ms (c.member i k sm f a idx old) = r.fx c false := by
  have hsrc (l : Nat) (hl : l < 4) : src ((keySlice (c.member i k sm f a idx old).slice * 4 + l : Nat) : Int)
      (((c.member i k sm f a idx old).idx.getD l 0).toNat : Int) = u l := by
    rw [c.member_idx i k sm f a idx old hl]
    exact hu l hl
  have hgot (l : Nat) : (decide (0 ≤ u l) && decide (u l < 32) && available ms (u l).toNat)
      = (if 0 ≤ u l ∧ u l < 32 then sup (u l).toNat else none).isSome := by
    rw [hsup]
    by_cases hr : 0 ≤ u l ∧ u l < 32
    · simp only [hr, and_self, if_true, decide_true, Bool.true_and]
      cases available ms (u l).toNat <;> rfl
    · rw [if_neg hr, ← Bool.decide_and, decide_eq_false hr]
      rfl
  have hkept (l : Nat) (hl : l < 4) : (if keep = true then ((c.member i k sm f a idx old).olds.getD l 0).toNat else 0)
      = (old.map (fun r => c.at32 f r.val l)).getD 0 := by
    rw [c.member_olds i k sm f a idx old hl, hold]
    cases keep <;> rfl
  refine toActive_fx c i k sm f a idx old hv (fun l hl _ => ?_) (Flags.all_none _).symm ?_
  · simp only [hsrc l hl, hgot, hkept l hl]
    by_cases hr : 0 ≤ u l ∧ u l < 32
    · simp only [hr, and_self, if_true, hsup]
      cases available ms (u l).toNat <;> rfl
    · simp only [hr, if_false]
      rfl
  · rw [hp, Option.map_some]
    refine congrArg some (laneMask_congr fun l hl => ?_)
    simp only [c.member_active i k sm f a idx old hl, hsrc l hl, hgot]

end

end Sys2Proof.Machine

/-! Proofs: every cross-lane word has on a member the effect that its row gives (R174–R179). -/

namespace Sys2Proof.Machine

variable {s : State} {c : Ctx} {cs : List Ctx} {i : Instr} {k : Ctl} {sm : SliceMask} {f : Fmt} {a : VReg} {idx : Option VSrc}
  {old : Option VReg}

/-! ### Several slices -/

/-- The first slice of a squad by its number is the only one. -/
theorem find_slice (hd : (cs.map (fun e => keySlice e.k)).Nodup) (hc : c ∈ cs) :
    cs.find? (fun e => keySlice e.k == keySlice c.k) = some c := by
  induction cs with
  | nil => cases hc
  | cons e cs ih =>
    rw [List.map_cons, List.nodup_cons] at hd
    obtain ⟨hne, hd⟩ := hd
    rcases List.mem_cons.mp hc with rfl | hc
    · simp
    · have hek : keySlice e.k ≠ keySlice c.k := fun he => hne (he ▸ List.mem_map_of_mem hc)
      rw [List.find?_cons_of_neg (by simpa using hek), ih hd hc]

/-- The thread of an active lane of a member is available. -/
theorem mem_contributors (hd : (cs.map (fun e => keySlice e.k)).Nodup) (hc : c ∈ cs) {l : Nat} (hl : l < 4)
    (ha : c.x.active k.guard l = true) :
    keySlice c.k * 4 + l ∈ contributors (cs.map (fun e => e.member i k sm f a idx old)) := by
  have hsl : keySlice c.k < 8 := Nat.mod_lt _ (by decide)
  have hdiv : (keySlice c.k * 4 + l) / 4 = keySlice c.k := by omega
  have hmod : (keySlice c.k * 4 + l) % 4 = l := by omega
  have hs : supply cs k f a (keySlice c.k * 4 + l) = some (c.at32 f a.val l) := by
    rw [supply, hdiv, hmod, find_slice hd hc, Option.bind_some, if_pos ha]
  rw [supply_eq cs i k sm f a idx old] at hs
  rw [contributors, List.mem_filter, List.mem_range]
  refine ⟨by omega, ?_⟩
  by_contra h
  simp [h] at hs

theorem supplied_lt (h : IsInt32 f) {e : Nat × Nat} (he : e ∈ supplied cs k f a) : e.2 < 2 ^ 32 := by
  simp only [supplied, supply, List.mem_filterMap, Option.map_eq_some_iff, Option.bind_eq_some_iff, Option.ite_none_right_eq_some,
    Option.some.injEq] at he
  obtain ⟨u, -, v, ⟨d, -, -, rfl⟩, rfl⟩ := he
  have := d.at32_lt f a.val (u % 4)
  rwa [h.width] at this

/-- The effect of a shuffle on a slice of a group. -/
theorem shuffleFx_group {d : VReg} {keep : Bool} {src : Int → Int → Int} {from_ : Int → Nat → Int}
    (hs : ∀ (t : Int) (n : Nat), src t (n : Int) = from_ t n) (hold : old = if keep then some d else none) :
    let u (l : Nat) : Int := from_ ((keySlice c.k : Int) * 4 + l) ((idx.map (c.srcAt .n32 l)).getD 0)
    let got (l : Nat) : Option Nat := if 0 ≤ u l ∧ u l < 32 then supply cs k f a (u l).toNat else none
    shuffleFx f d.val keep src (cs.map (fun e => e.member i k sm f a idx old)) (c.member i k sm f a idx old)
      = SoloRule.fx { ctl := k, mask := sm, uses := []
                      vec := some ⟨k, [], f, d, fun l => ((got l).getD ((old.map (fun r => c.at32 f r.val l)).getD 0), Flags.none)⟩
                      push := some (fun l => c.x.active k.guard l && (got l).isSome) } c false := by
  intro u got
  refine shuffleFx_fx c i k sm f a idx old (u := u) (supply_eq cs i k sm f a idx old) (fun l _ => ?_) hold rfl rfl
  rw [hs]
  push_cast
  rfl

/-- The least and the greatest of the values by their integers, the first where several are equal. -/
theorem foldOnto_min (f : Fmt) (vals : List Nat) :
    (foldOnto (redInt .min f) none vals).getD 0 = firstBy (fun x y => intAt f x < intAt f y) vals := by
  simp only [intAt_eq]
  cases vals with
  | nil => rfl
  | cons x xs =>
    simp only [foldOnto_cons, Option.getD_some, firstBy, decide_eq_true_eq]
    rfl

theorem foldOnto_max (f : Fmt) (vals : List Nat) :
    (foldOnto (redInt .max f) none vals).getD 0 = firstBy (fun x y => intAt f y < intAt f x) vals := by
  simp only [intAt_eq]
  cases vals with
  | nil => rfl
  | cons x xs =>
    simp only [foldOnto_cons, Option.getD_some, firstBy, decide_eq_true_eq]
    rfl

theorem foldOnto_and (f : Fmt) (vals : List Nat) :
    (foldOnto (redInt .and f) none vals).getD 0 = vals.tail.foldl (fun x y => x &&& y) (vals.headD 0) := by
  cases vals with
  | nil => rfl
  | cons x xs => exact congrArg (Option.getD · 0) (foldOnto_cons ..)

theorem foldOnto_or (f : Fmt) (vals : List Nat) :
    (foldOnto (redInt .or f) none vals).getD 0 = vals.foldl (fun x y => x ||| y) 0 := by
  cases vals with
  | nil => rfl
  | cons x xs =>
    rw [foldOnto_cons, List.foldl_cons, Nat.zero_or]
    rfl

theorem foldOnto_xor (f : Fmt) (vals : List Nat) :
    (foldOnto (redInt .xor f) none vals).getD 0 = vals.foldl (fun x y => x ^^^ y) 0 := by
  cases vals with
  | nil => rfl
  | cons x xs =>
    rw [foldOnto_cons, List.foldl_cons, Nat.zero_xor]
    rfl

section
variable (c : Ctx) (cs : List Ctx) (i : Instr) (k : Ctl) (sm : SliceMask) (f : Fmt) (a : VReg)

/-- An integer reduction of the values that a group's slices supply (R178). -/
theorem reduce_supplied (hf : IsInt32 f) (r : Red) {v : Nat}
    (hv : (foldOnto (redInt r f) none ((supplied cs k f a).map Prod.snd)).getD 0 = v) :
    reduce r f (cs.map (fun e => e.member i k sm f a none none)) = (v, Flags.none) := by
  rw [reduce_int (contributors_supplied ..) hf, hv]

theorem supplied_word (hf : IsInt32 f) : ∀ x ∈ (supplied cs k f a).map Prod.snd, x < 2 ^ 32 := by
  intro x hx
  obtain ⟨e, he, rfl⟩ := List.mem_map.mp hx
  exact supplied_lt hf he

/-- The integer sum at a thread that supplies a value (R179). -/
theorem scan_supplied (hf : IsInt32 f) {t : Nat} (ht : t ∈ contributors (cs.map (fun e => e.member i k sm f a none none))) :
    (((scanAdd f (cs.map (fun e => e.member i k sm f a none none)) (contributors (cs.map (fun e => e.member i k sm f a none none)))
        none).1.find? (fun p => p.1 == t)).map (fun p => p.2)).getD 0
      = intTo f false (((supplied cs k f a).filter (fun e => e.1 ≤ t)).map (fun e => intAt f e.2)).sum := by
  have hlt : ∀ x ∈ ((supplied cs k f a).filter (fun e => e.1 ≤ t)).map Prod.snd, x < 2 ^ 32 := by
    intro x hx
    obtain ⟨e, he, rfl⟩ := List.mem_map.mp hx
    exact supplied_lt hf (List.mem_filter.mp he).1
  have hsum := foldOnto_add hf hlt
  rw [List.map_map] at hsum
  rw [scan_at (contributors_supplied ..) f ht, foldOnto_int hf, Option.map_map]
  refine Eq.trans ?_ hsum
  cases foldOnto (redInt .add f) none (((supplied cs k f a).filter (fun e => e.1 ≤ t)).map Prod.snd) <;> rfl

theorem scan_supplied_flags (hf : IsInt32 f) :
    (scanAdd f (cs.map (fun e => e.member i k sm f a none none)) (contributors (cs.map (fun e => e.member i k sm f a none none)))
      none).2 = Flags.none := by
  rw [scan_flags (contributors_supplied ..) f, foldOnto_int hf, Option.map_map]
  cases foldOnto (redInt .add f) none ((supplied cs k f a).map Prod.snd) <;> rfl

end

/-- What a word gives a slice of a group is its effect on the member. -/
theorem groupRule_fx {g : SoloRule} (hi : crossParts i = some (k, sm, f, a, idx, old)) (hc : c ∈ cs)
    (hd : (cs.map (fun e => keySlice e.k)).Nodup) (hg : c.groupRule cs i = some g) :
    ∃ fp, memberFx (cs.map (fun e => e.member i k sm f a idx old)) (c.member i k sm f a idx old) = g.fx c fp := by
  have hall := contributors_supplied cs i k sm f a idx old
  unfold Ctx.groupRule at hg
  rw [hi] at hg
  dsimp only at hg
  split at hg
  case h_19 => cases hg
  all_goals cases hi
  -- The shuffles (R175).
  case h_1.refl keep d b =>
    cases hg
    exact ⟨false, shuffleFx_group (src := (fun _ b => b)) (from_ := fun _ n => n) (fun _ _ => rfl) rfl⟩
  case h_2.refl keep d b =>
    cases hg
    exact ⟨false, shuffleFx_group (src := (fun t b => t - b)) (from_ := fun t n => t - n) (fun _ _ => rfl) rfl⟩
  case h_3.refl keep d b =>
    cases hg
    exact ⟨false, shuffleFx_group (src := (fun t b => t + b)) (from_ := fun t n => t + n) (fun _ _ => rfl) rfl⟩
  case h_4.refl keep d b =>
    cases hg
    exact ⟨false, shuffleFx_group (src := (fun t b => (t.toNat ^^^ b.toNat : Nat)))
      (from_ := fun t n => ((t.toNat ^^^ n : Nat) : Int)) (fun _ _ => rfl) rfl⟩
  -- VBCAST, the votes and the ballot (R175, R176).
  case h_5.refl =>
    cases hg
    exact ⟨_, toActive_fx c _ k sm f a _ _ rfl (fun _ _ _ => contributors_head hall) (Flags.all_none _).symm rfl⟩
  case h_6.refl =>
    cases hg
    exact ⟨false, pushActive_fx c _ k sm f a _ _ (contributors_any hall (fun v => v != 0)) rfl rfl rfl⟩
  case h_7.refl =>
    cases hg
    exact ⟨false, pushActive_fx c _ k sm f a _ _ (contributors_all hall (fun v => v != 0)) rfl rfl rfl⟩
  case h_8.refl =>
    cases hg
    exact ⟨false, pushActive_fx c _ k sm f a _ _ (uniform_eq hall) rfl rfl rfl⟩
  case h_9.refl d =>
    cases hg
    refine ⟨false, ?_⟩
    change (if c.x.guardScalar k.guard then ({ sLong := [(d.val, BitVec.ofNat 64 (threadMask _ (fun u => suppliedBy _ u != 0)))] } : Fx)
      else {}) = _
    rw [threadMask_eq hall (fun v => v != 0)]
    exact ballot_fx c rfl rfl rfl
  -- The matches (R177).
  case h_10.refl =>
    cases hg
    refine ⟨_, toActive_fx c _ k sm f a _ _ rfl (fun l hl _ => ?_) (Flags.all_none _).symm rfl⟩
    rw [c.member_vals _ k sm f a _ _ hl]
    exact threadMask_eq hall (fun v => v == c.at32 f a.val l)
  case h_11.refl =>
    cases hg
    refine ⟨_, toActive_fx c _ k sm f a _ _ rfl (fun l hl _ => ?_) (Flags.all_none _).symm ?_⟩
    · rw [uniform_eq hall, threadMask_eq hall (fun _ => true)]
      rfl
    · rw [uniform_eq hall, Option.map_some, laneMask_and]
      rfl
  all_goals
    obtain ⟨hf, hg⟩ := Option.ite_none_right_eq_some.mp hg
    cases hg
  -- The reductions and the scan (R178, R179).
  case h_12.refl.refl =>
    exact ⟨_, redFx_fx c _ k sm f a _ _ (reduce_supplied cs _ k sm f a hf .add (foldOnto_add hf (supplied_word cs k f a hf))) rfl rfl⟩
  case h_13.refl.refl => exact ⟨_, redFx_fx c _ k sm f a _ _ (reduce_supplied cs _ k sm f a hf .min (foldOnto_min f _)) rfl rfl⟩
  case h_14.refl.refl => exact ⟨_, redFx_fx c _ k sm f a _ _ (reduce_supplied cs _ k sm f a hf .max (foldOnto_max f _)) rfl rfl⟩
  case h_15.refl.refl => exact ⟨_, redFx_fx c _ k sm f a _ _ (reduce_supplied cs _ k sm f a hf .and (foldOnto_and f _)) rfl rfl⟩
  case h_16.refl.refl => exact ⟨_, redFx_fx c _ k sm f a _ _ (reduce_supplied cs _ k sm f a hf .or (foldOnto_or f _)) rfl rfl⟩
  case h_17.refl.refl => exact ⟨_, redFx_fx c _ k sm f a _ _ (reduce_supplied cs _ k sm f a hf .xor (foldOnto_xor f _)) rfl rfl⟩
  case h_18.refl.refl =>
    refine ⟨_, toActive_fx c _ k sm f a _ _ rfl (fun l hl ha => scan_supplied cs _ k sm f a hf (mem_contributors hd hc hl ha)) ?_ rfl⟩
    rw [scan_supplied_flags cs _ k sm f a hf, ite_self]
    exact (Flags.all_none _).symm

/-! ### One slice (R173–R179) -/

section
variable (c : Ctx) (i : Instr) (k : Ctl) (sm : SliceMask) (f : Fmt) (a : VReg)

/-- The values of one slice's active lanes. -/
theorem supplied_one_vals : (supplied [c] k f a).map Prod.snd = (c.acts k).map (c.at32 f a.val) := by
  rw [supplied_one, List.map_map]
  rfl

/-- The threads of some of them (R174). -/
theorem supplied_one_threads (p : Nat → Bool) :
    (((supplied [c] k f a).filter (fun e => p e.2)).map (fun e => 2 ^ e.1)).sum
      = c.threads ((c.acts k).filter (fun l => p (c.at32 f a.val l))) := by
  rw [supplied_one, List.filter_map, List.map_map]
  rfl

/-- The values of its active lanes up to one of them. -/
theorem supplied_one_upTo (l : Nat) :
    ((supplied [c] k f a).filter (fun e => decide (e.1 ≤ keySlice c.k * 4 + l))).map Prod.snd
      = ((c.acts k).filter (fun j => j ≤ l)).map (c.at32 f a.val) := by
  rw [supplied_one, List.filter_map, List.map_map]
  simp [Function.comp_def]

/-- A reduction over one slice, of floating-point formats too (R178). -/
theorem reduce_one (r : Red) :
    reduce r f [c.member i k sm f a none none]
      = (pairs4 (redNode r f) (fun l => if c.x.active k.guard l then some (redLeaf f (c.at32 f a.val l)) else none)).getD
          (0, Flags.none) := by
  have hsl : keySlice c.k < 8 := Nat.mod_lt _ (by decide)
  have hx (u : Nat) : (if available [c.member i k sm f a none none] u = true
        then some (redLeaf f (suppliedBy [c.member i k sm f a none none] u)) else none)
      = (supply [c] k f a u).map (redLeaf f) := by
    rw [supply_eq [c] i k sm f a none none, apply_ite (Option.map _)]
    rfl
  have hlane (l : Nat) (hl : l < 4) : (supply [c] k f a (keySlice c.k * 4 + l)).map (redLeaf f)
      = if c.x.active k.guard l then some (redLeaf f (c.at32 f a.val l)) else none := by
    rw [supply_one, show (keySlice c.k * 4 + l) / 4 = keySlice c.k by omega, show (keySlice c.k * 4 + l) % 4 = l by omega]
    cases c.x.active k.guard l <;> simp
  have hout (u : Nat) (hu : u / 4 ≠ keySlice c.k) : (supply [c] k f a u).map (redLeaf f) = none := by
    simp [supply_one, Ne.symm hu]
  simp only [reduce, hx]
  rw [treeRoot_slice _ hsl hout]
  simp only [pairs4, hlane 0 (by decide), hlane 1 (by decide), hlane 2 (by decide), hlane 3 (by decide)]

end

/-- Leaves with their flags, folded. -/
theorem foldOnto_leaves (op : Nat × Flags → Nat × Flags → Nat × Flags) (l : List (Nat × Flags)) :
    let v : Nat × Flags := match l with
      | [] => (0, Flags.none)
      | x :: xs => xs.foldl op x
    ((foldOnto op none l).map Prod.fst).getD 0 = v.1 ∧ ((foldOnto op none l).map Prod.snd).getD Flags.none = v.2 := by
  cases l with
  | nil => exact ⟨rfl, rfl⟩
  | cons x xs =>
    rw [foldOnto_cons]
    exact ⟨rfl, rfl⟩

/-- The effect of a shuffle whose group is one slice. -/
theorem shuffleFx_solo {d : VReg} {b : VSrc} {keep : Bool} {src : Int → Int → Int} {from_ : Int → Nat → Int}
    (hs : ∀ (t : Int) (n : Nat), src t (n : Int) = from_ t n) :
    shuffleFx f d.val keep src [c.member i k sm f a (some b) (if keep then some d else none)]
        (c.member i k sm f a (some b) (if keep then some d else none))
      = (c.shuffleRule k f keep sm d a b from_).fx c false := by
  have hgot (u : Int) : (if 0 ≤ u ∧ u < 32 then supply [c] k f a u.toNat else none)
      = if (decide (0 ≤ u ∧ u < 32 ∧ u.toNat / 4 = keySlice c.k) && c.x.active k.guard (u.toNat % 4)) = true
        then some (c.at32 f a.val (u.toNat % 4)) else none := by
    rw [supply_one]
    by_cases hr : 0 ≤ u ∧ u < 32
    · have hslice : (keySlice c.k == u.toNat / 4) = decide (0 ≤ u ∧ u < 32 ∧ u.toNat / 4 = keySlice c.k) := by
        rw [Bool.eq_iff_iff, beq_iff_eq, decide_eq_true_eq]
        exact ⟨fun h => ⟨hr.1, hr.2, h.symm⟩, fun h => h.2.2.symm⟩
      rw [if_pos hr, hslice]
    · rw [if_neg hr, decide_eq_false fun h => hr ⟨h.1, h.2.1⟩]
      rfl
  refine shuffleFx_fx c i k sm f a (some b) (if keep then some d else none) (us := [])
    (u := fun l => from_ ((keySlice c.k : Int) * 4 + l) (c.srcAt .n32 l b))
    (supply_eq [c] i k sm f a _ _) (fun l _ => ?_) rfl ?_ ?_
  · rw [hs]
    push_cast
    rfl
  · simp only [hgot, Ctx.shuffleRule]
    refine congrArg (fun el => some (⟨k, [], f, d, el⟩ : VecRule)) (funext fun l => ?_)
    split
    · rfl
    · cases keep <;> rfl
  · simp only [hgot, Ctx.shuffleRule]
    refine congrArg some (funext fun l => ?_)
    split
    · next h => rw [h]; rfl
    · next h => rw [Bool.not_eq_true] at h; rw [h]; rfl

/-- What a word's rule for one slice gives it is its effect on the only member. -/
theorem soloRule_fx {r : SoloRule} (hi : crossParts i = some (k, sm, f, a, idx, old)) (hr : c.soloRule i = some r) :
    ∃ fp, memberFx [c.member i k sm f a idx old] (c.member i k sm f a idx old) = r.fx c fp := by
  have hall : (contributors [c.member i k sm f a idx old]).map (fun u => (u, suppliedBy [c.member i k sm f a idx old] u))
      = supplied [c] k f a := contributors_supplied [c] i k sm f a idx old
  have hvals := supplied_one_vals c k f a
  have hmask (p : Nat → Bool) : threadMask [c.member i k sm f a idx old] (fun u => p (suppliedBy [c.member i k sm f a idx old] u))
      = c.threads ((c.acts k).filter (fun l => p (c.at32 f a.val l))) :=
    (threadMask_eq hall p).trans (supplied_one_threads c k f a p)
  have hsame : ((supplied [c] k f a).map Prod.snd).all (fun x => ((supplied [c] k f a).map Prod.snd).all (fun y => x == y))
      = (c.acts k).all (fun i => (c.acts k).all (fun j => c.at32 f a.val i == c.at32 f a.val j)) := by
    rw [hvals, List.all_map]
    simp only [List.all_map, Function.comp_def]
  unfold Ctx.soloRule at hr
  split at hr
  case h_20 => cases hr
  case h_19 => cases hi
  all_goals
    cases hi
    cases hr
  -- The shuffles (R175).
  case h_1.refl.refl keep d b =>
    exact ⟨false, shuffleFx_solo (src := (fun _ b => b)) fun _ _ => rfl⟩
  case h_2.refl.refl keep d b =>
    exact ⟨false, shuffleFx_solo (src := (fun t b => t - b)) fun _ _ => rfl⟩
  case h_3.refl.refl keep d b =>
    exact ⟨false, shuffleFx_solo (src := (fun t b => t + b)) fun _ _ => rfl⟩
  case h_4.refl.refl keep d b =>
    exact ⟨false, shuffleFx_solo (src := (fun t b => (t.toNat ^^^ b.toNat : Nat))) fun _ _ => rfl⟩
  -- VBCAST, the votes and the ballot (R175, R176).
  case h_5.refl.refl =>
    refine ⟨_, toActive_fx c _ k sm f a _ _ rfl (fun _ _ _ => (contributors_head hall).trans ?_) (Flags.all_none _).symm rfl⟩
    rw [hvals]
    cases c.acts k <;> rfl
  case h_6.refl.refl =>
    refine ⟨false, pushActive_fx c _ k sm f a _ _ ((contributors_any hall (fun v => v != 0)).trans ?_) rfl rfl rfl⟩
    rw [hvals, List.any_map]
    rfl
  case h_7.refl.refl =>
    refine ⟨false, pushActive_fx c _ k sm f a _ _ ((contributors_all hall (fun v => v != 0)).trans ?_) rfl rfl rfl⟩
    rw [hvals, List.all_map]
    rfl
  case h_8.refl.refl =>
    exact ⟨false, pushActive_fx c _ k sm f a _ _ ((uniform_eq hall).trans hsame) rfl rfl rfl⟩
  case h_9.refl.refl d =>
    refine ⟨false, ?_⟩
    change (if c.x.guardScalar k.guard then ({ sLong := [(d.val, BitVec.ofNat 64 (threadMask _ (fun u => suppliedBy _ u != 0)))] } : Fx)
      else {}) = _
    rw [hmask (fun v => v != 0)]
    exact ballot_fx c rfl rfl rfl
  -- The matches (R177).
  case h_10.refl.refl =>
    refine ⟨_, toActive_fx c _ k sm f a _ _ rfl (fun l hl _ => ?_) (Flags.all_none _).symm rfl⟩
    rw [c.member_vals _ k sm f a _ _ hl]
    exact hmask (fun v => v == c.at32 f a.val l)
  case h_11.refl.refl =>
    have hacts := hmask (fun _ => true)
    rw [List.filter_true] at hacts
    refine ⟨_, toActive_fx c _ k sm f a _ _ rfl (fun l hl _ => ?_) (Flags.all_none _).symm ?_⟩
    · rw [(uniform_eq hall).trans hsame, hacts]
    · rw [(uniform_eq hall).trans hsame, Option.map_some, laneMask_and]
      rfl
  -- The reductions and the scan (R178, R179).
  case h_12.refl.refl | h_13.refl.refl | h_14.refl.refl | h_15.refl.refl | h_16.refl.refl | h_17.refl.refl =>
    exact ⟨_, redFx_fx c _ k sm f a _ _ (reduce_one c _ k sm f a _) rfl rfl⟩
  case h_18.refl.refl d =>
    refine ⟨_, toActive_fx c _ k sm f a _ _ rfl
      (fun l hl ha => (scan_at hall f (mem_contributors (cs := [c]) (by simp) (by simp) hl ha)).trans ?_) ?_ rfl⟩
    · rw [supplied_one_upTo, List.map_map]
      exact (foldOnto_leaves _ _).1
    · have hfull : (c.acts k).filter (fun j => decide (j ≤ 3)) = c.acts k := List.filter_eq_self.mpr fun j hj => by
        have := List.mem_range.mp (List.mem_filter.mp hj).1
        simp
        omega
      rw [Flags.all_const, scan_flags hall f, hvals, List.map_map]
      simp only [hfull, c.lanes_eq_nil (.vscanadd k f sm d a) k sm f a none none]
      split
      · rfl
      · exact (foldOnto_leaves _ _).2

end Sys2Proof.Machine

/-! Proofs: cross-lane words alone, together, held, and outside their mask (R168–R181). -/

namespace Sys2Proof.Machine

variable {s : State} {c : Ctx} {i : Instr} {r : SoloRule}

/-! ### The words join (R168, R173) -/

theorem AtRest.sliceMask_eq (h : AtRest s c) (sm : SliceMask) : c.sliceMask sm = c.maskOf sm := by
  unfold Ctx.sliceMask Ctx.maskOf
  cases sm.reg with
  | none => rfl
  | some n => exact congrArg (fun w : Word64 => _ &&& w.setWidth 8) (h.rdS n.val)

/-- A cross-lane word whose operands lie within VCOUNT joins with what its slice brings. -/
theorem AtRest.crossLane_eq (h : AtRest s c) (hp : c.x.priv ≠ 1) (k : Ctl) (i : Instr) (sm : SliceMask) (f : Fmt) (uses : List VUse)
    (a : VReg) (idx : Option VSrc) (old : Option VReg) (hf : c.fits (useA f a :: uses)) :
    crossLane s k i sm f uses a idx old = .next (c.joinInst (c.member i k sm f a idx old)) := by
  rw [crossLane, issue_rest h (fun _ => { handler := false, regs := useA f a :: uses }) _ rfl rfl (by simp [WordChk.permits, hp]) hf]
  simp only [h.elem_fun, h.word32Src_fun, h.sliceMask_eq]
  cases idx <;> cases old <;> rfl

theorem Ctx.joins_eq {k : Ctl} {sm : SliceMask} {f : Fmt} {a : VReg} {idx : Option VSrc} {old : Option VReg}
    (hi : crossParts i = some (k, sm, f, a, idx, old)) (c : Ctx) : c.joins i = some (c.member i k sm f a idx old) := by
  have hn : ∀ k xsm, i = .regang k xsm → False := by
    rintro k xsm rfl
    cases hi
  rw [Ctx.joins, hi]
  · cases idx <;> cases old <;> rfl
  · exact hn

/-- What REGANG brings to a group (R181). -/
def Ctx.regangMember (c : Ctx) (k : Ctl) (xsm : BitVec 8) : Member := ⟨c.k, .regang k xsm, ~~~xsm, 0, c.x.guardScalar k.guard, [], [], []⟩

/-- A word with a rule is REGANG, or a cross-lane word with operands (R173, R174, R181). -/
theorem soloRule_word (hr : c.soloRule i = some r) :
    (∃ k xsm, i = .regang k xsm ∧ r = { ctl := k, mask := ⟨xsm, none⟩, uses := [] })
    ∨ ∃ k sm f a idx old uses, crossParts i = some (k, sm, f, a, idx, old) ∧ r.mask = sm ∧ r.uses = useA f a :: uses
      ∧ ∀ s, exec i s = crossLane s k i sm f uses a idx old := by
  unfold Ctx.soloRule at hr
  split at hr <;> cases hr
  case h_19.refl => exact .inl ⟨_, _, rfl, rfl⟩
  all_goals exact .inr ⟨_, _, _, _, _, _, _, rfl, rfl, rfl, fun _ => rfl⟩

/-- A word with a rule joins with what its slice brings. -/
theorem AtRest.exec_joins (h : AtRest s c) (hp : c.x.priv ≠ 1) (hr : c.soloRule i = some r) (hf : c.fits r.uses) :
    ∃ m, c.joins i = some m ∧ exec i s = .next (c.joinInst m) ∧ m.mask = c.maskOf r.mask ∧ m.slice = s.cur := by
  rcases soloRule_word hr with ⟨k, xsm, rfl, rfl⟩ | ⟨k, sm, f, a, idx, old, uses, hi, rfl, hu, he⟩
  · refine ⟨c.regangMember k xsm, rfl, issue_rest h _ _ rfl rfl (by simp [WordChk.permits, hp]) (by simp), ?_, h.key⟩
    exact (BitVec.and_allOnes).symm
  · exact ⟨_, c.joins_eq hi, (he s).trans (h.crossLane_eq hp k i r.mask f uses a idx old (hu ▸ hf)), rfl, h.key⟩

/-! ### Effects on members (R174–R181) -/

/-- The effect of a word on the only member of its group. -/
theorem solo_fx {m : Member} (hj : c.joins i = some m) (hr : c.soloRule i = some r) : ∃ fp, memberFx [m] m = r.fx c fp := by
  rcases soloRule_word hr with ⟨k, xsm, rfl, rfl⟩ | ⟨k, sm, f, a, idx, old, uses, hi, -, -, -⟩
  · cases hj
    exact ⟨false, rfl⟩
  · rw [c.joins_eq hi] at hj
    cases hj
    exact soloRule_fx hi hr

/-- The effect of a word on a member of a group of several slices. -/
theorem group_fx {es : List (Ctx × Member)} (hj : ∀ e ∈ es, e.1.joins i = some e.2) (hd : (es.map (fun e => keySlice e.1.k)).Nodup)
    {e : Ctx × Member} (he : e ∈ es) {g : SoloRule} (hg : e.1.groupRule (es.map Prod.fst) i = some g) :
    ∃ fp, memberFx (es.map Prod.snd) e.2 = g.fx e.1 fp := by
  cases hi : crossParts i with
  | none =>
    have hje := hj e he
    unfold Ctx.groupRule at hg
    rw [hi] at hg
    dsimp only at hg
    split at hg <;> cases hg
    rw [← Option.some.inj hje]
    exact ⟨false, rfl⟩
  | some parts =>
    obtain ⟨k, sm, f, a, idx, old⟩ := parts
    have hm : ∀ d ∈ es, d.1.member i k sm f a idx old = d.2 := fun d hd =>
      Option.some.inj ((d.1.joins_eq hi).symm.trans (hj d hd))
    have hms : es.map Prod.snd = (es.map Prod.fst).map (fun d => d.member i k sm f a idx old) := by
      rw [List.map_map]
      exact List.map_congr_left fun d hd => (hm d hd).symm
    rw [hms, ← hm e he]
    exact groupRule_fx hi (List.mem_map_of_mem he) (by rwa [List.map_map]) hg

theorem Ctx.released_eq (h : c.x.hold = .none) : c.released = c := by
  obtain ⟨s, k, x, b⟩ := c
  cases x
  cases h
  rfl

/-! ### The claims -/

/-- Slices of one squad differ in their place in it. -/
theorem key_eq_of_squad {j k : Nat} (hb : keyBlock j = keyBlock k) (hq : keySquad j = keySquad k) (hs : keySlice j = keySlice k) :
    j = k := by
  unfold keyBlock at hb
  unfold keySquad at hq
  unfold keySlice at hs
  omega

theorem crossLaneAlone : Claims.CrossLaneAlone := by
  intro s c i r h hp hh hf hr hmask hq hi
  obtain ⟨-, hk, hx, hb⟩ := State.ctx_eq h.here
  obtain ⟨m, hj, he, hmm, hms⟩ := h.exec_joins hp hr hf
  have hbit (sl : Nat) (hsl : sl < 8) : m.mask.getLsbD sl = true ↔ sl = keySlice s.cur := by
    rw [hmm, hmask, BitVec.getLsbD_ofNat, Nat.testBit_two_pow]
    simp only [Bool.and_eq_true, decide_eq_true_eq]
    omega
  have hclosed : ¬ s.instOpen (keyBlock s.cur) (keySquad s.cur) [m] := by
    rintro ⟨sl, hsl, ⟨d, hd, hbd⟩, hne, -⟩
    rw [List.mem_singleton.mp hd, hbit sl hsl] at hbd
    exact hne m (by simp) (by rw [hms, hbd])
  obtain ⟨T, ht, hin, hout⟩ := h.joinInst_completes (ms := [m]) hq hms (by simp) ((hbit _ (Nat.mod_lt _ (by decide))).mpr rfl)
    (Squad.join_empty hi _ _) (by simp) (by simp) hclosed (by simpa [hms] using ⟨_, hx, h.quiet⟩)
  obtain ⟨fp, hfx⟩ := solo_fx hj hr
  have hblock : c.b.modSquad (keySquad s.cur) (fun q => { q with insts := [] }) = c.b := by
    refine Block.modSquad_self _ ?_
    rw [← hk]
    change { c.squad with insts := [] } = c.squad
    rw [← hi]
  have hleaves := SoloRule.leaves_afterCross h.quiet s r fp (markerOf m.word)
  rw [Ctx.released_eq hh, ← hfx] at hleaves
  refine ⟨_, _, he.trans (congrArg _ ht), hms ▸ hin m (by simp) c.x (by rw [hms, hx]), hleaves, fun j hne => hout j ?_, fun u => ?_,
    rfl, rfl, rfl, rfl, rfl, rfl⟩
  · simpa [hms] using Ne.symm hne
  · rw [hblock]
    change Table.find (Table.put s.blocks (keyBlock s.cur) c.b) u = _
    rw [Table.find_put]
    split_ifs with hu
    · rw [hu, hb]
    · rfl

theorem crossLaneWaits : Claims.CrossLaneWaits := by
  intro s c i r h hp hf hr hq hi
  obtain ⟨-, hk, hx, hb⟩ := State.ctx_eq h.here
  obtain ⟨m, -, he, hmm, hms⟩ := h.exec_joins hp hr hf
  refine ⟨fun hown ⟨sl, hsl, hne, hbit, hcome⟩ => ?_, fun vec at_ after hout ht => ?_⟩
  · have ho : s.instOpen (keyBlock s.cur) (keySquad s.cur) [m] :=
      ⟨sl, hsl, ⟨m, by simp, hmm ▸ hbit⟩, by simpa [hms] using Ne.symm hne, hcome⟩
    have hfind (j : Nat) := State.joinAt_find s c.x.pc m j
    have hblock := State.joinAt_block (s := s) (c := c) (m := m) (by rw [hms, hb]) c.x.pc
    rw [h.joinInst_waits hq hms (hmm ▸ hown) hi ho] at he
    rw [hms] at hfind hblock
    refine ⟨_, m, he, ?_, fun j hj => ?_, by simp [State.joinAt], ⟨_, hblock, ?_⟩, hms, hmm⟩
    · rw [hfind, if_pos rfl, hx]
      rfl
    · rw [hfind, if_neg hj]
    · rw [Block.squad_modSquad _ _ hq, ← hk]
      exact Squad.join_empty hi _ _
  · rw [he, h.joinInst_eq hms, if_neg (by simp [hmm, hout]), ht.trap_atHandler rfl]

/-- A slice with nothing outstanding that brought a member with mask p to a group of the issuing slice's squad (R168). -/
structure Joiner (s : State) (i : Instr) (p : BitVec 8) (e : Ctx × Member) : Prop where
  here : s.ctx e.1.k = some e.1
  slice : e.2.slice = e.1.k
  joins : e.1.joins i = some e.2
  mask : e.2.mask = p
  block : keyBlock e.1.k = keyBlock s.cur
  squad : keySquad e.1.k = keySquad s.cur
  quiet : e.1.x.Quiet

variable {p : BitVec 8} {held : List (Ctx × Member)}

/-- The slices that wait at a word and the slice that issues it join a group of their squad. -/
theorem GroupReady.joiner (h : GroupReady s c i p held) {m : Member} (hj : c.joins i = some m) (hms : m.slice = s.cur) :
    ∀ e ∈ held ++ [(c, m)], Joiner s i p e := by
  obtain ⟨-, hk, -, -⟩ := State.ctx_eq h.rest.here
  rw [List.forall_mem_append, List.forall_mem_singleton]
  refine ⟨fun e he => ?_, hk ▸ h.rest.here, hms.trans hk.symm, hj, ?_, congrArg keyBlock hk, congrArg keySquad hk, h.rest.quiet⟩
  · obtain ⟨hctx, hblock, hsquad, -, -, hsplice, hops, hpend, hstale, hdue, hclean⟩ := h.waits e he
    obtain ⟨-, hke, -, -⟩ := State.ctx_eq hctx
    obtain ⟨hje, hmask⟩ := h.joined.2 e he
    rw [← hke] at hctx hblock hsquad
    exact ⟨hctx, hke.symm, hje, hmask, hblock, hsquad, hsplice, hops, hpend, hstale, hdue, hclean⟩
  · simpa [hj] using h.joined.1

/-- No slice that the mask names has still to join once the issuing slice has. -/
theorem GroupReady.closed (h : GroupReady s c i p held) {m : Member} (hms : m.slice = s.cur)
    (hmask : ∀ e ∈ held ++ [(c, m)], e.2.mask = p) :
    ¬ s.instOpen (keyBlock s.cur) (keySquad s.cur) ((held ++ [(c, m)]).map Prod.snd) := by
  rintro ⟨sl, hsl, ⟨d, hd, hbit⟩, hne, hcome⟩
  obtain ⟨e, he, rfl⟩ := List.mem_map.mp hd
  rw [hmask e he] at hbit
  rcases h.complete sl hsl hbit with rfl | ⟨f, hf, rfl⟩ | hnever
  · exact hne m (by simp) (by rw [hms])
  · exact hne f.2 (List.mem_map_of_mem (List.mem_append_left _ hf)) rfl
  · simp [hnever] at hcome

theorem crossLaneTogether : Claims.CrossLaneTogether := by
  intro s c i r p held h hr hf cs _
  obtain ⟨-, hk, -, -⟩ := State.ctx_eq h.rest.here
  obtain ⟨m, hj, hexec, -, hms⟩ := h.rest.exec_joins h.free.2 hr hf
  have hjoin := h.joiner hj hms
  have hcs : (held ++ [(c, m)]).map Prod.fst = cs := by simp [cs]
  have hlast : (c, m) ∈ held ++ [(c, m)] := by simp
  have hapart : ((held ++ [(c, m)]).map (fun e => e.2.slice)).Nodup := by simpa [hms] using h.apart
  have hplaces : ((held ++ [(c, m)]).map (fun e => keySlice e.1.k)).Nodup := by
    rw [List.Nodup, List.pairwise_map] at hapart ⊢
    refine hapart.imp_of_mem fun {d e} hd he hne hs => hne ?_
    rw [(hjoin d hd).slice, (hjoin e he).slice]
    exact key_eq_of_squad ((hjoin d hd).block.trans (hjoin e he).block.symm) ((hjoin d hd).squad.trans (hjoin e he).squad.symm) hs
  obtain ⟨T, ht, hin, hout⟩ := h.rest.joinInst_completes (ms := (held ++ [(c, m)]).map Prod.snd) h.inSquad hms
    (List.mem_map_of_mem hlast) h.own (by rw [Squad.join_open h.instances]; simp)
    (List.forall_mem_map.mpr fun e he => (hjoin e he).mask) (by rwa [List.map_map])
    (h.closed hms fun e he => (hjoin e he).mask)
    (List.forall_mem_map.mpr fun e he => by
      rw [(hjoin e he).slice]
      exact ⟨(hjoin e he).block, _, (State.ctx_eq (hjoin e he).here).2.2.1, (hjoin e he).quiet⟩)
  rw [List.forall_mem_map] at hin
  rw [ht] at hexec
  refine ⟨_, hexec, rfl, ?_, fun j hne => hout j ?_, _, Table.find_put_self .., ?_⟩
  · rw [← hcs, List.forall_mem_map]
    intro e he g hg
    obtain ⟨-, -, hx, -⟩ := State.ctx_eq (hjoin e he).here
    obtain ⟨fp, hfx⟩ := group_fx (fun d hd => (hjoin d hd).joins) hplaces he hg
    have hfind := hin e he e.1.x ((hjoin e he).slice.symm ▸ hx)
    rw [hfx, (hjoin e he).slice] at hfind
    exact ⟨_, hfind, SoloRule.leaves_afterCross (hjoin e he).quiet s g fp _⟩
  · rw [List.forall_mem_map]
    intro e he
    rw [(hjoin e he).slice]
    exact hne e.1 (hcs ▸ List.mem_map_of_mem he)
  · rw [Block.squad_modSquad _ _ h.inSquad]

/-- Settles O25: a word brings a member to its group, which stays open or completes; the effect of a completed word on each member is
the one its row gives, and an effect of long results alone leaves in a quiet slice what the rule says. -/
theorem crossLaneWords : Obligations.CrossLaneWords := ⟨crossLaneAlone, crossLaneTogether, crossLaneWaits⟩

end Sys2Proof.Machine

/-! Proofs: held stores and the operations on one granule, as they are performed (R197, R219, R220, R241, R245, R246, R302, R303). -/

namespace Sys2Proof.Machine

variable {s t u : State} {k : Nat} {c : Ctx} {o : MemOp} {a : LaneAcc}

/-! ### STORE_PERFORMED (R245) -/

theorem Ctx.at_ctx (h : c.s.ctx c.k = some c) : c.at c.s = c := by simp [Ctx.at, h]

theorem Ctx.at_key (c : Ctx) (t : State) : (c.at t).k = c.k := by
  unfold Ctx.at
  cases ht : t.ctx c.k with
  | none => rfl
  | some d => exact (State.ctx_eq ht).2.1

theorem Alone.ctx_self (h : Alone s k c o) : c.s.ctx c.k = some c := by
  obtain ⟨hs, hk, -, -⟩ := State.ctx_eq h.here
  rw [hs, hk, h.here]

/-- A slice's only held operation may be performed. -/
theorem Alone.storePerformed (h : Alone s k c o) (hk : o.kind.isSt = true) (later : BitVec 8) :
    exec (.storePerformed k o.seq later) s = .next (c.performStore o later) := by
  have hbound (f : State → State) : s.alsoInImage c.b.vf o.outside f = f s := by simp [State.alsoInImage, h.unbound]
  change execStorePerformed k o.seq later s = _
  unfold execStorePerformed
  simp only [h.here, h.op?, hk, h.mayPerform, Bool.and_self, if_true, hbound, Option.map_some, Option.getD_some]

/-- The parts of some lanes, performed in their order. -/
def Ctx.performLanes (c : Ctx) (o : MemOp) (ps : List (LaneAcc × List Nat)) (t : State) : State :=
  ps.foldl (fun t p => if p.2.isEmpty then t else (c.at t).performLane o p.1 p.2) t

/-- A slice once an operation counted under ST is done (R114). -/
def Slice.storeDone (x : Slice) (n : Nat) : Slice :=
  { x with ops := x.ops.filter (fun e => e.seq != n), cnt := { x.cnt with st := x.cnt.st - 1 } }

/-- A slice one of whose operations has some lanes to go. -/
def Slice.storeLeft (x : Slice) (n : Nat) (rest : List LaneAcc) : Slice :=
  { x with ops := x.ops.map (fun e => if e.seq = n then { e with lanes := rest } else e) }

/-- The lanes of which an event leaves something to do. -/
def MemOp.putOff (o : MemOp) (ps : List (LaneAcc × List Nat)) : List LaneAcc :=
  ps.filterMap (fun p =>
    if p.2 = o.parts p.1 then none
    else some (match p.2 with
      | h :: _ => { p.1 with cmp := [BitVec.ofNat 8 h] }
      | [] => p.1))

theorem Ctx.performStore_eq (c : Ctx) (o : MemOp) (later : BitVec 8) :
    c.performStore o later = (c.performLanes o (o.plan later) c.s).modSlice c.k (fun x =>
      if (o.putOff (o.plan later)).isEmpty then x.storeDone o.seq else x.storeLeft o.seq (o.putOff (o.plan later))) := rfl

/-- A store no lane of which is put off. -/
theorem Ctx.performStore_all (c : Ctx) (o : MemOp) :
    c.performStore o 0 = (c.performLanes o (o.lanes.map (fun a => (a, o.parts a))) c.s).modSlice c.k (fun x => x.storeDone o.seq) := by
  have hnone : o.putOff (o.lanes.map (fun a => (a, o.parts a))) = [] := by
    rw [MemOp.putOff, List.filterMap_map]
    exact List.filterMap_eq_nil_iff.mpr fun a _ => if_pos rfl
  rw [c.performStore_eq, o.plan_all, hnone]
  rfl

/-- A store some of whose lanes are put off. -/
theorem Ctx.performStore_rest (c : Ctx) (o : MemOp) (later : BitVec 8) {ps : List (LaneAcc × List Nat)} (hps : o.plan later = ps)
    {rest : List LaneAcc} (hr : rest ≠ []) (hrest : o.putOff ps = rest) :
    c.performStore o later = (c.performLanes o ps c.s).modSlice c.k (fun x => x.storeLeft o.seq rest) := by
  simp only [c.performStore_eq, hps, hrest, List.isEmpty_iff, hr, if_false]

theorem Ctx.performLanes_one (h : c.s.ctx c.k = some c) {p : Nat} {ps : List Nat} :
    c.performLanes o [(a, p :: ps)] c.s = c.performLane o a (p :: ps) := by
  simp [Ctx.performLanes, Ctx.at_ctx h]

theorem MemOp.parts_ne (h : a.got = none) : o.parts a ≠ [] := by
  unfold MemOp.parts
  split_ifs with hgot hhalf
  · simp [h] at hgot
  · split
    · simp
    · split <;> simp
  · simp

/-- A store of one lane, whole. -/
theorem Alone.storePerformed_one (h : Alone s k c o) (hk : o.kind.isSt = true) (hl : o.lanes = [a]) (hg : a.got = none) :
    exec (.storePerformed k o.seq 0) s = .next ((c.performLane o a (o.parts a)).modSlice k (fun x => x.storeDone o.seq)) := by
  obtain ⟨-, hkey, -, -⟩ := State.ctx_eq h.here
  obtain ⟨p, ps, hp⟩ := List.exists_cons_of_ne_nil (o.parts_ne hg)
  rw [h.storePerformed hk, c.performStore_all, hl, List.map_singleton, hp, Ctx.performLanes_one h.ctx_self, hkey]

/-- The slice once its only operation is done. -/
theorem Alone.storeDone_eq (h : Alone s k c o) (x : Slice) (hx : x.ops = c.x.ops) :
    x.storeDone o.seq = { x with ops := [], cnt := { x.cnt with st := x.cnt.st - 1 } } := by
  simp [Slice.storeDone, hx, h.only]

theorem Alone.storeLeft_eq (h : Alone s k c o) (rest : List LaneAcc) :
    c.x.storeLeft o.seq rest = { c.x with ops := [{ o with lanes := rest }] } := by
  simp [Slice.storeLeft, h.only]

theorem State.modSlice_find_self {x : Slice} (h : Table.find s.slices k = some x) (f : Slice → Slice) :
    Table.find (s.modSlice k f).slices k = some (f x) := by
  rw [State.modSlice_find, if_pos rfl, h]
  rfl

theorem State.modSlice_find_other {j : Nat} (h : j ≠ k) (f : Slice → Slice) :
    Table.find (s.modSlice k f).slices j = Table.find s.slices j := by
  rw [State.modSlice_find, if_neg h]

/-! ### What a change of one block keeps -/

/-- Whether one state comes from another by a change of one block to `b`, and of what is known of replaced values. -/
structure State.BlockBecomes (s t : State) (u : Nat) (b : Block) : Prop where
  slices : t.slices = s.slices
  mem : t.mem = s.mem
  others : ∀ v, v ≠ u → Table.find t.blocks v = Table.find s.blocks v
  block : Table.find t.blocks u = some b

variable {uid : Nat} {b b' : Block}

theorem State.BlockBecomes.refl (h : Table.find s.blocks uid = some b) : s.BlockBecomes s uid b := ⟨rfl, rfl, fun _ _ => rfl, h⟩

theorem State.BlockBecomes.trans (h : s.BlockBecomes t uid b) (g : t.BlockBecomes u uid b') : s.BlockBecomes u uid b' where
  slices := g.slices.trans h.slices
  mem := g.mem.trans h.mem
  others v hv := (g.others v hv).trans (h.others v hv)
  block := g.block

theorem State.BlockBecomes.modBlock (h : Table.find s.blocks uid = some b) (f : Block → Block) :
    s.BlockBecomes (s.modBlock uid f) uid (f b) where
  slices := State.modBlock_slices ..
  mem := State.modBlock_mem ..
  others v hv := by rw [State.modBlock_find, if_neg hv]
  block := by
    rw [State.modBlock_find, if_pos rfl, h]
    rfl

theorem State.BlockBecomes.noteScratch (h : Table.find s.blocks uid = some b) (w : Writer) (off n : Nat) :
    s.BlockBecomes (s.noteScratch w uid off n) uid b where
  slices := State.noteWrite_slices ..
  mem := State.noteScratch_mem ..
  others v _ := by rw [State.noteScratch, State.noteWrite_blocks]
  block := by rw [State.noteScratch, State.noteWrite_blocks, h]

/-! ### Bytes of the scratchpad -/

theorem Memory.get_put_stored (m : List Host.Cell) (off : Nat) (bs : List Byte) (x : Nat) :
    Sparse.get 0 (Memory.put m off bs) x = storedOver [(off, bs)] x (Sparse.get 0 m x) := by
  change Memory.get (Memory.put m off bs) x = _
  rw [Memory.get_put, storedOver_one]
  split
  · next h => rw [List.getD_eq_getElem _ _ (by omega), List.getD_eq_getElem]
  · rfl

theorem Block.get_write (b : Block) (off : Nat) (bs : List Byte) (x : Nat) :
    Sparse.get 0 (b.write off bs).scratch x = storedOver [(off, bs)] x (Sparse.get 0 b.scratch x) := Memory.get_put_stored ..

theorem storedOver_nil (off x : Nat) (v : Byte) : storedOver [(off, [])] x v = v := by
  rw [storedOver_one, if_neg (by simp)]

theorem Block.get_setFull (b : Block) (off : Nat) (v : Bool) (g : Nat) :
    Sparse.get false (b.setFull off v).full g = if g = off / 16 then v else Sparse.get false b.full g := Sparse.get_set ..

/-! ### A lane in the scratchpad (R197, R220) -/

/-- The offset of a lane in the scratchpad. -/
def LaneAcc.off (a : LaneAcc) : Nat := a.addr.toNat - 0x7FFFFF0000000000

/-- A lane that lies in the scratchpad. -/
structure LaneAcc.InScratch (a : LaneAcc) : Prop where
  noPage : a.pa = none
  region : regionOf a.addr.toNat = .scratch a.off

theorem LaneAcc.inScratch_of (hp : a.pa = none) (hl : 0x7FFFFF0000000000 ≤ a.addr.toNat) (hh : a.addr.toNat < 0x7FFFFF0100000000) :
    a.InScratch := ⟨hp, regionOf_scratch hl hh⟩

theorem LaneAcc.InScratch.isHalves_store (h : a.InScratch) {sz : Sz} {fe : FE} {el : Bool} (hk : o.kind = .store sz fe el) :
    o.isHalves a = false := by
  simp [MemOp.isHalves, hk, h.noPage, LaneAcc.inRegs, h.region]

/-- The block once a lane of a store has been performed: form .SETF fills its granule. -/
def Block.stored (b : Block) (fe : FE) (off : Nat) (bs : List Byte) : Block :=
  if fe = .setf then (b.write off bs).setFull off true else b.write off bs

theorem Block.stored_scratch (b : Block) (fe : FE) (off : Nat) (bs : List Byte) (x : Nat) :
    Sparse.get 0 (b.stored fe off bs).scratch x = storedOver [(off, bs)] x (Sparse.get 0 b.scratch x) := by
  rw [← Block.get_write]
  unfold Block.stored
  split <;> rfl

theorem Block.stored_full (b : Block) (fe : FE) (off : Nat) (bs : List Byte) (g : Nat) :
    Sparse.get false (b.stored fe off bs).full g = if fe = .setf ∧ g = off / 16 then true else Sparse.get false b.full g := by
  unfold Block.stored
  split
  · next h =>
    rw [Block.get_setFull]
    simp [h, Block.write]
  · next h =>
    rw [if_neg fun hg => h hg.1]
    rfl

theorem LaneAcc.InScratch.writeLane (h : a.InScratch) (hb : Table.find c.s.blocks (keyBlock c.k) = some b) (w : Writer)
    (bs : List Byte) (bound : Bool) :
    c.s.BlockBecomes (c.writeLane w a none bs bound) (keyBlock c.k) (b.write a.off bs) := by
  simp only [Ctx.writeLane, h.region]
  have hn := State.BlockBecomes.noteScratch hb w a.off bs.length
  exact hn.trans (.modBlock hn.block _)

theorem LaneAcc.InScratch.setGranule (h : a.InScratch) (hb : Table.find c.s.blocks (keyBlock c.k) = some b) (v : Bool) :
    c.s.BlockBecomes (c.setGranule a v) (keyBlock c.k) (b.setFull a.off v) := by
  simp only [Ctx.setGranule, h.region]
  exact .modBlock hb _

/-- A lane of a store is written, and form .SETF then fills its granule. -/
theorem LaneAcc.InScratch.performLane_store (h : a.InScratch) {sz : Sz} {fe : FE} {el : Bool} (hk : o.kind = .store sz fe el) (ps : List Nat) :
    c.performLane o a ps = if fe = .setf then (c.at (c.writeLane (c.opWriter o) a none a.data o.outside)).setGranule a true
      else c.writeLane (c.opWriter o) a none a.data o.outside := by
  have hsame : { a with pa := none } = a := by rw [← h.noPage]
  have hlen : ¬ a.data.length < a.data.length := lt_irrefl _
  unfold Ctx.performLane
  simp only [h.noPage, hk, h.isHalves_store hk, hsame, Bool.false_and, Bool.false_eq_true, if_false, hlen, decide_false]
  cases fe <;> rfl

theorem LaneAcc.InScratch.performStore (h : a.InScratch) (hb : Table.find c.s.blocks (keyBlock c.k) = some b) {sz : Sz} {fe : FE}
    {el : Bool} (hk : o.kind = .store sz fe el) (ps : List Nat) :
    c.s.BlockBecomes (c.performLane o a ps) (keyBlock c.k) (b.stored fe a.off a.data) := by
  have hw := h.writeLane hb (c.opWriter o) a.data o.outside
  rw [h.performLane_store hk]
  unfold Block.stored
  split
  · refine hw.trans ?_
    have hg := h.setGranule (c := c.at (c.writeLane (c.opWriter o) a none a.data o.outside)) (b := b.write a.off a.data)
      (by rw [Ctx.at_s, Ctx.at_key]; exact hw.block) true
    rwa [Ctx.at_s, Ctx.at_key] at hg
  · exact hw

/-- The lanes of a store to the scratchpad that are performed, one after another. -/
theorem Ctx.performLanes_scratch {sz : Sz} {fe : FE} {el : Bool} (hk : o.kind = .store sz fe el) (ps : List (LaneAcc × List Nat))
    (hps : ∀ p ∈ ps, p.1.InScratch) (t : State) (b : Block) (hb : Table.find t.blocks (keyBlock c.k) = some b) :
    let done := (ps.filter (fun p => !p.2.isEmpty)).map (fun p => p.1)
    ∃ b', t.BlockBecomes (c.performLanes o ps t) (keyBlock c.k) b'
      ∧ (∀ x, Sparse.get 0 b'.scratch x = storedOver (done.map (fun a => (a.off, a.data))) x (Sparse.get 0 b.scratch x))
      ∧ ∀ g, Sparse.get false b'.full g = if fe = .setf ∧ ∃ a ∈ done, g = a.off / 16 then true else Sparse.get false b.full g := by
  induction ps generalizing t b with
  | nil => exact ⟨b, .refl hb, fun _ => rfl, fun g => by simp⟩
  | cons p ps ih =>
    have hrest := fun q hq => hps q (List.mem_cons_of_mem _ hq)
    by_cases he : p.2.isEmpty = true
    · simp only [Ctx.performLanes, List.foldl_cons, he, if_true]
      rw [List.filter_cons_of_neg (by simp [he])]
      exact ih hrest t b hb
    · have hstep := (hps p List.mem_cons_self).performStore (c := c.at t) (o := o) (by rw [Ctx.at_s, Ctx.at_key]; exact hb) hk p.2
      rw [Ctx.at_s, Ctx.at_key] at hstep
      obtain ⟨b', hb', hbytes, hfull⟩ := ih hrest _ _ hstep.block
      rw [Bool.not_eq_true] at he
      rw [List.filter_cons_of_pos (by simp [he])]
      refine ⟨b', ?_, fun x => ?_, fun g => ?_⟩
      · simp only [Ctx.performLanes, List.foldl_cons, he, Bool.false_eq_true, if_false]
        exact hstep.trans hb'
      · rw [hbytes, Block.stored_scratch]
        exact (storedOver_append [_] _ _ _).symm
      · rw [hfull, Block.stored_full]
        have hcons (l : List LaneAcc) : (∃ a ∈ p.1 :: l, g = a.off / 16) ↔ g = p.1.off / 16 ∨ ∃ a ∈ l, g = a.off / 16 := by simp
        simp only [List.map_cons, hcons]
        by_cases hf : fe = .setf <;> by_cases hg : g = p.1.off / 16 <;> simp [hf, hg]

theorem scratchStores : Claims.ScratchStores := by
  intro s k c o sz fe el h hkind hlanes off
  obtain ⟨hs, hkey, hx, hb⟩ := State.ctx_eq h.here
  have hk : o.kind.isSt = true := by rw [hkind]; rfl
  obtain ⟨b, hbecomes, hbytes, hfull⟩ := Ctx.performLanes_scratch (c := c) (o := o) hkind (o.lanes.map (fun a => (a, o.parts a)))
    (fun p hp => by
      obtain ⟨a, ha, rfl⟩ := List.mem_map.mp hp
      obtain ⟨-, hpa, hlo, hhi⟩ := hlanes a ha
      exact LaneAcc.inScratch_of hpa hlo hhi) s c.b (by rw [hkey]; exact hb)
  have hdone : ((o.lanes.map (fun a => (a, o.parts a))).filter (fun p => !p.2.isEmpty)).map (fun p => p.1) = o.lanes := by
    rw [List.filter_eq_self.mpr, List.map_map]
    · exact List.map_id _
    · intro p hp
      obtain ⟨a, ha, rfl⟩ := List.mem_map.mp hp
      simpa using o.parts_ne (hlanes a ha).1
  rw [hdone] at hbytes hfull
  rw [hkey] at hbecomes
  rw [h.storePerformed hk, c.performStore_all, hs, hkey]
  refine ⟨_, b, rfl, ?_, fun j hj => ?_, ?_, fun u hu => ?_, ?_, hbytes, hfull⟩
  · rw [State.modSlice_find_self (by rw [hbecomes.slices]; exact hx), h.storeDone_eq c.x rfl]
  · rw [State.modSlice_find_other hj, hbecomes.slices]
  · rw [State.modSlice_mem, hbecomes.mem]
  · rw [State.modSlice_blocks, hbecomes.others u hu]
  · rw [State.modSlice_blocks, hbecomes.block]

/-! ### A lane in memory (R219, R220, R245) -/

/-- What a store writes of a lane whose page is translated: the whole, or one half. -/
def LaneAcc.piece (a : LaneAcc) (o : MemOp) (sz : Sz) (ps : List Nat) (pa : Nat) : Nat × List Byte :=
  if o.isHalves a && ps.length == 1 then
    (pa + sz.bytes / 2 * ps.headD 0, (a.data.drop (sz.bytes / 2 * ps.headD 0)).take (sz.bytes / 2))
  else (pa, a.data)

theorem Ctx.performLane_memory {sz : Sz} {el : Bool} (hk : o.kind = .store sz .none el) (hp : a.pa.isSome = true) {x : Xlat}
    (hx : c.s.translate c.b.vf (c.s.tlbOf c.b.core) (laneSite a.lane + 1024 * (o.seq + 1)) a.addr.toNat .write = .ok x)
    (ps : List Nat) :
    c.performLane o a ps
      = c.s.writeMem (c.opWriter o) c.b.vf o.outside (a.piece o sz ps x.pa).1 (a.piece o sz ps x.pa).2 := by
  obtain ⟨p, hpa⟩ := Option.isSome_iff_exists.mp hp
  have hregs (t : State) : c.regsWritten t a = t := by simp [Ctx.regsWritten, hpa]
  unfold Ctx.performLane
  simp only [hpa, hk, hx, hregs, ite_self]
  unfold LaneAcc.piece
  split <;> rfl

/-- What is left of the state and the slice once a store to memory has been performed. -/
theorem Alone.stored_memory (h : Alone s k c o) (w : Writer) (bound : Bool) (d : Nat × List Byte) (f : Slice → Slice) :
    let t := (s.writeMem w c.b.vf bound d.1 d.2).modSlice k f
    Table.find t.slices k = some (f c.x) ∧ (∀ j, j ≠ k → Table.find t.slices j = Table.find s.slices j) ∧ t.blocks = s.blocks
      ∧ ∀ p, t.readByte (s.keyTag c.b.vf) p = storedOver [d] p (s.readByte (s.keyTag c.b.vf) p) := by
  obtain ⟨-, -, hx, -⟩ := State.ctx_eq h.here
  have hrun := s.keepsRun_writeMem w c.b.vf bound d.1 d.2
  refine ⟨State.modSlice_find_self (by rw [hrun.slices]; exact hx) f, fun j hj => ?_, ?_, fun p => ?_⟩
  · rw [State.modSlice_find_other hj, hrun.slices]
  · rw [State.modSlice_blocks, hrun.blocks]
  · rw [State.readByte_congr (State.modSlice_mem ..) (State.modSlice_lineKey ..), State.readByte_writeMem]

theorem memoryStores : Claims.MemoryStores := by
  intro s k c o a sz el x h hkind hl hgot hpa _ hx left
  obtain ⟨hs, -, -, -⟩ := State.ctx_eq h.here
  have hhalves : o.isHalves a = (sz.bytes == 16) := by simp [MemOp.isHalves, hkind, hpa]
  have hleft : a.piece o sz (o.parts a) x.pa = left := by
    simp only [LaneAcc.piece, MemOp.parts, hgot, hhalves, left]
    by_cases hsz : sz.bytes = 16
    · cases hcmp : a.cmp with
      | nil => simp [hsz]
      | cons n ns =>
        by_cases hn : n = 0#8 <;> simp [hsz, hn]
    · cases hcmp : a.cmp <;> simp [hsz]
  rw [h.storePerformed_one (by rw [hkind]; rfl) hl hgot, Ctx.performLane_memory hkind hpa (by rw [hs]; exact hx), hleft, hs]
  have hstored := h.stored_memory (c.opWriter o) o.outside left (fun x => x.storeDone o.seq)
  dsimp only at hstored
  rw [h.storeDone_eq c.x rfl] at hstored
  exact ⟨_, rfl, hstored⟩

theorem storeHalves : Claims.StoreHalves := by
  intro s k c o a el x h hAlone hkind hl hgot hcmp hpa hlen hlane hh hx
  obtain ⟨hs, hkey, -, -⟩ := State.ctx_eq hAlone.here
  have hhalves : o.isHalves a = true := by simp [MemOp.isHalves, hkind, hpa, Sz.bytes]
  have hparts : o.parts a = [0, 1] := by simp [MemOp.parts, hgot, hhalves, hcmp]
  have hkeeps : [0, 1].filter (fun p => !testBit (BitVec.ofNat 8 (2 ^ (a.lane + 4 * (1 - h)))).toNat (a.lane + 4 * p)) = [h] := by
    generalize a.lane = n at hlane
    clear hx
    interval_cases n <;> interval_cases h <;> decide
  have hplan : o.plan (BitVec.ofNat 8 (2 ^ (a.lane + 4 * (1 - h)))) = [(a, [h])] := by
    simp only [MemOp.plan, hl, List.foldl_cons, List.foldl_nil, List.nil_append, List.any_nil, Bool.and_false, Bool.not_false,
      Bool.and_true, hparts, hkeeps]
  have hpiece : a.piece o .w128 [h] x.pa = (x.pa + 8 * h, (a.data.drop (8 * h)).take 8) := by
    simp [LaneAcc.piece, hhalves, Sz.bytes]
  have hstored := hAlone.stored_memory (c.opWriter o) o.outside (a.piece o .w128 [h] x.pa)
    (fun x => x.storeLeft o.seq [{ a with cmp := [BitVec.ofNat 8 h] }])
  rw [hpiece] at hstored
  dsimp only at hstored
  rw [hAlone.storeLeft_eq] at hstored
  have hrest : o.putOff [(a, [h])] = [{ a with cmp := [BitVec.ofNat 8 h] }] := by simp [MemOp.putOff, hparts]
  refine ⟨_, ?_, hstored⟩
  rw [hAlone.storePerformed (by rw [hkind]; rfl), c.performStore_rest o _ hplan (List.cons_ne_nil _ _) hrest,
    Ctx.performLanes_one hAlone.ctx_self, Ctx.performLane_memory hkind hpa (by rw [hs]; exact hx), hpiece, hs, hkey]

theorem droppedStores : Claims.DroppedStores := by
  intro s k c o a sz fe el lv h hkind hl hgot hpa hend hx
  obtain ⟨hs, hkey, hslice, -⟩ := State.ctx_eq h.here
  obtain ⟨p, hp⟩ := Option.isSome_iff_exists.mp hpa
  have hlane : c.performLane o a (o.parts a) = s.modSlice k (fun x =>
      { x with dropped := x.dropped ++ [(o.seq, a.addr, lv)], dropDue := x.dropDue || (s.chip c.b.vf).cut }) := by
    unfold Ctx.performLane
    simp only [hp, hkind, hs, hx, hend, hkey, Bool.false_eq_true, if_false]
  rw [h.storePerformed_one (by rw [hkind]; rfl) hl hgot, hlane]
  simp [State.modSlice, State.putSlice, hslice, Slice.storeDone, h.only, Table.put_put]

/-! ### Lanes apart (R220, R246) -/

/-- What an event performs of one more lane, after others. -/
def MemOp.planNext (o : MemOp) (later : BitVec 8) (r : List (LaneAcc × List Nat)) (a : LaneAcc) : List (LaneAcc × List Nat) :=
  r ++ [(a, (o.parts a).filter (fun p => !testBit later.toNat (a.lane + 4 * p)
    && !(o.kind.ascends && r.any (fun e => (o.parts e.1).any (fun q =>
      !e.2.contains q && decide ((o.partAt e.1 q).1 < (o.partAt a p).1 + (o.partAt a p).2)
        && decide ((o.partAt a p).1 < (o.partAt e.1 q).1 + (o.partAt e.1 q).2))))))]

theorem MemOp.plan_eq (o : MemOp) (later : BitVec 8) : o.plan later = o.lanes.foldl (o.planNext later) [] := rfl

/-- Two lanes that no byte of an operation joins. -/
def MemOp.apart (o : MemOp) (a b : LaneAcc) : Prop := a.loc + o.kind.size ≤ b.loc ∨ b.loc + o.kind.size ≤ a.loc

/-- A lane that is performed whole is not held by lanes apart from it. -/
theorem MemOp.planNext_apart (later : BitVec 8) {r : List (LaneAcc × List Nat)} (hr : ∀ e ∈ r, o.isHalves e.1 = false ∧ o.apart e.1 a)
    (hh : o.isHalves a = false) :
    o.planNext later r a = r ++ [(a, (o.parts a).filter (fun p => !testBit later.toNat (a.lane + 4 * p)))] := by
  have hfree (p : Nat) : r.any (fun e => (o.parts e.1).any (fun q =>
      !e.2.contains q && decide ((o.partAt e.1 q).1 < (o.partAt a p).1 + (o.partAt a p).2)
        && decide ((o.partAt a p).1 < (o.partAt e.1 q).1 + (o.partAt e.1 q).2))) = false := by
    rw [List.any_eq_false]
    intro e he
    rw [Bool.not_eq_true, List.any_eq_false]
    intro q _
    obtain ⟨hhe, hap⟩ := hr e he
    unfold MemOp.apart at hap
    simp only [MemOp.partAt, hhe, hh, Bool.false_eq_true, if_false, Bool.and_eq_true, decide_eq_true_eq]
    omega
  simp only [MemOp.planNext, hfree, Bool.and_false, Bool.not_false, Bool.and_true]

theorem MemOp.plan_apart (later : BitVec 8) (ls : List LaneAcc) (hls : ∀ a ∈ ls, o.isHalves a = false) (hap : ls.Pairwise o.apart)
    (r : List (LaneAcc × List Nat)) (hr : ∀ e ∈ r, o.isHalves e.1 = false ∧ ∀ a ∈ ls, o.apart e.1 a) :
    ls.foldl (o.planNext later) r
      = r ++ ls.map (fun a => (a, (o.parts a).filter (fun p => !testBit later.toNat (a.lane + 4 * p)))) := by
  induction ls generalizing r with
  | nil => simp
  | cons a ls ih =>
    obtain ⟨hfirst, hap⟩ := List.pairwise_cons.mp hap
    rw [List.foldl_cons, MemOp.planNext_apart later (fun e he => ⟨(hr e he).1, (hr e he).2 a List.mem_cons_self⟩)
      (hls a List.mem_cons_self), ih (fun b hb => hls b (List.mem_cons_of_mem _ hb)) hap, List.append_assoc]
    · rfl
    · intro e he
      rcases List.mem_append.mp he with he | he
      · exact ⟨(hr e he).1, fun b hb => (hr e he).2 b (List.mem_cons_of_mem _ hb)⟩
      · rw [List.mem_singleton.mp he]
        exact ⟨hls a List.mem_cons_self, hfirst⟩

theorem lanesApart : Claims.LanesApart := by
  intro s k c o sz el later h hkind hlanes hpair waits hwait
  obtain ⟨hs, hkey, hx, hb⟩ := State.ctx_eq h.here
  have hin (a : LaneAcc) (ha : a ∈ o.lanes) : a.InScratch := by
    obtain ⟨-, hpa, hlo, hhi⟩ := hlanes a ha
    exact LaneAcc.inScratch_of hpa hlo hhi
  have hparts (a : LaneAcc) (ha : a ∈ o.lanes) : o.parts a = [0] := by
    simp [MemOp.parts, (hlanes a ha).1, (hin a ha).isHalves_store hkind]
  have hplan : o.plan later = o.lanes.map (fun a => (a, if waits a then [] else [0])) := by
    rw [MemOp.plan_eq, MemOp.plan_apart later o.lanes (fun a ha => (hin a ha).isHalves_store hkind) ?_ [] (by simp), List.nil_append]
    · refine List.map_congr_left fun a ha => ?_
      rw [hparts a ha]
      cases hw : waits a <;> simp only [waits, BitVec.getLsbD] at hw <;> simp [testBit_eq, hw]
    · refine hpair.imp_of_mem fun {a b} ha hb hab => ?_
      simpa [MemOp.apart, LaneAcc.loc, (hlanes a ha).2.1, (hlanes b hb).2.1, hkind, OpKind.size, Nat.add_assoc] using hab
  obtain ⟨b, hbecomes, hbytes, -⟩ := Ctx.performLanes_scratch (c := c) (o := o) hkind
    (o.lanes.map (fun a => (a, if waits a then [] else [0])))
    (fun p hp => by
      obtain ⟨a, ha, rfl⟩ := List.mem_map.mp hp
      exact hin a ha) s c.b (by rw [hkey]; exact hb)
  have hdone : ((o.lanes.map (fun a => (a, if waits a then ([] : List Nat) else [0]))).filter (fun p => !p.2.isEmpty)).map (fun p => p.1)
      = o.lanes.filter (fun a => !waits a) := by
    rw [List.filter_map, List.map_map]
    refine (List.map_id _).trans (List.filter_congr fun a _ => ?_)
    cases hw : waits a <;> simp [hw]
  rw [hdone] at hbytes
  rw [hkey] at hbecomes
  rw [h.storePerformed (by rw [hkind]; rfl), c.performStore_rest o later hplan hwait ?_, hs, hkey]
  · refine ⟨_, b, rfl, ?_, fun j hj => ?_, ?_, ?_, ?_⟩
    · rw [State.modSlice_find_self (by rw [hbecomes.slices]; exact hx), h.storeLeft_eq]
    · rw [State.modSlice_find_other hj, hbecomes.slices]
    · rw [State.modSlice_mem, hbecomes.mem]
    · rw [State.modSlice_blocks, hbecomes.block]
    · exact hbytes
  · rw [MemOp.putOff, List.filterMap_map, ← List.filterMap_eq_filter]
    refine List.filterMap_congr fun a ha => ?_
    cases hw : waits a <;> simp [hw, hparts a ha, Option.guard]

/-- Settles O29: the lanes of a store that no event puts off are performed one after another, each as a write of its block's scratchpad or
of memory, or are dropped; what is put off stays on the slice's list. -/
theorem storesPerformed : Obligations.StoresPerformed :=
  ⟨scratchStores, memoryStores, storeHalves, droppedStores, lanesApart⟩

/-! ### Operations on one granule (R197, R224, R302, R303) -/

/-- What an operation on a granule at offset `off` leaves: the bytes that it writes, and the full-empty bit that it sets. -/
def GranuleAfter (s : State) (k : Nat) (c : Ctx) (o : MemOp) (off : Nat) (bytes : List Byte) (full : Option Bool) : Prop :=
  ∃ t b, exec (.storePerformed k o.seq 0) s = .next t
    ∧ (∃ y, Table.find t.slices k = some y ∧ (o.acq = false → y.knows = c.x.knows ∧ y.reads = c.x.reads ∧ y.lastRead = c.x.lastRead)
      ∧ y = { c.x with
          ops := [], cnt := { c.x.cnt with st := c.x.cnt.st - 1 }, knows := y.knows, reads := y.reads, lastRead := y.lastRead })
    ∧ (∀ j, j ≠ k → Table.find t.slices j = Table.find s.slices j) ∧ t.mem = s.mem
    ∧ Table.find t.blocks (keyBlock k) = some b
    ∧ (∀ x, Sparse.get 0 b.scratch x = storedOver [(off, bytes)] x (Sparse.get 0 c.b.scratch x))
    ∧ ∀ g, Sparse.get false b.full g = if g = off / 16 then full.getD (Sparse.get false c.b.full g) else Sparse.get false c.b.full g

/-- An operation of one lane that changes its block, and at most what its slice knows and has read. -/
theorem Alone.granuleAfter_read (h : Alone s k c o) (hk : o.kind.isSt = true) (hl : o.lanes = [a]) (hg : a.got = none) {y : Slice}
    {off : Nat} {bytes : List Byte} {full : Option Bool}
    (hy : Table.find (c.performLane o a (o.parts a)).slices k = some y)
    (honly : y = { c.x with knows := y.knows, reads := y.reads, lastRead := y.lastRead }) (hacq : o.acq = false → y = c.x)
    (hothers : ∀ j, j ≠ k → Table.find (c.performLane o a (o.parts a)).slices j = Table.find s.slices j)
    (hmem : (c.performLane o a (o.parts a)).mem = s.mem)
    (hblock : Table.find (c.performLane o a (o.parts a)).blocks (keyBlock k) = some b)
    (hbytes : ∀ x, Sparse.get 0 b.scratch x = storedOver [(off, bytes)] x (Sparse.get 0 c.b.scratch x))
    (hfull : ∀ g, Sparse.get false b.full g
      = if g = off / 16 then full.getD (Sparse.get false c.b.full g) else Sparse.get false c.b.full g) :
    GranuleAfter s k c o off bytes full := by
  refine ⟨_, b, h.storePerformed_one hk hl hg, ⟨y.storeDone o.seq, State.modSlice_find_self hy _, fun hq => ?_, ?_⟩, fun j hj => ?_, ?_, ?_,
    hbytes, hfull⟩
  · rw [hacq hq]
    exact ⟨rfl, rfl, rfl⟩
  · rw [h.storeDone_eq y (by rw [honly]), honly]
  · rw [State.modSlice_find_other hj, hothers j hj]
  · rw [State.modSlice_mem, hmem]
  · rw [State.modSlice_blocks, hblock]

/-- An operation of one lane that changes its block alone. -/
theorem Alone.granuleAfter (h : Alone s k c o) (hk : o.kind.isSt = true) (hl : o.lanes = [a]) (hg : a.got = none)
    {off : Nat} {bytes : List Byte} {full : Option Bool} (hb : s.BlockBecomes (c.performLane o a (o.parts a)) (keyBlock k) b)
    (hbytes : ∀ x, Sparse.get 0 b.scratch x = storedOver [(off, bytes)] x (Sparse.get 0 c.b.scratch x))
    (hfull : ∀ g, Sparse.get false b.full g
      = if g = off / 16 then full.getD (Sparse.get false c.b.full g) else Sparse.get false c.b.full g) :
    GranuleAfter s k c o off bytes full := by
  obtain ⟨-, -, hx, -⟩ := State.ctx_eq h.here
  exact h.granuleAfter_read hk hl hg (by rw [hb.slices]; exact hx) rfl (fun _ => rfl) (fun j _ => by rw [hb.slices]) hb.mem hb.block
    hbytes hfull

theorem Slice.forwarded_zero (x : Slice) (loc : Nat) : x.forwarded 0 loc = none := by
  unfold Slice.forwarded
  generalize x.ops = os
  induction os with
  | nil => rfl
  | cons o os ih =>
    rw [List.foldl_cons]
    cases o.kind <;> simpa using ih

theorem LaneAcc.InScratch.byteAt (h : a.InScratch) (c : Ctx) (i : Nat) : c.byteAt a i = c.b.byte (a.off + i) := by
  simp only [Ctx.byteAt, h.noPage]
  rfl

/-- What an atomic reads of its unit: the bytes as they stand. -/
theorem LaneAcc.InScratch.loadLane (h : a.InScratch) (hf : a.fwd = []) (c : Ctx) (n : Nat) : c.loadLane 0 a n = c.bytesAt a n := by
  unfold Ctx.loadLane Ctx.bytesAt
  refine List.map_congr_left fun i _ => ?_
  simp only [Ctx.loadByte, hf, Slice.forwarded_zero, h.noPage, h.region, List.getD_nil, h.byteAt]

theorem Block.phaseAdd_scratch (b : Block) (off : Nat) (ms : List Msg) (z : Bool) :
    (b.phaseAdd off ms z).scratch = b.scratch ∧ (b.phaseAdd off ms z).full = b.full := by
  unfold Block.phaseAdd
  dsimp only
  split <;> split <;> exact ⟨rfl, rfl⟩

theorem Block.abUpdate_scratch (b : Block) (off : Nat) (arrive : Bool) (n : Int) (ms : List Msg) :
    (b.abUpdate off arrive n ms).scratch
      = Memory.put b.scratch off (leBytes 16 (abUpdated (leNat ((List.range 16).map (fun i => b.byte (off + i)))) arrive n)) :=
  (Block.phaseAdd_scratch _ _ _ _).1

theorem Block.abUpdate_full (b : Block) (off : Nat) (arrive : Bool) (n : Int) (ms : List Msg) :
    (b.abUpdate off arrive n ms).full = b.full := (Block.phaseAdd_scratch _ _ _ _).2

/-- An atomic without return writes its unit, and, if it is an acquire, its slice learns. -/
theorem Ctx.rmwWrite_scratch (h : c.s.ctx c.k = some c) (ha : a.InScratch) (hret : o.kind.isLd = false) (bs : List Byte) :
    ∃ y, Table.find (c.rmwWrite o a bs).slices c.k = some y
      ∧ y = { c.x with knows := y.knows, reads := y.reads, lastRead := y.lastRead } ∧ (o.acq = false → y = c.x)
      ∧ (∀ j, j ≠ c.k → Table.find (c.rmwWrite o a bs).slices j = Table.find c.s.slices j)
      ∧ (c.rmwWrite o a bs).mem = c.s.mem
      ∧ Table.find (c.rmwWrite o a bs).blocks (keyBlock c.k) = some (c.b.write a.off bs) := by
  obtain ⟨-, -, hx, hb⟩ := State.ctx_eq h
  generalize ht : c.writeLane { c.opWriter o with
    rels := (c.opWriter o).rels ++ (c.s.latest (a.covers (keyBlock c.k) bs.length)).flatMap (fun p => p.rels) } a none bs o.outside = t
  have hw : c.s.BlockBecomes t (keyBlock c.k) (c.b.write a.off bs) := ht ▸ ha.writeLane hb _ bs o.outside
  have hx' : Table.find t.slices c.k = some c.x := by rw [hw.slices, hx]
  unfold Ctx.rmwWrite
  simp only [ha.noPage, ht, hret, Bool.false_eq_true, if_false]
  split
  · next hacq =>
    obtain ⟨y, hr⟩ := State.readsTo_noteRead (r := c.reader .ls o.scope o.seq) hx' true
      (c.s.latest (a.covers (keyBlock c.k) bs.length))
    refine ⟨_, State.modSlice_find_self hr.slice _, by rw [hr.only], fun hq => absurd hacq (by simp [hq]), fun j hj => ?_, ?_, ?_⟩
    · rw [State.modSlice_find_other hj, hr.others j hj, hw.slices]
    · rw [State.modSlice_mem, hr.frame]
      exact hw.mem
    · rw [State.modSlice_blocks, hr.frame]
      exact hw.block
  · exact ⟨c.x, hx', rfl, fun _ => rfl, fun j _ => by rw [hw.slices], hw.mem, hw.block⟩

section

variable (h : Alone s k c o) (hl : o.lanes = [a]) (hg : a.got = none) (ha : a.InScratch)
include h hl hg ha

theorem Alone.granule_setFull (v : Bool) (hk : o.kind = if v then .feset else .feclr) : GranuleAfter s k c o a.off [] (some v) := by
  obtain ⟨hs, hkey, -, hb⟩ := State.ctx_eq h.here
  have hp : c.performLane o a (o.parts a) = c.setGranule a v := by cases v <;> simp [Ctx.performLane, ha.noPage, hk]
  have hset := ha.setGranule (c := c) (by rw [hs, hkey]; exact hb) v
  rw [← hp, hs, hkey] at hset
  exact h.granuleAfter (by cases v <;> rw [hk] <;> rfl) hl hg hset (fun x => (storedOver_nil _ x _).symm)
    fun g => Block.get_setFull ..

/-- An atomic whose halves, if it has any, are performed together. -/
theorem Alone.granule_atomic {op : AtomOp} {sz : Sz} (hk : o.kind = .atomic op sz none) (hhalf : o.isHalves a = true → a.cmp = [])
    (hf : a.fwd = []) : GranuleAfter s k c o a.off
      (leBytes sz.bytes (op.apply (8 * sz.bytes) (leNat (c.bytesAt a sz.bytes)) (leNat a.data) (leNat a.cmp))) none := by
  obtain ⟨hs, hkey, -, -⟩ := State.ctx_eq h.here
  have hsame : { a with pa := none } = a := by rw [← ha.noPage]
  have hwhole : (o.isHalves a && (o.parts a).length == 1) = false := by
    cases hh : o.isHalves a with
    | false => rfl
    | true => simp [MemOp.parts, hg, hh, hhalf hh]
  generalize hbs : leBytes sz.bytes (op.apply (8 * sz.bytes) (leNat (c.bytesAt a sz.bytes)) (leNat a.data) (leNat a.cmp)) = bs
  have hp : c.performLane o a (o.parts a) = c.rmwWrite o a bs := by
    unfold Ctx.performLane
    simp only [ha.noPage, hk, hwhole, hsame, ha.loadLane hf, hbs, Bool.false_eq_true, if_false]
  obtain ⟨y, hy, honly, hacq, hothers, hmem, hblock⟩ := Ctx.rmwWrite_scratch h.ctx_self ha (o := o) (by rw [hk]; rfl) bs
  rw [← hp, hkey] at hy hblock
  rw [← hp, hkey, hs] at hothers
  rw [← hp, hs] at hmem
  exact h.granuleAfter_read (by rw [hk]; rfl) hl hg hy honly hacq hothers hmem hblock (fun x => Block.get_write ..)
    fun g => by simp [Block.write]

theorem Alone.granule_abInit {n : BitVec 16} (hk : o.kind = .abInit n) : GranuleAfter s k c o a.off a.data none := by
  obtain ⟨hs, hkey, -, hb⟩ := State.ctx_eq h.here
  have hw := ha.writeLane (c := c) (by rw [hs, hkey]; exact hb) (c.opWriter o) a.data o.outside
  have hp : c.performLane o a (o.parts a)
      = (c.writeLane (c.opWriter o) a none a.data o.outside).modBlock (keyBlock c.k) (fun b => b.abClear a.off) := by
    simp [Ctx.performLane, ha.noPage, hk, ha.region]
  have hclear := hw.trans (.modBlock hw.block (fun b => b.abClear a.off))
  rw [← hp, hs, hkey] at hclear
  exact h.granuleAfter (by rw [hk]; rfl) hl hg hclear (fun x => Block.get_write ..) fun g => by simp [Block.write, Block.abClear]

theorem Alone.granule_abUpdate {arrive : Bool} {n : Int} (hk : o.kind = .abUpdate arrive n) :
    GranuleAfter s k c o a.off (leBytes 16 (abUpdated (leNat (c.bytesAt a 16)) arrive n)) none := by
  obtain ⟨hs, hkey, -, hb⟩ := State.ctx_eq h.here
  have hn := State.BlockBecomes.noteScratch (s := c.s) (uid := keyBlock c.k) (b := c.b) (by rw [hs, hkey]; exact hb)
  have hp : c.performLane o a (o.parts a) = c.s.abUpdate (c.opWriter o) (keyBlock c.k) a.off arrive n (c.opWriter o).rels := by
    simp [Ctx.performLane, ha.noPage, hk, ha.region]
  have hupdate : c.s.BlockBecomes (c.performLane o a (o.parts a)) (keyBlock c.k) (c.b.abUpdate a.off arrive n (c.opWriter o).rels) := by
    rw [hp]
    exact (hn _ _ _).trans (.modBlock (hn _ _ _).block _)
  rw [hs, hkey] at hupdate
  have hold : (List.range 16).map (fun i => c.b.byte (a.off + i)) = c.bytesAt a 16 :=
    List.map_congr_left fun i _ => (ha.byteAt c i).symm
  refine h.granuleAfter (by rw [hk]; rfl) hl hg hupdate (fun x => ?_) fun g => ?_
  · rw [Block.abUpdate_scratch, hold, Memory.get_put_stored]
  · simp [Block.abUpdate_full]

end

/-- Settles O41: each operation on a granule is performed as one lane, which changes its block's scratchpad or full-empty bits. -/
theorem granuleOperations : Obligations.GranuleOperations := by
  intro s k c o a off h hl hg hhalf hpa hfwd haddr hoff
  have ha : a.InScratch := LaneAcc.inScratch_of hpa (by omega) (by omega)
  obtain rfl : a.off = off := by unfold LaneAcc.off; omega
  exact ⟨h.granule_setFull hl hg ha true, h.granule_setFull hl hg ha false, fun op sz hk => h.granule_atomic hl hg ha hk hhalf hfwd,
    fun n hk => h.granule_abInit hl hg ha hk, fun arrive n hk => h.granule_abUpdate hl hg ha hk⟩

end Sys2Proof.Machine

/-! Proofs: what a read returns after a write, the clocks of the dies, releases and acquires (R202, R204, R236, R247, R249, R251, R254, R391). -/

namespace Sys2Proof.Machine

variable {s t : State} {k : Nat} {c : Ctx} {o : MemOp} {a : LaneAcc}

/-! ### Bytes beside a write (R202, R204) -/

theorem State.readByte_rekeyLine_other (s : State) (key key' : Option Nat) {l p : Nat} (h : lineOf p ≠ l) :
    (s.rekeyLine key l).readByte key' p = s.readByte key' p := by
  have hp : p < l * 128 ∨ l * 128 + 128 ≤ p := by unfold lineOf at h; omega
  unfold State.rekeyLine
  split
  · rfl
  · split
    · simp only [State.readByte, State.keyOfLine, Sparse.get_set_other _ _ _ h]
    · have hmem : Memory.get (Memory.put s.mem (l * 128) (s.readBytes key (l * 128) 128)) p = Memory.get s.mem p :=
        Memory.get_put_outside _ _ _ (by rw [State.length_readBytes]; exact hp)
      simp only [State.readByte, State.keyOfLine, Sparse.get_set_other _ _ _ h, hmem]

theorem State.readByte_rekeyLines_other (s : State) (key key' : Option Nat) (ls : List Nat) {p : Nat} (h : lineOf p ∉ ls) :
    (ls.foldl (fun t l => t.rekeyLine key l) s).readByte key' p = s.readByte key' p := by
  induction ls generalizing s with
  | nil => rfl
  | cons l ls ih =>
    rw [List.foldl_cons, ih _ fun hl => h (List.mem_cons_of_mem _ hl),
      State.readByte_rekeyLine_other _ _ _ fun hl => h (hl ▸ List.mem_cons_self)]

theorem not_mem_linesOf {a n p : Nat} (h : p / 128 < a / 128 ∨ (a + n - 1) / 128 < p / 128) : lineOf p ∉ linesOf a n := by
  intro hl
  obtain ⟨i, hi, he⟩ := List.mem_map.mp hl
  have hi := List.mem_range.mp hi
  unfold lineOf at he
  omega

/-- A line that a write does not touch reads as before under every key. -/
theorem State.readByte_writeMem_other (s : State) (w : Writer) (v : Nat) (bound : Bool) (a : Nat) {bs : List Byte} (hbs : bs ≠ [])
    (key : Option Nat) {p : Nat} (h : p / 128 < a / 128 ∨ (a + bs.length - 1) / 128 < p / 128) :
    (s.writeMem w v bound a bs).readByte key p = s.readByte key p := by
  have hlen : 0 < bs.length := List.length_pos_of_ne_nil hbs
  have hput (u : State) : Memory.get (Memory.put u.mem a bs) p = Memory.get u.mem p :=
    Memory.get_put_outside _ _ _ (by omega)
  have hnote : (s.writeMem w v bound a bs).readByte key p = (s.putPhys (some v) bound a bs).readByte key p :=
    State.readByte_congr (State.noteWrite_mem ..) (State.noteWrite_lineKey ..) key p
  rw [hnote, State.putPhys, if_neg (by simpa using hbs)]
  have hundo : (if s.timeSliced v then (linesOf a bs.length).foldl (fun t l => t.undoLine v bound a bs l) s else s).readByte key p
      = s.readByte key p := by
    split
    · exact State.readByte_undoLines ..
    · rfl
  refine Eq.trans ?_ ((State.readByte_rekeyLines_other _ (s.keyTag v) key _ (not_mem_linesOf h)).trans hundo)
  simp only [State.readByte, State.keyOfLine, hput]

theorem writtenBytes : Claims.WrittenBytes := fun s w v bound a _ hbs =>
  ⟨State.readByte_writeMem s w v bound a _, fun key _ h => State.readByte_writeMem_other s w v bound a hbs key h⟩

/-! ### Older values (R236, R251) -/

/-- What is left when some of the latest writes are not seen: the value as it stands, or one that such a write replaced. -/
theorem olderOf_mem (unseen : Past → Bool) (v : Nat) (ws : List Past) :
    (olderOf unseen v ws).1 = v ∨ ∃ p ∈ ws, unseen p = true ∧ (olderOf unseen v ws).1 = p.old := by
  induction ws generalizing v with
  | nil => exact .inl rfl
  | cons w ws ih =>
    rw [olderOf]
    split
    · next hw =>
      rcases ih w.old with hv | ⟨p, hp, hu, hv⟩
      · exact .inr ⟨w, List.mem_cons_self, hw, hv⟩
      · exact .inr ⟨p, List.mem_cons_of_mem _ hp, hu, hv⟩
    · exact .inl rfl

theorem readValues : Claims.ReadValues := by
  intro s r site sel l
  refine ⟨?_, fun newer w older hpast hsee => ?_, fun w hkey hpath hr => ?_, fun w p hp hstamp hpath hsince hshares => ?_⟩
  · rcases olderOf_mem (fun w => decide (s.moment r site sel l.unit ≤ w.stamp) && !s.mustSee r w) (s.atLoc l)
      (s.past.filter (fun w => w.loc == l)) with hv | ⟨p, hp, hu, hv⟩
    · exact .inl hv
    · obtain ⟨hp, hl⟩ := List.mem_filter.mp hp
      exact .inr ⟨p, hp, beq_iff_eq.mp hl, by simp_all, hv⟩
  · rw [State.view, hpast]
    rcases olderOf_cases (fun w => decide (s.moment r site sel l.unit ≤ w.stamp) && !s.mustSee r w) (s.atLoc l) newer older w
      (by simp [hsee]) with hv | ⟨p, hp, -, hv⟩
    · exact .inl hv
    · exact .inr ⟨p, hp, hv⟩
  · rcases hr with hr | hr <;> simp [State.mustSee, hkey, hpath, hr]
  · have hknown : r.knows.any (fun k => k.stamp == w.stamp && k.path == r.path && decide (k.since ≤ r.seq)
        && s.shares k.site r.site k.scope) = true := List.any_eq_true.mpr ⟨p, hp, by simp [hstamp, hpath, hsince, hshares]⟩
    rw [State.mustSee, hknown, Bool.or_true]

/-! ### The clocks of the dies (R254, R391) -/

/-- A die that takes over a clock counts what that clock counts of a die whose bridge is open. -/
theorem State.le_clockOf_mergeClock (s : State) {d src e : Nat} (clock : Vector Word64 4) (hd : d < 4) (hne : src ≠ d)
    (hsrc : s.joined d src = true) (he : e < 4) (hj : s.joined d e = true) :
    (clock.toList.getD e 0).toNat ≤ (s.mergeClock d src clock).clockOf d e := by
  unfold State.mergeClock State.clockOf
  rw [if_neg (by simp [hne, hsrc]), State.modDie_die, if_pos ⟨rfl, hd⟩]
  simp only [Vector.toList_ofFn, List.getD, List.getElem?_ofFn, he, dif_pos, Option.getD_some, Vector.getElem?_toList,
    Vector.getElem?_eq_getElem, hj, and_true, Fin.getElem_fin]
  split_ifs with hlt
  · rfl
  · exact not_lt.mp hlt

theorem State.mergeClock_die_other (s : State) {d e : Nat} (src : Nat) (clock : Vector Word64 4) (h : e ≠ d) :
    (s.mergeClock d src clock).die e = s.die e := by
  unfold State.mergeClock
  split
  · rfl
  · rw [State.modDie_die, if_neg fun he => h he.1]

theorem appliedInOrder : Claims.AppliedInOrder := by
  intro s d a w v hd hloc hne hv
  have hat : s.applyAt d w = s.mergeClock d w.site.die w.clock := by rw [State.applyAt, hloc]
  rw [hat]
  refine ⟨fun hj hj' hemit => ?_, fun hj => ?_, fun happlied => ?_, fun e _ he => s.mergeClock_die_other _ _ he⟩
  · rw [State.applied_eq, decide_eq_true_eq]
    exact hemit.trans (s.le_clockOf_mergeClock w.clock hd hne hj hv hj')
  · rw [State.mergeClock, if_pos (.inr (by simp [hj]))]
  · rw [State.applied_eq, decide_eq_true_eq] at happlied ⊢
    exact happlied.trans (s.clockOf_mergeClock ..)

/-! ### Writes that leave their die (R254) -/

theorem State.putPhys_past (s : State) (v : Nat) (bound : Bool) (a : Nat) (bs : List Byte) {p : Past}
    (h : p ∈ (s.putPhys (some v) bound a bs).past) : p ∈ s.past := by
  have rekey (key : Option Nat) (ls : List Nat) (u : State) : p ∈ (ls.foldl (fun t l => t.rekeyLine key l) u).past → p ∈ u.past := by
    induction ls generalizing u with
    | nil => exact id
    | cons l ls ih =>
      intro hp
      have hp : p ∈ (u.rekeyLine key l).past := ih _ hp
      unfold State.rekeyLine at hp
      split at hp
      · exact hp
      · split at hp
        · exact hp
        · exact (List.mem_filter.mp hp).1
  have undo (ls : List Nat) (u : State) : (ls.foldl (fun t l => t.undoLine v bound a bs l) u).past = u.past := by
    induction ls generalizing u with
    | nil => rfl
    | cons l ls ih =>
      rw [List.foldl_cons, ih]
      unfold State.undoLine
      split_ifs <;> simp [State.modChip]
  unfold State.putPhys at h
  split at h
  · exact h
  · have h := rekey _ _ _ h
    dsimp only at h
    split at h
    · rwa [undo] at h
    · exact h

/-- A write to physical memory changes no die's record and no core. -/
theorem State.putPhys_frame (s : State) (v : Nat) (bound : Bool) (a : Nat) (bs : List Byte) :
    (s.putPhys (some v) bound a bs).dies = s.dies ∧ (s.putPhys (some v) bound a bs).cores = s.cores := by
  have rekey (u : State) (key : Option Nat) (l : Nat) (h : u.dies = s.dies ∧ u.cores = s.cores) :
      (u.rekeyLine key l).dies = s.dies ∧ (u.rekeyLine key l).cores = s.cores := by
    unfold State.rekeyLine
    split
    · exact h
    · split <;> exact h
  have undo (u : State) (l : Nat) (h : u.dies = s.dies ∧ u.cores = s.cores) :
      (u.undoLine v bound a bs l).dies = s.dies ∧ (u.undoLine v bound a bs l).cores = s.cores := by
    unfold State.undoLine
    split_ifs <;> exact h
  have fold (f : State → Nat → State) (hf : ∀ u l, (u.dies = s.dies ∧ u.cores = s.cores) →
      (f u l).dies = s.dies ∧ (f u l).cores = s.cores)
      (ls : List Nat) (u : State) (h : u.dies = s.dies ∧ u.cores = s.cores) :
      (ls.foldl f u).dies = s.dies ∧ (ls.foldl f u).cores = s.cores :=
    ls.foldlRecOn f (motive := fun u => u.dies = s.dies ∧ u.cores = s.cores) h fun u hu l _ => hf u l hu
  unfold State.putPhys
  split
  · exact ⟨rfl, rfl⟩
  · refine fold _ (fun u l => rekey u _ l) _ _ ?_
    dsimp only
    split
    · exact fold _ undo _ _ ⟨rfl, rfl⟩
    · exact ⟨rfl, rfl⟩

theorem State.clockOf_tick (s : State) {d : Nat} (hd : d < 4) (hn : s.clockOf d d < 2 ^ 64 - 1) :
    (s.tick d).clockOf d d = s.clockOf d d + 1 := by
  unfold State.clockOf at hn ⊢
  rw [State.tick, State.modDie_die, if_pos ⟨rfl, hd⟩]
  simp only [List.getD, Vector.getElem?_toList, Vector.getElem?_eq_getElem hd, Option.getD_some] at hn
  simp only [Vector.toList_ofFn, List.getD, List.getElem?_ofFn, hd, dif_pos, Option.getD_some, Vector.getElem?_toList,
    Vector.getElem?_eq_getElem, if_true, Fin.getElem_fin, BitVec.toNat_add]
  rw [show (1 : Word64).toNat = 1 from rfl, Nat.mod_eq_of_lt (by omega)]

theorem State.tick_joined (s : State) (d e f : Nat) : (s.tick d).joined e f = s.joined e f := by
  have hcfg (n : Nat) : ((s.tick d).die n).partcfg = (s.die n).partcfg := by
    rw [State.tick, State.modDie_die]
    split
    · next h => rw [h.1]
    · rfl
  simp only [State.joined, State.partyOf, hcfg]

/-- A write whose one home is another die leaves its own die, which counts it, and its home die has then applied it. -/
theorem State.noteWrite_leaves (s : State) (w : Writer) {cells : List (Loc × Nat)} (hc : cells ≠ []) {h : Nat}
    (hd : w.site.die < 4) (hh : h < 4)
    (hne : h ≠ w.site.die) (hj : s.joined h w.site.die = true) (hn : s.clockOf w.site.die w.site.die < 2 ^ 64 - 1) :
    let t := s.noteWrite w cells [h]
    t.clockOf w.site.die w.site.die = s.clockOf w.site.die w.site.die + 1
      ∧ ∀ p ∈ t.past, p ∉ s.past →
          p.site = w.site ∧ p.emit = s.clockOf w.site.die w.site.die + 1 ∧ p.emit ≤ t.clockOf h w.site.die := by
  have haway : [h].filter (fun h => s.joined h w.site.die && h != w.site.die) = [h] := by simp [hj, hne]
  have htick := s.clockOf_tick hd hn
  intro t
  have ht : t = { s.withClocks ((s.tick w.site.die).mergeClock h w.site.die ((s.tick w.site.die).die w.site.die).clock) with
      past := cells.map (fun c => ⟨c.1, c.2, s.stamp, w.path, w.site, w.seq, w.scope, (s.tick w.site.die).clockOf w.site.die w.site.die,
        ((s.tick w.site.die).die w.site.die).clock, w.rels⟩) ++ s.past
      stamp := s.stamp + 1 } := by
    simp only [t, State.noteWrite, List.isEmpty_iff, hc, haway, State.clockOf]
    rfl
  have hclock (n e : Nat) (h4 : n < 4) : t.clockOf n e
      = ((s.tick w.site.die).mergeClock h w.site.die ((s.tick w.site.die).die w.site.die).clock).clockOf n e := by
    rw [ht]
    exact State.clockOf_withClocks s _ h4 e
  refine ⟨?_, fun p hp hold => ?_⟩
  · rw [hclock _ _ hd, State.clockOf, State.mergeClock_die_other _ _ _ (Ne.symm hne)]
    exact htick
  · rw [ht] at hp
    rcases List.mem_append.mp hp with hp | hp
    · obtain ⟨cell, -, rfl⟩ := List.mem_map.mp hp
      refine ⟨rfl, htick, ?_⟩
      rw [hclock _ _ hh]
      exact State.le_clockOf_mergeClock _ _ hh (Ne.symm hne) (by rw [State.tick_joined, hj]) hd (by rw [State.tick_joined, hj])
    · exact absurd hp hold

theorem linesOf_one (a : Nat) : linesOf a 1 = [a / 128] := by
  simp [linesOf]

theorem writesLeave : Claims.WritesLeave := by
  intro s w v bound a b h hd hh hhome hne hj hkey n hn t
  generalize hq : s.putPhys (some v) bound a [b] = q
  have hrun : s.KeepsRun q := hq ▸ s.keepsRun_putPhys v bound a [b]
  have hclock (e f : Nat) : q.clockOf e f = s.clockOf e f := by
    simp only [State.clockOf, State.die, ← hq, (s.putPhys_frame v bound a [b]).1]
  have hjq : q.joined h w.site.die = true := by simpa only [State.joined, State.partyOf, hrun.partcfg] using hj
  have ht : t = q.noteWrite w [(.mem a, (Memory.get s.mem a).toNat)] [h] := by
    have hcell : s.keyOfLine (lineOf a) = none ∨ s.keyOfLine (lineOf a) = s.keyTag v := hkey
    simp only [t, State.writeMem, hq, List.length_cons, List.length_nil, Nat.zero_add, linesOf_one, List.map_cons, List.map_nil, hhome]
    rw [show List.range 1 = [0] from rfl, List.filterMap_cons_some (by rw [Nat.add_zero, if_pos hcell]), List.filterMap_nil]
    rfl
  obtain ⟨hown, hnew⟩ := q.noteWrite_leaves w (List.cons_ne_nil (Loc.mem a, (Memory.get s.mem a).toNat) []) hd hh hne hjq
    (by rw [hclock]; exact hn)
  rw [← ht, hclock] at hown hnew
  refine ⟨hown, fun p hp hold => ?_⟩
  obtain ⟨hsite, hemit, hle⟩ := hnew p hp fun hpast => hold (s.putPhys_past v bound a [b] (hq ▸ hpast))
  refine ⟨hsite, hemit, ?_⟩
  rw [State.applied_eq, hsite, decide_eq_true_eq]
  exact hle

/-! ### Releases and acquires (R247, R249) -/

/-- Each byte that a write replaces is remembered with the releases that the write carries. -/
theorem State.mem_noteWrite_past (s : State) (w : Writer) {cells : List (Loc × Nat)} (homes : List Nat) {e : Loc × Nat} (h : e ∈ cells) :
    ∃ p ∈ (s.noteWrite w cells homes).past, p.loc = e.1 ∧ p.stamp = s.stamp ∧ p.rels = w.rels := by
  unfold State.noteWrite
  rw [if_neg (by simpa using List.ne_nil_of_mem h)]
  exact ⟨_, List.mem_append_left _ (List.mem_map_of_mem h), rfl, rfl, rfl⟩

/-- A release makes known the slice's earlier LS stores. -/
theorem State.known_message (s : State) (site : Site) (x : Slice) (scope : Scope) (n : Nat) {p : Past} (hp : p ∈ s.past)
    (hkey : p.site.key = site.key) (hpath : p.path = .ls) (hseq : p.seq < n) : p.known .ls 0 ∈ (s.message site x scope n).knows := by
  have hown : p ∈ s.ownWrites site.key n .ls := List.mem_filter.mpr ⟨hp, by simp [hkey, hpath, hseq]⟩
  exact List.mem_append_left _ (List.mem_append_left _ (List.mem_append_left _ (List.mem_flatMap.mpr ⟨p, hown, List.mem_cons_self⟩)))

theorem releaseCarries : Claims.ReleaseCarries := by
  intro s k c o a sz el off n i scope h hkind hl hgot hpa haddr hoff hi hrel
  obtain ⟨hs, hkey, -, -⟩ := State.ctx_eq h.here
  have ha : a.InScratch := LaneAcc.inScratch_of hpa (by omega) (by omega)
  have hao : a.off = off := by unfold LaneAcc.off; omega
  have hcell : (Loc.scratch (keyBlock k) (off + i), s.atLoc (.scratch (keyBlock k) (off + i)))
      ∈ (List.range a.data.length).map (fun i => (Loc.scratch (keyBlock k) (off + i), s.atLoc (.scratch (keyBlock k) (off + i)))) :=
    List.mem_map.mpr ⟨i, List.mem_range.mpr hi, rfl⟩
  obtain ⟨w, hw, hloc, hstamp, hrels⟩ := s.mem_noteWrite_past (c.opWriter o) [] hcell
  rw [h.storePerformed_one (by rw [hkind]; rfl) hl hgot, ha.performLane_store hkind, if_neg (by decide), Ctx.writeLane]
  simp only [ha.region, hs, hkey, hao]
  refine ⟨_, w, s.message c.site c.x scope n, rfl, ?_, hloc, hstamp, ?_, rfl, rfl, fun p hp hpk hpath hseq => ?_, fun p hp hsince => ?_,
    fun p hp hsince => ?_⟩
  · rw [State.modSlice_past, State.modBlock_past]
    exact hw
  · rw [hrels, ← hs]
    exact List.mem_map.mpr ⟨(scope, n), hrel, rfl⟩
  · exact s.known_message _ _ _ _ hp (hpk.trans hkey.symm) hpath hseq
  · exact List.mem_append_left _ (List.mem_append_right _ (List.mem_filter.mpr ⟨hp, decide_eq_true hsince⟩))
  · exact List.mem_append_right _ (List.mem_filter.mpr ⟨hp, decide_eq_true hsince⟩)

theorem State.withClocks_shares (s u : State) (x y : Site) (scope : Scope) : (s.withClocks u).shares x y scope = s.shares x y scope := by
  cases scope <;> rfl

/-- An acquire learns what a release that it has read makes known. -/
theorem State.learned_noteRead {r : Reader} {x : Slice} (hx : Table.find s.slices r.site.key = some x) {ws : List Past} {w : Past}
    {m : Msg} {p : Known} (hw : w ∈ ws) (hm : m ∈ w.rels) (hrel : s.shares m.site r.site m.scope = true)
    (hacq : s.shares m.site r.site r.scope = true) (hp : p ∈ m.knows) (hknow : s.shares p.site r.site p.scope = true) {y : Slice}
    (hy : Table.find (s.noteRead r true ws).slices r.site.key = some y) : { p with since := r.seq + 1 } ∈ y.knows := by
  have hgain (u : State) : { p with since := r.seq + 1 }
      ∈ (s.withClocks u).gains r.site r.scope (r.seq + 1) (ws.flatMap (fun w => w.rels)) := by
    refine List.mem_flatMap.mpr ⟨m, List.mem_filter.mpr ⟨List.mem_flatMap.mpr ⟨w, hw, hm⟩, ?_⟩,
      List.mem_map.mpr ⟨p, List.mem_filter.mpr ⟨hp, ?_⟩, rfl⟩⟩
    · rw [State.withClocks_shares, State.withClocks_shares, hrel, hacq]
      rfl
    · rw [State.withClocks_shares, hknow]
  unfold State.noteRead at hy
  rw [State.modSlice_find, if_pos rfl, State.withClocks_slices, hx] at hy
  cases hy
  exact Slice.mem_learn.mpr (.inr (List.mem_append_left _ (List.mem_append_right _ (hgain _))))

theorem Slice.received_knows (x : Slice) (o : MemOp) : (x.received o).resumed.knows = x.knows := by
  rw [Slice.resumed_only, Slice.received, Slice.deliver, Slice.landAll_only]

theorem acquireLearns : Claims.AcquireLearns := by
  intro s k c o a dst sz w m p h hkind hl hr hacq hw hm hrel hshare hp hknow
  obtain ⟨hs, hkey, hx, -⟩ := State.ctx_eq h.here
  have hk : o.kind.isLoad = true := by rw [hkind]; rfl
  have hr' : c.Readable a o.kind.size := by rw [hkind]; exact hr
  have hseen : (c.loadSeen o.scope o.seq a o.kind.size).2 = (c.loadSeen o.scope o.seq a sz.bytes).2 := by rw [hkind]; rfl
  have hxr : Table.find s.slices (c.reader .ls o.scope o.seq).site.key = some c.x := by
    rw [show (c.reader .ls o.scope o.seq).site.key = k from hkey, hx]
  obtain ⟨y, hread⟩ := State.readsTo_noteRead hxr true (c.loadSeen o.scope o.seq a o.kind.size).2
  have hlearn := State.learned_noteRead hxr (hseen ▸ hw) hm hrel hshare hp hknow hread.slice
  obtain ⟨e, he, hstep⟩ : ∃ e : LaneAcc, e.got.isSome = true ∧ c.loadStep o a [0] =
      (s.noteRead (c.reader .ls o.scope o.seq) true (c.loadSeen o.scope o.seq a o.kind.size).2, e) := by
    refine ⟨{ a with got := some (c.loadSeen o.scope o.seq a o.kind.size).1, poisoned := c.lanePoisoned a o.kind.size }, rfl, ?_⟩
    have hfe : feWaits o.kind.fe = false := by rw [hkind]; rfl
    simp only [Ctx.loadStep, hfe, hr'.isHalves hk, Bool.false_and, Bool.false_eq_true, if_false, hacq, hs]
  rw [h.loadCompletion_one hk hl hr', hstep]
  generalize s.noteRead _ _ _ = t at hread ⊢
  rw [show (c.reader .ls o.scope o.seq).site.key = k from hkey] at hread
  have hy := hread.only
  have hops : ∀ e ∈ y.ops, e.seq = o.seq := by rw [hy]; simp [h.only]
  rw [if_pos he, State.deliverLoad_eq (o := { o with lanes := [e] }) hread.slice hops (by rw [hy]; exact h.noPend)
    (by rw [hy]; exact h.notTrapping)]
  obtain ⟨-, -, -, hmem, -⟩ := hread.sameButReads
  refine ⟨_, _, rfl, Table.find_put_self .., ?_, ?_, ?_⟩
  · rw [Slice.received_knows]
    exact hlearn
  · exact (congrArg State.mem hread.frame).trans rfl
  · exact (congrArg State.blocks hread.frame).trans rfl

/-- Settles O30: memory reads back what is written, a read goes back only past writes that it need not see, clocks only grow and are taken
over whole, and what a release makes known is what an acquire of its write learns. -/
theorem memoryConsistency : Obligations.MemoryConsistency :=
  ⟨writtenBytes, readValues, appliedInOrder, writesLeave, releaseCarries, acquireLearns⟩

end Sys2Proof.Machine

/-! Proofs: WLD as it issues, and the elements that it delivers (R209–R213, R234–R236). -/

namespace Sys2Proof.Machine

variable {s t : State} {k : Nat} {c : Ctx} {o : MemOp} {a : LaneAcc}

/-! ### Issue (R234, R235) -/

/-- A memory word that reads nothing at issue, has active lanes and passes its checks puts its operation on the slice's list. -/
theorem AtRest.memIssueTo_eq (h : AtRest s c) {w : MemWord} {k : Ctl} {r : List (Nat × Nat × Option Xlat)} (noLane : Ctx → State)
    (next : State → State) (hfull : w.kind.full c.x.cnt = false) (hscope : s.scopeDenied c.b.vf w.mem.scope = false)
    (ha : c.memAccesses k w ≠ []) (hc : c.check w.ask (c.memAccesses k w) = .ok r) (hreads : w.kind.reads = false)
    (hwrites : w.ask.want.writes = false) :
    c.memIssueTo w k noLane next = next ((c.translated r).withSlice (c.memQueued w (r.map (c.freshLane w)))) := by
  have hl : (c.memLanes w.vec k.guard).isEmpty = false := by rwa [Bool.eq_false_iff, Ne, h.isEmpty_memLanes_iff]
  rw [Ctx.memIssueTo]
  simp only [hfull, hl, h.state, hscope, h.memAccesses_eq, hc, Bool.and_false, Bool.false_eq_true, if_false]
  exact h.memEffect_eq (fun _ => rfl) next (fun hr => by simp [hreads] at hr) (.inr (.inr (by simp [hostLane, hwrites])))

theorem wellLoad : Claims.WellLoad := by
  intro s c k m sz pr d r h hf hwl hscope w ha hc
  obtain ⟨hs, hk, -, hb⟩ := State.ctx_eq h.here
  obtain ⟨hcur, -, hblocks⟩ := c.translated_frame r
  have hkey : c.k = (c.translated r).cur := by rw [hcur, hs, hk]
  have hacq : c.x.acquiring = false := by simp [Slice.acquiring, h.noOps]
  have hto (noLane : Ctx → State) (next : State → State) :=
    h.memIssueTo_eq (w := w) (k := k) (r := r) noLane next (by simpa [w, OpKind.full] using hwl) hscope ha hc rfl rfl
  have hheld (noLane : Ctx → State) : c.memIssueTo w k noLane (fun t => t.modSlice c.k (fun z => { z with hold := .well c.x.seq c.s.ir }))
      = (c.translated r).withSlice { c.memQueued w (r.map (c.freshLane w)) with hold := .well c.x.seq c.s.ir } := by
    rw [hto, hkey, ← State.withSlice_cur, State.modSlice_at_cur (State.withSlice_find_self _ _)]
    simp only [State.withSlice, Table.put_put]
  change execWld k m sz pr d s = _
  rw [execWld, h.issue_fits hf]
  simp only [hacq, h.physV, Bool.and_false, Bool.false_eq_true, if_false]
  rw [← hs]
  change _ = Host.Outcome.next ((c.translated r).withSlice _)
  cases pr with
  | noq =>
    refine congrArg Host.Outcome.next ((hto _ _).trans ?_)
    rw [hkey, State.finish_outstanding (by rw [hblocks, hcur, hs, hb]) (by exact h.unspliced) (by exact h.noPend) (by exact h.noReport),
      c.memQueued_longOut w, show w.kind.isLong = true from rfl, Bool.and_true]
    rfl
  | push => exact congrArg Host.Outcome.next (hheld _)
  | trap => exact congrArg Host.Outcome.next (hheld _)

/-! ### The elements (R212, R213, R236) -/

theorem olderOf_write_mem (unseen : Past → Bool) (v : Nat) (ws : List Past) {w : Past} (h : (olderOf unseen v ws).2 = some w) : w ∈ ws := by
  induction ws generalizing v with
  | nil => cases h
  | cons p ws ih =>
    rw [olderOf] at h
    split at h
    · exact List.mem_cons_of_mem _ (ih _ h)
    · cases h
      exact List.mem_cons_self

/-- A read returns writes to the places that it selects. -/
theorem State.sel_of_mem_seenWrites {r : Reader} {site : Nat} {sel : Loc → Bool} {w : Past} (h : w ∈ s.seenWrites r site sel) :
    sel w.loc = true := by
  obtain ⟨l, hl, hw⟩ := List.mem_filterMap.mp (List.mem_filter.mp h).1
  rw [State.pastLocs, List.mem_eraseDups, List.mem_filter] at hl
  obtain ⟨-, hloc⟩ := List.mem_filter.mp (olderOf_write_mem _ _ _ hw)
  rw [beq_iff_eq.mp hloc]
  exact hl.2

/-- A read of places that are not memory teaches its slice, and no die. -/
theorem State.noteRead_local {r : Reader} {x : Slice} (hx : Table.find s.slices r.site.key = some x) (acq : Bool) {ws : List Past}
    (hw : ∀ w ∈ ws, ∀ a, w.loc ≠ .mem a) :
    ∃ y, s.noteRead r acq ws = s.putSlice r.site.key y ∧ y = { x with reads := y.reads, lastRead := y.lastRead, knows := y.knows } := by
  have hclocks : ws.foldl (fun t w => t.applyAt r.site.die w) s = s := by
    induction ws with
    | nil => rfl
    | cons w ws ih =>
      have hstep : s.applyAt r.site.die w = s := by
        unfold State.applyAt
        split
        · next a ha => exact absurd ha (hw w List.mem_cons_self a)
        · rfl
      rw [List.foldl_cons, hstep, ih fun p hp => hw p (List.mem_cons_of_mem _ hp)]
  unfold State.noteRead State.modSlice
  simp only [hclocks, State.withClocks_self, hx]
  refine ⟨_, rfl, ?_⟩
  cases acq <;> rfl

/-- The element of a well in one lane of a WLD. -/
def Ctx.wellLane (c : Ctx) (o : MemOp) (descs : List (Nat × BitVec 512)) (a : LaneAcc) : LaneAcc :=
  let w := c.wellRead descs a
  let r := c.wellElement w.1 w.2.1
  { a with got := some (leBytes o.kind.size r.1), poisoned := r.2 }

/-- A WLD that must see the latest writes of its members forms its elements from the scratchpads as they stand. -/
theorem Alone.formWell (h : Alone s k c o) {descs : List (Nat × BitVec 512)} (hgot : ∀ a ∈ o.lanes, a.got = none)
    (hu : ∀ a ∈ o.lanes, s.upToDate (c.reader .wl o.scope o.seq) (c.wellRead descs a).2.2) :
    ∃ u z, c.formWell o descs = (⟨u, k, z, c.b⟩, { o with lanes := o.lanes.map (c.wellLane o descs) })
      ∧ Table.find u.slices k = some z ∧ (∀ y, u.putSlice k y = s.putSlice k y)
      ∧ z = { c.x with reads := z.reads, lastRead := z.lastRead, knows := z.knows } := by
  obtain ⟨hs, hkey, hx, hb⟩ := State.ctx_eq h.here
  cases hl : o.lanes with
  | nil =>
    refine ⟨s, c.x, ?_, hx, fun _ => rfl, rfl⟩
    simp only [Ctx.formWell, hl, List.all_nil, if_true, ← hs, ← hkey, List.map_nil]
    rw [← hl]
  | cons b bs =>
    have hall : o.lanes.all (fun a => a.got.isSome) = false := by
      rw [List.all_eq_false]
      exact ⟨b, by simp [hl], by simp [hgot b (by simp [hl])]⟩
    have hlocal : ∀ w ∈ c.wellWrites o descs, ∀ a, w.loc ≠ .mem a := by
      intro w hw a hloc
      obtain ⟨p, hp, rfl⟩ := List.mem_map.mp hw
      obtain ⟨a, -, hp⟩ := List.mem_flatMap.mp hp
      have hsel := State.sel_of_mem_seenWrites hp
      rw [show p.loc = _ from hloc] at hsel
      cases hsel
    obtain ⟨z, hread, hz⟩ := State.noteRead_local (s := s) (r := c.reader .wl o.scope o.seq) (x := c.x)
      (by rw [show (c.reader .wl o.scope o.seq).site.key = k from hkey, hx]) o.acq hlocal
    rw [show (c.reader .wl o.scope o.seq).site.key = k from hkey] at hread
    have hlanes : c.wellLanes o descs = o.lanes.map (c.wellLane o descs) := by
      refine List.map_congr_left fun a ha => ?_
      simp only [hs, State.seen_current _ _ _ _ (hu a ha), Ctx.wellLane]
      rw [← hs, Ctx.at_ctx h.ctx_self]
    have hat : c.at (s.putSlice k z) = ⟨s.putSlice k z, k, z, c.b⟩ := by
      rw [Ctx.at, hkey, State.ctx_of (x := z) (b := c.b) (Table.find_put_self ..) (by exact hb)]
      rfl
    refine ⟨s.putSlice k z, z, ?_, Table.find_put_self .., fun y => ?_, hz⟩
    · rw [← hl, Ctx.formWell, if_neg (by simp [hall]), hs, hread, hat, hlanes]
    · simp only [State.putSlice, Table.put_put]

/-- The slice that a completed WLD leaves. -/
def Slice.welled (x : Slice) (o : MemOp) : Slice :=
  ({ x with ops := x.ops.filter (fun e => e.seq != o.seq), cnt := { x.cnt with wl := x.cnt.wl - 1 } }).deliver (o.results x.live)

theorem Slice.welled_only (x : Slice) (o : MemOp) :
    (x.welled o).ops = x.ops.filter (fun e => e.seq != o.seq) ∧ (x.welled o).cnt = { x.cnt with wl := x.cnt.wl - 1 }
      ∧ (x.welled o).hold = x.hold ∧ (x.pend = [] → (x.welled o).pend = []) := by
  rw [Slice.welled, Slice.deliver, Slice.landAll_only]
  exact ⟨rfl, rfl, rfl, fun hp => by simp [hp]⟩

theorem Alone.completeWell (h : Alone s k c o) {descs : List (Nat × BitVec 512)} (hgot : ∀ a ∈ o.lanes, a.got = none)
    (hu : ∀ a ∈ o.lanes, s.upToDate (c.reader .wl o.scope o.seq) (c.wellRead descs a).2.2) :
    ∃ z, c.completeWell o descs .noq
        = s.putSlice k (Slice.welled z { o with lanes := o.lanes.map (c.wellLane o descs) }).resumed
      ∧ z = { c.x with reads := z.reads, lastRead := z.lastRead, knows := z.knows } := by
  obtain ⟨u, z, hform, hfind, hput, hz⟩ := h.formWell hgot hu
  have hhold : z.hold = .none ∨ z.hold = .parked := by rw [hz]; exact h.notTrapping
  obtain ⟨hops, -, hkeep, hpend⟩ := Slice.welled_only z { o with lanes := o.lanes.map (c.wellLane o descs) }
  have hlong : (u.putSlice k (Slice.welled z { o with lanes := o.lanes.map (c.wellLane o descs) })).afterLong k
      = u.putSlice k (Slice.welled z { o with lanes := o.lanes.map (c.wellLane o descs) }).resumed :=
    State.afterLong_resumed _ _ (by rw [hops, hz]; simp [h.only]) (hpend (by rw [hz]; exact h.noPend)) (by rw [hkeep]; exact hhold)
  refine ⟨z, ?_, hz⟩
  have hdone : c.completeWell o descs .noq = ((u.modSlice k (fun x => { x with
      ops := x.ops.filter (fun e => e.seq != o.seq), cnt := { x.cnt with wl := x.cnt.wl - 1 } })).modSlice k (fun x =>
        x.deliver (MemOp.results { o with lanes := o.lanes.map (c.wellLane o descs) } z.live))).afterLong k := by
    rw [Ctx.completeWell, hform]
    rcases hhold with hh | hh <;> simp only [hh]
  rw [← hput, ← hlong, hdone]
  simp only [State.modSlice, hfind, Table.find_put_self, Table.put_put]
  rfl

theorem Slice.welled_lands (x : Slice) {d : Nat} {sz : Sz} {descs : List (Nat × BitVec 512)} {pr : PoisonReport}
    (hk : o.kind = .well d sz descs pr) (hnd : (o.lanes.map (fun a => a.lane)).Nodup) (ha : a ∈ o.lanes) (hl : a.lane < 4)
    (hlive : x.live.toNat.testBit a.lane = true) :
    (x.welled o).resumed.vreg d a.lane = BitVec.ofNat 32 (leNat (a.got.getD [])) := by
  have hr : o.results x.live = laneWrites o.lanes x.live d 1 (fun a => leNat (a.got.getD [])) := by
    simp only [MemOp.results, hk]
    rfl
  rw [Slice.resumed_only, Slice.welled, hr]
  refine (Slice.landAll_laneWrites hnd _ _ _ _ _ _ hl).trans ?_
  rw [find?_lane_eq hnd ha]
  simp [hlive]

theorem wellElements : Claims.WellElements := by
  intro s k c o d sz descs h hkind hsz hnd hgot hu
  obtain ⟨z, hdone, hz⟩ := h.completeWell hgot hu
  have hexec : exec (.loadCompletion k o.seq 0) s = .next (c.completeWell o descs .noq) := by
    change execLoadCompletion k o.seq 0 s = _
    unfold execLoadCompletion
    simp only [h.here, h.op?, h.mayPerform, hkind]
    rfl
  obtain ⟨hops, hcnt, -, hpend⟩ := Slice.welled_only z { o with lanes := o.lanes.map (c.wellLane o descs) }
  refine ⟨_, hexec.trans (congrArg _ hdone), ?_, ?_, ?_, fun a ha hl hlive => Slice.lands_of_held ?_ ?_⟩
  · rw [Slice.resumed_only]
    change (Slice.welled z _).ops = []
    rw [hops, hz]
    simp [h.only]
  · rw [Slice.resumed_only, hcnt, hz]
  · rw [Slice.resumed_only]
  · rw [Slice.resumed_only]
    exact hpend (by rw [hz]; exact h.noPend)
  · have hv := Slice.welled_lands (o := { o with lanes := o.lanes.map (c.wellLane o descs) }) (a := c.wellLane o descs a) z hkind
      (by simpa [List.map_map, Function.comp_def, Ctx.wellLane] using hnd) (List.mem_map_of_mem ha) hl (by rw [hz]; exact hlive)
    have hsmall : leNat (leBytes sz.bytes (c.wellElement (c.wellRead descs a).1 (c.wellRead descs a).2.1).1) < 2 ^ 32 := by
      rw [leNat_leBytes]
      exact (Nat.mod_lt _ (by positivity)).trans_le (Nat.pow_le_pow_right (n := 256) (by decide) hsz)
    refine (congrArg (BitVec.setWidth 64) hv).trans (BitVec.eq_of_toNat_eq ?_)
    have hbytes : (c.wellLane o descs a).got.getD []
        = leBytes sz.bytes (c.wellElement (c.wellRead descs a).1 (c.wellRead descs a).2.1).1 := by
      rw [show sz.bytes = o.kind.size by rw [hkind]; rfl]
      rfl
    rw [hbytes, BitVec.toNat_setWidth, BitVec.toNat_ofNat, Nat.mod_eq_of_lt hsmall]
    rfl

/-- Settles O31: a WLD becomes one operation of its slice, and delivers the elements of its members' scratchpads. -/
theorem wellReads : Obligations.WellReads := ⟨wellLoad, wellElements⟩

end Sys2Proof.Machine

/-! Proofs: storage errors and their repair, the thermal throttle and the thermal shutdown (R191, R202, R203, R435–R437). -/

namespace Sys2Proof.Machine

variable {s : State} {c : Ctx}

/-! ### Storage errors (R191, R203, R437) -/

theorem Table.mem_of_find {α : Type} {m : Table α} {k : Nat} {v : α} (h : Table.find m k = some v) : (k, v) ∈ m := by
  induction m with
  | nil => cases h
  | cons e m ih =>
    obtain ⟨i, w⟩ := e
    rw [Table.find] at h
    split at h
    · next hk =>
      cases h
      rw [hk]
      exact List.mem_cons_self
    · exact List.mem_cons_of_mem _ (ih h)

/-- A lifetime counter rises by one, up to all ones. -/
theorem State.counters_bump (s : State) (i : Nat) :
    (Table.getD (s.bump i).dev.counters i 0).toNat = min (2 ^ 64 - 1) ((Table.getD s.dev.counters i 0).toNat + 1) := by
  rw [State.bump, State.modDev_dev]
  dsimp only
  rw [Table.getD_put_self]
  generalize Table.getD s.dev.counters i 0 = x
  have hx := x.isLt
  split
  · omega
  · rw [BitVec.toNat_add, show (1 : BitVec 64).toNat = 1 from rfl]
    omega

/-- An error is counted in the one counter that it names. -/
theorem counters_noteError {u : State} (hd : u.dev = s.dev) (i : Nat) (x : Structure) :
    (Table.getD ((u.bump i).noteError x).dev.counters i 0).toNat = min (2 ^ 64 - 1) ((Table.getD s.dev.counters i 0).toNat + 1) := by
  rw [← hd]
  exact u.counters_bump i

theorem State.noteError_core (s : State) (i : Nat) (x : Structure) (n : Nat) : ((s.bump i).noteError x).core n = s.core n := by
  simp [State.noteError, State.bump, State.core]

/-- Steps that each leave a state as it is. -/
theorem foldl_fixed_of_mem {α β : Type} {f : α → β → α} {a : α} (l : List β) (h : ∀ b ∈ l, f a b = a) : l.foldl f a = a := by
  induction l with
  | nil => rfl
  | cons b l ih => rw [List.foldl_cons, h b List.mem_cons_self, ih fun d hd => h d (List.mem_cons_of_mem _ hd)]

section

variable (h : ∀ e ∈ s.slices, ∀ o ∈ e.2.ops, o.isUnbound = false)
include h

/-- With no load still to be bound, an error finds none to bind first. -/
theorem State.beforeError_bound (site : ErrorSite) (corrected : Bool) : s.beforeError site corrected = s := by
  have hbind (e : Nat × Slice) (c : Ctx) (hc : s.ctx e.1 = some c) (which : MemOp → Bool) : c.bindThose which = s := by
    obtain ⟨hs, -, hx, -⟩ := State.ctx_eq hc
    rw [Ctx.bindThose, hs]
    refine foldl_fixed_of_mem _ fun o ho => ?_
    have hbound : o.isUnbound = false := h _ (Table.mem_of_find hx) o ho
    split
    · rfl
    · exact if_neg (by simp [hbound])
  unfold State.beforeError State.bindBefore
  split
  · rfl
  · refine foldl_fixed_of_mem _ fun e _ => ?_
    cases hc : s.ctx e.1 with
    | none => rfl
    | some c => simp [hbind e c hc]

theorem State.awaited_bound (hit : Ctx → LaneAcc → Nat → Bool) : s.awaited hit = false := by
  rw [State.awaited, List.any_eq_false]
  intro e he
  cases hc : s.ctx e.1 with
  | none => simp
  | some c =>
    simp only [Bool.not_eq_true, List.any_eq_false]
    intro o ho
    have hbound := h e he o ho
    cases hld : o.kind.isLd with
    | false => simp
    | true =>
      have hall : o.lanes.all (fun a => a.got.isSome) = true := by
        simp only [MemOp.isUnbound, hld, Bool.true_and, Bool.not_eq_false', MemOp.bound, Bool.and_eq_true] at hbound
        exact hbound.2
      simp only [Bool.true_and, Bool.not_eq_true, List.any_eq_false]
      intro a ha
      have hgot := List.all_eq_true.mp hall a ha
      cases hg : a.got <;> simp_all

end

theorem storageErrors : Claims.StorageErrors := by
  intro s corrected h counted
  have hexec (site : ErrorSite) : exec (.memoryError site corrected) s = execMemoryError site corrected s := rfl
  refine ⟨fun k n c hc hn hcore => ?_, fun u w b hb hw hcore => ?_, fun core row col hcore hrow hcol => ?_, fun a k row => ?_⟩
  all_goals
    rw [hexec, execMemoryError]
    simp only [State.beforeError_bound h, State.awaited_bound h, Bool.and_false, Bool.false_eq_true, if_false]
  · obtain ⟨-, -, hx, -⟩ := State.ctx_eq hc
    simp only [hc, Nat.not_le.mpr hn, hcore, if_false, if_true]
    refine ⟨_, rfl, ?_, ?_, ?_⟩
    · cases corrected <;> simp [State.noteError, State.bump]
    · cases corrected <;> exact counters_noteError (by simp) _ _
    · cases corrected <;> simp [State.noteError, State.bump, State.modSlice_find, hx]
  · simp only [hb, Nat.not_le.mpr hw, hcore, if_false, if_true]
    refine ⟨_, rfl, ?_, ?_, ?_⟩
    · cases corrected <;> simp [State.noteError, State.bump]
    · cases corrected <;> exact counters_noteError (by simp) _ _
    · cases corrected <;> simp [State.noteError, State.bump, State.modBlock_find, hb]
  · simp only [Nat.not_le.mpr hcore, Nat.not_le.mpr hrow, Nat.not_le.mpr hcol, hcore, or_self, if_false, if_true]
    refine ⟨_, rfl, ?_, ?_, ?_⟩
    · cases corrected <;> simp [State.noteError, State.bump]
    · cases corrected <;> exact counters_noteError (by simp) _ _
    · rintro rfl
      simp only [State.noteError_core, Bool.false_eq_true, if_false, State.modCore_core_self]
      exact Sparse.get_set_self ..
  · refine ⟨_, rfl, ?_, ?_, fun l => ?_⟩
    · cases corrected <;> simp [State.noteError, State.bump]
    · cases corrected <;> exact counters_noteError (by simp) _ _
    · cases corrected <;> simp [State.noteError, State.bump, Sparse.get_set, lineOf]

/-! ### Repair (R436, R437) -/

theorem sameStructure_self (x : Structure) : sameStructure x x = true := by
  unfold sameStructure
  split <;> simp

theorem selfTest_untested {x : Structure} (h : ∀ y ∈ s.dev.tests, sameStructure y x = false) (fails : Bool) :
    exec (.selfTest x fails) s = .next s := by
  have hany : s.dev.tests.any (fun y => sameStructure y x) = false := by
    rw [List.any_eq_false]
    intro y hy
    simp [h y hy]
  change execSelfTest x fails s = _
  rw [execSelfTest, if_neg (by simp [hany])]

theorem any_sameStructure {x : Structure} {ys : List Structure} (h : x ∈ ys) : ys.any (fun y => sameStructure y x) = true :=
  List.any_eq_true.mpr ⟨x, h, sameStructure_self x⟩

/-- A structure with one error that passes its test is cleared. -/
theorem selfTest_passed {x : Structure} (hx : x ∈ s.dev.tests)
    (hone : (s.dev.errors.filter (fun e => sameStructure e.1 x)).length = 1) :
    exec (.selfTest x false) s = .next (s.modDev (fun d => { d with tests := d.tests.filter (fun y => !sameStructure y x) })) := by
  have hagain (p : Nat → Bool) : ¬ 2 ≤ (((s.dev.errors.filter (fun e => sameStructure e.1 x)).map (fun e => e.2)).filter p).length := by
    have hle := List.length_filter_le p ((s.dev.errors.filter (fun e => sameStructure e.1 x)).map (fun e => e.2))
    rw [List.length_map, hone] at hle
    omega
  change execSelfTest x false s = _
  rw [execSelfTest, if_pos (any_sameStructure hx)]
  simp only [hagain, decide_false, Bool.or_self, Bool.false_eq_true, if_false]

theorem countOf_cons_self (g : Structure) (n : Nat) (l : List (Structure × Nat)) : countOf g ((g, n) :: l) = n := by
  simp [countOf]

theorem selfTest_failed {x : Structure} (hx : x ∈ s.dev.tests)
    (hspare : countOf (spareGroup x) s.dev.spared < spares (spareGroup x)) :
    ∃ t, exec (.selfTest x true) s = .next t ∧ countOf (spareGroup x) t.dev.spared = countOf (spareGroup x) s.dev.spared + 1
      ∧ x ∉ t.dev.tests ∧ t.cores = s.cores ∧ t.mem = s.mem := by
  change ∃ t, execSelfTest x true s = _ ∧ _
  rw [execSelfTest, if_pos (any_sameStructure hx)]
  simp only [Bool.true_or, if_true, State.spare, State.modDev_dev, hspare]
  refine ⟨_, rfl, ?_, ?_, ?_, ?_⟩
  · simp only [State.modDev_dev, State.bump, countOf_cons_self]
  · change x ∉ s.dev.tests.filter (fun y => !sameStructure y x)
    simp [sameStructure_self]
  · simp [State.bump]
  · simp [State.bump]

theorem maintenance : Claims.Maintenance := by
  refine ⟨fun _ _ _ => rfl, fun s link lane => ⟨_, rfl, rfl, s.counters_bump _⟩, fun s => ⟨fun h => ?_, fun h => ?_⟩,
    fun s x => ⟨selfTest_untested, selfTest_passed, selfTest_failed⟩⟩
  · exact if_pos h
  · exact ⟨_, if_neg h, rfl, rfl, rfl⟩

/-! ### Power (R435) -/

/-- CAP of a GOVCFG value is replaced, and no other bit. -/
theorem setCap_eq (g : Word64) (cap : BitVec 9) :
    BitVec.ofNat 64 (setBits g.toNat 16 9 cap.toNat) = (g &&& ~~~(0x1FF#64 <<< 16)) ||| (cap.setWidth 64 <<< 16) := by
  refine BitVec.eq_of_getLsbD_eq fun i hi => ?_
  rw [BitVec.getLsbD_ofNat, testBit_setBits, show 0x1FF#64 = (BitVec.allOnes 9).setWidth 64 from rfl]
  simp only [BitVec.getLsbD_or, BitVec.getLsbD_and, BitVec.getLsbD_not, BitVec.getLsbD_shiftLeft, BitVec.getLsbD_setWidth,
    BitVec.getLsbD_allOnes]
  by_cases hlo : 16 ≤ i
  · by_cases hhi : i < 25
    · simp [hi, hlo, hhi, Nat.not_lt.mpr hlo, show i - 16 < 9 by omega, show i - 16 < 64 by omega, BitVec.getLsbD]
    · have hcap : cap.toNat.testBit (i - 16) = false :=
        Nat.testBit_lt_two_pow (cap.isLt.trans_le (Nat.pow_le_pow_right (by decide) (by omega)))
      simp [hi, hhi, show ¬ i - 16 < 9 by omega, BitVec.getLsbD, hcap]
  · simp [hi, hlo, show i < 16 by omega, BitVec.getLsbD]

theorem thermalThrottle_eq {core : Nat} {cap : BitVec 9} (hcore : core < 160) (hlo : 16 ≤ cap.toNat)
    (hhi : cap.toNat < govCap (s.core core).govNext) :
    ∃ h, exec (.thermalThrottle core cap) s = .next (s.modCore core (fun k => { k.govern s.now h with
      govNext := (k.govNext &&& ~~~(0x1FF#64 <<< 16)) ||| (cap.setWidth 64 <<< 16) })) := by
  refine ⟨s.pick 90001 (256 - (s.core core).active + 1), ?_⟩
  change execThermalThrottle core cap s = _
  rw [execThermalThrottle, if_pos ⟨hcore, hlo, hhi⟩, State.putGovcfg, setCap_eq]
  rfl

theorem find_stopGrids (gs : Table Grid) (g : Nat) : Table.find (stopGrids gs) g = (Table.find gs g).map (fun x =>
    if x.state = .dispatching ∨ x.state = .draining then { x with state := .killing, status := 3, undisp := [] } else x) :=
  Table.find_map_if gs (fun x => x.state = .dispatching ∨ x.state = .draining)
    (fun x => { x with state := .killing, status := 3, undisp := [] }) g

theorem stopGrids_stopped (gs : Table Grid) : ∀ e ∈ stopGrids gs, e.2.state ≠ .dispatching ∧ e.2.state ≠ .draining := by
  intro e he
  obtain ⟨d, -, rfl⟩ := List.mem_map.mp he
  split
  · exact ⟨by simp, by simp⟩
  · next h => exact not_or.mp h

theorem stopBlocks_killed (bs : Table Block) : ∀ e ∈ stopBlocks bs, e.2.killed = true := by
  intro e he
  obtain ⟨d, -, rfl⟩ := List.mem_map.mp he
  rfl

theorem power : Claims.Power := by
  refine ⟨fun s core cap => thermalThrottle_eq, fun s =>
    ⟨_, rfl, rfl, rfl, rfl, fun u b hb => ?_, fun g x hg => ⟨?_, fun v i hi => ?_⟩⟩⟩
  · exact stopBlocks_killed _ _ (Table.mem_of_find hb)
  · exact (find_stopGrids s.grids g).trans (by rw [hg]; rfl)
  · change (Table.getD (s.chips.map _) v Chip.reset).committed = some i at hi
    rw [Table.getD, Table.find_map_record s.chips (fun _ c => { c with committed := c.committed.map (fun i =>
        { i with grids := stopGrids i.grids, blocks := stopBlocks i.blocks }) })] at hi
    cases hc : Table.find s.chips v with
    | none =>
      rw [hc] at hi
      cases hi
    | some c =>
      rw [hc] at hi
      obtain ⟨j, -, rfl⟩ := Option.map_eq_some_iff.mp hi
      exact ⟨stopBlocks_killed _, stopGrids_stopped _⟩

/-- Settles O60: an error with no load left to bind is counted and poisons its place; maintenance by its own rules; the thermal shutdown
stops the grids and blocks of the state and of each committed image alike. -/
theorem errorsAndPower : Obligations.ErrorsAndPower := ⟨storageErrors, maintenance, power⟩

end Sys2Proof.Machine

/-! Proofs: what the host reads and writes (R203, R366, R377, R396, R399, R401, R430, R437). -/

namespace Sys2Proof.Machine

variable {s : State}

/-! ### Event logs (R399, R401) -/

/-- A log that has changed, with no event waiting for it. -/
theorem State.flushFn_modLog (fn : Fn) (h : ∀ f, fn = .vf f → (s.chip f.val).pending = []) (g : EventLog → EventLog) :
    let t := (s.modLog fn g).flushFn fn
    t.logOf fn = g (s.logOf fn) ∧ t.mem = s.mem ∧ t.slices = s.slices := by
  cases fn with
  | pf => exact ⟨rfl, rfl, rfl⟩
  | vf f =>
    have hpend : ((s.modChip f.val (fun c => { c with log := g c.log })).chip f.val).pending = [] := by
      rw [State.modChip_chip_self]
      exact h f rfl
    simp only [State.flushFn, State.flushPending, State.modLog, hpend, List.foldl_nil]
    split <;> simp [State.logOf]

theorem eventLogWrites : Claims.EventLogWrites := by
  intro s fn v hexp hpend l size becomes
  have hwrite (off : Nat) (l' : EventLog) (hl : l.write off v = l') : becomes off l' := by
    refine ⟨_, ?_, hl ▸ State.flushFn_modLog fn hpend (fun l => l.write off v)⟩
    change execEventLogControlWrite fn off v s = _
    rw [execEventLogControlWrite, if_pos hexp]
  have hbit : fld v 0 0 = 0 ↔ v.getLsbD 0 = false := by
    simp [fld, bits, BitVec.getLsbD, Nat.testBit_eq_decide_div_mod_eq]
  have hsize : (if l.en then l else { l with size := BitVec.ofNat 5 (fld v 12 8) }) = { l with size := size } := by
    have hfld : BitVec.ofNat 5 (fld v 12 8) = v.extractLsb' 8 5 := by
      rw [fld, bits_eq_extract, BitVec.ofNat_toNat, BitVec.setWidth_eq]
    simp only [size, hfld]
    split <;> rfl
  refine ⟨hwrite 24 _ ?_, hwrite 16 _ (by rw [EventLog.write, if_neg (by decide), if_pos rfl]), fun hv => hwrite 0 _ ?_,
    fun hv hlo hhi => hwrite 0 _ ?_⟩
  · rw [EventLog.write, if_neg (by decide), if_neg (by decide), if_pos rfl, fld, bits_eq_extract, BitVec.ofNat_toNat, BitVec.setWidth_eq]
  · rw [EventLog.write, if_pos rfl, hsize]
    simp only [hbit.mpr hv, if_true]
  · rw [EventLog.write, if_pos rfl, hsize]
    have hne : ¬ fld v 0 0 = 0 := by simp [hbit, hv]
    simp only [hne, if_false]
    rw [if_pos ⟨hlo, hhi⟩]

/-! ### BAR0 (R377, R430, R432, R437) -/

theorem registerWrite_exposed {fn : Fn} (h : s.exposed fn = true) (off : Nat) (v : BitVec 64) :
    exec (.registerWrite fn off v) s = .next (s.writeReg fn off v) := by
  change execRegisterWrite fn off v s = _
  rw [execRegisterWrite, if_pos h]

/-- A register of a virtual function's queue block. -/
theorem State.writeReg_queue (f q : Fin 64) (v : BitVec 64) :
    s.writeReg (.vf f) (0x1018 + 32 * q.val) v = s.doorbell f.val q.val (v.setWidth 32) := by
  have hq := q.isLt
  have hw : BitVec.ofNat 32 v.toNat = v.setWidth 32 := rfl
  have hqueue : (⟨(0x1018 + 32 * q.val - 0x1000) / 32 % 64, Nat.mod_lt _ (by decide)⟩ : Fin 64) = q := by
    apply Fin.ext
    dsimp only
    omega
  rw [State.writeReg, if_neg (by omega), if_neg (by omega), if_neg (by omega), if_neg (by omega)]
  rw [if_pos (by omega), State.writeQueueReg, hqueue, if_neg (by omega), if_neg (by omega), if_pos (by omega), hw]

theorem registerWrites : Claims.RegisterWrites := by
  intro s v
  refine ⟨fun hb => ?_, fun hb => ⟨?_, ?_, ?_⟩, fun f q hexp => ?_, fun f off hexp => ?_, fun off hdev hlo hhi => ?_⟩
  · rw [registerWrite_exposed rfl]
    simp [State.writeReg, hb]
  · rw [registerWrite_exposed rfl]
    simp [State.writeReg, hb]
  · rw [registerWrite_exposed rfl]
    simp [State.writeReg, hb]
  · rw [registerWrite_exposed rfl]
    simp [State.writeReg, hb]
  · rw [registerWrite_exposed hexp, State.writeReg_queue]
    change _ = execDoorbell f q (v.setWidth 32) s
    rw [execDoorbell, if_pos hexp]
  · change execRegisterWrite (.vf f) off v s = _
    rw [execRegisterWrite, hexp]
    rfl
  · have hb : s.bootFailed = false := by simp [State.bootFailed, fld, bits_eq_extract, hdev]
    have hloader : s.writeLoader .pf (off - 0x800) v = s := by
      rw [State.writeLoader, State.hasLoader, hb]
      rfl
    rw [registerWrite_exposed rfl, State.writeReg]
    by_cases h8 : off % 8 ≠ 0
    · rw [if_pos h8]
    · rw [if_neg h8, if_neg (by omega), if_neg (by omega), if_pos ⟨hlo, hhi⟩, hloader]

/-! ### Host memory accesses (R203, R366, R396) -/

theorem State.undoHolders_eq_nil {a n : Nat} (h : ∀ v, v < 64 → s.inUndo v a n = false) : s.undoHolders a n = [] :=
  List.filter_eq_nil_iff.mpr fun v hv => by simp [h v (List.mem_range.mp hv)]

theorem hostRead_free {a n : Nat} (hn : 0 < n) (h : ∀ v, v < 64 → s.inUndo v a n = false) (hp : s.linePoisoned a n = false) :
    exec (.hostAccess (.read a n)) s
      = .next (s.modDev (fun d => { d with hostReads := d.hostReads ++ [(a, s.readBytes none a n)] })) := by
  change execHostAccess (.read a n) s = _
  simp [execHostAccess, State.undoHolders_eq_nil h, hp, Nat.pos_iff_ne_zero.mp hn]

theorem hostWrite_free {a : Nat} {bs : List Byte} (h : ∀ v, v < 64 → s.inUndo v a bs.length = false) :
    exec (.hostAccess (.write a bs)) s = .next (s.hostWrite a bs) := by
  change execHostAccess (.write a bs) s = _
  simp [execHostAccess, State.undoHolders_eq_nil h]

/-- An untagged write changes memory and what is known of it alone. -/
theorem State.keepsRun_writePhys_untagged (s : State) (bound : Bool) (a : Nat) (bs : List Byte) :
    s.KeepsRun (s.writePhys none bound a bs) := by
  unfold State.writePhys State.putPhys
  split
  · exact .of_memory _ _ _ _ _
  · exact (State.KeepsRun.foldl (fun t l => t.keepsRun_rekeyLine _ l) _ _).trans (.of_memory _ _ _ _ _)

/-- The pages that a host write would newly map, by function (R396). -/
def State.newPages (s : State) (a : Nat) (bs : List Byte) : List (Nat × List (Nat × Nat × Nat)) :=
  ((List.range 64).map (fun v => (v, ((s.writePhys none true a bs).mapping v).filter (fun x => !(s.mapping v).contains x)))).filter
    (fun e => !e.2.isEmpty)

/-- The pages of some table entries that host memory does not hold. -/
def devicePages (l : List (Nat × Nat × Nat)) : List (Nat × Nat) :=
  (l.map (fun x => x.2)).filter (fun p => !Config.isHostMemory (lineOf p.1))

theorem State.hostWrite_eq (s : State) (a : Nat) (bs : List Byte) : s.hostWrite a bs =
    if (s.newPages a bs).all (fun e => s.pagesFree e.1 (devicePages e.2)) then
      (s.newPages a bs).foldl (fun u e => u.takePages e.1 (devicePages e.2)) (s.writePhys none true a bs)
    else s := rfl

theorem mem_newPages {a v : Nat} {bs : List Byte} (hv : v < 64) {x : Nat × Nat × Nat}
    (hx : x ∈ (s.writePhys none true a bs).mapping v) (hnew : x ∉ s.mapping v) :
    ∃ e ∈ s.newPages a bs, e.1 = v ∧ x ∈ e.2 := by
  have hmem : x ∈ ((s.writePhys none true a bs).mapping v).filter (fun x => !(s.mapping v).contains x) :=
    List.mem_filter.mpr ⟨hx, by simp [hnew]⟩
  exact ⟨_, List.mem_filter.mpr ⟨List.mem_map.mpr ⟨v, List.mem_range.mpr hv, rfl⟩, by simpa using List.ne_nil_of_mem hmem⟩,
    rfl, hmem⟩

/-- A page that may not pass to a function keeps the others from passing with it. -/
theorem State.pagesFree_of_subset {v : Nat} {ps qs : List (Nat × Nat)} (hs : ∀ p ∈ ps, p ∈ qs) (h : s.pagesFree v qs = true) :
    s.pagesFree v ps = true := by
  simp only [State.pagesFree, Bool.and_eq_true, List.all_eq_true, Bool.or_eq_true] at h ⊢
  exact ⟨fun w hw => (h.1 w hw).imp_right fun hx x hm p hp => hx x hm p (hs p hp), fun b hb p hp => h.2 b hb p (hs p hp)⟩

theorem hostWrite_refused {a v : Nat} {bs : List Byte} {x : Nat × Nat × Nat} (hv : v < 64)
    (hx : x ∈ (s.writePhys none true a bs).mapping v) (hnew : x ∉ s.mapping v) (hhost : Config.isHostMemory (x.2.1 / 128) = false)
    (hfree : s.pagesFree v [x.2] = false) : s.hostWrite a bs = s := by
  obtain ⟨e, he, rfl, hxe⟩ := mem_newPages hv hx hnew
  have hpage : x.2 ∈ devicePages e.2 := List.mem_filter.mpr ⟨List.mem_map_of_mem hxe, by simp [lineOf, hhost]⟩
  rw [State.hostWrite_eq, if_neg]
  intro hall
  have hone := State.pagesFree_of_subset (ps := [x.2]) (by simpa using hpage) (List.all_eq_true.mp hall e he)
  rw [hfree] at hone
  cases hone

theorem State.foldl_modChip_only (vs : List Nat) (g : Chip → Chip) (s : State) :
    (vs.foldl (fun t v => t.modChip v g) s).mem = s.mem ∧ (vs.foldl (fun t v => t.modChip v g) s).dev = s.dev := by
  induction vs generalizing s with
  | nil => exact ⟨rfl, rfl⟩
  | cons v vs ih => exact ih _

theorem State.outsideWait_of_mem {v : Nat} (vs : List Nat) (s : State) (h : v ∈ vs ∨ (s.chip v).outsideWait = true) :
    ((vs.foldl (fun t v => t.modChip v (fun c => { c with outsideWait := true })) s).chip v).outsideWait = true := by
  induction vs generalizing s with
  | nil => exact h.resolve_left List.not_mem_nil
  | cons w vs ih =>
    refine ih _ ?_
    by_cases hw : v = w
    · exact .inr (by rw [hw, State.modChip_chip_self])
    · rw [State.modChip_chip_other _ _ hw]
      exact h.imp_left fun hv => (List.mem_cons.mp hv).resolve_left hw

theorem hostAccesses : Claims.HostAccesses := by
  intro s a n bs
  refine ⟨hostRead_free, fun _ hu hmap => ?_, fun v x hv hu hx hnew hhost hfree => ?_, fun v hn hv hu => ?_⟩
  · have hnone : s.newPages a bs = [] := by
      refine List.filter_eq_nil_iff.mpr fun e he => ?_
      obtain ⟨v, hv, rfl⟩ := List.mem_map.mp he
      have hold : ((s.writePhys none true a bs).mapping v).filter (fun x => !(s.mapping v).contains x) = [] :=
        List.filter_eq_nil_iff.mpr fun x hx => by simp [hmap v (List.mem_range.mp hv) x hx]
      rw [hold]
      exact Bool.false_ne_true
    have hwrite : s.hostWrite a bs = s.writePhys none true a bs := by
      rw [State.hostWrite_eq, hnone]
      rfl
    have hrun := s.keepsRun_writePhys_untagged true a bs
    exact ⟨_, (hostWrite_free hu).trans (congrArg _ hwrite), hrun.slices, hrun.blocks, fun p => State.readByte_writePhys_untagged ..⟩
  · rw [hostWrite_free hu, hostWrite_refused hv hx hnew hhost hfree]
  · have hin : v ∈ s.undoHolders a n := List.mem_filter.mpr ⟨List.mem_range.mpr hv, hu⟩
    obtain ⟨hmem, hdev⟩ := State.foldl_modChip_only (s.undoHolders a n) (fun c => { c with outsideWait := true }) s
    refine ⟨_, ?_, State.outsideWait_of_mem (s.undoHolders a n) s (.inl hin), hmem, congrArg Dev.hostReads hdev⟩
    change execHostAccess (.read a n) s = _
    simp only [execHostAccess, if_neg (Nat.pos_iff_ne_zero.mp hn)]
    rw [if_pos (by simpa using List.ne_nil_of_mem hin)]

/-- Settles O55: each register write is its row of the table, and a host access that no undo log holds is an untagged read or write. -/
theorem hostRequests : Obligations.HostRequests := ⟨eventLogWrites, registerWrites, hostAccesses⟩

end Sys2Proof.Machine

/-! Proofs: the pieces of an engine's range, and the steps of copies, transposes and multicasts (R207, R208, R272, R276, R283, R296–R299). -/

namespace Sys2Proof.Machine

variable {s t u : State} {core : Nat} {copy : Bool} {cmd : Cmd} {rest : List Cmd} {b : Block}

/-! ### The pieces of a range -/

theorem cutPages_zero (a : Nat) : cutPages a 0 = [] := rfl

/-- A range in one page is one piece. -/
theorem cutPages_one {a n : Nat} (hn : 0 < n) (h : a % 65536 + n ≤ 65536) : cutPages a n = [(a, n)] := by
  have one : (a + n - 1) / 65536 + 1 - a / 65536 = 1 := by omega
  have lo : max a (a / 65536 * 65536) = a := by omega
  have hi : min (a + n) ((a / 65536 + 1) * 65536) - a = n := by omega
  rw [cutPages, if_neg (by omega), one]
  simp [lo, hi]

/-- A range that goes on beyond its first page is the rest of that page and what follows. -/
theorem cutPages_cons {a n m : Nat} (hm : a % 65536 + m = 65536) (hn : m < n) : cutPages a n = (a, m) :: cutPages (a + m) (n - m) := by
  have hpage : (a + m) / 65536 = a / 65536 + 1 := by omega
  have hend : a + m + (n - m) = a + n := by omega
  have hcount : (a + n - 1) / 65536 + 1 - a / 65536 = ((a + n - 1) / 65536 + 1 - (a / 65536 + 1)) + 1 := by omega
  have hfirst : max a ((a / 65536 + 0) * 65536) = a ∧ min (a + n) ((a / 65536 + 0 + 1) * 65536) - a = m := by omega
  rw [cutPages, cutPages, if_neg (by omega), if_neg (by omega), hpage, hend, hcount, List.range_succ_eq_map, List.map_cons, List.map_map]
  simp only [hfirst.1, hfirst.2]
  refine congrArg _ (List.map_congr_left fun i _ => ?_)
  have hlo : max a ((a / 65536 + (i + 1)) * 65536) = max (a + m) ((a / 65536 + 1 + i) * 65536) := by omega
  have hhi : (a / 65536 + (i + 1) + 1) * 65536 = (a / 65536 + 1 + i + 1) * 65536 := by ring
  simp only [Function.comp, hlo, hhi]

/-- What holds of ranges in one page, and of a range if it holds of what follows the first page, holds of every range. -/
theorem cutPages_induction {motive : Nat → Nat → List (Nat × Nat) → Prop} (zero : ∀ a, motive a 0 [])
    (one : ∀ a n, 0 < n → motive a n [(a, n)])
    (cons : ∀ a n m, 0 < m → m < n → motive (a + m) (n - m) (cutPages (a + m) (n - m)) →
      motive a n ((a, m) :: cutPages (a + m) (n - m))) (a n : Nat) : motive a n (cutPages a n) := by
  induction n using Nat.strong_induction_on generalizing a with
  | _ n ih =>
    rcases Nat.eq_zero_or_pos n with rfl | hn
    · exact zero a
    · by_cases h : a % 65536 + n ≤ 65536
      · rw [cutPages_one hn h]
        exact one a n hn
      · have hm : a % 65536 + (65536 - a % 65536) = 65536 := by omega
        rw [cutPages_cons hm (by omega)]
        exact cons a n _ (by omega) (by omega) (ih _ (by omega) _)

theorem sum_cutPages (a n : Nat) : ((cutPages a n).map (fun p => p.2)).sum = n := by
  refine cutPages_induction (motive := fun _ n ps => (ps.map (fun p => p.2)).sum = n) (fun _ => rfl) (fun _ _ _ => by simp)
    (fun a n m _ hn ih => ?_) a n
  rw [List.map_cons, List.sum_cons, ih]
  omega

theorem mem_cutPages {a n : Nat} {p : Nat × Nat} (h : p ∈ cutPages a n) : a ≤ p.1 ∧ p.1 < a + n := by
  refine cutPages_induction (motive := fun a n ps => ∀ p ∈ ps, a ≤ p.1 ∧ p.1 < a + n) (fun _ _ h => by cases h) (fun a n hn p hp => ?_)
    (fun a n m hm hn ih p hp => ?_) a n p h
  · rw [List.mem_singleton.mp hp]
    exact ⟨le_refl _, by dsimp only; omega⟩
  · rcases List.mem_cons.mp hp with rfl | hp
    · exact ⟨le_refl _, by dsimp only; omega⟩
    · have := ih p hp
      omega

/-- A piece of a range in the scratchpad. -/
def scratchPiece (p : Nat × Nat) : Piece := ⟨p.1, p.2, .scratch (p.1 - 0x7FFFFF0000000000), []⟩

theorem State.resolvePieces_scratch (s : State) (v core : Nat) (want : Want) (site : Nat) (ps : List (Nat × Nat))
    (h : ∀ p ∈ ps, 0x7FFFFF0000000000 ≤ p.1 ∧ p.1 < 0x7FFFFF0100000000) :
    s.resolvePieces v core want site ps = .ok (ps.map scratchPiece) := by
  induction ps generalizing site with
  | nil => rfl
  | cons p ps ih =>
    obtain ⟨hl, hh⟩ := h p List.mem_cons_self
    rw [State.resolvePieces, State.resolvePiece, regionOf_scratch hl hh]
    simp only [ih (site + 512) fun q hq => h q (List.mem_cons_of_mem _ hq)]
    rfl

theorem State.resolveRange_scratch (s : State) (v core site : Nat) (want : Want) {a n : Nat} (hl : 0x7FFFFF0000000000 ≤ a)
    (hh : a + n ≤ 0x7FFFFF0100000000) : s.resolveRange v core site want a n = .ok ((cutPages a n).map scratchPiece) :=
  s.resolvePieces_scratch v core want site _ fun p hp => by
    have := mem_cutPages hp
    omega

/-- A range in one page of memory. -/
theorem State.resolveRange_virt {v site : Nat} {want : Want} {a n : Nat} {x : Xlat} (hn : 0 < n) (hr : regionOf a = .virt)
    (hp : a % 65536 + n ≤ 65536) (hx : s.translate v (s.tlbOf core) site a want = .ok x) :
    s.resolveRange v core site want a n = .ok [⟨a, n, .phys v x.pa false, x.used⟩] := by
  rw [State.resolveRange, cutPages_one hn hp]
  simp only [State.resolvePieces, State.resolvePiece, hr, hx]

/-! ### What an engine reads (R276, R283) -/

theorem State.readPiece_scratch {r : Reader} {a n : Nat} (hn : 0 < n)
    (h : ∀ g, (a - 0x7FFFFF0000000000) / 16 ≤ g → g ≤ (a - 0x7FFFFF0000000000 + n - 1) / 16 → Sparse.get false b.poison g = false) :
    s.readPiece r b (scratchPiece (a, n)) = .ok ((List.range n).map (fun i => Sparse.get 0 b.scratch (a - 0x7FFFFF0000000000 + i))) := by
  refine if_neg ?_
  rw [Bool.not_eq_true, List.any_eq_false]
  intro i hi
  have hi := List.mem_range.mp hi
  simp only [scratchPiece] at hi
  rw [Block.isPoisoned, Nat.mul_div_cancel _ (by decide), h _ (by omega) (by omega)]
  exact Bool.false_ne_true

/-- A range of the scratchpad without a poisoned word reads as its bytes. -/
theorem State.readPieces_scratch (s : State) (r : Reader) (b : Block) (a n : Nat) (hl : 0x7FFFFF0000000000 ≤ a)
    (h : ∀ g, (a - 0x7FFFFF0000000000) / 16 ≤ g → g ≤ (a - 0x7FFFFF0000000000 + n - 1) / 16 → Sparse.get false b.poison g = false) :
    s.readPieces r b ((cutPages a n).map scratchPiece)
      = .ok ((List.range n).map (fun i => Sparse.get 0 b.scratch (a - 0x7FFFFF0000000000 + i))) := by
  refine cutPages_induction (motive := fun a n ps => 0x7FFFFF0000000000 ≤ a → (∀ g, (a - 0x7FFFFF0000000000) / 16 ≤ g →
      g ≤ (a - 0x7FFFFF0000000000 + n - 1) / 16 → Sparse.get false b.poison g = false) →
    s.readPieces r b (ps.map scratchPiece) = .ok ((List.range n).map (fun i => Sparse.get 0 b.scratch (a - 0x7FFFFF0000000000 + i))))
    (fun _ _ _ => by simp only [List.map_nil, State.readPieces, List.range_zero]) (fun a n hn _ h => ?_)
    (fun a n m hm hn ih hl h => ?_) a n hl h
  · simp only [List.map_cons, List.map_nil, State.readPieces, State.readPiece_scratch hn h, List.append_nil]
  · have hrest := ih (by omega) fun g hlo hhi =>
      h g (le_trans (Nat.div_le_div_right (by omega)) hlo) (hhi.trans (Nat.div_le_div_right (by omega)))
    have hsplit : List.range n = List.range m ++ (List.range (n - m)).map (fun i => m + i) := by
      rw [← List.range_add, Nat.add_sub_cancel' (Nat.le_of_lt hn)]
    have hoff (i : Nat) : a + m - 0x7FFFFF0000000000 + i = a - 0x7FFFFF0000000000 + (m + i) := by omega
    simp only [List.map_cons, State.readPieces, State.readPiece_scratch hm fun g hlo hhi => h g hlo (by omega), hrest, hsplit,
      List.map_append, List.map_map, Function.comp_def, hoff]

theorem State.engRead_scratch (s : State) (r : Reader) (v core : Nat) (b : Block) (site a n : Nat) (hl : 0x7FFFFF0000000000 ≤ a)
    (hh : a + n ≤ 0x7FFFFF0100000000)
    (h : ∀ g, (a - 0x7FFFFF0000000000) / 16 ≤ g → g ≤ (a - 0x7FFFFF0000000000 + n - 1) / 16 → Sparse.get false b.poison g = false) :
    s.engRead r v core b site a n = .ok ((List.range n).map (fun i => Sparse.get 0 b.scratch (a - 0x7FFFFF0000000000 + i))) := by
  simp only [State.engRead, s.resolveRange_scratch v core site .read hl hh, s.readPieces_scratch r b a n hl h]

theorem engineReads : Claims.EngineReads := by
  intro s r b site a n hn
  refine ⟨fun hl hh h => s.engRead_scratch r b.vf b.core b site a n hl hh h, fun x hr hp hx hclean hu => ?_⟩
  simp only [State.engRead, State.resolveRange_virt hn hr hp hx, State.readPieces, State.readPiece, hclean, State.seen_current _ _ _ _ hu,
    Bool.false_eq_true, if_false, List.append_nil]

theorem State.length_readPiece {r : Reader} {p : Piece} {bs : List Byte} (h : s.readPiece r b p = .ok bs) : bs.length = p.len := by
  unfold State.readPiece at h
  split at h
  · split at h
    · cases h
    · cases h
      simp
  · split at h
    · cases h
    · cases h
      exact State.length_readBytes ..
  · cases h
    simp

theorem State.length_readPieces {r : Reader} {ps : List Piece} {bs : List Byte} (h : s.readPieces r b ps = .ok bs) :
    bs.length = (ps.map (fun p => p.len)).sum := by
  induction ps generalizing bs with
  | nil =>
    cases h
    rfl
  | cons p ps ih =>
    rw [State.readPieces] at h
    split at h
    · cases h
    · next l hl =>
      split at h
      · cases h
      · next l' hl' =>
        cases h
        rw [List.length_append, State.length_readPiece hl, ih hl', List.map_cons, List.sum_cons]

theorem State.len_resolvePiece {v site : Nat} {want : Want} {p : Nat × Nat} {x : Piece} (h : s.resolvePiece v core site want p = .ok x) :
    x.len = p.2 := by
  unfold State.resolvePiece at h
  dsimp only at h
  repeat' split at h
  all_goals cases h <;> rfl

theorem State.lens_resolvePieces {v site : Nat} {want : Want} {ps : List (Nat × Nat)} {xs : List Piece}
    (h : s.resolvePieces v core want site ps = .ok xs) : xs.map (fun x => x.len) = ps.map (fun p => p.2) := by
  induction ps generalizing site xs with
  | nil =>
    cases h
    rfl
  | cons p ps ih =>
    rw [State.resolvePieces] at h
    split at h
    · cases h
    · next x hx =>
      split at h
      · cases h
      · next l hl =>
        cases h
        rw [List.map_cons, State.len_resolvePiece hx, ih hl, List.map_cons]

/-- An engine reads as many bytes as it asks for. -/
theorem State.length_engRead {r : Reader} {v site a n : Nat} {bs : List Byte} (h : s.engRead r v core b site a n = .ok bs) :
    bs.length = n := by
  unfold State.engRead at h
  split at h
  · cases h
  · next ps hps => rw [State.length_readPieces h, State.lens_resolvePieces hps, sum_cutPages]

/-! ### What an engine writes -/

/-- Rows one behind the other are one row. -/
theorem storedOver_join (o : Nat) (l l' : List Byte) (x : Nat) (v : Byte) :
    storedOver [(o, l), (o + l.length, l')] x v = storedOver [(o, l ++ l')] x v := by
  have hone := storedOver_append [(o, l)] [(o + l.length, l')] x v
  rw [show [(o, l), (o + l.length, l')] = [(o, l)] ++ [(o + l.length, l')] from rfl, hone]
  simp only [storedOver_one, List.length_append]
  by_cases h : o ≤ x ∧ x < o + l.length
  · rw [if_neg (by omega), if_pos h, if_pos (by omega), List.getD_append _ _ _ _ (by omega)]
  · rw [if_neg h]
    by_cases h' : o + l.length ≤ x ∧ x < o + l.length + l'.length
    · rw [if_pos h', if_pos (by omega), List.getD_append_right _ _ _ _ (by omega)]
      congr 1
      omega
    · rw [if_neg h', if_neg (by omega)]

/-- Whether a row of bytes touches a granule. -/
def rowTouches (g : Nat) (r : Nat × List Byte) : Bool := decide (0 < r.2.length ∧ r.1 / 16 ≤ g ∧ g ≤ (r.1 + r.2.length - 1) / 16)

theorem rowTouches_join (g o : Nat) (l l' : List Byte) :
    (rowTouches g (o, l) || rowTouches g (o + l.length, l')) = rowTouches g (o, l ++ l') := by
  rw [Bool.eq_iff_iff]
  simp only [rowTouches, Bool.or_eq_true, decide_eq_true_eq, List.length_append]
  omega

theorem State.rowsReceived_join {v o : Nat} {l l' : List Byte} (h : s.rowsReceived t v [(o, l), (o + l.length, l')]) :
    s.rowsReceived t v [(o, l ++ l')] := by
  intro b hb
  obtain ⟨y, hy, ho, hg⟩ := h b hb
  refine ⟨y, hy, fun x => (ho x).trans (storedOver_join ..), fun g => (hg g).trans (congrArg _ ?_)⟩
  have hjoin := rowTouches_join g o l l'
  simpa [rowTouches, List.any_cons] using hjoin

/-- The pieces of a range in the scratchpad are written as one row. -/
theorem State.writePieces_scratch (s : State) (w : Writer) (uid core a n : Nat) (hl : 0x7FFFFF0000000000 ≤ a) {bs : List Byte}
    (hbs : bs.length = n) :
    let t := s.writePieces w uid core ((cutPages a n).map scratchPiece) bs
    s.rowsReceived t uid [(a - 0x7FFFFF0000000000, bs)] ∧ t.slices = s.slices ∧ t.mem = s.mem ∧ t.cores = s.cores := by
  refine cutPages_induction (motive := fun a n ps => 0x7FFFFF0000000000 ≤ a → ∀ (s : State) (bs : List Byte), bs.length = n →
      s.rowsReceived (s.writePieces w uid core (ps.map scratchPiece) bs) uid [(a - 0x7FFFFF0000000000, bs)]
      ∧ (s.writePieces w uid core (ps.map scratchPiece) bs).slices = s.slices
      ∧ (s.writePieces w uid core (ps.map scratchPiece) bs).mem = s.mem
      ∧ (s.writePieces w uid core (ps.map scratchPiece) bs).cores = s.cores)
    (fun a _ s bs hbs => ?_) (fun a n _ _ s bs hbs => ?_) (fun a n m _ hn ih hl s bs hbs => ?_) a n hl s bs hbs
  · obtain rfl := List.length_eq_zero_iff.mp hbs
    refine ⟨fun b hb => ⟨b, hb, fun x => (storedOver_nil _ x _).symm, fun g => by simp⟩, rfl, rfl, rfl⟩
  · have hrow := s.engStore_rowsReceived w uid (a - 0x7FFFFF0000000000) bs uid
    rw [if_pos rfl] at hrow
    simp only [List.map_cons, List.map_nil, State.writePieces, scratchPiece, List.take_of_length_le hbs.le]
    exact ⟨hrow, s.engStore_frame w uid _ bs⟩
  · have htake : (bs.take m).length = m := List.length_take_of_le (by omega)
    have hrow := s.engStore_rowsReceived w uid (a - 0x7FFFFF0000000000) (bs.take m) uid
    obtain ⟨hs, hm, hc⟩ := s.engStore_frame w uid (a - 0x7FFFFF0000000000) (bs.take m)
    obtain ⟨hrest, hs', hm', hc'⟩ := ih (by omega) (s.engStore w uid (a - 0x7FFFFF0000000000) (bs.take m)) (bs.drop m)
      (by rw [List.length_drop, hbs])
    rw [if_pos rfl] at hrow
    have hboth := State.rowsReceived_append hrow hrest
    rw [show a + m - 0x7FFFFF0000000000 = a - 0x7FFFFF0000000000 + (bs.take m).length by rw [htake]; omega] at hboth
    have hjoined := State.rowsReceived_join hboth
    rw [List.take_append_drop] at hjoined
    exact ⟨hjoined, hs'.trans hs, hm'.trans hm, hc'.trans hc⟩

theorem State.rangePackets_noPod (s : State) (v : Nat) {a n : Nat} (h : noPod a n) : s.rangePackets v a n = s := by
  have hnone : (cutPages a n).filter (fun p => regionOf p.1 == .pod) = [] :=
    List.filter_eq_nil_iff.mpr fun p hp => by simpa using h p hp
  rw [State.rangePackets, hnone]
  rfl

theorem noPod_scratch {a n : Nat} (hl : 0x7FFFFF0000000000 ≤ a) (hh : a + n ≤ 0x7FFFFF0100000000) : noPod a n := by
  intro p hp
  have := mem_cutPages hp
  rw [regionOf_scratch (by omega) (by omega)]
  exact Region.noConfusion

theorem noPod_virt {a n : Nat} (hr : regionOf a = .virt) (hn : 0 < n) (hp : a % 65536 + n ≤ 65536) : noPod a n := by
  intro p h
  rw [cutPages_one hn hp, List.mem_singleton] at h
  rw [h, hr]
  exact Region.noConfusion

/-- What an engine has read changes the clocks of its die alone. -/
theorem State.engApply_only (s : State) (r : Reader) (ws : List Past) : ∃ ds, s.engApply r ws = { s with dies := ds } := by
  have step (t : State) (d : Nat) (w : Past) : ∃ ds, t.applyAt d w = { t with dies := ds } := by
    unfold State.applyAt State.mergeClock State.modDie
    split
    · split
      · exact ⟨t.dies, rfl⟩
      · split
        · exact ⟨_, rfl⟩
        · exact ⟨t.dies, rfl⟩
    · exact ⟨t.dies, rfl⟩
  unfold State.engApply
  induction ws generalizing s with
  | nil => exact ⟨s.dies, rfl⟩
  | cons w ws ih =>
    obtain ⟨ds, hs⟩ := step s r.site.die w
    obtain ⟨ds', h⟩ := ih (s.applyAt r.site.die w)
    exact ⟨ds', by rw [List.foldl_cons, h, hs]⟩

/-! ### A step -/

theorem State.counted_noObject (h : cmd.ab = none) (s : State) (b : Block) (n bytes : Nat) : s.counted cmd b n bytes = s := by
  rw [State.counted, State.signal, h]

/-- The head command has made a step that changed no other core, no slice and no queue. -/
theorem State.stepped_frame {old : Cmd} (hq : (if copy then (t.core core).copyq else (t.core core).cmdq) = old :: rest)
    (hs : t.slices = s.slices) (hc : ∀ n, n ≠ core → t.core n = s.core n) :
    Stepped s (t.stepped core copy cmd) core copy cmd rest :=
  ⟨(State.setHead_queue _ hq).1, hs, fun n hn => (State.setHead_core_other _ _ _ hn).trans (hc n hn)⟩

/-- A step of a copy that can read its source and resolve its destination. -/
theorem AtHead.copyBytes_eq (h : AtHead s core copy cmd rest b) {dst src n : Nat} {bs : List Byte} {ps : List Piece}
    (hread : s.engRead (cmd.reader b) b.vf core b 70000 src n = .ok bs)
    (hdst : s.resolveRange b.vf core 80000 .write dst n = .ok ps) (hsrc : noPod src n) (hpod : noPod dst n) :
    ∃ ds, s.copyBytes core copy cmd b dst src n
      = (({ s with dies := ds } : State).writePieces (cmd.writer b) cmd.block core ps bs).stepped core copy cmd := by
  obtain ⟨ds, hds⟩ := s.engApply_only (cmd.reader b) (s.rangeSeen (cmd.reader b) b.vf core 70000 src n)
  refine ⟨ds, ?_⟩
  simp only [State.copyBytes, hread, hdst, h.ownUpdates, hds, State.rangePackets_noPod _ _ hsrc, State.rangePackets_noPod _ _ hpod,
    State.counted_noObject h.noObject]

theorem AtHead.copied_scratch (h : AtHead s core copy cmd rest b) {src dst n o : Nat} {bs : List Byte} (hsrc : noPod src n)
    (hread : s.engRead (cmd.reader b) b.vf core b 70000 src n = .ok bs) (ho : dst = 0x7FFFFF0000000000 + o)
    (hh : dst + n ≤ 0x7FFFFF0100000000) :
    let t := s.copyBytes core copy cmd b dst src n
    Stepped s t core copy cmd rest ∧ t.mem = s.mem ∧ s.rowsReceived t cmd.block [(o, bs)] := by
  have hl : 0x7FFFFF0000000000 ≤ dst := by omega
  obtain ⟨ds, ht⟩ := h.copyBytes_eq hread (s.resolveRange_scratch b.vf core 80000 .write hl hh) hsrc (noPod_scratch hl hh)
  obtain ⟨hrow, hs, hm, hc⟩ := State.writePieces_scratch { s with dies := ds } (cmd.writer b) cmd.block core dst n hl
    (State.length_engRead hread)
  rw [show dst - 0x7FFFFF0000000000 = o by omega] at hrow
  rw [ht]
  have hcore := State.core_of_cores (s := s) hc
  exact ⟨State.stepped_frame (by rw [hcore]; exact h.queue) hs fun n _ => hcore n, hm, hrow⟩

theorem State.writeMem_core (s : State) (w : Writer) (v : Nat) (bound : Bool) (a : Nat) (bs : List Byte) (n : Nat) :
    (s.writeMem w v bound a bs).core n = s.core n := by
  obtain ⟨-, -, -, -, hc, -⟩ := (s.putPhys (some v) bound a bs).noteWrite_frame w ((List.range bs.length).filterMap (fun i =>
    if s.keyOfLine (lineOf (a + i)) = none ∨ s.keyOfLine (lineOf (a + i)) = s.keyTag v then
      some (Loc.mem (a + i), (Memory.get s.mem (a + i)).toNat) else none)) ((linesOf a bs.length).map s.homeDie).eraseDups
  exact State.core_of_cores (hc.trans ((s.putPhys_frame v bound a bs).2)) n

/-- The page entries that an engine's write fills leave the cores' queues. -/
theorem State.fillTlb_core (s : State) (core : Nat) (used : List TlbEntry) :
    ((s.fillTlb core used).core core).cmdq = (s.core core).cmdq ∧ ((s.fillTlb core used).core core).copyq = (s.core core).copyq
      ∧ ∀ n, n ≠ core → (s.fillTlb core used).core n = s.core n := by
  have hd (n : Nat) : (s.fillTlb core used).core n = (s.modCore core (fun c => { c with tlb := addTlb c.tlb used })).core n :=
    State.core_of_cores (State.modDie_cores ..) n
  refine ⟨?_, ?_, fun n hn => (hd n).trans (State.modCore_core_other _ _ hn)⟩ <;> rw [hd, State.modCore_core_self]

theorem State.fillTlb_readByte (s : State) (core : Nat) (used : List TlbEntry) (key : Option Nat) (p : Nat) :
    (s.fillTlb core used).readByte key p = s.readByte key p :=
  State.readByte_congr (s.fillTlb_frame core used).1 (by simp [State.fillTlb]) key p

theorem State.fillTlb_keyTag (s : State) (core : Nat) (used : List TlbEntry) (v : Nat) :
    (s.fillTlb core used).keyTag v = s.keyTag v := by
  simp only [State.keyTag, State.chip, (s.fillTlb_others core used).2.1]

theorem AtHead.copied_memory (h : AtHead s core copy cmd rest b) {src dst n : Nat} {bs : List Byte} {y : Xlat} (hn : 0 < n)
    (hsrc : noPod src n) (hread : s.engRead (cmd.reader b) b.vf core b 70000 src n = .ok bs) (hr : regionOf dst = .virt)
    (hp : dst % 65536 + n ≤ 65536) (hy : s.translate b.vf (s.tlbOf core) 80000 dst .write = .ok y) :
    let t := s.copyBytes core copy cmd b dst src n
    Stepped s t core copy cmd rest ∧ t.blocks = s.blocks
      ∧ ∀ p, t.readByte (s.keyTag b.vf) p = storedOver [(y.pa, bs)] p (s.readByte (s.keyTag b.vf) p) := by
  obtain ⟨ds, ht⟩ := h.copyBytes_eq hread (State.resolveRange_virt hn hr hp hy) hsrc (noPod_virt hr hn hp)
  simp only [State.writePieces, List.take_of_length_le (State.length_engRead hread).le] at ht
  obtain ⟨-, hfs, hfb⟩ := ({ s with dies := ds } : State).fillTlb_frame core y.used
  obtain ⟨hcmdq, hcopyq, hother⟩ := ({ s with dies := ds } : State).fillTlb_core core y.used
  have htag := ({ s with dies := ds } : State).fillTlb_keyTag core y.used b.vf
  have hbyte := ({ s with dies := ds } : State).fillTlb_readByte core y.used (s.keyTag b.vf)
  generalize ({ s with dies := ds } : State).fillTlb core y.used = f at ht hfs hfb hcmdq hcopyq hother htag hbyte
  generalize ({ cmd.writer b with site := _ } : Writer) = w at ht
  obtain ⟨hws, hwb⟩ := f.keepsRun_writeMem w b.vf false y.pa bs
  rw [ht]
  have hqueue : (if copy then ((f.writeMem w b.vf false y.pa bs).core core).copyq
      else ((f.writeMem w b.vf false y.pa bs).core core).cmdq) = cmd :: rest := by
    rw [State.writeMem_core, hcmdq, hcopyq]
    exact h.queue
  refine ⟨State.stepped_frame hqueue (hws.trans hfs) fun n hn => (State.writeMem_core ..).trans (hother n hn), hwb.trans hfb,
    fun p => ?_⟩
  change (f.writeMem w b.vf false y.pa bs).readByte (s.keyTag b.vf) p = _
  have hw := f.readByte_writeMem w b.vf false y.pa bs p
  rw [htag] at hw
  exact hw.trans (congrArg _ (hbyte p))

/-! ### CPTILE and CPCOPY (R296, R297) -/

theorem AtHead.exec_copy (h : AtHead s core false cmd rest b) (hn : cmd.next < cmd.kind.total) {td ts : BitVec 128} {d u : Tile}
    (hk : cmd.kind = .cptile td ts) (hd : tileOf td = some d) (hu : tileOf ts = some u) :
    let r := cmd.next / rowSteps u
    let o := cmd.next % rowSteps u * 2048
    exec (.copy core) s = .next (s.copyBytes core false cmd b (d.row r + o) (u.row r + o) (min 2048 (u.rb - o))) := by
  change execCopy core s = _
  exact h.pumpStep_eq hn (by simp only [hk, hd, hu])

theorem AtHead.exec_cpcopy (h : AtHead s core true cmd rest b) (hn : cmd.next < cmd.kind.total) {a e : Word64} {len : Nat}
    (hk : cmd.kind = .cpcopy a e len) :
    let o := cmd.next * 2048
    exec (.copyQueueStep core) s = .next (s.copyBytes core true cmd b (a.toNat + o) (e.toNat + o) (min 2048 (len - o))) := by
  change execCopyQueueStep core s = _
  rw [execCopyQueueStep, h.headCmd]
  simp only [if_neg (Nat.not_le.mpr (hk ▸ hn)), hk]

theorem AtHead.exec_cptr (h : AtHead s core true cmd rest b) (hn : cmd.next < cmd.kind.total) {td ts : BitVec 128} {d u : Tile}
    (hk : cmd.kind = .cptr td ts) (hd : tileOf td = some d) (hu : tileOf ts = some u) :
    exec (.copyQueueStep core) s = .next (s.transposeRow core cmd b d u) := by
  change execCopyQueueStep core s = _
  rw [execCopyQueueStep, h.headCmd]
  simp only [if_neg (Nat.not_le.mpr (hk ▸ hn)), hk, hd, hu]

theorem AtHead.exec_cpmcast (h : AtHead s core true cmd rest b) (hn : cmd.next < cmd.kind.total) {r base : Nat} {so : Word64}
    {ts : BitVec 128} {mask : BitVec 8} {u : Tile} (hk : cmd.kind = .cpmcast r so ts mask base) (hu : tileOf ts = some u) :
    exec (.copyQueueStep core) s = .next (s.mcastStep core cmd b so u mask base) := by
  change execCopyQueueStep core s = _
  rw [execCopyQueueStep, h.headCmd]
  simp only [if_neg (Nat.not_le.mpr (hk ▸ hn)), hk, hu]

/-- A row that is read from one place of the scratchpad and stands at another. -/
theorem storedOver_copied (f g : Nat → Byte) (dst n o : Nat) :
    storedOver [(dst, (List.range n).map f)] o (g o) = if dst ≤ o ∧ o < dst + n then f (o - dst) else g o := by
  rw [storedOver_one, List.length_map, List.length_range]
  by_cases h : dst ≤ o ∧ o < dst + n
  · rw [if_pos h, if_pos h, List.getD_eq_getElem _ _ (by simp; omega), List.getElem_map, List.getElem_range]
  · rw [if_neg h, if_neg h]

theorem scratchCopies : Claims.ScratchCopies := by
  intro s core cmd rest b src dst n hsrc hdst hpos hn hclean moved
  have step {copy : Bool} (h : AtHead s core copy cmd rest b) :
      moved copy (s.copyBytes core copy cmd b (0x7FFFFF0000000000 + dst) (0x7FFFFF0000000000 + src) n) := by
    have hread := s.engRead_scratch (cmd.reader b) b.vf core b 70000 (0x7FFFFF0000000000 + src) n (Nat.le_add_right ..) hsrc
      (by simpa only [Nat.add_sub_cancel_left] using hclean)
    simp only [Nat.add_sub_cancel_left] at hread
    obtain ⟨hstep, hmem, hrow⟩ := h.copied_scratch (noPod_scratch (Nat.le_add_right ..) hsrc) hread rfl hdst
    obtain ⟨y, hy, ho, -⟩ := hrow b h.block
    exact ⟨hstep, hmem, y, hy, fun o => (ho o).trans (storedOver_copied _ _ dst n o)⟩
  constructor
  · intro td ts d u h hk hd hu r o hs ht hlen
    refine ⟨_, h.exec_copy hn hk hd hu, ?_⟩
    rw [hs, ht, ← hlen]
    exact step h
  · intro a e len h hk hs ht hlen
    refine ⟨_, h.exec_cpcopy hn hk, ?_⟩
    rw [hs, ht, ← hlen]
    exact step h

theorem memoryCopies : Claims.MemoryCopies := by
  intro s core cmd rest b src dst n bs hn hpod hpos hread moved
  have step {copy : Bool} {i : Instr} (h : AtHead s core copy cmd rest b) (hi : exec i s = .next (s.copyBytes core copy cmd b dst src n)) :
      moved copy i :=
    ⟨fun o ho hh => ⟨_, hi, h.copied_scratch hpod hread ho hh⟩,
      fun y hr hp hy => ⟨_, hi, h.copied_memory hpos hpod hread hr hp hy⟩⟩
  constructor
  · intro td ts d u h hk hd hu r o hs ht hlen
    refine step h ?_
    rw [← hs, ← ht, hlen]
    exact h.exec_copy hn hk hd hu
  · intro a e len h hk hs ht hlen
    refine step h ?_
    rw [← hs, ← ht, hlen]
    exact h.exec_cpcopy hn hk

/-! ### CPTR (R296, R298) -/

theorem State.foldl_rangePackets_noPod (s : State) (v n : Nat) (addr : Nat → Nat) (l : List Nat) (h : ∀ i ∈ l, noPod (addr i) n) :
    l.foldl (fun u i => u.rangePackets v (addr i) n) s = s := by
  induction l with
  | nil => rfl
  | cons i l ih =>
    rw [List.foldl_cons, State.rangePackets_noPod _ _ (h i List.mem_cons_self)]
    exact ih fun j hj => h j (List.mem_cons_of_mem _ hj)

/-- A row of a transpose all of whose elements can be read. -/
theorem AtHead.transposeRow_eq (h : AtHead s core copy cmd rest b) {d u : Tile} {x : Nat → List Byte}
    (hx : ∀ i, i < u.rows → noPod (u.addr i cmd.next) (u.fmt.width / 8)
      ∧ s.engRead (cmd.reader b) b.vf core b (70000 + 1024 * i) (u.addr i cmd.next) (u.fmt.width / 8) = .ok (x i)) :
    ∃ ds, s.transposeRow core cmd b d u = (({ s with dies := ds } : State).engStore (cmd.writer b) cmd.block
      (d.row cmd.next - 0x7FFFFF0000000000) ((List.range u.rows).flatMap x)).stepped core true cmd := by
  have hreads : (List.range u.rows).map (fun i =>
      s.engRead (cmd.reader b) b.vf core b (70000 + 1024 * i) (u.addr i cmd.next) (u.fmt.width / 8))
      = (List.range u.rows).map (fun i => .ok (x i)) :=
    List.map_congr_left fun i hi => (hx i (List.mem_range.mp hi)).2
  have hpackets := s.foldl_rangePackets_noPod b.vf (u.fmt.width / 8) (fun i => u.addr i cmd.next) (List.range u.rows)
    fun i hi => (hx i (List.mem_range.mp hi)).1
  obtain ⟨ds, hds⟩ := s.engApply_only (cmd.reader b) ((List.range u.rows).flatMap (fun i =>
    s.rangeSeen (cmd.reader b) b.vf core (70000 + 1024 * i) (u.addr i cmd.next) (u.fmt.width / 8)))
  refine ⟨ds, ?_⟩
  simp only [State.transposeRow, hreads, h.ownUpdates, hpackets, hds, State.counted_noObject h.noObject]
  simp [List.find?_map, List.flatMap_map, scratchOff, windowBase]

theorem transposeSteps : Claims.TransposeSteps := by
  intro s core cmd rest b td ts d u x h hk hd hu hn w hx
  have htotal : cmd.kind.total = d.rows := by simp only [CmdKind.total, hk, hd]
  obtain ⟨ds, ht⟩ := h.transposeRow_eq (d := d) hx
  refine ⟨_, h.exec_cptr (htotal ▸ hn) hk hd hu, ?_⟩
  have hrow := ({ s with dies := ds } : State).engStore_rowsReceived (cmd.writer b) cmd.block (d.row cmd.next - 0x7FFFFF0000000000)
    ((List.range u.rows).flatMap x) cmd.block
  obtain ⟨hs, hm, hc⟩ := ({ s with dies := ds } : State).engStore_frame (cmd.writer b) cmd.block (d.row cmd.next - 0x7FFFFF0000000000)
    ((List.range u.rows).flatMap x)
  rw [if_pos rfl] at hrow
  rw [ht]
  have hcore := State.core_of_cores (s := s) hc
  exact ⟨State.stepped_frame (by rw [hcore]; exact h.queue) hs fun n _ => hcore n, hm, hrow⟩

/-! ### CPMCAST (R207, R208, R299) -/

theorem testBit_foldl_two_pow (p : Nat → Bool) (n : Nat) :
    (List.range n).foldl (fun m i => if p i then m + 2 ^ i else m) 0 < 2 ^ n
      ∧ ∀ i, i < n → ((List.range n).foldl (fun m i => if p i then m + 2 ^ i else m) 0).testBit i = p i := by
  induction n with
  | zero => exact ⟨Nat.one_pos, fun i hi => absurd hi (Nat.not_lt_zero i)⟩
  | succ n ih =>
    obtain ⟨hlt, hbit⟩ := ih
    rw [List.range_succ, List.foldl_append, List.foldl_cons, List.foldl_nil]
    generalize (List.range n).foldl (fun m i => if p i then m + 2 ^ i else m) 0 = m at hlt hbit ⊢
    have htop : m.testBit n = false := Nat.testBit_lt_two_pow hlt
    cases hp : p n with
    | false =>
      refine ⟨by rw [if_neg Bool.false_ne_true]; omega, fun i hi => ?_⟩
      rw [if_neg Bool.false_ne_true]
      rcases Nat.lt_succ_iff_lt_or_eq.mp hi with hi | rfl
      · exact hbit i hi
      · rw [htop, hp]
    | true =>
      refine ⟨by rw [if_pos rfl, Nat.pow_succ]; omega, fun i hi => ?_⟩
      rw [if_pos rfl, Nat.add_comm]
      rcases Nat.lt_succ_iff_lt_or_eq.mp hi with hi | rfl
      · rw [Nat.testBit_two_pow_add_gt hi, hbit i hi]
      · rw [Nat.testBit_two_pow_add_eq, htop, hp]
        rfl

/-- Whether the block that a multicast without an object chose for a core of the cluster takes its rows (R299). -/
def State.mcastTakes (s : State) (cmd : Cmd) (dests : Table Nat) (off bytes i : Nat) : Bool :=
  match Table.find dests i with
  | none => false
  | some v => match Table.find s.blocks v with
    | none => false
    | some y => decide (off + bytes ≤ y.scratchSize) && !cmd.undelivered.getLsbD i

/-- A multicast whose destinations are chosen: those that its mask names and that do not take it are undelivered. -/
def Cmd.toDestinations (cmd : Cmd) (dests : Table Nat) (mask : BitVec 8) (takes : Nat → Bool) : Cmd :=
  { cmd with
    dests := dests
    undelivered := cmd.undelivered ||| BitVec.ofNat 8 ((List.range 8).foldl (fun m i =>
      if mask.getLsbD i && !takes i then m + 2 ^ i else m) 0) }

theorem Cmd.toDestinations_undelivered (cmd : Cmd) (dests : Table Nat) (mask : BitVec 8) (takes : Nat → Bool) {i : Nat} (hi : i < 8) :
    (cmd.toDestinations dests mask takes).undelivered.getLsbD i = (cmd.undelivered.getLsbD i || mask.getLsbD i && !takes i) := by
  rw [Cmd.toDestinations, BitVec.getLsbD_or, BitVec.getLsbD_ofNat, (testBit_foldl_two_pow (fun i => mask.getLsbD i && !takes i) 8).2 i hi,
    decide_eq_true hi, Bool.true_and]

theorem mcastObj_none {so : Word64} (h : so.toNat / 2 ^ 32 = 0xFFFFFFFF) (base : Nat) : mcastObj so base = 0xFFFFFFFF := by
  have hf : fld so 63 32 = 0xFFFFFFFF := by
    rw [fld, bits, h]
    rfl
  exact if_pos hf

theorem Block.takes_noObject (y : Block) (off bytes : Nat) : y.takes off bytes 0xFFFFFFFF = decide (off + bytes ≤ y.scratchSize) := by
  simp [Block.takes]

/-- A step of a multicast without objects whose row can be read. -/
theorem State.mcastStep_noObject {so : Word64} {mask : BitVec 8} {base : Nat} {u : Tile} {bs : List Byte}
    (hso : so.toNat / 2 ^ 32 = 0xFFFFFFFF) (hread : s.engRead (cmd.reader b) b.vf core b 70000 (u.row cmd.next) u.rb = .ok bs) :
    let off := so.toNat % 2 ^ 32 + base
    let dests := if cmd.next = 0 then s.mcastDests core b.gid mask else cmd.dests
    let takes := s.mcastTakes cmd dests off (u.rows * u.rb)
    let c := cmd.toDestinations dests mask takes
    let sent := cmd.late ++ ((List.range 8).filter takes).map (fun i => (i, off + cmd.next * u.rb, bs))
    ∃ ds,
      let d := ({ s with dies := ds } : State).deliverRows c b 0xFFFFFFFF (fun i => s.flip (71000 + i)) sent
      s.mcastStep core cmd b so u mask base = d.1.stepped core true { c with late := d.2 } := by
  obtain ⟨ds, hds⟩ := s.engApply_only (cmd.reader b) (s.rangeSeen (cmd.reader b) b.vf core 70000 (u.row cmd.next) u.rb)
  have hoff : fld so 31 0 = so.toNat % 2 ^ 32 := by simp only [fld, bits, Nat.pow_zero, Nat.div_one]
  refine ⟨ds, ?_⟩
  simp only [State.mcastStep, hread, mcastObj_none hso, hoff, hds, Block.takes_noObject, testBit_eq]
  rfl

theorem multicastSteps : Claims.MulticastSteps := by
  intro s core cmd rest b r so ts mask base u bs h hk hu hso hmask hn hread off dests takes sent
  have htotal : cmd.kind.total = u.rows := by simp only [CmdKind.total, hk, hu, if_neg hmask]
  obtain ⟨ds, ht⟩ := State.mcastStep_noObject (mask := mask) (base := base) hso hread
  obtain ⟨hleft, hrows, hs, hm, hc⟩ := ({ s with dies := ds } : State).deliverRows_noObject (cmd.toDestinations dests mask takes) b
    (fun i => s.flip (71000 + i)) sent
  have hcore := State.core_of_cores (s := s) hc
  obtain ⟨hqueue, hslices, hcores⟩ := State.stepped_frame (copy := true) (cmd := { cmd.toDestinations dests mask takes with late := _ })
    ((congrArg Core.copyq (hcore core)).trans h.queue) hs fun n _ => hcore n
  exact ⟨_, fun i => s.flip (71000 + i), _, (h.exec_cpmcast (htotal ▸ hn) hk hu).trans (congrArg _ ht), hqueue, rfl, rfl,
    fun i hi => cmd.toDestinations_undelivered dests mask takes hi, hleft, hrows, hslices, hm, hcores⟩

/-- Settles O38: a step copies the bytes that it reads, resolved piece by piece, to the pieces of its destination, and counts itself. -/
theorem copySteps : Obligations.CopySteps := ⟨scratchCopies, engineReads, memoryCopies, transposeSteps, multicastSteps⟩

end Sys2Proof.Machine
